-- ==== Sys2Proof/Word.lean ====
section
/-! DEFINITION. The word types, the index types and the sparse table of the KL-512 model. -/
namespace Sys2Proof

abbrev Byte := BitVec 8
/-- The 24-bit datapath word of an engine (09 R227, 10 R262). -/
abbrev W24 := BitVec 24

/-- Own hearth die H0 to H7 (01 R14). -/
abbrev Hearth := Fin 8
/-- Hearth as the Crown numbers it: H0 to H7 own, H8 to H15 adopted (01 R14). -/
abbrev Hearth16 := Fin 16
/-- Local channel number on a hearth (01 R14). -/
abbrev Local := Fin 64
/-- Own channel 0 to 511: the channels whose cells are this device's (01 R16). -/
abbrev OwnChan := Fin 512
/-- Channel in the Crown's numbering, 512 to 1023 adopted (01 R16). -/
abbrev Chan := Fin 1024
/-- Slot S0 to S127 (02 R43). -/
abbrev SlotNo := Fin 128
/-- Engine E0 to E1023 (01 R16). -/
abbrev EngineNo := Fin 1024
/-- Engine cluster 0 to 15 (01 R16). -/
abbrev ClusterNo := Fin 16
/-- Spyhole number on a hearth (07 R181): 0-63 SPY_I, 64-127 SPY_V, 128 SPY_FA, 129 SPY_FB. -/
abbrev SpyNo := Fin 130
/-- Works lane W0 to W3 (14 R364). -/
abbrev WLane := Fin 4
/-- Engine register number (10 R262). -/
abbrev Reg := Fin 32

/-- A table that lists only the entries unlike a default: keys strictly rise and no value equals the default.
It is plain data, so two tables with the same contents are the same list. -/
abbrev Tab (α : Type) := List (Nat × α)

end Sys2Proof
end

