-- ==== Sys2Proof/Syntax.lean ====
section
/-! DEFINITION. The commands of the KL-512 model: one constructor of `Instr` for each row of spec/opcode_table.json, with the
operands a command carries. A command is one whole step of the part (95_what_each_step_holds.md). Operands stand for what
reaches the part from outside in that step: a frame's contents, a pin's level, a converter's input, a time (log entry 3). -/
namespace Sys2Proof

/-- Upstream port of a hearth (01 R14): its hearth link (local) or its cross lane. -/
inductive Port where
  | loc | cross
deriving DecidableEq, Repr

/-- Which end of a hearth link a frame reaches (01 R20, direction "Both"). -/
inductive LinkEnd where
  | hearth | crown
deriving DecidableEq, Repr

/-- Feed of a group (08 R201). -/
inductive Feed where
  | a | b
deriving DecidableEq, Repr

/-- What a per-channel current converter meets at its input: a 14-bit code, or an input above or below its range (06 R156). -/
inductive ConvI where
  | inRange (code : BitVec 14)
  | above
  | below
deriving DecidableEq, Repr

/-- What a voltage converter meets: a 12-bit code (an input from -0.5 V to 0 V is code 0), or out of range (06 R157). -/
inductive ConvV where
  | inRange (code : BitVec 12)
  | above
  | below
deriving DecidableEq, Repr

/-- What a housekeeping conversion meets, in the form of its input (06 R163). -/
inductive ConvH where
  | inRange (code : BitVec 16)
  | above
  | below
deriving DecidableEq, Repr

/-- The inputs of one hearth tick boundary: the 32 current and 8 voltage conversions that complete (06 R154) and the levels of
the hearth's 64 gate comparators (09 R233, GATE_OFF and GATE_FULL). -/
structure TickInput where
  cur : List ConvI
  volt : List ConvV
  gateOff : BitVec 64
  gateFull : BitVec 64
deriving DecidableEq, Repr

/-- Where a spyhole's input lies against its two trip edges and two return edges (07 R184). -/
inductive Zone where
  | belowLower | lowerBand | inside | upperBand | aboveUpper
deriving DecidableEq, Repr

/-- One completed housekeeping conversion: the input met, whether a clamp detector marks it (06 R175), whether the DAC read back
changed in the acquisition phase (06 R178), and the time from aperture close to the end of the tick in ns (06 R177). -/
structure HkConv where
  value : ConvH
  clamp : Bool
  dacChanged : Bool
  aperture : BitVec 14
deriving DecidableEq, Repr

/-- An event record of 32 bytes (12 R317). -/
structure EventRec where
  source : BitVec 16
  seq : BitVec 32
  time : BitVec 64
  unc : BitVec 8
  unset : Bool
  tick : Bool
  holdover : Bool
  sampled : Bool
  cls : BitVec 2
  code : BitVec 16
  payload : BitVec 112
deriving DecidableEq, Repr

/-- An event request that an engine or the firmware sends down to a hearth (09 R238): the source it names, its code, its payload,
the TAI time of the start of the deciding tick, and the count of requests dropped before it. -/
structure EventReq where
  source : BitVec 16
  code : BitVec 16
  payload : BitVec 112
  tickTime : BitVec 64
  dropped : BitVec 32
deriving DecidableEq, Repr

/-- What the envelope registers of one channel hold (09 R239): the envelope word; the solo breaker points as pairs of a current
sample code and a trip time in µs (04 R106); the drain time in µs (04 R98); the fallback edge (04 R108). -/
structure EnvImage where
  word : BitVec 64 := 0x003FF01C80000000#64
  points : List (Nat × Nat) := []
  drainUs : Nat := 10000000
  edge : BitVec 10 := 0
deriving DecidableEq, Repr

/-- What FEED.SELECT names (17 R458). -/
inductive FeedSel where
  | auto | a | b
deriving DecidableEq, Repr

/-- One write to a hearth's profile or configuration registers (01 R20, PARAM). The spec gives these registers by the words they
hold, not by address, so a write names its word (log entry 12). -/
inductive ConfigItem where
  | spyWord (spy : SpyNo) (w : BitVec 64)
  | feedWords (w0 w1 : BitVec 64)
  | hkControl (w : BitVec 64)
  | hkEntry (i : Fin 32) (w : BitVec 64)
  | hkNtc (ws : List (BitVec 16))
  | capture (i : Fin 16) (w : BitVec 16)
  | captureRead (i : Fin 16)
  | slotWord (i : Fin 16) (w : BitVec 32)
  | cellWords (k : Local) (trip life : BitVec 64) (rshunt : BitVec 13)
  | release
  | feedSelect (sel : FeedSel)
  | feedClear (f : Feed)
  | warnOut (low : Bool)
deriving DecidableEq, Repr

/-- Why an engine is failed (09 R248). -/
inductive EngineFailCause where
  | overrun | doubleBit | checkUnit | recomputation | cluster
deriving DecidableEq, Repr

/-- What the management processor finds when it recomputes a frozen tick (09 R247). -/
inductive Recompute where
  | bothMatch | sitterDiffers | coneDiffers | bothDiffer
deriving DecidableEq, Repr

/-- Rounding mode of MUL, DIV and PWL (10 R266); code 0b11 is rejected by the checker. -/
inductive Rnd where
  | near | up | down
deriving DecidableEq, Repr

/-- Condition codes of BR and SEL (10 R268). -/
inductive Cond where
  | al | eq | ne | lt | ge | gt | le | lo | hs | vs | vc | mi | pl
deriving DecidableEq, Repr

/-- A register pair gN:gN+1 with N = 2(i+1), even from 2 to 30 (10 R262). -/
abbrev Pair := Fin 15

/-- MODE of PWL (10 R270): a linear table rounded by a mode, or a UF24 table. -/
inductive PwlMode where
  | lin (rnd : Rnd) | uf24
deriving DecidableEq, Repr

/-- Mismatch codes 0x01 to 0x04 of MISM (10 R274). -/
inductive MismCode where
  | iset | bend | fresh | digest
deriving DecidableEq, Repr

/-- Fatal errors 0x0301 to 0x030B (11 R288). -/
inductive FatalCode where
  | managementClock | timeClock | collectorClock | lockstep | managementMemory | watchdog | crossingCore (island : Fin 3)
  | overTemperature | railFault | fuseRead | collectorCheck
deriving DecidableEq, Repr

/-- A heartbeat path (13 R332). -/
inductive HbPath where
  | lane | pulse
deriving DecidableEq, Repr

/-- A lane between a hearth and a Crown, or between the two Crowns of a pair (01 R18, R24; 11 R289): lane `l` of an own hearth link, cross-out
lane Xh of an own hearth, cross-in lane Yj, the pair lane P. -/
inductive LaneId where
  | link (h : Hearth) (l : Fin 2)
  | crossOut (h : Hearth)
  | crossIn (j : Hearth)
  | pair
deriving DecidableEq, Repr

/-- Why a lane is declared failed (01 R24): loss of block lock, or three ticks without the expected frame. -/
inductive LaneFault where
  | blockLock | frames
deriving DecidableEq, Repr

/-- Payload of a HELLO frame of the pair lane (13 R335). -/
structure PairHello where
  format : BitVec 16
  side : BitVec 8
  addr : BitVec 16
  partnerAddr : BitVec 16
  ident : BitVec 64
  bookDigest : BitVec 384
deriving DecidableEq, Repr

/-- Payload of a TIMESYNC frame (14 R372). -/
structure TimeSync where
  syncNo : BitVec 16
  txPrev : BitVec 64
  rx : BitVec 64
  rxSyncNo : BitVec 16
  state : BitVec 8
  uBase16 : BitVec 16
  hops : BitVec 8
  parent : BitVec 16
deriving DecidableEq, Repr

/-- Payload of a Works HELLO frame (14 R365). -/
structure WorksHello where
  format : BitVec 16
  addr : BitVec 16
  worksId : BitVec 32
  ident : BitVec 64
  lane : BitVec 8
  asym : BitVec 8
  banked : Bool
  excluded : Bool
deriving DecidableEq, Repr

/-- The fields of a Zunak header a routed frame's receiver acts on (14 R364); `cont` marks a LEDGER entry that follows another of its frame. -/
structure WorksHdr where
  dest : BitVec 11
  src : BitVec 11
  hops : BitVec 5
  lseq : BitVec 16
  cont : Bool := false
deriving DecidableEq, Repr

/-- Why a received Zunak frame is discarded (14 R364, R365, R367, R368, R369). -/
inductive DiscardCause where
  | crc | length | reservedType | class3 | duplicate | hops30 | noRoute
deriving DecidableEq, Repr

/-- A LEDGER entry (14 R378). -/
structure LedgerEntry where
  feedId : BitVec 16
  origin : BitVec 11
  hearth : BitVec 4
  loc : BitVec 6
  ident : BitVec 16
  amount : BitVec 20
  capacity : BitVec 16
  tag : BitVec 16
  reason : BitVec 4
deriving DecidableEq, Repr

/-- A port of the host island (16 R416, R429). -/
inductive HostPort where
  | pcie | spi
deriving DecidableEq, Repr

/-- Mailbox 0 to 15 (16 R418). -/
abbrev MboxNo := Fin 16

/-- Where a Pelavazil command comes from (17 R446): a mailbox, or the forwarded queue of an origin address (14 R383). -/
inductive CmdSrc where
  | mbox (m : MboxNo)
  | fwd (origin : BitVec 11)
deriving DecidableEq, Repr

/-- What Bisque senses and finds (15 R394): the fuses sensed, the boot ROM image, the eight hearth trim arrays, and the results of
the ROM and lockstep self-tests, of PLL lock, of each trim array's CRC and of each hearth lane's training (2h + l). -/
structure BisqueIo where
  fuses : BitVec 2560
  rom : List Byte
  trims : List Byte
  selfTest : Bool
  pll : Bool
  trimOk : BitVec 8
  lanes : BitVec 16
  flashAnswers : Bool
deriving DecidableEq, Repr

/-- What Glaze measures at its commit: the offsets of the current converters in codes of 16 µV, 0 of a channel not listed (06 R159). -/
structure GlazeIo where
  offsets : List (OwnChan × BitVec 14)
deriving DecidableEq, Repr

/-- One PMBus transaction (16 R432): the bytes the master writes, none for a read, and its PEC: none sent, right, or wrong. -/
structure PmbAccess where
  write : Option (List Byte)
  pec : Option Bool
deriving DecidableEq, Repr

/-- The means of the latest whole millisecond, in the housekeeping form of each input (16 R433): for each group the
conducting feed's sense, the feed shunt, the group bus and the hearth die temperature; and the Crown die temperature. -/
structure PmbMeans where
  groups : List (BitVec 16 × BitVec 16 × BitVec 16 × BitVec 16)
  crown : BitVec 16
deriving DecidableEq, Repr

/-- An entry of EVT.RESUME (17 R465). -/
structure ResumeEntry where
  source : BitVec 16
  first : BitVec 32
deriving DecidableEq, Repr

/-- The commands: every row of spec/opcode_table.json, in its order. -/
inductive Instr where
  /-- POWER_ON (R388): All four rails come within range with RST_N high, which starts Bisque. -/
  | powerOn (strap : Fin 8)
  /-- RST_N_LOW (R486): A low of at least 500 ns on RST_N starts a device reset. -/
  | rstNLow (ns : Nat)
  /-- BAR0_RESET_WRITE (R302): A write of 0x0000_A55A to the BAR0 RESET register starts a device reset; other values are ignored. -/
  | bar0ResetWrite (port : HostPort) (value : BitVec 32)
  /-- ALWAYS_ON_POWER (R510): A hearth's always-on domain first receives power: gates are held low, the hearth enters Saggar hold with no holder, and it emits EV_HEARTH_POWER as SEQ 0. -/
  | alwaysOnPower (h : Hearth)
  /-- LOGIC_RAILS_ABSENT (R490): A rail below its hearth threshold for 2 us makes the hearth run on keep-alive, as R34 states. -/
  | logicRailsAbsent (h : Hearth)
  /-- LOGIC_RAILS_PRESENT (R490): All four rails above threshold for 100 us make the hearth treat its logic rails as present again. -/
  | logicRailsPresent (h : Hearth)
  /-- BISQUE_END (R394): Bisque completes its fuse, trim, self-test, PLL and lane checks, and Glaze starts. -/
  | bisqueEnd (io : BisqueIo)
  /-- IMAGE_START (R400): The boot ROM raises a usable image's attempt count, arms the Glaze timer and starts the image. -/
  | imageStart
  /-- GLAZE_TIMER_EXPIRY (R400): The 60 ms Glaze timer expires before Draw: the management processor is reset and the other image is tried. -/
  | glazeTimerExpiry
  /-- GLAZE_BOOK_COMMIT (R406): At Glaze the firmware commits the Kiln Book copy named by BOOK_CURRENT, or the other copy, or nothing. -/
  | glazeBookCommit (io : GlazeIo)
  /-- DRAW (R396): The firmware sets the release flag of every accepted hearth, and the device enters Draw. -/
  | draw
  /-- FUSE_RECHECK (R391): Every 1 s the fuse block rechecks its CRC groups; a failure is fatal. -/
  | fuseRecheck (fuses : BitVec 2560)
  /-- WATCHDOG_EXPIRED (R288): The firmware fails to service its 10 ms watchdog, which is a fatal error. -/
  | watchdogExpired
  /-- CROWN_RAIL_FAULT (R288): A Crown rail outside plus or minus 10 % for 10 us raises a fatal error. -/
  | crownRailFault
  /-- CROWN_OVER_TEMPERATURE (R288): The Crown die above 125 C for 10 us raises a fatal error. -/
  | crownOverTemperature
  /-- ERROR_DETECTED (R284): An error pin or hearth error record reaches the collector, which sets FSW bits and writes or merges a shard. -/
  | errorDetected (code : BitVec 16) (src : BitVec 16) (atNs : BitVec 64) (detail : BitVec 96) (clears : Bool)
  /-- FATAL_ERROR (R300): A fatal error enters Cracked: frames and heartbeats stop, engines stop, and mailboxes answer ST_DEV_CRACKED. -/
  | fatalError (code : FatalCode) (detail : BitVec 96)
  /-- CRASH_SECTOR_COPY (R301): The collector's copy of the FSW and shards into the flash crash sector completes. -/
  | crashSectorCopy
  /-- HEARTH_FAULT_DETECTED (R299): A hearth detects a double-bit or duplicate-copy failure and enters hearth fault, moving its channels to Held. -/
  | hearthFaultDetected (h : Hearth) (failed : BitVec 64) (detail : BitVec 32)
  /-- REACTION_SHADOW_END (R295): A reaction's shadow period ends, and later errors open their own shards. -/
  | reactionShadowEnd (idx : Nat)
  /-- FAULT_EVENT_WINDOW_END (R293): At the end of a 1 ms window the collector places the held-back EV_FAULT or EV_FAULT_CLEAR of a shard. -/
  | faultEventWindowEnd
  /-- LANE_FAILED (R24): A hearth lane loses block lock or misses frames for three ticks and is declared failed. -/
  | laneFailed (lane : LaneId) (why : LaneFault)
  /-- LANE_FAILOVER_COMPLETE (R25): Traffic flows on the standby lane, and the hearth replays its unacknowledged frames. -/
  | laneFailoverComplete (h : Hearth)
  /-- LANE_RESET_ATTEMPT (R303): Every 1 ms after a lane failure, up to 20 times, the collector attempts a lane reset. -/
  | laneResetAttempt (lane : LaneId)
  /-- LANE_RETRAINED (R303): A lane reset attempt completes with block lock, and the lane becomes standby. -/
  | laneRetrained (lane : LaneId)
  /-- SAGGAR_HOLD_ENTRY (R27): The owner port has been silent for 5 us, so the hearth enters Saggar hold and its channels enter Held. -/
  | saggarHoldEntry (h : Hearth)
  /-- HEARTH_TICK (R21): At each hearth tick boundary, conversions complete and the hearth sends its SAMPLE, STATE and EVENT frames. -/
  | hearthTick (h : Hearth) (io : TickInput)
  /-- TIME_ISLAND_TICK (R30): The time island generates a tick at each TAI multiple of 250 ns and advances the tick number. -/
  | timeIslandTick
  /-- CLUSTER_TICK (R230): A cluster tick runs the engine schedules, port exchange, mirror write and check-unit read. -/
  | clusterTick (n : ClusterNo)
  /-- PARAMETER_BANK_SWAP (R31): A requested parameter-bank swap takes effect at the next cluster tick edge. -/
  | parameterBankSwap (n : ClusterNo)
  /-- SAMPLE_FRAME (R22): The Crown ingress receives a SAMPLE frame and presents its samples, or a late replay, to the clusters. -/
  | sampleFrame (h : Hearth16) (tick : BitVec 12) (blocks : List (BitVec 64)) (late : Bool)
  /-- STATE_FRAME (R70): The Crown receives a STATE frame of observed states and hearth-state block; the Sitter adopts hearth-decided changes. -/
  | stateFrame (h : Hearth16) (entries : List (BitVec 16)) (hstate : BitVec 64)
  /-- EVENT_FRAME (R324): The Crown receives event records and admits each new record to the log in sequence. -/
  | eventFrame (h : Hearth16) (records : List EventRec)
  /-- GAP_HOLD_TIMEOUT (R324): Missing sequence numbers are not covered within 2 ms, so the Crown writes EV_GAP with cause 0x04. -/
  | gapHoldTimeout (src : BitVec 16)
  /-- TICK_FRAME (R32): A hearth receives a TICK frame and aligns its tick and time counter, ending any holdover with EV_TIME_RESYNC. -/
  | tickFrame (h : Hearth) (port : Port) (lane : Fin 2) (tai : BitVec 64) (tick : BitVec 64)
  /-- ACK_FRAME (R21): An ACK frame drains the replay buffer up to the acknowledged sequence number. -/
  | ackFrame (side : LinkEnd) (h : Hearth16) (port : Port) (seq : BitVec 32)
  /-- IDLE_FRAME (R27): An IDLE frame keeps a lane trained and carries no control. -/
  | idleFrame (side : LinkEnd) (h : Hearth16) (port : Port)
  /-- FRAME_CRC_FAIL (R19): A frame whose CRC or length fails is discarded and counted as a corrected error. -/
  | frameCrcFail (side : LinkEnd) (h : Hearth16) (port : Port) (lane : Fin 2)
  /-- RESERVED_FRAME_TYPE (R20): A frame of a reserved type is discarded and counted as a corrected error. -/
  | reservedFrameType (side : LinkEnd) (h : Hearth16) (port : Port) (lane : Fin 2) (code : Fin 6)
  /-- CMD_KEEP (R235): Command word KEEP: the hearth applies the Damper fields under the envelope without changing state. -/
  | cmdKeep (h : Hearth) (port : Port) (k : Local) (lo : BitVec 12) (tick : BitVec 12) (cont : Bool)
  /-- CMD_READY (R240): Command word READY requests Seated or Cooling to Ready, refused before MIN_OFF. -/
  | cmdReady (h : Hearth) (port : Port) (k : Local) (lo : BitVec 12) (tick : BitVec 12) (cont : Bool)
  /-- CMD_RAMP (R240): Command word RAMP requests Ready to Ramping, admitted up to the ramp allowance. -/
  | cmdRamp (h : Hearth) (port : Port) (k : Local) (lo : BitVec 12) (tick : BitVec 12) (cont : Bool)
  /-- CMD_FULL (R240): Command word FULL requests Ramping to Full and needs GATE_FULL. -/
  | cmdFull (h : Hearth) (port : Port) (k : Local) (lo : BitVec 12) (tick : BitVec 12) (cont : Bool)
  /-- CMD_GOOD (R240): Command word GOOD requests Full to Good and asserts PG. -/
  | cmdGood (h : Hearth) (port : Port) (k : Local) (lo : BitVec 12) (tick : BitVec 12) (cont : Bool)
  /-- CMD_COOL (R235): Command word COOL requests Tripped to Cooling. -/
  | cmdCool (h : Hearth) (port : Port) (k : Local) (lo : BitVec 12) (tick : BitVec 12) (cont : Bool)
  /-- CMD_LOCK (R235): Command word LOCK requests Tripped to Locked. -/
  | cmdLock (h : Hearth) (port : Port) (k : Local) (lo : BitVec 12) (tick : BitVec 12) (cont : Bool)
  /-- CMD_OFF (R66): Command word OFF moves the channel to Off with a hard or soft turn-off. -/
  | cmdOff (h : Hearth) (port : Port) (k : Local) (lo : BitVec 12) (tick : BitVec 12) (cont : Bool)
  /-- CMD_ON (R235): Command word ON moves an Off channel to Seated. -/
  | cmdOn (h : Hearth) (port : Port) (k : Local) (lo : BitVec 12) (tick : BitVec 12) (cont : Bool)
  /-- CMD_RESET (R69): Command word RESET performs a channel reset. -/
  | cmdReset (h : Hearth) (port : Port) (k : Local) (lo : BitVec 12) (tick : BitVec 12) (cont : Bool)
  /-- CMD_TRIP (R236): Command word TRIP trips the channel and latches the named causes in the trip register. -/
  | cmdTrip (h : Hearth) (port : Port) (k : Local) (lo : BitVec 12) (tick : BitVec 12) (cont : Bool)
  /-- CMD_PG_DROP (R57): Command word PG_DROP deasserts PG on a Good channel and holds it low. -/
  | cmdPgDrop (h : Hearth) (port : Port) (k : Local) (lo : BitVec 12) (tick : BitVec 12) (cont : Bool)
  /-- CMD_PG_RAISE (R57): Command word PG_RAISE asserts PG again after a PG_DROP. -/
  | cmdPgRaise (h : Hearth) (port : Port) (k : Local) (lo : BitVec 12) (tick : BitVec 12) (cont : Bool)
  /-- CMD_RESERVED (R240): A command word with a reserved code is refused. -/
  | cmdReserved (h : Hearth) (port : Port) (k : Local) (code : Fin 3) (lo : BitVec 12) (tick : BitVec 12) (cont : Bool)
  /-- PARAM_ENVELOPE_WRITE (R242): A PARAM write to envelope registers is applied, or held until the channel is in an admitted state. -/
  | paramEnvelopeWrite (h : Hearth) (port : Port) (k : Local) (env : EnvImage)
  /-- PARAM_IG_REG_WRITE (R508): A PARAM write sets a cell's IG_REG ahead of that tick's CMD frame. -/
  | paramIgRegWrite (h : Hearth) (port : Port) (k : Local) (ig : BitVec 8)
  /-- PARAM_EVENT_REQUEST (R238): A PARAM write to the event-request register makes the hearth number and stamp an engine event. -/
  | paramEventRequest (h : Hearth) (port : Port) (req : EventReq)
  /-- PARAM_HEARTH_RESET (R303): A write to the hearth reset register performs a hearth reset. -/
  | paramHearthReset (h : Hearth) (port : Port)
  /-- PARAM_CONFIG_WRITE (R20): A PARAM write sets other hearth profile or configuration registers. -/
  | paramConfigWrite (h : Hearth) (port : Port) (item : ConfigItem)
  /-- CLAIM_FRAME (R348): A hearth judges a CLAIM frame and admits it, renews it or refuses it. -/
  | claimFrame (h : Hearth) (port : Port) (num : BitVec 32) (claimant : BitVec 32)
  /-- CLAIM_ACCEPTANCE (R349): At the end of the fourth tick after judging, the claim is accepted, Saggar hold ends and Held channels leave Held. -/
  | claimAcceptance (h : Hearth)
  /-- RELEASE_FRAME (R350): A RELEASE from the holder with the claim in force ends the hold, and the hearth enters Saggar hold. -/
  | releaseFrame (h : Hearth) (port : Port) (num : BitVec 32) (lane : Fin 2)
  /-- SEAT_CHANGE (R46): A change of a slot's PRES or SEAT input restarts its debounce. -/
  | seatChange (n : SlotNo) (pres : Bool) (seat : Bool) (off : Fin 250)
  /-- DEBOUNCE_COMPLETE (R46): The slot's debounce completes, and its Vacant channels enter Seated with EV_SEAT. -/
  | debounceComplete (n : SlotNo) (off : Fin 250)
  /-- SLOT_REMOVAL (R64): SEAT or PRES is low for 1 us, so the slot's gates discharge and its channels enter Vacant with EV_UNSEAT. -/
  | slotRemoval (n : SlotNo)
  /-- CONSENT_EVALUATION (R51): The firmware evaluates consent for a Seated channel and moves it to Ready or stamps EV_CONSENT_WAIT. -/
  | consentEvaluation (c : Chan)
  /-- START_DELAY_ELAPSED (R52): START_DELAY since entry to Ready elapses, so a start condition becomes true. -/
  | startDelayElapsed (c : Chan)
  /-- FAST_TRIP (R94): The shunt voltage exceeds the fast-trip DAC for FT_FILTER, so the hearth latches a fast trip and pulls the gate down. -/
  | fastTrip (c : OwnChan) (off : Fin 250)
  /-- GATE_OFF_CONFIRMATION (R113): The gate falls below 1.0 V after a trip, so the Sitter moves the channel to Cooling or Locked. -/
  | gateOffConfirmation (c : OwnChan) (off : Fin 250)
  /-- GATE_DISCHARGE_FAILURE (R62): No gate-off confirmation within 10 us of a trip, so the channel is Locked. -/
  | gateDischargeFailure (c : OwnChan)
  /-- PASS_TRANSISTOR_SHORT (R61): The current stays above PSHORT for 8 ticks after gate-off, so the channel is Locked. -/
  | passTransistorShort (c : OwnChan)
  /-- RAMP_DEADLINE (R86): The ramp deadline expires without the Full condition, and the channel trips. -/
  | rampDeadline (c : Chan)
  /-- PROGRESS_WINDOW_END (R87): A 1 ms progress window ends; the fourth consecutive failing window trips the channel. -/
  | progressWindowEnd (c : Chan)
  /-- SOAK_DURATION_END (R84): A SOAK segment's DURATION ends, and the next segment or ENH follows. -/
  | soakDurationEnd (c : Chan)
  /-- PG_DWELL_COMPLETE (R54): The power-good dwell completes, so the channel enters Good or PG is raised. -/
  | pgDwellComplete (c : Chan)
  /-- GATE_HOLD_CHECK (R58): VGS below VGS_FULL for 4 ticks trips a Full or Good channel. -/
  | gateHoldCheck (c : Chan)
  /-- BREAKER_TRIP (R102): The breaker accumulator reaches 1, and the channel trips on the breaker curve. -/
  | breakerTrip (c : Chan)
  /-- FALLBACK_BREAKER_TRIP (R106): The hearth's fallback accumulator F reaches 1 on a Held channel, so the gate discharges. -/
  | fallbackBreakerTrip (c : OwnChan)
  /-- BACKOFF_END (R113): The back-off of a Cooling channel elapses, so the channel may return to Ready. -/
  | backoffEnd (c : Chan)
  /-- DECAY_INTERVAL (R114): A DECAY interval in Good ends, and RETRY_COUNT falls by 1. -/
  | decayInterval (c : Chan)
  /-- STATE_SKEW (R36): Commanded and observed state disagree for 20 us, so state skew is raised and the command is resent. -/
  | stateSkew (c : Chan)
  /-- UV_TIME_REACHED (R189): The under-voltage timer runs for UV_TIME, so EV_SPY_UV and output under-voltage are raised. -/
  | uvTimeReached (c : Chan)
  /-- TWIN_RETURN (R121): After 4,000 qualifying ticks, the twins return to the shared curve together. -/
  | twinReturn (t : Fin 512)
  /-- TWIN_OPEN (R123): A Good twin is below the floor for 4,000 ticks, so twin open is reported. -/
  | twinOpen (c : Chan)
  /-- CONE_UPDATE (R132): The Cone integrates its poles, anchors, computes the dose and headroom, and writes the headroom word. -/
  | coneUpdate (c : Chan)
  /-- PREBEND_WARN_TIME (R145): The pre-bend timer runs for WARN_TIME, so BEND_WARN is set. -/
  | prebendWarnTime (c : Chan)
  /-- SOA_PERSISTENCE (R144): The current exceeds IMAX for SOA_HOLD updates, so BEND_SOA is set. -/
  | soaPersistence (c : Chan)
  /-- TSNS_TIMEOUT (R137): No TSNS sample for 10 ms raises a TSNS fault. -/
  | tsnsTimeout (c : Chan)
  /-- TSNS_FAULT_END (R137): The eighth consecutive valid TSNS sample ends the TSNS fault. -/
  | tsnsFaultEnd (c : Chan)
  /-- CONE_DIVERGENCE (R136): The residual exceeds ERR_LIMIT on 8 consecutive samples, so cone divergence is raised. -/
  | coneDivergence (c : Chan)
  /-- CONE_WAIT (R147): A Ready channel held 1 s by headroom alone stamps EV_CONE_WAIT. -/
  | coneWait (c : Chan)
  /-- CHECK_UNIT_FAILURE (R244): Two consecutive bad or missing check words fail the engine. -/
  | checkUnitFailure (e : EngineNo)
  /-- ENGINE_FAILED (R248): An engine fails by overrun, double-bit error, check unit, recomputation or cluster failure. -/
  | engineFailed (e : EngineNo) (cause : EngineFailCause)
  /-- ENGINE_TAKEOVER (R250): The host engine takes over at the first non-multiple-of-4 tick and replays the catch-up ticks. -/
  | engineTakeover (c : Chan)
  /-- UNHOSTED_REHOST (R252): An unhosted channel is re-hosted when a host engine becomes free. -/
  | unhostedRehost (c : Chan)
  /-- RECOMPUTATION_COMPLETE (R247): The firmware finishes recomputing a mismatching tick and fails the disagreeing engine or records a corrected error. -/
  | recomputationComplete (c : Chan) (verdict : Recompute)
  /-- CLUSTER_CLOCK_LOSS (R33): A cluster loses PLL lock or its tick acknowledgement for two ticks, which fails all 64 of its engines. -/
  | clusterClockLoss (n : ClusterNo)
  /-- PACKING_EDGE (R254): At the first multiple-of-4 tick after the request, every own channel starts packed service. -/
  | packingEdge
  /-- UNPACKING_EDGE (R256): At the first multiple-of-4 tick after all adopted hearths are released, the engines return to unpacked service. -/
  | unpackingEdge
  /-- NOP (R269): Engine instruction NOP does nothing. -/
  | opNop (e : EngineNo)
  /-- END (R231): Engine instruction END ends the engine's tick. -/
  | opEnd (e : EngineNo)
  /-- LDI (R269): Engine instruction LDI loads a sign-extended immediate. -/
  | opLdi (e : EngineNo) (rd : Reg) (imm : BitVec 16)
  /-- LUI (R269): Engine instruction LUI sets the upper 8 bits of a register. -/
  | opLui (e : EngineNo) (rd : Reg) (imm : BitVec 8)
  /-- MOV (R269): Engine instruction MOV copies a register. -/
  | opMov (e : EngineNo) (rd : Reg) (ra : Reg)
  /-- INU (R269): Engine instruction INU reads an input port word, zero-extended. -/
  | opInu (e : EngineNo) (rd : Reg) (port : Fin 128)
  /-- INS (R269): Engine instruction INS reads an input port word, sign-extended. -/
  | opIns (e : EngineNo) (rd : Reg) (port : Fin 128)
  /-- OUT (R276): Engine instruction OUT writes an output port word; EVT_CODE writes enqueue event requests. -/
  | opOut (e : EngineNo) (port : Fin 128) (rs : Reg)
  /-- LDP (R263): Engine instruction LDP reads the active parameter bank. -/
  | opLdp (e : EngineNo) (rd : Reg) (ra : Reg) (addr : Fin 512)
  /-- LDS (R263): Engine instruction LDS reads state memory. -/
  | opLds (e : EngineNo) (rd : Reg) (ra : Reg) (addr : Fin 512)
  /-- STS (R263): Engine instruction STS writes state memory. -/
  | opSts (e : EngineNo) (rs : Reg) (ra : Reg) (addr : Fin 512)
  /-- LDM (R263): Engine instruction LDM reads the peer mirror slot. -/
  | opLdm (e : EngineNo) (rd : Reg) (addr : Fin 512)
  /-- ADD (R269): Engine instruction ADD adds two registers. -/
  | opAdd (e : EngineNo) (rd : Reg) (ra : Reg) (rb : Reg)
  /-- SUB (R269): Engine instruction SUB subtracts two registers. -/
  | opSub (e : EngineNo) (rd : Reg) (ra : Reg) (rb : Reg)
  /-- ADDS (R269): Engine instruction ADDS adds with saturation. -/
  | opAdds (e : EngineNo) (rd : Reg) (ra : Reg) (rb : Reg)
  /-- SUBS (R269): Engine instruction SUBS subtracts with saturation. -/
  | opSubs (e : EngineNo) (rd : Reg) (ra : Reg) (rb : Reg)
  /-- ADDI (R269): Engine instruction ADDI adds an immediate. -/
  | opAddi (e : EngineNo) (rd : Reg) (ra : Reg) (imm : BitVec 16)
  /-- MIN (R269): Engine instruction MIN takes the signed minimum. -/
  | opMin (e : EngineNo) (rd : Reg) (ra : Reg) (rb : Reg)
  /-- MAX (R269): Engine instruction MAX takes the signed maximum. -/
  | opMax (e : EngineNo) (rd : Reg) (ra : Reg) (rb : Reg)
  /-- ABS (R269): Engine instruction ABS takes the absolute value. -/
  | opAbs (e : EngineNo) (rd : Reg) (ra : Reg)
  /-- MUL (R266): Engine instruction MUL multiplies with a shift and rounding mode. -/
  | opMul (e : EngineNo) (rd : Reg) (ra : Reg) (rb : Reg) (shift : Fin 32) (rnd : Rnd)
  /-- DIV (R269): Engine instruction DIV divides over 8 slots and saturates on a non-positive divisor. -/
  | opDiv (e : EngineNo) (rd : Reg) (ra : Reg) (rb : Reg) (shift : Fin 32) (rnd : Rnd)
  /-- SHL (R269): Engine instruction SHL shifts left. -/
  | opShl (e : EngineNo) (rd : Reg) (ra : Reg) (sh : Fin 24)
  /-- SHR (R269): Engine instruction SHR shifts right arithmetically. -/
  | opShr (e : EngineNo) (rd : Reg) (ra : Reg) (sh : Fin 32)
  /-- SHRU (R269): Engine instruction SHRU shifts right logically. -/
  | opShru (e : EngineNo) (rd : Reg) (ra : Reg) (sh : Fin 32)
  /-- AND (R269): Engine instruction AND forms the bitwise and. -/
  | opAnd (e : EngineNo) (rd : Reg) (ra : Reg) (rb : Reg)
  /-- OR (R269): Engine instruction OR forms the bitwise or. -/
  | opOr (e : EngineNo) (rd : Reg) (ra : Reg) (rb : Reg)
  /-- XOR (R269): Engine instruction XOR forms the bitwise exclusive or. -/
  | opXor (e : EngineNo) (rd : Reg) (ra : Reg) (rb : Reg)
  /-- ANDI (R269): Engine instruction ANDI ands with an immediate. -/
  | opAndi (e : EngineNo) (rd : Reg) (ra : Reg) (imm : BitVec 16)
  /-- CMP (R269): Engine instruction CMP sets flags from a subtraction. -/
  | opCmp (e : EngineNo) (ra : Reg) (rb : Reg)
  /-- CMPI (R269): Engine instruction CMPI compares with an immediate. -/
  | opCmpi (e : EngineNo) (ra : Reg) (imm : BitVec 16)
  /-- SEL (R269): Engine instruction SEL selects a register by condition. -/
  | opSel (e : EngineNo) (rd : Reg) (ra : Reg) (rb : Reg) (cond : Cond)
  /-- ADDW (R269): Engine instruction ADDW adds a 48-bit pair and a register. -/
  | opAddw (e : EngineNo) (rd : Pair) (ra : Pair) (rb : Reg)
  /-- SUBW (R269): Engine instruction SUBW subtracts 48-bit pairs. -/
  | opSubw (e : EngineNo) (rd : Pair) (ra : Pair) (rb : Pair)
  /-- SUBWZ (R269): Engine instruction SUBWZ subtracts 48-bit pairs, stopping at zero. -/
  | opSubwz (e : EngineNo) (rd : Pair) (ra : Pair) (rb : Pair)
  /-- ACCF (R271): Engine instruction ACCF adds a UF24 increment to the accumulator, rounded up. -/
  | opAccf (e : EngineNo) (rd : Pair) (ra : Pair) (rb : Reg)
  /-- NARW (R269): Engine instruction NARW narrows a pair to 24 bits by a variable shift. -/
  | opNarw (e : EngineNo) (rd : Reg) (ra : Pair) (rb : Reg)
  /-- CMPW (R269): Engine instruction CMPW compares 48-bit pairs, unsigned. -/
  | opCmpw (e : EngineNo) (ra : Pair) (rb : Pair)
  /-- PWL (R270): Engine instruction PWL performs an eight-point piecewise-linear lookup. -/
  | opPwl (e : EngineNo) (rd : Reg) (ra : Reg) (rb : Reg) (base : BitVec 8) (mode : PwlMode)
  /-- PACC (R272): Engine instruction PACC adds a tick's power into the pole records. -/
  | opPacc (e : EngineNo) (ra : Reg) (rb : Reg)
  /-- POLE (R273): Engine instruction POLE integrates one due pole of the thermal network. -/
  | opPole (e : EngineNo) (i : Fin 3)
  /-- CHECK (R274): Engine instruction CHECK writes the check word from the carry-region CRC. -/
  | opCheck (e : EngineNo)
  /-- PEERCHK (R274): Engine instruction PEERCHK compares the peer's mirror digest. -/
  | opPeerchk (e : EngineNo)
  /-- MISM (R247): Engine instruction MISM reports a mismatch, and the check units freeze both roles' data. -/
  | opMism (e : EngineNo) (code : MismCode)
  /-- BR (R261): Engine instruction BR branches forward on a condition. -/
  | opBr (e : EngineNo) (cond : Cond) (target : Fin 8192)
  /-- BBS (R269): Engine instruction BBS branches when a register bit is set. -/
  | opBbs (e : EngineNo) (ra : Reg) (bit : Fin 24) (target : Fin 8192)
  /-- BBC (R269): Engine instruction BBC branches when a register bit is clear. -/
  | opBbc (e : EngineNo) (ra : Reg) (bit : Fin 24) (target : Fin 8192)
  /-- RLOOP (R275): Engine instruction RLOOP replays its body once per catch-up tick. -/
  | opRloop (e : EngineNo) (target : Fin 8192)
  /-- RESERVED_OPCODE (R277): An engine issues a reserved opcode and fails as for a double-bit error. -/
  | reservedOpcode (e : EngineNo) (word : BitVec 32)
  /-- HK_TIMER_TRIGGER (R167): The housekeeping PERIOD timer triggers a pass, or becomes pending while a pass runs. -/
  | hkTimerTrigger (h : Hearth)
  /-- HK_START_EVENT_TRIGGER (R172): START_DELAY after START_EVT, a sequence trigger starts or queues a pass. -/
  | hkStartEventTrigger (h : Hearth)
  /-- HK_URGENT_TRIGGER (R173): DELAY after its gate event, an urgent entry converts at once, aborting an acquisition or waiting for a conversion. -/
  | hkUrgentTrigger (h : Hearth) (entry : Fin 32) (past : Bool)
  /-- HK_CONVERSION_COMPLETE (R177): A housekeeping conversion completes, and its record travels in block 12 to its owner. -/
  | hkConversionComplete (h : Hearth) (conv : HkConv)
  /-- HK_PASS_END (R172): A pass ends, and a pending trigger starts the next pass with OVERRUN. -/
  | hkPassEnd (h : Hearth)
  /-- SPYHOLE_CROSSING (R185): A spyhole comparator crosses an edge and starts its filter; a feed trip-edge crossing raises a warning. -/
  | spyholeCrossing (h : Hearth) (spy : SpyNo) (zone : Zone) (off : Fin 250)
  /-- SPYHOLE_FILTER_COMPLETE (R185): An input stays beyond an edge for FILTER, so the spyhole changes state, captures and stamps EV_SPY. -/
  | spyholeFilterComplete (h : Hearth) (spy : SpyNo) (off : Fin 250)
  /-- SPYHOLE_START_COMPARE (R186): 1.5 us after a spyhole start, the input is compared and the spyhole resolves or stays UNRESOLVED. -/
  | spyholeStartCompare (h : Hearth) (spy : SpyNo) (zone : Zone) (off : Fin 250)
  /-- SAMPLED_TICK (R195): Every 31.25 us in sampled operation, the hearth compares the spyholes and the fallback edges, possibly waking the device. -/
  | sampledTick (h : Hearth) (zones : List Zone) (above : BitVec 64) (off : Fin 250)
  /-- SPY_THROTTLE_WINDOW_END (R191): At the end of a 1 ms window with suppressed changes, EV_SPY_THROTTLED is stamped. -/
  | spyThrottleWindowEnd (h : Hearth)
  /-- CONFIRM_EXPIRY (R208): A feed excursion lasting CONFIRM becomes a loss, and the group breaks if a feed is eligible. -/
  | confirmExpiry (h : Hearth)
  /-- REVERSE_CURRENT (R208): Reverse current above REV_LEVEL for 200 ns is a loss of the conducting feed. -/
  | reverseCurrent (h : Hearth)
  /-- PATH_DROP (R222): The path-drop condition holds, the loss bars the feed, and feed selector open is reported. -/
  | pathDrop (h : Hearth)
  /-- WARN_LEAD_END (R211): A planned handover's WARN_LEAD ends, and the outgoing selector's pull-down starts. -/
  | warnLeadEnd (h : Hearth)
  /-- SELECTOR_BREAK (R211): The outgoing selector's gate falls below 1.0 V: EV_FEED_BREAK is stamped and the shadow starts. -/
  | selectorBreak (h : Hearth) (off : Fin 250)
  /-- SELECTOR_DISCHARGE_TIMEOUT (R213): No break within 2 us of the pull-down, so feed selector discharge failure is reported. -/
  | selectorDischargeTimeout (h : Hearth)
  /-- GAP_EXPIRY (R211): GAP after the break, the group makes on the best eligible feed or enters NONE. -/
  | gapExpiry (h : Hearth) (off : Fin 250)
  /-- FEED_FIRST_MAKE (R207): After commit, the group leaves IDLE by making on a feed whose spyhole is INSIDE. -/
  | feedFirstMake (h : Hearth) (off : Fin 250)
  /-- FEED_MAKE_FROM_NONE (R211): A feed becomes eligible in NONE, so the group makes on it. -/
  | feedMakeFromNone (h : Hearth) (off : Fin 250)
  /-- RECHARGE_END (R212): The incoming feed is within 0.5 V of GBUS, so the selector is driven to its clamp. -/
  | rechargeEnd (h : Hearth) (off : Fin 250)
  /-- SHADOW_END (R214): The handover shadow ends and EV_FEED_SETTLED is stamped. -/
  | shadowEnd (h : Hearth) (off : Fin 250)
  /-- RECHARGE_OVERTIME (R214): The recharge still runs 1 ms after the break, so recharge overtime is reported. -/
  | rechargeOvertime (h : Hearth)
  /-- WARNING_RELEASE (R218): A warning reaches its release time, and WARN_N and EV_WARN_END follow. -/
  | warningRelease (h : Hearth) (ident : BitVec 16)
  /-- RETURN_DWELL (R210): The preferred feed has been INSIDE for RETURN x 10 ms, so a planned handover back starts. -/
  | returnDwell (h : Hearth)
  /-- OFF_STATE_SHORT (R221): An off selector's common source stays above 5 V for 1 ms, so feed selector short is reported. -/
  | offStateShort (h : Hearth) (feed : Feed) (high : Bool) (volts : BitVec 32)
  /-- PPS_EDGE (R309): A 1PPS edge is captured and accepted or ignored; it may apply an armed TIME.SET or reach LOCAL. -/
  | ppsEdge (atNs : BitVec 64)
  /-- PPS_ABSENT (R309): No accepted edge for 3 s raises time input lost. -/
  | ppsAbsent
  /-- F10M_LOSS (R309): No 10 MHz edge for 10 us raises time input lost, and the PLL falls back to REFCLK. -/
  | f10mLoss
  /-- TIME_STEP (R311): A correction over 1 us is stepped at a tick boundary and EV_TIME_STEP is stamped. -/
  | timeStep
  /-- AUDIT_SEAL (R329): At each multiple of AUDIT_PERIOD, the Crown admits EV_AUDIT_SEAL. -/
  | auditSeal
  /-- SEAL_SIGNED (R330): The seal block is formed and signed with the attestation key. -/
  | sealSigned
  /-- HEARTBEAT_EMIT (R336): Every 2 us the heartbeat generator sends a HEARTBEAT frame and a pulse. -/
  | heartbeatEmit
  /-- HEARTBEAT_FRAME (R337): A CRC-valid HEARTBEAT frame keeps the pair-lane path live. -/
  | heartbeatFrame (count : BitVec 32) (dstate : BitVec 8) (pstate : BitVec 8) (own : BitVec 8) (partner : BitVec 8)
  /-- HEARTBEAT_PULSE (R337): A valid heartbeat pulse keeps the pulse-pair path live. -/
  | heartbeatPulse (widthNs : Nat)
  /-- HEARTBEAT_PATH_SILENT (R337): One path is silent for 16 us, so heartbeat path lost is raised. -/
  | heartbeatPathSilent (path : HbPath)
  /-- PARTNER_SILENT (R352): Both paths are silent, so the device packs, loads partner state and claims the partner hearths. -/
  | partnerSilent
  /-- ADOPTION_CLAIM_TIMEOUT (R352): A claim not admitted within 10 us ends that hearth's adoption; if none is admitted, the device unpacks into ISOLATED. -/
  | adoptionClaimTimeout (j : Hearth)
  /-- CHECKPOINT_TICK (R339): In the tick with n mod 2000 = 250j, the device snapshots hearth Hj and sends it in CHECKPOINT frames. -/
  | checkpointTick (j : Hearth)
  /-- CHECKPOINT_FRAME (R342): The receiver collects checkpoint parts and keeps the passing checkpoint or stamps EV_CHECKPOINT_MISS. -/
  | checkpointFrame (j : Hearth) (part : Nat) (count : Nat) (bytes : List Byte)
  /-- PAIR_HELLO (R334): A pair-lane HELLO frame is compared with the pair word, moving the pair to SEEKING, MISMATCH or toward PAIRED. -/
  | pairHello (hello : PairHello)
  /-- BOOK_FRAME (R334): A BOOK frame carries part of the partner's Kiln Book for checking. -/
  | bookFrame (offset : BitVec 32) (bytes : List Byte)
  /-- NOTICE_BANKED (R338): The partner announces Banked, so only the pulse pair is judged. -/
  | noticeBanked
  /-- NOTICE_AWAKE (R338): The partner announces wake, so the pair lane is judged again. -/
  | noticeAwake
  /-- NOTICE_READY (R357): The returning device is ready, so the adopter stops frames and releases the hearth. -/
  | noticeReady (j : Hearth) (claim : BitVec 32)
  /-- NOTICE_RELEASED (R357): The adopter has released a hearth, so the returning device claims it. -/
  | noticeReleased (j : Hearth) (claim : BitVec 32)
  /-- NOTICE_ADOPT_REQUEST (R359): The partner requests adoption of a hearth in Saggar hold, and this device adopts it. -/
  | noticeAdoptRequest (j : Hearth)
  /-- PAIR_RESET_FRAME (R360): A RESET frame with this device's identifier starts a device reset. -/
  | pairResetFrame (ident : BitVec 64)
  /-- RETURN_DELAY_EXPIRY (R356): RETURN_DELAY after RETURNING, with RETURN_AUTO set, hand-back starts. -/
  | returnDelayExpiry
  /-- RESET_DELAY_EXPIRY (R360): RESET_DELAY after adoption, with AUTO_RESET set and both paths silent, a RESET frame is sent. -/
  | resetDelayExpiry
  /-- OWN_HEARTH_SAGGAR_NOTICE (R359): An own hearth enters Saggar hold while the device is not Cracked, so the firmware sends NOTICE ADOPT_REQUEST. -/
  | ownHearthSaggarNotice (h : Hearth)
  /-- TIMESYNC (R373): A TIMESYNC frame yields an offset exchange, and the servo corrects or enters or leaves WORKS. -/
  | timesync (lane : WLane) (ts : TimeSync) (arrive : BitVec 64)
  /-- TIMESYNC_SEND (R372): Every 62.5 us a TIMESYNC frame is sent on each UP lane. -/
  | timesyncSend (lane : WLane) (depart : BitVec 64)
  /-- WORKS_HELLO (R366): A Works HELLO frame advances the lane toward UP, DORMANT or MISMATCH. -/
  | worksHello (lane : WLane) (hello : WorksHello)
  /-- WORKS_BLOCK_LOCK (R366): A training Works lane gains block lock, enters HELLO and sends HELLO every 10 us. -/
  | worksBlockLock (lane : WLane)
  /-- WORKS_LINK_FAILED (R366): An UP lane loses lock or receives no frame for 10 us; routes are withdrawn and frames requeued. -/
  | worksLinkFailed (lane : WLane)
  /-- WORKS_LANE_RETRAIN (R366): Every 1 ms after FAILED, the lane re-enters TRAINING. -/
  | worksLaneRetrain (lane : WLane)
  /-- WORKS_LANE_UP_TIMEOUT (R366): A lane not UP within 1 s enters FAILED. -/
  | worksLaneUpTimeout (lane : WLane)
  /-- ROUTE (R369): A ROUTE frame updates the routing table from the neighbour's distances. -/
  | route (lane : WLane) (lseq : BitVec 16) (dist : List (BitVec 5))
  /-- ROUTE_PERIODIC (R369): Every 1 ms a ROUTE is sent on each UP lane. -/
  | routePeriodic
  /-- ADDR (R370): An ADDR frame updates the address table and is flooded on when newer. -/
  | addr (lane : WLane) (lseq : BitVec 16) (addr : BitVec 16) (ident : BitVec 64) (count : BitVec 32) (hops : Fin 32)
  /-- ADDR_FLOOD (R370): Every 100 ms a member floods its ADDR frame. -/
  | addrFlood
  /-- ZUNAK_ACK (R367): A Zunak ACK frees acknowledged frames from the retransmit buffer. -/
  | zunakAck (lane : WLane) (lseq : BitVec 16)
  /-- RETRANSMIT_TIMEOUT (R367): A frame unacknowledged for 20 us is sent again. -/
  | retransmitTimeout (lane : WLane)
  /-- ZUNAK_FRAME_DISCARD (R364): A Zunak frame with a bad CRC or length, a reserved type or 30 hops is discarded and counted. -/
  | zunakFrameDiscard (lane : WLane) (why : DiscardCause)
  /-- ALLOC_REQ (R379): A keeper grants or refuses an allocation request against capacity. -/
  | allocReq (lane : WLane) (hdr : WorksHdr) (entry : LedgerEntry)
  /-- GRANT (R377): A GRANT passes the requester's ledger check and completes consent. -/
  | grant (lane : WLane) (hdr : WorksHdr) (entry : LedgerEntry)
  /-- REFUSE (R377): A REFUSE fails the requester's ledger check. -/
  | refuse (lane : WLane) (hdr : WorksHdr) (entry : LedgerEntry)
  /-- LEDGER_RELEASE (R379): A keeper subtracts a released allocation. -/
  | ledgerRelease (lane : WLane) (hdr : WorksHdr) (entry : LedgerEntry)
  /-- ANNOUNCE (R379): A keeper adds a hold for an announced handover. -/
  | announce (lane : WLane) (hdr : WorksHdr) (entry : LedgerEntry)
  /-- CONFIRM (R379): Keepers turn a hold into allocation and subtract it from the outgoing feed. -/
  | confirm (lane : WLane) (hdr : WorksHdr) (entry : LedgerEntry)
  /-- RETRACT (R379): A keeper removes the hold with that identifier. -/
  | retract (lane : WLane) (hdr : WorksHdr) (entry : LedgerEntry)
  /-- MOVE (R382): Keepers reassign an origin hearth's allocations to the adopter or returning device. -/
  | move (lane : WLane) (hdr : WorksHdr) (entry : LedgerEntry)
  /-- STANDING (R379): A keeper replaces the allocation total of an origin hearth. -/
  | standing (lane : WLane) (hdr : WorksHdr) (entry : LedgerEntry)
  /-- FREED (R379): A FREED notice counts as a ledger change, so consent is evaluated again. -/
  | freed (lane : WLane) (hdr : WorksHdr) (entry : LedgerEntry)
  /-- LEDGER_ANNOUNCE_SEND (R380): After a warning is confirmed with a handover, the firmware sends ANNOUNCE and then CONFIRM or RETRACT. -/
  | ledgerAnnounceSend (h : Hearth)
  /-- LEDGER_HOLD_LAPSE (R381): A hold unconfirmed for 1 ms lapses with EV_LEDGER_LAPSE. -/
  | ledgerHoldLapse (feedId : BitVec 16) (origin : BitVec 11) (hearth : BitVec 4) (ident : BitVec 16)
  /-- ALLOC_NO_ANSWER (R377): No answer to ALLOC_REQ within 2 ms fails the ledger check. -/
  | allocNoAnswer (tag : BitVec 16)
  /-- STANDING_SEND (R377): Every 10 ms STANDING is sent to both keepers. -/
  | standingSend
  /-- KEEPER_UNREACHABLE (R377): KEEPER unreachable for 1 ms, so requests go to KEEPER2. -/
  | keeperUnreachable (feedId : BitVec 16)
  /-- COMMAND_FRAME (R383): A forwarded COMMAND is executed in tag order, or rejected, and answered. -/
  | commandFrame (lane : WLane) (hdr : WorksHdr) (tag : BitVec 32) (bytes : List Byte)
  /-- FORWARD_TAG_WAIT (R383): A missing forwarded tag awaited for 1 ms is skipped. -/
  | forwardTagWait (origin : BitVec 11)
  /-- RESPONSE_FRAME (R383): A RESPONSE completes the matching WORKS.SEND. -/
  | responseFrame (lane : WLane) (hdr : WorksHdr) (tag : BitVec 32) (status : BitVec 16) (bytes : List Byte)
  /-- WORKS_SEND_TIMEOUT (R383): No RESPONSE within 10 ms completes WORKS.SEND with ST_WORKS_TIMEOUT. -/
  | worksSendTimeout (tag : BitVec 32)
  /-- WORKS_EVENT_FRAME (R384): Subscribed event records are delivered, with duplicates discarded and gaps stamped. -/
  | worksEventFrame (lane : WLane) (hdr : WorksHdr) (first : BitVec 64) (records : List EventRec)
  /-- SUBSCRIPTION_UNREACHABLE (R384): The origin is unreachable for 1 s, so the subscription ends. -/
  | subscriptionUnreachable (addr : BitVec 11)
  /-- HOST_LOST (R415): DL_Down, PERST_N low or host clock loss stops DMA and MSI-X and completes running mailbox commands. -/
  | hostLost (cause : Fin 3)
  /-- HOST_RETURN (R415): The link is in L0 with MSE and BME set, so host lost clears. -/
  | hostReturn
  /-- MBOX_LOCK_WRITE (R419): A write to LOCK takes or releases a mailbox. -/
  | mboxLockWrite (port : HostPort) (m : MboxNo) (value : BitVec 2)
  /-- MBOX_DOORBELL (R420): A doorbell copies the request and queues the command, or sets OVERRUN. -/
  | mboxDoorbell (port : HostPort) (m : MboxNo) (length : BitVec 16) (seq : BitVec 16) (request : List Byte)
  /-- COMMAND_START (R447): A queued command becomes first in its mailbox and starts executing, or waits HELD until Draw or wake. -/
  | commandStart (src : CmdSrc)
  /-- COMMAND_DONE (R420): A command ends: RESPONSE, DONE_SEQ and MBOX_DONE are written and its interrupt is signalled. -/
  | commandDone (m : MboxNo)
  /-- WAKE_CAUSE_READ (R417): A read of WAKE_CAUSE returns the wake causes and clears them. -/
  | wakeCauseRead (port : HostPort)
  /-- TIME_NOW_READ (R417): A read of TIME_NOW latches the high word for the next read. -/
  | timeNowRead (port : HostPort)
  /-- RING_ENABLE_WRITE (R426): A write of ENABLE starts ring delivery, using any resume set, or stops it after the current entry. -/
  | ringEnableWrite (port : HostPort) (value : BitVec 32)
  /-- CONS_WRITE (R426): The host advances CONS and frees ring room; a write beyond PROD is ignored. -/
  | consWrite (port : HostPort) (value : BitVec 32)
  /-- EVTW_ENTRY_READ (R431): A read including byte 0x10BF advances EVTW_INDEX. -/
  | evtwEntryRead (port : HostPort) (last : Bool)
  /-- REGISTER_WRITE (R416): A write to any other register changes its writable fields, as the access codes state. -/
  | registerWrite (port : HostPort) (offset : BitVec 18) (value : BitVec 32)
  /-- RING_DELIVERY (R426): While room exists, log records are written to the ring and PROD is written back. -/
  | ringDelivery
  /-- COALESCE_TIMER (R427): COAL_TIME after the first unsignalled entry, MSI-X vector 0 is sent. -/
  | coalesceTimer
  /-- SPI_READ (R429): SPI instruction READ reads BAR0 on one data line. -/
  | spiRead (addr : BitVec 24) (len : Nat)
  /-- SPI_WRITE (R429): SPI instruction WRITE writes BAR0 registers and mailboxes. -/
  | spiWrite (addr : BitVec 24) (bytes : List Byte)
  /-- SPI_QUAD_READ (R429): SPI instruction QUAD READ reads BAR0 on four lines. -/
  | spiQuadRead (addr : BitVec 24) (len : Nat)
  /-- SPI_QUAD_WRITE (R429): SPI instruction QUAD WRITE writes BAR0 on four lines. -/
  | spiQuadWrite (addr : BitVec 24) (bytes : List Byte)
  /-- SPI_READ_STATUS (R428): SPI instruction READ STATUS returns the status byte and clears ERROR. -/
  | spiReadStatus
  /-- SPI_UNKNOWN_INSTRUCTION (R428): An unlisted SPI instruction is ignored and sets ERROR. -/
  | spiUnknownInstruction (code : Byte)
  /-- PAGE (R432): PMBus PAGE selects the device or a feed-group page. -/
  | page (acc : PmbAccess)
  /-- CLEAR_FAULTS (R434): PMBus CLEAR_FAULTS clears the page's status latches. -/
  | clearFaults (acc : PmbAccess)
  /-- CAPABILITY (R433): PMBus CAPABILITY returns 0xB0. -/
  | capability (acc : PmbAccess)
  /-- VOUT_MODE (R433): PMBus VOUT_MODE returns 0x17. -/
  | voutMode (acc : PmbAccess)
  /-- STATUS_BYTE (R434): PMBus STATUS_BYTE returns the low byte of STATUS_WORD. -/
  | statusByte (acc : PmbAccess)
  /-- STATUS_WORD (R434): PMBus STATUS_WORD returns the page's summary status. -/
  | statusWord (acc : PmbAccess)
  /-- STATUS_INPUT (R434): PMBus STATUS_INPUT returns the feed input status. -/
  | statusInput (acc : PmbAccess)
  /-- STATUS_TEMPERATURE (R434): PMBus STATUS_TEMPERATURE returns the thermal status. -/
  | statusTemperature (acc : PmbAccess)
  /-- STATUS_CML (R433): PMBus STATUS_CML returns the communication fault bits. -/
  | statusCml (acc : PmbAccess)
  /-- STATUS_MFR_SPECIFIC (R434): PMBus STATUS_MFR_SPECIFIC returns device and hearth conditions. -/
  | statusMfrSpecific (acc : PmbAccess)
  /-- READ_VIN (R433): PMBus READ_VIN returns the conducting feed's voltage. -/
  | readVin (acc : PmbAccess)
  /-- READ_IIN (R433): PMBus READ_IIN returns the feed shunt current. -/
  | readIin (acc : PmbAccess)
  /-- READ_VOUT (R433): PMBus READ_VOUT returns the group bus voltage. -/
  | readVout (acc : PmbAccess)
  /-- READ_TEMPERATURE_1 (R433): PMBus READ_TEMPERATURE_1 returns the Crown or hearth die temperature. -/
  | readTemperature1 (acc : PmbAccess)
  /-- READ_TEMPERATURE_2 (R433): PMBus READ_TEMPERATURE_2 returns the highest cone dose. -/
  | readTemperature2 (acc : PmbAccess)
  /-- READ_PIN (R433): PMBus READ_PIN returns the input power. -/
  | readPin (acc : PmbAccess)
  /-- PMBUS_REVISION (R433): PMBus PMBUS_REVISION returns 0x33. -/
  | pmbusRevision (acc : PmbAccess)
  /-- MFR_ID (R433): PMBus MFR_ID returns AELHEIP. -/
  | mfrId (acc : PmbAccess)
  /-- MFR_MODEL (R433): PMBus MFR_MODEL returns KL-512. -/
  | mfrModel (acc : PmbAccess)
  /-- MFR_REVISION (R433): PMBus MFR_REVISION returns A1. -/
  | mfrRevision (acc : PmbAccess)
  /-- MFR_SERIAL (R433): PMBus MFR_SERIAL returns DEVICE_ID. -/
  | mfrSerial (acc : PmbAccess)
  /-- MFR_CHANNEL_STATE (R433): PMBus MFR_CHANNEL_STATE returns the group's channel states. -/
  | mfrChannelState (acc : PmbAccess)
  /-- MFR_FSW (R433): PMBus MFR_FSW returns the live FSW. -/
  | mfrFsw (acc : PmbAccess)
  /-- MFR_BOOT_STATUS (R433): PMBus MFR_BOOT_STATUS returns the boot status word. -/
  | mfrBootStatus (acc : PmbAccess)
  /-- MFR_FEED_STATUS (R433): PMBus MFR_FEED_STATUS returns the feed status word. -/
  | mfrFeedStatus (acc : PmbAccess)
  /-- PMBUS_UNSUPPORTED_COMMAND (R433): An unsupported PMBus command or page is NACKed and sets STATUS_CML. -/
  | pmbusUnsupportedCommand (code : Byte) (acc : PmbAccess)
  /-- SMBUS_ALERT_RESPONSE (R432): The target answers the Alert Response Address while PMB_ALERT_N is low. -/
  | smbusAlertResponse
  /-- PMBUS_READ_UPDATE (R433): Every 1 ms the READ_ values are updated from the last millisecond's mean. -/
  | pmbusReadUpdate (means : PmbMeans)
  /-- IDCODE (R487): JTAG IDCODE selects the identification register. -/
  | idcode
  /-- SAMPLE_PRELOAD (R487): JTAG SAMPLE/PRELOAD samples the boundary register. -/
  | samplePreload (pins : BitVec 256)
  /-- EXTEST (R487): JTAG EXTEST drives the boundary only while RST_N is low. -/
  | extest
  /-- CLAMP (R487): JTAG CLAMP holds the boundary only while RST_N is low. -/
  | clamp
  /-- HIGHZ (R487): JTAG HIGHZ floats the boundary only while RST_N is low. -/
  | highz
  /-- BYPASS (R487): JTAG BYPASS selects the bypass register. -/
  | bypass (tdi : Bool)
  /-- AELHEIP_DEBUG (R487): A JTAG debug instruction acts as BYPASS when DEBUG_LOCK is set. -/
  | aelheipDebug (tdi : Bool)
  /-- TEST_LOGIC_RESET (R487): TRST_N low or five TMS-high TCK edges reset the test logic. -/
  | testLogicReset
  /-- BANKED_REACHED (R435): Banked entry completes within 200 us, and DEV_STATE reads Banked. -/
  | bankedReached
  /-- WAKE_CAUSE (R437): A first wake cause latches WAKE_CAUSE and WAKE_TIME and starts the fixed wake sequence. -/
  | wakeCause (cause : Fin 7) (h : Hearth)
  /-- WAKE_COMPLETE (R438): 40 us after the first cause, wake completes, vector 2 is sent and held doorbells execute. -/
  | wakeComplete
  /-- DEV_SUMMARY (R450): DEV.SUMMARY takes a snapshot or returns parts of it. -/
  | devSummary (src : CmdSrc) (part : BitVec 8)
  /-- DEV_FENCE (R446): DEV.FENCE orders commands across all mailboxes. -/
  | devFence (src : CmdSrc)
  /-- DEV_RESET (R449): DEV.RESET starts a device reset 10 us after its response, unless unprotected. -/
  | devReset (src : CmdSrc) (key : BitVec 32) (force : Bool)
  /-- DEV_BANK (R435): DEV.BANK requests Banked and runs the entry steps. -/
  | devBank (src : CmdSrc)
  /-- CHAN_ON (R455): CHAN.ON sets the host consent flag and posts ON to the Sitter. -/
  | chanOn (src : CmdSrc) (c : Chan)
  /-- CHAN_OFF (R454): CHAN.OFF posts OFF to the Sitter and clears consent. -/
  | chanOff (src : CmdSrc) (c : Chan)
  /-- CHAN_RESET (R69): CHAN.RESET posts a channel reset. -/
  | chanReset (src : CmdSrc) (c : Chan)
  /-- CHAN_STATUS (R456): CHAN.STATUS returns the channel and Cone blocks. -/
  | chanStatus (src : CmdSrc) (c : Chan)
  /-- SLOT_STATUS (R458): SLOT.STATUS returns the slot's inputs and state. -/
  | slotStatus (src : CmdSrc) (slot : BitVec 8)
  /-- FEED_STATUS (R458): FEED.STATUS returns the group's feed status. -/
  | feedStatus (src : CmdSrc) (g : Hearth16)
  /-- FEED_SELECT (R210): FEED.SELECT forces a feed as a planned handover or lifts the force. -/
  | feedSelect (src : CmdSrc) (g : Hearth16) (target : FeedSel)
  /-- FEED_CLEAR (R223): FEED.CLEAR clears a feed bar when the off-state comparator reads low. -/
  | feedClear (src : CmdSrc) (g : Hearth16) (feed : Feed)
  /-- FEED_WARN (R458): FEED.WARN drives a firmware-owned WARN_N ball. -/
  | feedWarn (src : CmdSrc) (g : Hearth16) (low : Bool)
  /-- TWIN_STATUS (R458): TWIN.STATUS returns a twin pair's state. -/
  | twinStatus (src : CmdSrc) (pair : Fin 512)
  /-- SCHED_WRITE (R459): SCHED.WRITE writes the custom schedule region of flash. -/
  | schedWrite (src : CmdSrc) (offset : BitVec 32) (data : List Byte) (ok : Bool)
  /-- SCHED_CHECK (R459): SCHED.CHECK runs the budget checker on a schedule object. -/
  | schedCheck (src : CmdSrc) (id : BitVec 8) (offset : BitVec 32) (length : BitVec 32) (digest : BitVec 384)
  /-- SCHED_LOAD (R459): SCHED.LOAD checks, loads and measures a schedule, swapping it in at a bank swap. -/
  | schedLoad (src : CmdSrc) (id : BitVec 8) (offset : BitVec 32) (length : BitVec 32) (digest : BitVec 384)
  /-- SCHED_STATUS (R459): SCHED.STATUS returns a loaded schedule's data. -/
  | schedStatus (src : CmdSrc) (id : BitVec 8)
  /-- CONE_STATUS (R462): CONE.STATUS returns the Cone block and clears PEAK_D. -/
  | coneStatus (src : CmdSrc) (c : Chan)
  /-- HKC_STATUS (R172): HKC.STATUS returns and clears the overrun and abort counters. -/
  | hkcStatus (src : CmdSrc) (h : Hearth16)
  /-- HKC_SET (R180): HKC.SET changes a Host-owned housekeeping entry from the next pass. -/
  | hkcSet (src : CmdSrc) (h : Hearth16) (entry : Fin 32) (word : BitVec 64)
  /-- HKC_READ (R462): HKC.READ returns an entry's latest record. -/
  | hkcRead (src : CmdSrc) (h : Hearth16) (entry : Fin 32)
  /-- HKC_TRIGGER (R462): HKC.TRIGGER raises gate event 0x9. -/
  | hkcTrigger (src : CmdSrc) (h : Hearth16)
  /-- SPY_SET (R187): SPY.SET changes a spyhole's thresholds or enable at a tick boundary. -/
  | spySet (src : CmdSrc) (h : Hearth16) (spy : SpyNo) (word : BitVec 64)
  /-- SPY_CAPTURE (R194): SPY.CAPTURE reads and clears a capture slot at a tick boundary. -/
  | spyCapture (src : CmdSrc) (h : Hearth16) (slot : Fin 16)
  /-- SPY_STATUS (R462): SPY.STATUS returns a spyhole's state and settings. -/
  | spyStatus (src : CmdSrc) (h : Hearth16) (spy : SpyNo)
  /-- FAULT_STATUS (R463): FAULT.STATUS returns the FSW and the collector counters. -/
  | faultStatus (src : CmdSrc)
  /-- FAULT_CLEAR (R290): FAULT.CLEAR writes W1C bits of the FSW. -/
  | faultClear (src : CmdSrc) (mask : BitVec 64)
  /-- FAULT_READ (R463): FAULT.READ returns shards matching a filter. -/
  | faultRead (src : CmdSrc) (first : BitVec 16) (count : Fin 32) (filter : Fin 3)
  /-- FAULT_ACK (R292): FAULT.ACK acknowledges a shard that is not present. -/
  | faultAck (src : CmdSrc) (shard : BitVec 16)
  /-- FAULT_RESET (R305): FAULT.RESET resets a hearth, a lane or a cluster. -/
  | faultReset (src : CmdSrc) (source : BitVec 16) (force : Bool)
  /-- FAULT_CRASH (R301): FAULT.CRASH reads the crash sector and may mark it read. -/
  | faultCrash (src : CmdSrc) (mark : Bool)
  /-- FAULT_COUNT (R463): FAULT.COUNT returns a source's corrected counters. -/
  | faultCount (src : CmdSrc) (source : BitVec 16)
  /-- TIME_SET (R310): TIME.SET applies a TAI time now or arms it for the next accepted 1PPS edge. -/
  | timeSet (src : CmdSrc) (tai : BitVec 64) (unc : BitVec 32)
  /-- TIME_STATUS (R465): TIME.STATUS returns the time base state. -/
  | timeStatus (src : CmdSrc)
  /-- EVT_RESUME (R466): EVT.RESUME builds the resume set for the next ring enable. -/
  | evtResume (src : CmdSrc) (fin : Bool) (dflt : Fin 3) (entries : List ResumeEntry)
  /-- EVT_AUDIT (R329): EVT.AUDIT returns a signed seal block. -/
  | evtAudit (src : CmdSrc) (sealId : BitVec 32)
  /-- EVT_STATUS (R465): EVT.STATUS returns the log indices. -/
  | evtStatus (src : CmdSrc)
  /-- PART_STATUS (R467): PART.STATUS returns the pair state and checkpoint ages. -/
  | partStatus (src : CmdSrc)
  /-- PART_RETURN (R468): PART.RETURN starts the hand-back of every held hearth. -/
  | partReturn (src : CmdSrc)
  /-- PART_TRANSFER (R359): PART.TRANSFER hands own hearths to the partner. -/
  | partTransfer (src : CmdSrc) (mask : BitVec 8)
  /-- PART_RESET (R360): PART.RESET sends a RESET frame to a silent partner. -/
  | partReset (src : CmdSrc)
  /-- WORKS_STATUS (R467): WORKS.STATUS returns the lane and role state. -/
  | worksStatus (src : CmdSrc)
  /-- WORKS_SEND (R383): WORKS.SEND forwards a command to another device. -/
  | worksSend (src : CmdSrc) (dest : BitVec 16) (inner : List Byte)
  /-- WORKS_SUBSCRIBE (R384): WORKS.SUBSCRIBE subscribes to another device's events. -/
  | worksSubscribe (src : CmdSrc) (origin : BitVec 16) (fromIdx : BitVec 64)
  /-- WORKS_UNSUBSCRIBE (R384): WORKS.UNSUBSCRIBE ends a subscription. -/
  | worksUnsubscribe (src : CmdSrc) (origin : BitVec 16)
  /-- WORKS_LEDGER (R467): WORKS.LEDGER returns a kept feed's commitment. -/
  | worksLedger (src : CmdSrc) (feedId : BitVec 16)
  /-- BOOK_STAGE (R469): BOOK.STAGE writes data into the staging buffer. -/
  | bookStage (src : CmdSrc) (offset : BitVec 32) (fresh : Bool) (data : List Byte)
  /-- BOOK_COMMIT (R407): BOOK.COMMIT checks, writes and applies the staged Kiln Book. -/
  | bookCommit (src : CmdSrc) (length : BitVec 32) (flashOk : Bool)
  /-- BOOK_READ (R469): BOOK.READ returns bytes of the Book in force or the staged Book. -/
  | bookRead (src : CmdSrc) (copy : Fin 2) (offset : BitVec 32) (length : BitVec 16)
  /-- BOOK_STATUS (R469): BOOK.STATUS returns the Book's generation and digest. -/
  | bookStatus (src : CmdSrc)
  /-- FW_WRITE (R412): FW.WRITE writes the image that is not running. -/
  | fwWrite (src : CmdSrc) (offset : BitVec 32) (data : List Byte) (ok : Bool)
  /-- FW_VERIFY (R412): FW.VERIFY checks that image's signature, digest and SVN. -/
  | fwVerify (src : CmdSrc)
  /-- FW_ACTIVATE (R412): FW.ACTIVATE makes the verified image ACTIVE, optionally with a reset. -/
  | fwActivate (src : CmdSrc) (reset : Bool) (force : Bool)
  /-- FW_RATCHET (R412): FW.RATCHET raises the rollback counter to the running SVN. -/
  | fwRatchet (src : CmdSrc) (force : Bool)
  /-- FW_STATUS (R469): FW.STATUS returns image and boot status. -/
  | fwStatus (src : CmdSrc)
  /-- ATTEST_IDENTITY (R410): ATTEST.IDENTITY returns DEVICE_ID, the public key and ENDORSE. -/
  | attestIdentity (src : CmdSrc)
  /-- ATTEST_REPORT (R411): ATTEST.REPORT returns a signed measurement report. -/
  | attestReport (src : CmdSrc) (nonce : BitVec 384)
  /-- ATTEST_EXTEND (R408): ATTEST.EXTEND extends measurement slot 7. -/
  | attestExtend (src : CmdSrc) (value : BitVec 384)
  /-- ATTEST_LOG (R409): ATTEST.LOG returns measurement log entries. -/
  | attestLog (src : CmdSrc) (first : BitVec 16) (count : Fin 41)
  /-- ERROR_CLEARED (R292): An error's condition stops holding, so the collector sets its shard's PRESENT to 0, writes CLEARED_AT and places EV_FAULT_CLEAR. -/
  | errorCleared (code : BitVec 16) (src : BitVec 16) (atNs : BitVec 64)
  /-- F10M_RETURN (R309): Edges return on the 10 MHz input, so the time PLL is disciplined again and time input lost clears. -/
  | f10mReturn
  /-- RING_DMA_ERROR (R424): A ring or write-back memory write is not completed, so DMA_ERROR is set, the ring enters STOPPED and vector 0 is sent. -/
  | ringDmaError
  /-- PCIE_POWER_STATE_CHANGE (R415): The host moves the function to D3hot or back to D0, which stops or resumes BAR0 access, DMA and MSI-X with the device state kept. -/
  | pciePowerStateChange (d3 : Bool)
  /-- RST_N_RELEASE (R487): RST_N rises, which ends the reset so the stages start and moves the test logic from EXTEST, CLAMP or HIGHZ to BYPASS. -/
  | rstNRelease
  /-- WORKS_HELLO_SEND (R366): Every 10 us a Works lane in HELLO state sends a HELLO frame. -/
  | worksHelloSend (lane : WLane)
  /-- WORKS_IDLE_SEND (R366): An UP Works lane that has sent no frame for 1 us sends an IDLE frame. -/
  | worksIdleSend (lane : WLane)
  /-- SLOT_LED_PHASE (R199): The always-on oscillator ends a blink phase, and the PG ball that drives a slot LED changes between lit and dark. -/
  | slotLedPhase (n : SlotNo)
  /-- DEV_RESET_DELAY_EXPIRY (R449): 10 us after the DEV.RESET response is written, the device reset of R302 starts. -/
  | devResetDelayExpiry
deriving DecidableEq, Repr

end Sys2Proof
end

