-- ==== Sys2Proof/Config.lean ====
section
/-! DEFINITION. What the spec leaves open: free values, and the functions the spec names without giving their arithmetic. -/
namespace Sys2Proof.Config

/-- A value the spec leaves open: the `n`-th one the machine meets (log entry 1). Nothing can be proved of it. -/
opaque freeValue : Nat → Nat

/-- SHA-384 of a byte string, 48 bytes as one number (12 R328, 15 R402; log entry 10). -/
opaque sha384 : List Byte → BitVec 384

/-- The public key of the attestation secret in the fuses, 96 bytes (15 R410; log entry 10). -/
opaque attestPublic : BitVec 384 → List Byte

/-- The ECDSA P-384 signature r and s of a digest under a secret (12 R329, 15 R411; log entry 10). -/
opaque ecdsaSign : BitVec 384 → BitVec 384 → BitVec 384 × BitVec 384

/-- ECDSA P-384 verification of r and s over a digest under a public key (15 R399, R405; log entry 10). -/
opaque ecdsaVerify : List Byte → BitVec 384 → BitVec 384 → BitVec 384 → Bool

/-- The DAC code that a raw read-back of a DAC stands for, through the transfer trimmed into the fuses, which the spec does not
give (06 R178; log entry 16). -/
opaque readback : Nat → Nat → Nat

/-- Words that a form of the library schedule fills in a schedule store: 0 Sitter, 1 Cone, 2 packed (09 R229; log entry 17). -/
opaque libWords : Nat → Nat

/-- ENTRY and REPLAY of a form of the library schedule (10 R264; log entry 17). -/
opaque libEntry : Nat → Nat × Nat

/-- Parameter words 0x0C to 0x0F of the library schedule, from the life word (17 R461; log entry 17). -/
opaque lifeParam : BitVec 64 → Nat → BitVec 24

/-- Aelheip's manufacturer identity in IDCODE, 11 bits (18 R487; log entry 1). -/
opaque makerId : Nat

end Sys2Proof.Config
end

