-- ==== Sys2Proof/Machine/Bits.lean ====
section
/-! DEFINITION. Bit fields, byte order, exact rounding, saturation and CRC-32C: the arithmetic every family shares. -/
namespace Sys2Proof.Machine
open Sys2Proof

/-- The field of `n` bits from bit `lo` of a number. -/
def bitsOf (w lo n : Nat) : Nat := w / 2 ^ lo % 2 ^ n

/-- The field of `n` bits from bit `lo` of a word. -/
def fld {k : Nat} (w : BitVec k) (lo n : Nat) : Nat := bitsOf w.toNat lo n

/-- Bit `i` of a word as a truth value. -/
def bitOf {k : Nat} (w : BitVec k) (i : Nat) : Bool := w.getLsbD i

/-- The word with the field of `n` bits from bit `lo` replaced. -/
def putFld {k : Nat} (w : BitVec k) (lo n v : Nat) : BitVec k :=
  let m : BitVec k := BitVec.ofNat k ((2 ^ n - 1) * 2 ^ lo)
  (w &&& ~~~m) ||| (BitVec.ofNat k (v % 2 ^ n * 2 ^ lo))

/-- One bit as a number. -/
def b2n (b : Bool) : Nat := if b then 1 else 0

/-- A set of bits as a number: bit `i` of the answer is the `i`-th element. -/
def packBits : List Bool → Nat
  | [] => 0
  | b :: r => b2n b + 2 * packBits r

/-- The lowest `n` bytes of a number, least significant first: the byte order of every block of bytes (01 R13). -/
def toLe : Nat → Nat → List Byte
  | 0, _ => []
  | n + 1, v => BitVec.ofNat 8 v :: toLe n (v / 256)

/-- The number that bytes spell, least significant first. -/
def ofLe : List Byte → Nat
  | [] => 0
  | b :: r => b.toNat + 256 * ofLe r

/-- `n` bytes from offset `off`; what lies beyond the list reads as 0. -/
def sliceBytes (bs : List Byte) (off n : Nat) : List Byte :=
  let t := (bs.drop off).take n
  t ++ List.replicate (n - t.length) 0

/-- The little-endian number in `n` bytes from offset `off`. -/
def leAt (bs : List Byte) (off n : Nat) : Nat := ofLe (sliceBytes bs off n)

/-- Integer division rounded towards minus infinity (divisor above 0). -/
def floorDiv (a : Int) (b : Nat) : Int := Int.fdiv a b

/-- Integer division rounded towards plus infinity (divisor above 0). -/
def ceilDiv (a : Int) (b : Nat) : Int := -(Int.fdiv (-a) b)

/-- Integer division to nearest, ties away from zero (10 R266, NEAR). -/
def nearDiv (a : Int) (b : Nat) : Int :=
  if 0 ≤ a then Int.fdiv (2 * a + b) (2 * b) else -(Int.fdiv (-(2 * a) + b) (2 * b))

/-- Division of natural numbers rounded up. -/
def ceilNat (a b : Nat) : Nat := if b = 0 then 0 else (a + b - 1) / b

/-- The exact quotient rounded by a mode (10 R266). -/
def roundDiv (m : Rnd) (a : Int) (b : Nat) : Int :=
  match m with
  | .near => nearDiv a b
  | .up => ceilDiv a b
  | .down => floorDiv a b

/-- `a` bounded to the range `lo` to `hi`. -/
def clampInt (lo hi a : Int) : Int := if a < lo then lo else if hi < a then hi else a

/-- Saturation to 24 bits of two's complement (10 R266). -/
def sat24 (a : Int) : Int := clampInt (-8388608) 8388607 a

/-- Whether saturation to 24 bits changes the value. -/
def over24 (a : Int) : Bool := a < -8388608 || 8388607 < a

/-- Fields in order from bit 0, each given by its width and value (01 R20; 12 R319). -/
def payNat : List (Nat × Nat) → Nat
  | [] => 0
  | (w, v) :: r => v % 2 ^ w + 2 ^ w * payNat r

/-- The lowest `n` blocks of 64 bits of a number, least significant first. -/
def toBlocks : Nat → Nat → List (BitVec 64)
  | 0, _ => []
  | n + 1, v => BitVec.ofNat 64 v :: toBlocks n (v / 2 ^ 64)

/-- One bit of the reflected CRC-32C division (01 R19; polynomial of log entry 8). -/
def crcBit (c : Nat) : Nat := if c % 2 = 1 then Nat.xor (c / 2) 0x82F63B78 else c / 2

/-- One byte into the CRC-32C register. -/
def crcByte (c : Nat) (b : Byte) : Nat :=
  crcBit (crcBit (crcBit (crcBit (crcBit (crcBit (crcBit (crcBit (Nat.xor c b.toNat))))))))

/-- CRC-32C of a byte string. -/
def crc32c (bs : List Byte) : BitVec 32 := BitVec.ofNat 32 (Nat.xor (bs.foldl crcByte 0xFFFFFFFF) 0xFFFFFFFF)

/-- The payload blocks of a list of fields, the first field in the lowest bits of the first block; the rest of the last block is 0 (01 R20;
log entry 160). -/
def payBlocks (l : List (Nat × Nat)) : List (BitVec 64) := toBlocks (ceilNat (l.map (·.1)).sum 64) (payNat l)

/-- Bytes as fields of a payload. -/
def byteFlds (bs : List Byte) : List (Nat × Nat) := bs.map fun b => (8, b.toNat)

/-- A frame: header block, payload blocks, and the trailer with the CRC-32C of both, whose bytes are taken in the order of 01 R13 (01 R19;
log entry 160). -/
def frameOf (header : Nat) (payload : List (BitVec 64)) : List (BitVec 64) :=
  let bs := BitVec.ofNat 64 header :: payload
  bs ++ [(crc32c (bs.flatMap fun b => toLe 8 b.toNat)).setWidth 64]

/-- A frame of a hearth link, of a cross lane or of the pair lane (01 R19; 13 R335). -/
def linkFrame (type hearth lane : Nat) (seq : BitVec 32) (tick : Nat) (payload : List (BitVec 64)) : List (BitVec 64) :=
  frameOf (payNat [(12, tick), (32, seq.toNat), (8, payload.length), (3, 0), (1, lane), (4, hearth), (4, type)]) payload

/-- The forwarding class of a Zunak frame type (14 R365). -/
def worksClass (type : Nat) : Nat := if type = 5 ∨ type = 6 then 1 else if type = 0 ∨ type = 7 then 2 else 0

/-- A Zunak frame (14 R364). -/
def worksFrame (type dest src hops : Nat) (lseq : BitVec 16) (payload : List (BitVec 64)) : List (BitVec 64) :=
  frameOf (payNat [(7, 0), (16, lseq.toNat), (8, payload.length), (5, hops), (11, src), (11, dest), (2, worksClass type), (4, type)]) payload

/-- Insert a number into an ascending list without repeats. -/
def insertAsc (n : Nat) : List Nat → List Nat
  | [] => [n]
  | a :: r => if n < a then n :: a :: r else if n = a then a :: r else a :: insertAsc n r

end Sys2Proof.Machine
end

