-- ==== Sys2Proof/Machine/State.lean ====
section
/-! DEFINITION. The state of the KL-512 as plain data, its reset, its faults and its refusals. Each field's comment gives its width,
the file and rule of spec/ that names it, and what its reset value rests on: "spec" (the spec states it), "DC n" (DESIGN CHOICE of
log entry n), "model" (the model's own field). The default of a field is its value at reset. -/
namespace Sys2Proof.Machine
open Sys2Proof

/-- The channel states (02 R40). Absent is no state: it is computed from the configuration. -/
inductive ChState where
  | vacant | seated | ready | ramping | full | good | tripped | cooling | locked | off | held
deriving DecidableEq, Repr

/-- What drives a gate (02 R41, 03 R78): the pull-down, the soft turn-off, or one of the Damper's modes. -/
inductive GateDrive where
  | pullDown | soft | damp | soak | enh
deriving DecidableEq, Repr

/-- What a cell was before a transition that a command word made in the present hearth tick, which entry to Saggar hold in that tick cancels
(02 R50). -/
structure CellUndo where
  state : ChState
  gate : GateDrive
  iset : BitVec 10
  pg : Bool
  pgDropped : Bool
  confirmed : Bool
  offTicks : Nat
  tripReg : BitVec 16
  sub : BitVec 4
  env : EnvImage
  envWait : Option EnvImage
  seq : BitVec 32
  locks : BitVec 16
deriving DecidableEq, Repr

/-- The cell of one own channel, on its hearth die: level "cell" and the hearth's registers of that channel. -/
structure Cell where
  state : ChState := .vacant            -- 4 bits; 02_channel_life R40; spec (15 R395)
  gate : GateDrive := .pullDown         -- drive; 03_inrush_damper R78; spec (15 R395)
  iset : BitVec 10 := 0                 -- 10 bits; 03_inrush_damper R77; spec
  igReg : BitVec 8 := 1                 -- 8 bits, 10 uA units; 03_inrush_damper R508; spec
  pg : Bool := false                    -- 1 bit; 02_channel_life R41; spec
  pgDropped : Bool := false             -- 1 bit, PG held low since a PG_DROP; 02_channel_life R57; DC 2
  gateOff : Bool := true                -- 1 bit, comparator GATE_OFF; 09_engines R233; DC 2
  gateFull : Bool := false              -- 1 bit, comparator GATE_FULL; 09_engines R233; DC 2
  tripReg : BitVec 16 := 0xF000         -- 16 bits; 04_breaker_retry_twins R109; spec
  tickCauses : BitVec 16 := 0           -- 16 bits, causes latched in this hearth tick, and IN_HELD and IN_OFF; 04_breaker_retry_twins R111; DC 2
  sub : BitVec 4 := 0                   -- 4 bits, sub-cause mask of the latest cone bend; 05_cone_model R146; DC 2
  refused : Bool := false               -- 1 bit, REFUSED; 09_engines R241; DC 2
  lastRefused : Option (BitVec 16) := none -- the last word refused; 09_engines R241; DC 2
  refusals : BitVec 16 := 0             -- 16 bits, repeated refusals since the last event; 09_engines R241; DC 2
  kept : Option (BitVec 16) := none     -- the last command word received from the holder; 09_engines R232; spec (11 R303)
  asked : Option ChState := none        -- state the latest applied request asked for; 12_time_events R319; DC 2
  clips : BitVec 32 := 0                -- envelope clip counter; 09_engines R240; DC 2
  f : Nat := 0                          -- fallback accumulator F in 2^-46 of a trip; 04_breaker_retry_twins R106; DC 2
  confirmed : Bool := true              -- 1 bit, gate-off confirmation has come since the last discharge; 02_channel_life R49; DC 2
  offTicks : Nat := 0                   -- hearth ticks since the gate-off confirmation; 09_engines R240; DC 2
  tripTicks : Nat := 0                  -- hearth ticks since the trip tick; 02_channel_life R62; DC 2
  shortTicks : Nat := 0                 -- consecutive ticks above the pass-short level; 02_channel_life R61; DC 2
  offPend : Bool := false               -- 1 bit, an OFF request taken in Tripped awaits the gate-off confirmation; 02_channel_life R49; DC 2
  heldTrip : Bool := false              -- 1 bit, trip in this stay in Held, or Tripped at its entry; 02_channel_life R68; DC 2
  heldGood : Bool := false              -- 1 bit, gate kept enhanced through Held; 02_channel_life R67; DC 2
  undo : Option CellUndo := none        -- the cell before this tick's transition by a command word; 02_channel_life R50; DC 2
  env : EnvImage := {}                  -- envelope registers; 09_engines R239; spec
  envWait : Option EnvImage := none     -- an envelope write held for a permitted state; 09_engines R242; DC 2
  tripWord : BitVec 64 := 0x00C80210FA000000#64 -- 64 bits, the hearth's copy of the trip word; 04_breaker_retry_twins R98; spec
  lifeWord : BitVec 64 := 0x00020000C83E80A0#64 -- 64 bits, the hearth's copy of the life word; 02_channel_life R73; spec
  offset : BitVec 14 := 0               -- 14 bits, measured offset of the current converter in codes; 06_converters R159; DC 2
  iSample : BitVec 16 := 0              -- 16 bits, latest current conversion; 06_converters R156; spec
  iOvr : Bool := false                  -- 1 bit, its OVR flag; 06_converters R160; spec
  vSample : BitVec 16 := 0              -- 16 bits, latest voltage conversion; 06_converters R157; spec
  vOvr : Bool := false                  -- 1 bit, its OVR flag; 06_converters R160; spec
  rshunt : Nat := 0                     -- 13 bits, RSHUNT in uOhm, for the pass-short level; 04_breaker_retry_twins R98, 15_boot_trust R403; DC 2
  configured : Bool := false            -- 1 bit, converters of the channel powered; 06_converters R153; DC 2
deriving DecidableEq, Repr

/-- One lane of a hearth link (01 R18, R24). -/
structure LaneSt where
  trained : Bool := false               -- 1 bit; 01_architecture R18; DC 2
  failed : Bool := false                -- 1 bit, failed and not retrained; 01_architecture R24; DC 2
  attempts : Nat := 0                   -- lane reset attempts since the failure, up to 20; 11_fault_collector R303; DC 2
  seen : Bool := false                  -- 1 bit, the hearth got a TICK frame on the lane in this tick; 01_architecture R24; DC 2
  missed : Nat := 0                     -- consecutive ticks in which the hearth got none, up to 3; 01_architecture R24; DC 2
deriving DecidableEq, Repr

/-- A frame kept in a replay buffer until acknowledged (01 R21). -/
structure ReplayFrame where
  seq : BitVec 32
  type : Nat
  tick : Nat
  payload : List (BitVec 64)
  events : List EventRec
deriving DecidableEq, Repr

/-- A hearth die as a whole (01 R14): power, claim, Saggar hold, link, clock and event numbering. -/
structure HearthSt where
  alwaysOn : Bool := false              -- 1 bit, always-on domain powered; 08_feeds R224; DC 2
  logic : Bool := false                 -- 1 bit, logic rails present; 01_architecture R34; DC 2
  banked : Bool := false                -- 1 bit; 16_host_interface R435; DC 2
  released : Bool := false              -- 1 bit, release flag; 15_boot_trust R396; spec
  claim : BitVec 32 := 0                -- 32 bits, claim number in force; 13_partner_adoption R345; spec
  held : Bool := false                  -- 1 bit, HELD; 13_partner_adoption R345; spec
  holder : Port := .loc               -- 1 bit, HOLDER; 13_partner_adoption R345; spec
  admitting : Bool := false             -- 1 bit, ADMITTING; 13_partner_adoption R345; spec
  admitTicks : Nat := 0                 -- ticks since the judging tick; 13_partner_adoption R349; DC 2
  saggar : Bool := true                 -- 1 bit, SAGGAR; 01_architecture R510; spec
  fault : Bool := false                 -- 1 bit, hearth fault; 11_fault_collector R299; spec
  faultPort : Port := .loc            -- port that held the claim when the fault arose; 11_fault_collector R305; DC 2
  silentL : Nat := 0                    -- ticks the local port has been silent; 01_architecture R27; DC 2
  silentX : Nat := 0                    -- ticks the cross port has been silent; 01_architecture R27; DC 2
  frameL : Bool := false                -- 1 bit, a control frame completed on the local port in this tick; 01_architecture R27; DC 2
  frameX : Bool := false                -- 1 bit, the same on the cross port; 01_architecture R27; DC 2
  refusedL : Option (BitVec 4) := none  -- REFUSED and REASON for the local port's next STATE frame; 13_partner_adoption R345; spec
  refusedX : Option (BitVec 4) := none  -- the same for the cross port; 13_partner_adoption R345; spec
  lane0 : LaneSt := {}                  -- lane 0; 01_architecture R18
  lane1 : LaneSt := {}                  -- lane 1; 01_architecture R18
  laneX : LaneSt := {}                  -- cross-out lane Xh; 01_architecture R18
  active : Fin 2 := 0                   -- active lane; 01_architecture R18; spec
  failover : Bool := false              -- 1 bit, a failover is in progress; 01_architecture R24; DC 2
  txL : BitVec 32 := 0                  -- 32 bits, next frame sequence number, local port; 01_architecture R19; DC 2
  txX : BitVec 32 := 0                  -- 32 bits, next frame sequence number, cross port; 01_architecture R19; DC 2
  replayL : List ReplayFrame := []      -- up to 256 frames; 01_architecture R21; spec (11 R303)
  replayX : List ReplayFrame := []      -- up to 256 frames; 01_architecture R21; spec (11 R303)
  lostFrames : List ReplayFrame := []   -- frames evicted unacknowledged since the last gap record; 01_architecture R26; DC 2
  rxL : BitVec 32 := 0                  -- 32 bits, sequence number after the last one received in order, local port; 01_architecture R20; DC 2
  rxX : BitVec 32 := 0                  -- 32 bits, the same on the cross port; 01_architecture R20; DC 2
  firstOut : List EventRec := []        -- records unacknowledged on the old port, to be sent before any new frame; 12_time_events R325; DC 2
  outbox : List EventRec := []          -- records numbered and not yet sent; 12_time_events R320; DC 2
  seqs : Tab (BitVec 32) := []          -- next sequence number of each source of the hearth; 12_time_events R321; spec
  tick : Nat := 0                       -- tick numbering the hearth has adopted; 01_architecture R32; DC 2
  tai : Nat := 0                        -- 64 bits, hearth time counter in ns; 12_time_events R313; DC 2
  tickSeen : Bool := false              -- 1 bit, a TICK frame of the holder arrived in this tick; 12_time_events R314; DC 2
  holdover : Bool := true               -- 1 bit; 12_time_events R314; spec
  holdNs : Nat := 0                     -- ns of holdover on the 250 MHz oscillator; 12_time_events R314; DC 2
  holdOscNs : Nat := 0                  -- ns of holdover on the always-on oscillator; 12_time_events R314; DC 2
  lasting : List (Nat × Nat) := []      -- errors of the hearth, (code, source), whose condition holds; 11_fault_collector R288; DC 2
  rampAllow : Nat := 4                  -- ramp allowance, 1 to 64; 08_feeds R203; spec
deriving DecidableEq, Repr

/-- A slot's inputs and debounce, in its hearth's always-on domain (02 R43 to R48). -/
structure SlotSt where
  word : BitVec 32 := 0x00080000#32     -- 32 bits, slot word; 02_channel_life R44; spec
  pres : Bool := false                  -- 1 bit, PRES; 02_channel_life R43; DC 2
  seat : Bool := false                  -- 1 bit, SEAT; 02_channel_life R43; DC 2
  debouncing : Bool := false            -- 1 bit; 02_channel_life R46; DC 2
  seated : Bool := false                -- 1 bit, debounced seated; 02_channel_life R46; DC 2
  present : Bool := false               -- 1 bit, EV_SLOT_PRESENT stamped; 02_channel_life R48; DC 2
  fellP : Option Nat := none            -- falling edge of PRES that the 1 us filter times; 02_channel_life R64; DC 2
  fellS : Option Nat := none            -- falling edge of SEAT that the 1 us filter times; 02_channel_life R64; DC 2
  presFell : Bool := false              -- 1 bit, PRES fell while SEAT was high; 02_channel_life R48; DC 2
  doneAt : Option Nat := none           -- end of a debounce not yet reported, before Draw; 02_channel_life R47; DC 2
  since : Nat := 0                      -- hearth time at which the running debounce began; 02_channel_life R46; DC 2
  seats : BitVec 32 := 0                -- 32 bits, debounced seats since the device reset; 17_pelavazil_commands R458; spec
  ledOn : Bool := false                 -- 1 bit, the slot LED's present phase; 07_spyholes R199; DC 2
  ledRow : Nat := 6                     -- row of R199's table in force, 1 to 6; 07_spyholes R199; DC 2
  ledStep : Nat := 0                    -- step of the blink pattern; 07_spyholes R199; DC 2
deriving DecidableEq, Repr

/-- The spyhole states (07 R184). -/
inductive SpyState where
  | inside | below | above | unresolved
deriving DecidableEq, Repr

/-- One spyhole (07 R181 to R197). -/
structure Spy where
  word : BitVec 64 := 0x003FF20000000000#64 -- 64 bits, spyhole word; 07_spyholes R182; spec
  nextWord : Option (BitVec 64) := none -- a word from SPY.SET awaiting the tick boundary; of hearths 8 to 15, the word sent; 07_spyholes R187; DC 2
  st : SpyState := .inside              -- 2 bits; 07_spyholes R184; spec (R183: ENABLE 0 presents INSIDE)
  starting : Bool := false              -- 1 bit, between a start and its compare; 07_spyholes R186; DC 2
  zone : Zone := .inside                -- where the comparators last placed the input; 07_spyholes R184; DC 2
  band : Zone := .inside                -- band in which an UNRESOLVED spyhole stands; 07_spyholes R184; DC 2
  rejudge : Bool := false               -- 1 bit, new edges await the first judgement against them; 07_spyholes R187; DC 2
  restart : Bool := false               -- 1 bit, a start at the next tick boundary, of a commit; 07_spyholes R186; DC 2
  filterAt : Nat := 0                   -- hearth time at which the filter in progress began; 07_spyholes R185, R187; DC 2
  insideAt : Nat := 0                   -- hearth time of the latest entry to INSIDE; 08_feeds R211; DC 2
  filter : Option SpyState := none      -- target of a filter in progress; 07_spyholes R185; spec (11 R303)
  excursion : Bool := false             -- 1 bit; 07_spyholes R184; DC 2
  stamped : Nat := 0                    -- EV_SPY stamped in this window, up to 16; 07_spyholes R191; DC 2
  suppressed : BitVec 16 := 0           -- changes suppressed in this window; 07_spyholes R191; DC 2
deriving DecidableEq, Repr

/-- A capture slot and its binding (07 R192, R194). -/
structure Capture where
  binding : BitVec 16 := 0              -- 16 bits; 07_spyholes R192; spec
  first : BitVec 64 := 0                -- 64 bits FIRST; 07_spyholes R194; spec
  latest : BitVec 64 := 0               -- 64 bits LATEST; 07_spyholes R194; spec
  count : BitVec 16 := 0                -- 16 bits COUNT; 07_spyholes R194; spec
  uncFirst : BitVec 8 := 0              -- 8 bits UNC_FIRST; 07_spyholes R194; spec
  uncLatest : BitVec 8 := 0             -- 8 bits UNC_LATEST; 07_spyholes R194; spec
  stFirst : BitVec 2 := 0               -- 2 bits STATE_FIRST; 07_spyholes R194; spec
  stLatest : BitVec 2 := 0              -- 2 bits STATE_LATEST; 07_spyholes R194; spec
  smpFirst : Bool := false              -- 1 bit SAMPLED_FIRST; 07_spyholes R194; spec
  smpLatest : Bool := false             -- 1 bit SAMPLED_LATEST; 07_spyholes R194; spec
  readers : List (Option CmdSrc) := []  -- reads that wait, the first under way: SPY.CAPTURE of a source, or a PARAM frame; 07_spyholes R194; DC 2
  edge : Option Nat := none             -- boundary at which the read under way is taken; 07_spyholes R194; DC 2
  wait : Nat := 0                       -- ticks until every change before that boundary is in; 07_spyholes R194; DC 2
  late : List (SpyState × Nat × BitVec 8 × Bool) := [] -- changes at or after it, for the next record; 07_spyholes R194; DC 2
deriving DecidableEq, Repr

/-- Phases of a feed group (08 R205). -/
inductive Phase where
  | idle | steady | confirm | lead | gap | recharge | tail | none
deriving DecidableEq, Repr

/-- How a warning stands (08 R217, R218). -/
inductive WarnKind where
  | pending | retracted | handover | kept | inNone
deriving DecidableEq, Repr

/-- A warning asserted by a group (08 R216). -/
structure Warn where
  ident : BitVec 16
  cause : BitVec 8
  kind : WarnKind
  due : Bool
deriving DecidableEq, Repr

/-- A feed group: selectors, phase, shadow, warnings (08). -/
structure Group where
  word0 : BitVec 64 := 0x0105321905280140#64 -- 64 bits, feed word 0; 08_feeds R202; spec
  word1 : BitVec 64 := 0x0800014000000000#64 -- 64 bits, feed word 1; 08_feeds R203; spec
  phase : Phase := .idle                -- 3 bits PHASE; 08_feeds R205; spec
  sel : Option Feed := none             -- SEL, conducting feed; 08_feeds R205; spec
  outgoing : Option Feed := none        -- outgoing feed of the handover in progress; 08_feeds R209; DC 2
  target : Option Feed := none          -- feed a planned handover goes to; 08_feeds R210; DC 2
  pulling : Bool := false               -- 1 bit, outgoing pull-down applied and no break yet; 08_feeds R211; DC 2
  stuck : Bool := false                 -- 1 bit, the break did not arrive within 2 us; 08_feeds R213; DC 2
  lossKind : BitVec 4 := 0              -- loss kind of the handover, codes of EV_FEED_BREAK; 12_time_events R319; DC 2
  standing : Bool := false              -- 1 bit, a confirmed loss stands with no eligible feed; 08_feeds R209; DC 2
  shadow : Bool := false                -- 1 bit, handover shadow running; 08_feeds R214; spec
  shadowTick : Bool := false            -- 1 bit, some part of this hearth tick lay in the shadow; 08_feeds R215; DC 2
  shadowAt : Nat := 0                   -- start of the shadow, ns; 08_feeds R214; DC 2
  makeAt : Nat := 0                     -- time of the latest make, ns; 08_feeds R211; DC 2
  barA : Bool := false                  -- 1 bit BAR_A; 08_feeds R205; spec
  barB : Bool := false                  -- 1 bit BAR_B; 08_feeds R205; spec
  forced : Bool := false                -- 1 bit FORCED; 08_feeds R205; spec
  forcedTo : Option Feed := none        -- the feed that FEED.SELECT forces; 08_feeds R210; DC 2
  pendSel : Option FeedSel := none      -- FEED.SELECT held pending; 08_feeds R220; DC 2
  nextId : BitVec 16 := 0               -- 16 bits, warning identifier; 08_feeds R216; spec
  warns : List Warn := []               -- asserted warnings, oldest first; 08_feeds R216; DC 2
  offHighA : Bool := false              -- 1 bit, off-state comparator of A high for 1 ms; 08_feeds R221; DC 2
  offHighB : Bool := false              -- 1 bit, off-state comparator of B high for 1 ms; 08_feeds R221; DC 2
  offAtA : Nat := 0                     -- hearth time at which selector A turned off; 08_feeds R223; DC 2
  offAtB : Nat := 0                     -- hearth time at which selector B turned off; 08_feeds R223; DC 2
  warnOut : Bool := false               -- 1 bit, FEED.WARN output low; 08_feeds R219; DC 2
  returnSince : Option Nat := none      -- hearth time at which the running return dwell began; 08_feeds R210; DC 2
  limited : Bool := false               -- 1 bit, the 1 ms limit on the running recharge applies; 08_feeds R214; DC 2
deriving DecidableEq, Repr

/-- The housekeeping converter and sequencer of a hearth (06 R161 to R180). -/
structure Hk where
  control : BitVec 64 := 0x0019000021C00000#64 -- 64 bits, sequence control word; 06_converters R167; spec
  entries : Tab (BitVec 64) := []       -- 32 sequence entries of 64 bits, unlisted 0x0000080000000000 (ACQ 4); 06_converters R168; spec
  entriesNext : List (Nat × BitVec 64) := [] -- accepted HKC changes for the next pass, in order; of hearths 8 to 15, those sent; 06_converters R180; DC 2
  ntc : List (BitVec 16) := []          -- 17 words, NTC table; 06_converters R165; DC 2
  started : Bool := false               -- 1 bit, sequencer started at commit; 06_converters R153; DC 2
  running : Bool := false               -- 1 bit, a pass is running; 06_converters R171; DC 2
  entry : Nat := 0                      -- normal entry the pass stands at; 06_converters R171; DC 2
  inputPos : Nat := 0                   -- input from which a BURST entry goes on; 06_converters R171; DC 2
  diode : Nat := 0                      -- diode conversions done, 0 to 2; 06_converters R164; DC 2
  diodeIn : Nat := 0                    -- input of the diode measurement; 06_converters R164; DC 2
  v1 : BitVec 16 := 0                   -- 16 bits, first diode conversion; 06_converters R164; DC 2
  v2 : BitVec 16 := 0                   -- 16 bits, second diode conversion; 06_converters R164; DC 2
  steps : Tab Nat := []                 -- step pointer of each entry, the input or selection at which it stands; 06_converters R171; spec (11 R303)
  pending : Bool := false               -- 1 bit, a sequence trigger is pending; 06_converters R172; DC 2
  overrun : Bool := false               -- 1 bit OVERRUN; 06_converters R172; DC 2
  markFirst : Bool := false             -- 1 bit, the next record carries OVERRUN; 06_converters R172; DC 2
  overruns : BitVec 16 := 0             -- 16 bits, overrun counter; 06_converters R172; DC 2
  aborts : BitVec 16 := 0               -- 16 bits, abort counter; 06_converters R173; DC 2
  urgOver : BitVec 16 := 0              -- 16 bits, urgent-overrun counter; 06_converters R174; DC 2
  urgRun : Option Nat := none           -- urgent entry whose conversion runs; 06_converters R173; DC 2
  urgPend : List Nat := []              -- pending urgent entries, ascending; 06_converters R174; DC 2
  urgWait : List Nat := []              -- urgent entries counting down their DELAY; 06_converters R174; DC 2
  follow : Tab Nat := []                -- triggering channel of each FOLLOW entry; 06_converters R168; DC 2
  settle : Nat := 0                     -- conversions still to carry SETTLE after an OVR; 06_converters R175; DC 2
  startDue : Nat := 0                   -- START_EVT happenings whose delay runs; 06_converters R172; DC 2
  evTick : List Nat := []               -- urgent entries whose event fired in this hearth tick; 06_converters R169; DC 2
  diodeSettle : Bool := false           -- 1 bit, an earlier conversion of the diode measurement carried SETTLE; 06_converters R175; DC 2
  dacPast : List (Option (Nat × Nat)) := [] -- DAC under read-back and its code at the end of the latest 4 ticks, newest first; 06_converters R178; DC 2
  badDacs : List Nat := []              -- DACs whose last compared read-back failed, ascending; 06_converters R178, 07_spyholes R198; DC 2
  refBad : Bool := false                -- 1 bit, the last conversion of REF_B disagreed; 06_converters R166; DC 2
  record : Option (BitVec 64) := none   -- housekeeping record of this tick, block 12; 06_converters R177; DC 2
deriving DecidableEq, Repr

/-- What a check unit freezes at a mismatch (09 R247): the tick, and the input ports, carry states and output words of the two roles. -/
structure FrozenTick where
  tick : Nat
  sitterIns : Tab (BitVec 16)
  coneIns : Tab (BitVec 16)
  sitterCarry : List W24
  coneCarry : List W24
  sitterOuts : Tab (BitVec 16)
  coneOuts : Tab (BitVec 16)
deriving DecidableEq, Repr

/-- The Crown's record of one channel: port words, the Sitter's carry state, counters and service (09 R228, 02 R74). -/
structure ChanSt where
  prof : List (BitVec 64) := []         -- 28 words of the active parameter bank's profile, [] = not configured; 15_boot_trust R403; DC 2
  profNext : Option (List (BitVec 64)) := none -- profile in the inactive bank; 01_architecture R31; DC 2
  coneProf : List (BitVec 64) := []     -- 28 words, the profile in the active bank of the Cone role's cluster; 05_cone_model R150; DC 2
  obs : ChState := .vacant              -- 4 bits, observed state of the latest STATE frame; 02_channel_life R70; DC 2
  commanded : ChState := .vacant        -- 4 bits, commanded state; 02_channel_life R70; DC 2
  stWord : BitVec 16 := 0               -- 16 bits, input port word STATE; 09_engines R233; DC 2
  stFresh : Bool := false               -- 1 bit, a STATE frame has reached the Sitter since it last ran; 02_channel_life R70; DC 2
  iWord : BitVec 16 := 0                -- 16 bits, I_SAMPLE; 09_engines R233; DC 2
  iOvr : Bool := false                  -- 1 bit, OVR_I; 09_engines R233; DC 2
  iFresh : Bool := false                -- 1 bit, FRESH_I; 09_engines R233; DC 2
  vWord : BitVec 16 := 0                -- 16 bits, V_SAMPLE; 09_engines R233; DC 2
  vOvr : Bool := false                  -- 1 bit, OVR_V; 09_engines R233; DC 2
  vFresh : Bool := false                -- 1 bit, FRESH_V; 09_engines R233; DC 2
  late : Bool := false                  -- 1 bit, LATE; 01_architecture R22; DC 2
  tsnsWord : BitVec 16 := 0             -- 16 bits, TSNS; 09_engines R233; DC 2
  tsnsOvr : Bool := false               -- 1 bit, OVR_TSNS; 09_engines R233; DC 2
  tsnsFresh : Bool := false             -- 1 bit, FRESH_TSNS; 09_engines R233; DC 2
  cmd : BitVec 16 := 0                  -- 16 bits, last command word latched; 09_engines R232; DC 2
  req : BitVec 4 := 0                   -- 4 bits, REQ port: CONSENT, OFF, ON, RESET; 09_engines R237; DC 2
  consented : Bool := false             -- 1 bit, consent given; 02_channel_life R51; DC 2
  hostOn : Bool := false                -- 1 bit, CHAN.ON received under host consent; 02_channel_life R51; DC 2
  waitStamped : Bool := false           -- 1 bit, EV_CONSENT_WAIT stamped; 02_channel_life R51; DC 2
  allocated : Bool := false             -- 1 bit, ledger allocation held; 13_partner_adoption R341; DC 2
  allocTag : Option (BitVec 16) := none -- tag of an ALLOC_REQ without an answer; 14_works R377; DC 2
  a : Nat := 0                          -- 48 bits, breaker accumulator in 2^-46 (ACC48); 04_breaker_retry_twins R101; DC 2
  aStarted : Bool := false              -- 1 bit, the breaker fault timer started in this tick; 04_breaker_retry_twins R102; DC 2
  rose : Bool := false                  -- 1 bit, the accumulator rose in the latest tick; 04_breaker_retry_twins R102; DC 2
  igMode : BitVec 2 := 0                -- 2 bits, gate mode for which IG_REG was last written, 0 none; 03_inrush_damper R508; DC 2
  uvRun : Bool := false                 -- 1 bit, under-voltage timer running; 07_spyholes R189; DC 2
  uvTicks : Nat := 0                    -- ticks it has run; 07_spyholes R189; DC 2
  readyTicks : Nat := 0                 -- ticks since entry to Ready; 02_channel_life R52; DC 2
  coneWait : Nat := 0                   -- ticks kept in Ready by the headroom alone; 05_cone_model R147; DC 2
  coneWaitDone : Bool := false          -- 1 bit, EV_CONE_WAIT stamped since the last Ramping; 05_cone_model R147; DC 2
  rampTicks : Nat := 0                  -- ramp deadline counter; 03_inrush_damper R86; DC 2
  seg : Nat := 0                        -- segment index, SEG_M1 + 1 = all ended; 03_inrush_damper R84; DC 2
  segTicks : Nat := 0                   -- segment timer; 03_inrush_damper R84; DC 2
  winTicks : Nat := 0                   -- ticks of the running progress window; 03_inrush_damper R87; DC 2
  winStart : BitVec 16 := 0             -- V_OUT code at the window's start; 03_inrush_damper R87; DC 2
  winShadow : Bool := false             -- 1 bit, the window overlapped a shadow; 03_inrush_damper R88; DC 2
  winFails : Nat := 0                   -- consecutive failing windows; 03_inrush_damper R87; DC 2
  dwell : Nat := 0                      -- dwell ticks counted; 02_channel_life R54; DC 2
  pgDrop : Bool := false                -- 1 bit, PG_DROP requested and not raised since; 02_channel_life R57; DC 2
  holdTicks : Nat := 0                  -- consecutive ticks with the gate below VGS_FULL; 02_channel_life R58; DC 2
  backoff : Nat := 0                    -- ticks since entry to Cooling; 04_breaker_retry_twins R113; DC 2
  decay : Nat := 0                      -- ticks of the running DECAY interval; 04_breaker_retry_twins R114; DC 2
  skewTicks : Nat := 0                  -- ticks of a lasting disagreement; 02_channel_life R70; DC 2
  twinShared : Bool := false            -- 1 bit, the shared curve was applied in the latest tick; 04_breaker_retry_twins R119; DC 2
  twinSplit : Bool := false             -- 1 bit, the pair was found split in the latest tick; 04_breaker_retry_twins R126; DC 2
  twinOk : Nat := 0                     -- consecutive ticks in which R119's first three conditions hold; 04_breaker_retry_twins R121; DC 2
  twinReason : BitVec 8 := 0            -- 8 bits, REASON of the latest EV_TWIN_SOLO; 17_pelavazil_commands R458; DC 2
  twinLow : Nat := 0                    -- consecutive ticks below the share floor; 04_breaker_retry_twins R123; DC 2
  startOk : Bool := false               -- 1 bit, START_OK written in the latest tick; 09_engines R234; DC 2
  startSeen : Bool := false             -- 1 bit, START_OK of the latest tick but one; 03_inrush_damper R92; DC 2
  tripReq : Bool := false               -- 1 bit, a TRIP request written in the latest tick; 09_engines R233; DC 2
  tripPrev : Bool := false              -- 1 bit, the TRIP request of the latest tick but one; 09_engines R233; DC 2
  hearthTrip : Bool := false            -- 1 bit, the latest STATE frame showed a trip that the hearth latched; 09_engines R237; DC 2
  ran : Bool := false                   -- 1 bit, some fault timer was running at the end of the latest tick; 02_channel_life R55; DC 2
  resend : Option (BitVec 16) := none   -- a command word to be sent again after its KEEP word; 02_channel_life R71; DC 2
  lastReq : BitVec 16 := 0              -- 16 bits, latest command word latched that asks for something; 02_channel_life R71; DC 2
  tripReg : BitVec 16 := 0xF000         -- 16 bits, an adopted channel's trip register as its events report it; 09_engines R233; DC 2
  followEnh : Bool := false             -- 1 bit, this ramp runs no firing schedule; 04_breaker_retry_twins R124; DC 2
  sitter : Option Nat := none           -- engine that hosts the Sitter role; 09_engines R249; DC 2
  cone : Option Nat := none             -- engine that hosts the Cone role; 09_engines R249; DC 2
  takeover : Option (Nat × Nat × Nat) := none -- failed engine, host engine and mirror tick of a takeover due; 09_engines R250; DC 2
  frozen : Bool := false                -- 1 bit, a mismatch awaits its recomputation; 09_engines R247; DC 2
  frozenTick : Option FrozenTick := none -- what the check unit froze of it; 09_engines R247; DC 2
  replayDue : Nat := 0                  -- 6 bits, trip causes found in catch-up ticks, to be requested at the takeover tick; 09_engines R251; DC 2
  mismDetail : Nat := 0                 -- 96 bits, context words of the frozen mismatch; 09_engines R247; DC 2
  lostEngine : Nat := 0                 -- engine whose failure left the channel unhosted; 09_engines R252; DC 2
  mismatches : BitVec 16 := 0           -- mismatches merged into the frozen one; 09_engines R247; DC 2
  seats : BitVec 32 := 0                -- 32 bits SEATS; 02_channel_life R74; spec
  trips : BitVec 32 := 0                -- 32 bits TRIPS; 02_channel_life R74; spec
  retry : Nat := 0                      -- 4 bits RETRY_COUNT; 02_channel_life R74; spec
  locks : BitVec 16 := 0                -- 16 bits LOCKS; 02_channel_life R74; spec
  skews : BitVec 16 := 0                -- 16 bits SKEWS; 02_channel_life R74; spec
  goodTime : BitVec 64 := 0             -- 64 bits GOOD_TIME; 02_channel_life R74; spec
deriving DecidableEq, Repr

/-- One pole of a Cone: the state record of PACC and POLE (10 R272). -/
structure PoleSt where
  theta : Int := 0                      -- 24 bits QT, theta_i; 05_cone_model R127; DC 2
  energy : Nat := 0                     -- 48 bits EN48, running energy; 10_schedule_instructions R272; DC 2
  runMax : Nat := 0                     -- 23 bits QP, running maximum; 10_schedule_instructions R272; DC 2
  lastPacked : Bool := false            -- 1 bit; 10_schedule_instructions R272; DC 2
  eInt : Int := 0                       -- 24 bits QT, term of E_INT; 10_schedule_instructions R272; DC 2
deriving DecidableEq, Repr

/-- The Cone role's state of one channel (05; 09 R228). Temperatures are in QT, 1/256 K; powers in QP, 1/512 W. -/
structure ConeSt where
  init : Bool := false                  -- 1 bit, model state present; 05_cone_model R148; spec
  p1 : PoleSt := {}                     -- pole 1; 05_cone_model R127
  p2 : PoleSt := {}                     -- pole 2; 05_cone_model R127
  p3 : PoleSt := {}                     -- pole 3; 05_cone_model R127
  tBase : Int := 0                      -- 24 bits QT, T_base; 05_cone_model R135; DC 2
  rErr : Int := 0                       -- 24 bits QT, R_ERR; 05_cone_model R135; DC 2
  resid : Int := 0                      -- 24 bits QT, latest residual; 05_cone_model R135; DC 2
  anchored : Bool := false              -- 1 bit ANCHORED; 05_cone_model R141; spec
  first : Bool := true                  -- 1 bit, the first valid TSNS sample is still to come; 05_cone_model R148; spec
  tsnsFault : Bool := false             -- 1 bit; 05_cone_model R137; DC 2
  tsnsAge : Nat := 0                    -- ticks since a TSNS sample was presented; 05_cone_model R137; DC 2
  tsnsGood : Nat := 0                   -- consecutive valid samples in a fault; 05_cone_model R137; DC 2
  divHigh : Nat := 0                    -- consecutive samples with the residual above ERR_LIMIT; 05_cone_model R136; DC 2
  divLow : Nat := 0                     -- consecutive samples at or below it; 05_cone_model R136; DC 2
  diverged : Bool := false              -- 1 bit, cone divergence present; 05_cone_model R136; DC 2
  divCount : BitVec 16 := 0             -- 16 bits, occurrences of cone divergence; 05_cone_model R152; DC 2
  faultCount : BitVec 16 := 0           -- 16 bits, occurrences of TSNS fault; 05_cone_model R152; DC 2
  dose : Int := 0                       -- 24 bits QT, D; 05_cone_model R139; DC 2
  eInt : Int := 0                       -- 24 bits QT, E_INT; 05_cone_model R139; DC 2
  hT : Int := 0                         -- 24 bits QT, H_T; 05_cone_model R140; DC 2
  peakD : Int := 0                      -- 24 bits QT, peak D since the last CONE.STATUS read; 05_cone_model R152; DC 2
  head : BitVec 32 := 0                 -- 32 bits, headroom word written in the latest update; 05_cone_model R141; spec
  headTick : Nat := 0                   -- tick in which head was written; 05_cone_model R142; DC 2
  headOld : BitVec 32 := 0              -- 32 bits, headroom word before head; 09_engines R233; spec
  headSeen : BitVec 32 := 0             -- 32 bits, HEAD as the Sitter read it in its latest tick; 09_engines R245; spec
  sampled : Bool := false               -- 1 bit, some tick has had a current sample; 05_cone_model R148; DC 2
  tsnsNew : Bool := false               -- 1 bit, a TSNS sample was presented since the latest update; 05_cone_model R132; DC 2
  preRun : Bool := false                -- 1 bit, pre-bend timer running; 05_cone_model R145; spec
  preTicks : Nat := 0                   -- ticks it has run; 05_cone_model R145; DC 2
  preStarted : Bool := false            -- 1 bit, it started in the latest update; 02_channel_life R53; DC 2
  soaCount : Nat := 0                   -- consecutive updates above IMAX; 05_cone_model R144; DC 2
  sub : BitVec 4 := 0                   -- 4 bits, sub-causes recorded; 05_cone_model R146; DC 2
  rHot : Nat := 0                       -- RDS(on) at Tj_model, QF ohms; 10_schedule_instructions R281; DC 2
  lastP : Nat := 0                      -- QP, power of the most recent tick that had a sample; 05_cone_model R129; DC 2
  peak : Nat := 0                       -- QP, peak register; 13_partner_adoption R339; DC 2
  lastTick : Nat := 0                   -- tick of the last update; 05_cone_model R131; DC 2
deriving DecidableEq, Repr

/-- An engine (09 R227, 10 R262). -/
structure Engine where
  regs : Tab W24 := []                  -- 32 registers of 24 bits, unlisted 0; 10_schedule_instructions R262; DC 2
  z : Bool := false                     -- 1 bit Z; 10_schedule_instructions R262; DC 2
  n : Bool := false                     -- 1 bit N; 10_schedule_instructions R262; DC 2
  c : Bool := false                     -- 1 bit C; 10_schedule_instructions R262; DC 2
  v : Bool := false                     -- 1 bit V; 10_schedule_instructions R262; DC 2
  mem : Tab W24 := []                   -- 512 words of 24 bits, state memory; 09_engines R227; DC 2
  bank0 : Tab W24 := []                 -- 256 words of 24 bits, parameter bank 0; 09_engines R227; spec (10 R264)
  bank1 : Tab W24 := []                 -- 256 words of 24 bits, parameter bank 1; 09_engines R227; spec (10 R264)
  active : Fin 2 := 0                   -- active parameter bank; 01_architecture R31; DC 2
  pc : Nat := 0                         -- 13 bits, address of the next instruction; 10_schedule_instructions R261; DC 2
  slots : Nat := 0                      -- slots spent in this tick; 10_schedule_instructions R261; DC 2
  ended : Bool := true                  -- 1 bit, END executed or engine idle; 09_engines R231; DC 2
  ins : Tab (BitVec 16) := []           -- input port words; 09_engines R233; DC 2
  hist : List (Tab (BitVec 16)) := []   -- input words of the catch-up ticks of a replay, newest first; 10_schedule_instructions R275; DC 2
  outs : Tab (BitVec 16) := []          -- output port words latched; 09_engines R234; DC 2
  wrote : List Nat := []                -- output words written in this tick; 09_engines R232; DC 2
  reqRead : Bool := false               -- 1 bit, REQ was read in this tick; 09_engines R237; DC 2
  ranTick : Nat := 0                    -- tick whose outputs it latched last; 09_engines R230; DC 2
  checkOld : BitVec 32 := 0             -- 32 bits, the check word before the one latched last; 09_engines R233; DC 2
  mirrorTick : Nat := 0                 -- last tick that latched a valid check word; 09_engines R250; DC 2
  badChecks : Nat := 0                  -- consecutive ticks with a missing or wrong check word; 09_engines R244; DC 2
  events : List EventReq := []          -- event request queue, up to 4; 09_engines R238; DC 2
  dropped : BitVec 32 := 0              -- requests dropped since the last delivered; 09_engines R238; DC 2
  loop : Option (Nat × Nat × Nat) := none -- RLOOP in progress: its first address, TARGET and catch-up ticks left; 10_schedule_instructions R275; DC 2
  catchUp : Nat := 0                    -- catch-up ticks of a replay due, 0 outside a replay; 10_schedule_instructions R275; DC 2
  loopSitter : Bool := false            -- 1 bit, the replay runs the Sitter role; 10_schedule_instructions R275; DC 2
  loopCone : Bool := false              -- 1 bit, the replay runs the Cone role; 10_schedule_instructions R275; DC 2
  packed : Bool := false                -- 1 bit, in packed service; 09_engines R229; spec
  failed : Bool := false                -- 1 bit; 09_engines R248; DC 2
  rehosting : Bool := false             -- 1 bit, hosts a re-hosted channel; 09_engines R249; DC 2
deriving DecidableEq, Repr

/-- A mirror slot (09 R227): as latched at the end of the latest tick, as it was one tick earlier, and as it stood at the mirror tick (09 R250). -/
structure MirrorSlot where
  words : Tab W24 := []
  old : Tab W24 := []
  good : Tab W24 := []
deriving DecidableEq, Repr

/-- A SAMPLE frame (its blocks) or a STATE frame (its entries) of a hearth in the ingress history, with the tick that presents it (09 R227). -/
structure Ingress where
  hearth : Nat
  tick : Nat
  late : Bool
  blocks : List (BitVec 64)
  entries : List (BitVec 16)
deriving DecidableEq, Repr

/-- A region of a schedule store (09 R258): the schedule's ID and object digest, its form (0 Sitter, 1 Cone, 2 packed), its first word and
length, and the four descriptor words of 10 R264 that start it. -/
structure Region where
  id : Nat
  digest : BitVec 384
  form : Nat
  first : Nat
  len : Nat
  desc : List W24
deriving DecidableEq, Repr

/-- An engine cluster (09 R227). -/
structure Cluster where
  store : Tab (BitVec 32) := []         -- 8,192 words of 32 bits, schedule store; 09_engines R227; DC 2
  failed : Bool := false                -- 1 bit; 01_architecture R33; DC 2
  tick : Nat := 0                       -- engine tick number; 12_time_events R306; spec
  returning : Bool := false             -- 1 bit, back from a cluster reset, its channels return at the next tick edge of a multiple of 4; 11_fault_collector R305; DC 2
  swap : Bool := false                  -- 1 bit, a bank swap is requested; 01_architecture R31; DC 2
  regions : List Region := []           -- regions in use; 09_engines R258; DC 2
  mirror : Tab MirrorSlot := []         -- mirror memory, 64 slots of 32 words of 24 bits; 09_engines R227; DC 2
  ingress : List Ingress := []          -- ingress history, frames of the latest 8 ticks, newest first; 09_engines R227; DC 2
deriving DecidableEq, Repr

/-- Boot stages and power of the Crown (15). -/
structure Boot where
  rails : Bool := false                 -- 1 bit, VCORE, VSD, VIO and VHA in range; 15_boot_trust R388; DC 2
  rstLow : Bool := false                -- 1 bit, RST_N low; 18_electrical_package R486; DC 2
  stage : Fin 8 := 1                    -- 3 bits STAGE; 15_boot_trust R398; spec
  cause : BitVec 8 := 0                 -- 8 bits CAUSE; 15_boot_trust R398; spec
  image : Bool := false                 -- 1 bit IMAGE, true = B; 15_boot_trust R398; spec
  fallback : Bool := false              -- 1 bit FALLBACK; 15_boot_trust R398; spec
  bookCopy : Bool := false              -- 1 bit BOOK_COPY; 15_boot_trust R398; spec
  bookEmpty : Bool := false             -- 1 bit BOOK_EMPTY; 15_boot_trust R398; spec
  drawMs : BitVec 8 := 0xFF             -- 8 bits DRAW_MS; 15_boot_trust R398; spec
  startNs : Nat := 0                    -- counter reading at power-on or the reset's end; 15_boot_trust R388; DC 2
  glazeTimer : Bool := false            -- 1 bit, the 60 ms Glaze timer runs; 15_boot_trust R400; DC 2
  triedA : Bool := false                -- 1 bit, image A tried in this boot; 15_boot_trust R399; DC 2
  triedB : Bool := false                -- 1 bit, image B tried in this boot; 15_boot_trust R399; DC 2
  started : Bool := false               -- 1 bit, an image is running; 15_boot_trust R400; DC 2
  fuses : BitVec 2560 := 0              -- 2,560 bits; 15_boot_trust R389; spec
  flash : Tab Byte := []                -- 8 MiB quad-SPI flash, unlisted 0xFF; 15_boot_trust R392; PRESUMED 9
  verified : Bool := false              -- 1 bit, FW.VERIFY has passed since the last FW.WRITE; 15_boot_trust R412; DC 2
  badA : Bool := false                  -- 1 bit, image A is unusable since a failed write; 15_boot_trust R412; DC 2
  badB : Bool := false                  -- 1 bit, image B is unusable since a failed write; 15_boot_trust R412; DC 2
  slots : List (BitVec 384) := [0, 0, 0, 0, 0, 0, 0, 0] -- 8 measurement slots of 48 bytes; 15_boot_trust R408; spec
  mlog : List (BitVec 8 × BitVec 8 × BitVec 384) := [] -- measurement log, up to 512 entries; 15_boot_trust R409; DC 2
  mcount : BitVec 32 := 0               -- 32 bits LOG_ENTRIES; 15_boot_trust R409; DC 2
  bootCount : BitVec 32 := 0            -- 32 bits BOOT_COUNT; 15_boot_trust R393; spec
  cracked : Bool := false               -- 1 bit, device in Cracked; 11_fault_collector R300; spec
  devState : Fin 8 := 0                 -- 4 bits DEV_STATE; 16_host_interface R417; spec
  packed : Bool := false                -- 1 bit PACKED; 16_host_interface R417; spec
  packReq : Bool := false               -- 1 bit, packing requested; 09_engines R254; DC 2
  unpackReq : Bool := false             -- 1 bit, unpacking requested; 09_engines R256; DC 2
  resetDue : Bool := false              -- 1 bit, a DEV.RESET awaits its 10 us; 17_pelavazil_commands R449; DC 2
  watchdog : Bool := false              -- 1 bit, watchdog armed; 15_boot_trust R394; DC 2
deriving DecidableEq, Repr

/-- A custom schedule loaded for the own or the partner's Book (17 R459; 09 R260): its object's place in the custom schedule region, its digest, the store words and the worst path
of the Sitter, Cone and packed forms, the worst path of its replay, and its constants. -/
structure Loaded where
  id : Nat
  partner : Bool
  off : Nat
  len : Nat
  digest : BitVec 384
  words : List Nat
  worst : List Nat
  replay : Nat
  consts : List W24
deriving DecidableEq, Repr

/-- The Kiln Books held (15 R401 to R407). -/
structure Books where
  own : List Byte := []                 -- committed Kiln Book, [] = none; 15_boot_trust R406; DC 2
  digest : BitVec 384 := 0              -- 384 bits BOOK_DIGEST of it; 17_pelavazil_commands R451; spec
  staged : Tab Byte := []               -- staging buffer of 1 MiB, unlisted 0; 15_boot_trust R407; DC 2
  stagedLen : Nat := 0                  -- STAGED, bytes staged; 17_pelavazil_commands R469; DC 2
  partner : List Byte := []             -- partner Book held, [] = none; 13_partner_adoption R334; DC 2
  partnerDigest : BitVec 384 := 0       -- 384 bits BOOK_DIGEST of the partner Book held; 13_partner_adoption R342; DC 2
  incoming : Tab Byte := []             -- partner Book being received, unlisted 0; 13_partner_adoption R335; DC 2
  incomingLen : Nat := 0                -- bytes of it; 13_partner_adoption R335; DC 2
  twins : Tab (List (BitVec 64)) := []  -- twin pairs in force, 5 words each: own T0 to T255, partner's at 256 on; 04_breaker_retry_twins R116; DC 2
  allow : Tab Nat := []                 -- ramp allowances of the partner's hearths 0 to 7, unlisted 4; 08_feeds R203; DC 2
  loaded : List Loaded := []            -- custom schedules loaded; 17_pelavazil_commands R459; DC 2
deriving DecidableEq, Repr

/-- The time island (12 R306 to R311; 14 R372 to R375). -/
structure TimeSt where
  tai : Nat := 0                        -- 64 bits, time counter in ns; 12_time_events R306; DC 2
  tick : Nat := 0                       -- 64 bits, tick number; 12_time_events R306; spec
  state : Fin 8 := 0                    -- state code of R307; 12_time_events R307; spec
  uBase : Nat := 0                      -- U_BASE in 1/80 ns, without the growth since uAt; 12_time_events R307; DC 2
  uAt : Nat := 0                        -- counter reading from which U_BASE grows; 12_time_events R307; DC 2
  hops : BitVec 8 := 0                  -- hop count; 14_works R374; DC 2
  word : BitVec 64 := 0x100003E806400000#64 -- 64 bits, time word; 12_time_events R308; spec
  edges : Nat := 0                      -- consecutive 1PPS edges accepted; 12_time_events R309; spec
  lastPps : BitVec 64 := 0              -- time of the latest edge accepted; 17_pelavazil_commands R465; DC 2
  phased : Bool := false                -- 1 bit, an edge has set the phase; 12_time_events R309; DC 2
  ignored : BitVec 32 := 0              -- 32 bits, edges ignored; 12_time_events R309; DC 2
  known : Bool := false                 -- 1 bit, time of day known; 12_time_events R507; DC 2
  armed : Option (BitVec 64 × BitVec 32) := none -- TIME.SET armed for the next accepted edge; 12_time_events R310; DC 2
  ppsLost : Bool := false               -- 1 bit, 1PPS absent; 12_time_events R309; DC 2
  f10mLost : Bool := false              -- 1 bit, 10 MHz absent; 12_time_events R309; DC 2
  slew : Int := 0                       -- ns still to be slewed; 12_time_events R311; DC 2
  stepDue : Int := 0                    -- ns to be stepped at a tick boundary, a multiple of 250; 12_time_events R311; DC 2
  parent : Option (Fin 4) := none       -- lane of the time parent; 14_works R374; DC 2
  parentAddr : BitVec 16 := 0xFFFF      -- Works address of the time parent, 0xFFFF = none; 14_works R374; DC 2
  locked : Nat := 0                     -- consecutive exchanges within 4 ns; 14_works R375; DC 2
  wild : Nat := 0                       -- consecutive exchanges above 100 ns; 14_works R375; DC 2
  newParent : Bool := false             -- 1 bit, no exchange has been made since the parent changed; 14_works R375; DC 2
deriving DecidableEq, Repr

/-- A seal record whose block is not yet signed (12 R329, R330): the record, its seal number, the chain index and hash at it, the first
index of its period, and the time state. -/
structure SealDue where
  rec_ : EventRec
  num : Nat
  index : Nat
  chain : BitVec 384
  first : Nat
  state : Nat
deriving DecidableEq, Repr

/-- The event log, the audit chain and the seals (12 R324 to R331). -/
structure LogSt where
  recs : List EventRec := []            -- event log, newest first, up to 16,384 records; 12_time_events R327; DC 2
  head : Nat := 0                       -- 64 bits, log index of the latest record; 12_time_events R327; DC 2
  chain : BitVec 384 := 0               -- 384 bits, H of the latest record; 12_time_events R328; DC 2
  running : Bool := false               -- 1 bit, the chain has started; 12_time_events R328; DC 2
  last : Tab (BitVec 32) := []          -- last admitted SEQ plus a mark, per source (key source, value SEQ); 12_time_events R324; DC 2
  seen : List Nat := []                 -- sources with a record admitted, ascending; 17_pelavazil_commands R452; spec
  firsts : Tab (BitVec 32) := []        -- first SEQ admitted of each source (key source); 17_pelavazil_commands R466; DC 2
  crownSeq : Tab (BitVec 32) := []      -- next SEQ of each Crown-numbered source; 12_time_events R321; spec
  waiting : List EventRec := []         -- new records held for missing numbers, arrival order; 12_time_events R324; DC 2
  early : List EventRec := []           -- Crown and hearth records met before the chain starts; 12_time_events R328; DC 2
  sealNo : Nat := 0                     -- 64 bits, seals since the device reset; 12_time_events R330; spec
  sealsDue : List SealDue := []         -- seal records whose blocks are not yet signed, oldest first; 12_time_events R329; DC 2
  lastSealIndex : Nat := 0              -- chain index of the previous seal; 12_time_events R330; DC 2
  prevDigest : BitVec 384 := 0          -- SHA-384 of the previous seal block; 12_time_events R330; spec
  seals : List (Nat × List Byte) := []  -- the last 64 signed seal blocks, newest first; 12_time_events R329; DC 2
deriving DecidableEq, Repr

/-- A shard (11 R291). -/
structure Shard where
  slot : Nat
  id : BitVec 16
  code : BitVec 16
  source : BitVec 16
  cls : BitVec 2
  present : Bool
  latched : Bool
  shadowed : Bool
  firstAt : BitVec 64
  clearedAt : BitVec 64
  occurrences : BitVec 32
  merged : BitVec 32
  barrier : BitVec 32
  unc : BitVec 8
  reaction : BitVec 8
  latestAt : BitVec 64
  detail : BitVec 96
  shown : Bool
  faultInWin : Bool
  clearInWin : Bool
deriving DecidableEq, Repr

/-- A running reaction shadow (11 R295). -/
structure Shadow where
  code : BitVec 8
  shard : BitVec 16
  source : BitVec 16
  opened : Nat
  closed : Option Nat
  ends : Option Nat
  chans : List Nat
  index : Nat
deriving DecidableEq, Repr

/-- The fault collector (11). -/
structure CollectorSt where
  fsw : BitVec 64 := 0                  -- 64 bits, Fault Status Word; 11_fault_collector R289; spec
  shards : List Shard := []             -- shard memory, 1,024 slots; 11_fault_collector R294; spec
  nextId : BitVec 16 := 0               -- 16 bits, next SHARD_ID; 11_fault_collector R291; DC 2
  newest : BitVec 16 := 0               -- 16 bits, NEWEST; 17_pelavazil_commands R463; DC 2
  lost : BitVec 32 := 0                 -- 32 bits, lost-shard counter; 11_fault_collector R294; spec
  counts : Tab (BitVec 32) := []        -- corrected counter of each source and code; 11_fault_collector R286; spec
  storm : Tab (List (Nat × Nat)) := []  -- corrected errors of each source and code by TAI second; 11_fault_collector R287; DC 2
  stormSec : Nat := 0                   -- the newest TAI second counted; 11_fault_collector R287; DC 2
  shadows : List Shadow := []           -- running reaction shadows, oldest first; 11_fault_collector R295; DC 2
  heldEv : List (EventRec × BitVec 16 × BitVec 32) := [] -- EV_FAULT held for its BARRIER: record, source, barrier; 11_fault_collector R293; DC 2
  fatalSh : Option Shard := none        -- first fatal shard; 11_fault_collector R300; spec
  crash : Option (BitVec 32 × BitVec 64 × Shard × List Shard) := none -- crash sector: BOOT_COUNT, FSW, fatal, contained; 11_fault_collector R301; DC 2
  crashUnread : Bool := false           -- 1 bit, the copy is unread; 11_fault_collector R301; DC 2
  copyDue : Bool := false               -- 1 bit, a crash copy is due; 11_fault_collector R301; DC 2
deriving DecidableEq, Repr

/-- A checkpoint header and its bytes, for one partner hearth (13 R342). -/
structure CpBuf where
  cpSeq : BitVec 32 := 0                -- 32 bits CP_SEQ of the last complete buffer; 13_partner_adoption R340; spec
  have_ : Bool := false                 -- 1 bit, a complete checkpoint is held; 13_partner_adoption R342; DC 2
  bytes : List Byte := []               -- last complete buffer, 16,580 bytes; 13_partner_adoption R342; DC 2
  part : Nat := 0                       -- parts received of the next one; 13_partner_adoption R342; DC 2
  next : List Byte := []                -- the next one so far; 13_partner_adoption R342; DC 2
  blockAt : Nat := 0                    -- tick number at the latest hearth-state block; 13_partner_adoption R352; DC 2
  block : BitVec 64 := 0                -- latest hearth-state block of H(8 + j); 13_partner_adoption R345; spec
  claiming : Bool := false              -- 1 bit, a claim sent and not yet admitted; 13_partner_adoption R352; DC 2
  claimAt : Nat := 0                    -- tick number when it was sent; 13_partner_adoption R352; DC 2
  held : Bool := false                  -- 1 bit, held under this device's claim; 13_partner_adoption R334; DC 2
  accepted : Bool := false              -- 1 bit, that claim is accepted; 13_partner_adoption R349; DC 2
  claim : BitVec 32 := 0                -- claim number used; 13_partner_adoption R344; DC 2
  laneY : LaneSt := {}                  -- cross-in lane Yj; 13_partner_adoption R352; DC 2
  retries : Nat := 0                    -- failed return checkpoints; 13_partner_adoption R357; DC 2
deriving DecidableEq, Repr

/-- The pair (13). -/
structure PairSt where
  word : BitVec 64 := 0x0000002814000000#64 -- 64 bits, pair word; 13_partner_adoption R333; spec
  state : Fin 8 := 0                    -- pair state code; 13_partner_adoption R334; spec
  lane : LaneSt := {}                   -- pair lane P; 13_partner_adoption R335; DC 2
  tx : BitVec 32 := 0                   -- 32 bits, next frame sequence number of the pair lane; 13_partner_adoption R335; DC 2
  laneTick : Nat := 0                   -- tick number at the latest HEARTBEAT frame; 13_partner_adoption R337; DC 2
  pulseTick : Nat := 0                  -- tick number at the latest pulse; 13_partner_adoption R337; DC 2
  lastNs : Nat := 0                     -- 64 bits, TIME of the latest heartbeat; 13_partner_adoption R361; DC 2
  laneLive : Bool := false              -- 1 bit, pair lane live; 13_partner_adoption R337; spec (17 R451)
  pulseLive : Bool := false             -- 1 bit, pulse pair live; 13_partner_adoption R337; spec (17 R451)
  hbCount : BitVec 32 := 0              -- heartbeat count sent; 13_partner_adoption R335; DC 2
  hbSeen : BitVec 32 := 0               -- heartbeat count received; 13_partner_adoption R361; DC 2
  told : Bool := true                   -- 1 bit, the silence of both paths has been met; 13_partner_adoption R337; DC 2
  partnerState : BitVec 8 := 0          -- pair state in the partner's latest HEARTBEAT; 13_partner_adoption R335; DC 2
  greeted : Bool := false               -- 1 bit, HELLO and Book sent to the partner since it was last silent; 13_partner_adoption R334; DC 2
  banked : Bool := false                -- 1 bit, the partner is Banked; 13_partner_adoption R338; DC 2
  partnerId : BitVec 64 := 0            -- partner's device identifier; 13_partner_adoption R335; DC 2
  partnerDigest : BitVec 384 := 0       -- digest of the partner's HELLO; 13_partner_adoption R334; DC 2
  agreed : Bool := false                -- 1 bit, HELLO frames agree; 13_partner_adoption R334; DC 2
  cps : Tab CpBuf := []                 -- checkpoint buffers of the partner's hearths 0 to 7; 13_partner_adoption R342
  cpSeq : Tab (BitVec 32) := []         -- CP_SEQ of the latest checkpoint sent of hearths 0 to 15; 13_partner_adoption R340; DC 2
  lent : Tab CpBuf := []                -- checkpoint buffers of own hearths held by the partner; 13_partner_adoption R356; DC 2
  adopting : BitVec 8 := 0              -- partner hearths to be claimed once packing has taken effect; 13_partner_adoption R352; DC 2
  preparing : BitVec 8 := 0             -- partner hearths to be taken over by transfer once packing has taken effect; 13_partner_adoption R359; DC 2
  prepared : BitVec 8 := 0              -- partner hearths whose carry states are loaded, to be claimed at NOTICE RELEASED; 13_partner_adoption R359; DC 2
  returnDue : Bool := false             -- 1 bit, a return checkpoint of the hearth being handed falls due at its next tick; 13_partner_adoption R357; DC 2
  handing : Option (Fin 8) := none      -- hearth being handed back or transferred; 13_partner_adoption R357; DC 2
  handMask : BitVec 8 := 0              -- hearths still to hand back; 13_partner_adoption R357; DC 2
  handed : BitVec 8 := 0                -- hearths handed; 17_pelavazil_commands R467; DC 2
  transfer : Bool := false              -- 1 bit, the sequence is a transfer; 13_partner_adoption R359; DC 2
  handSrc : Option CmdSrc := none       -- the command that awaits it; 17_pelavazil_commands R467; DC 2
  fresh : Bool := false                 -- 1 bit, AUTO_RESET has not acted since the adoption; 13_partner_adoption R360; DC 2
  refusedMask : BitVec 8 := 0           -- hearths refused in this adoption; 13_partner_adoption R352; DC 2
  returnSince : Nat := 0                -- tick number at entry to RETURNING; 13_partner_adoption R356; DC 2
  adoptedSince : Nat := 0               -- tick number at adoption; 13_partner_adoption R360; DC 2
deriving DecidableEq, Repr

/-- A frame in a Works lane's retransmit buffer (14 R367). -/
structure WFrame where
  lseq : BitVec 16
  type : BitVec 4
  dest : BitVec 11
  src : BitVec 11
  hops : BitVec 5
  hopLocal : Bool
  payload : List (BitVec 64)
deriving DecidableEq, Repr

/-- States of a Works lane (14 R366). -/
inductive WLaneState where
  | disabled | training | hello | up | dormant | failed | mismatch
deriving DecidableEq, Repr

/-- One Works lane (14 R366, R367). -/
structure WLaneSt where
  state : WLaneState := .disabled       -- lane state; 14_works R366; DC 2
  hellosIn : Nat := 0                   -- consecutive good HELLOs received; 14_works R366; DC 2
  hellosOut : Nat := 0                  -- HELLOs sent; 14_works R366; DC 2
  neighbour : BitVec 16 := 0xFFFF       -- neighbour's Works address; 14_works R366; DC 2
  asymThere : BitVec 8 := 0             -- neighbour's ASYM; 14_works R373; DC 2
  lseqOut : BitVec 16 := 0              -- next LSEQ sent; 14_works R364; DC 2
  lseqIn : BitVec 16 := 0               -- next LSEQ accepted; 14_works R367; DC 2
  unacked : List WFrame := []           -- retransmit buffer, up to 64 frames; 14_works R367; DC 2
  queued : List WFrame := []            -- frames that wait for room in the buffer, by class; 14_works R368; DC 2
  adv : Tab (BitVec 5) := []            -- distances of the lane's latest ROUTE, unlisted 31; 14_works R369; DC 2
  syncNo : BitVec 16 := 0               -- sync number of the next TIMESYNC; 14_works R372; DC 2
  txPrev : BitVec 64 := 0               -- departure of the previous TIMESYNC; 14_works R372; DC 2
  rxTime : BitVec 64 := 0               -- arrival of the latest TIMESYNC; 14_works R372; DC 2
  rxSync : BitVec 16 := 0               -- sync number of the latest TIMESYNC; 14_works R372; DC 2
  peer : Option TimeSync := none        -- the latest TIMESYNC received; 14_works R374; DC 2
  deps : List (BitVec 16 × BitVec 64) := [] -- departures by sync number, newest first; 14_works R373; DC 2
  lost : BitVec 32 := 0                 -- frames discarded without a route; 14_works R367; DC 2
deriving DecidableEq, Repr

/-- A hold of an announcement (14 R379). -/
structure Hold where
  feedId : BitVec 16
  origin : BitVec 11
  hearth : BitVec 4
  ident : BitVec 16
  amount : Nat
deriving DecidableEq, Repr

/-- The Works role of the device: links, routes, addresses, forwarding, ledger (14). -/
structure WorksSt where
  word0 : BitVec 64 := 0                -- 64 bits, Works word 0; 14_works R362; spec
  word1 : BitVec 64 := 0                -- 64 bits, Works word 1; 14_works R362; spec
  lanes : Tab WLaneSt := []             -- lanes W0 to W3; 14_works R366
  routes : Tab (BitVec 5 × BitVec 2) := [] -- distance and next-hop lane of each address, unlisted 31; 14_works R369; DC 2
  addrs : Tab (BitVec 64 × BitVec 32 × Nat) := [] -- address table: identifier, count, when; 14_works R370; DC 2
  excluded : Bool := false              -- 1 bit, EXCLUDED; 14_works R370; spec
  addrCount : BitVec 32 := 0            -- count of the next ADDR; 14_works R370; DC 2
  nextTag : BitVec 32 := 0              -- tag of the next forwarded command; 14_works R383; DC 2
  sends : List (BitVec 32 × CmdSrc) := [] -- WORKS.SEND commands without a response; 14_works R383; DC 2
  fwdQ : List (BitVec 11 × BitVec 32 × List Byte × Nat) := [] -- forwarded commands waiting: origin, tag, bytes, arrival order; 14_works R383; DC 2
  fwdTag : Tab Nat := []                -- last tag executed, per origin, plus 1; 0 = none; 14_works R383; DC 2
  subsOut : Tab Nat := []               -- next log index for each subscriber, plus 1; 0 = none; 14_works R384; DC 2
  subsIn : Tab Nat := []                -- next log index expected from each origin, plus 1; 0 = none; 14_works R384; DC 2
  fwdRecs : List (BitVec 16 × Nat × EventRec) := [] -- forwarded records for the ring: origin, index, record; 14_works R384; DC 2
  totals : List (BitVec 16 × BitVec 11 × BitVec 4 × Nat) := [] -- allocations kept: feed, origin, hearth, 1/16 A; 14_works R379; DC 2
  holds : List Hold := []               -- holds kept; 14_works R379; DC 2
  retracts : List (BitVec 16 × BitVec 11 × BitVec 4 × BitVec 16 × Nat) := [] -- retractions kept 1 ms; 14_works R381; DC 2
  refusedOrg : List (BitVec 16 × BitVec 11 × Nat) := [] -- origins refused in the last 1 s; 14_works R379; DC 2
  useStandby : List (BitVec 16) := []   -- feeds whose KEEPER has been unreachable for 1 ms; 14_works R377; DC 2
  nextReq : BitVec 16 := 0              -- tag of the next ledger request; 14_works R378; DC 2
  announced : Tab (BitVec 16) := []     -- identifier of each group's open announcement, plus 1; 14_works R380; DC 2
  announceDue : List (Nat × Nat × Nat) := [] -- group, action (0 announce, 1 settled) and identifier that the firmware is to act on; 14_works R380; DC 2
  facility : List (BitVec 64) := []     -- facility feed table, up to 63 entries of 64 bits; 14_works R376; spec
  facilityP : List (BitVec 64) := []    -- facility feed table of the partner Book; 14_works R376; DC 2
  ledger : Tab (BitVec 16) := []        -- ledger map word of each hearth 0 to 15, unlisted 0xFFF0; 14_works R376; spec
  charged : Tab Nat := []               -- feed (1 A, 2 B) that each hearth's allocations are charged to, 0 = none; 14_works R377; DC 2
  routeDue : Bool := false              -- 1 bit, the table changed since the last ROUTE; 14_works R369; DC 2
  routeChanged : Nat := 0               -- entries changed since the last EV_WORKS_ROUTE; 14_works R387; DC 2
deriving DecidableEq, Repr

/-- A mailbox (16 R418). -/
structure Mbox where
  lock : BitVec 2 := 0                  -- 2 bits LOCK; 16_host_interface R418; spec
  phase : BitVec 2 := 0                 -- 2 bits PHASE; 16_host_interface R418; spec
  overrun : Bool := false               -- 1 bit OVERRUN; 16_host_interface R418; spec
  doneSeq : BitVec 16 := 0              -- 16 bits DONE_SEQ; 16_host_interface R418; spec
  request : Tab Byte := []              -- 1,984 bytes REQUEST; 16_host_interface R418; spec
  response : List Byte := []            -- 2,048 bytes RESPONSE, beyond its end 0; 16_host_interface R418; spec
  copy : List Byte := []                -- the request copied to firmware memory; 16_host_interface R420; DC 2
  length : BitVec 16 := 0               -- 16 bits LENGTH of the queued request; 16_host_interface R418; spec
  seq : BitVec 16 := 0                  -- 16 bits SEQ of the queued request; 16_host_interface R418; spec
  arrival : Nat := 0                    -- arrival order of the doorbell; 16_host_interface R420; model
  running : Bool := false               -- 1 bit, the command has started; 17_pelavazil_commands R447; DC 2
  answer : Option (BitVec 16 × List Byte) := none -- status and body of the command, until written; 16_host_interface R420; DC 2
  acted : Option (Nat × Nat) := none    -- CHAN command awaiting its Sitter, as channel and REQ bit posted, or SPY.CAPTURE awaiting its hearth, as 1024 + slot; 17_pelavazil_commands R454; DC 2
  snapshot : List Byte := []            -- snapshot of DEV.SUMMARY, [] = none; 17_pelavazil_commands R450; DC 2
  snapIndex : Nat := 0                  -- SNAP_INDEX of it; 17_pelavazil_commands R451; DC 2
deriving DecidableEq, Repr

/-- The host island (16). -/
structure HostSt where
  mboxes : Tab Mbox := []               -- mailboxes 0 to 15; 16_host_interface R418
  fwd : Tab Mbox := []                  -- the forwarded queue of each origin, as one mailbox; 17_pelavazil_commands R446
  arrivals : Nat := 0                   -- doorbells so far; 16_host_interface R420; model
  fence : Option CmdSrc := none         -- a DEV.FENCE is running; 17_pelavazil_commands R446; DC 2
  hostLost : Bool := false              -- 1 bit, host lost; 16_host_interface R415; DC 2
  d3 : Bool := false                    -- 1 bit, D3hot; 16_host_interface R415; DC 2
  mboxDone : BitVec 16 := 0             -- 16 bits MBOX_DONE; 16_host_interface R417; spec
  wakeCause : BitVec 32 := 0            -- 32 bits WAKE_CAUSE; 16_host_interface R417; spec
  wakeTime : BitVec 64 := 0             -- 64 bits WAKE_TIME; 16_host_interface R417; spec
  wakeStage : Nat := 0                  -- stages of the wake carried out, 0 to 5; 16_host_interface R438; DC 2
  wakeHeld : BitVec 32 := 0             -- causes held while Entering Banked; 16_host_interface R437; DC 2
  bankedAt : Nat := 0                   -- tick number at entry to Banked; 16_host_interface R438; DC 2
  wakeTick : Nat := 0                   -- tick number at which the wake started; 16_host_interface R438; DC 2
  nowHigh : BitVec 32 := 0              -- 32 bits, latched high word of TIME_NOW; 16_host_interface R417; spec
  irqStatus : BitVec 21 := 0            -- 21 bits SPI_IRQ_STATUS; 16_host_interface R417; spec
  irqMask : BitVec 21 := 0              -- 21 bits SPI_IRQ_MASK; 16_host_interface R417; spec
  msixMask : BitVec 32 := 0xFFFFFFFF    -- 32 MSI-X vector mask bits; 16_host_interface R414; PRESUMED 11
  msixPba : BitVec 32 := 0              -- 32 MSI-X pending bits; 16_host_interface R427; PRESUMED 11
  msixTable : Tab (BitVec 32) := []     -- MSI-X table words (address low, high, data) of 32 entries; 16_host_interface R416; PRESUMED 11
  ringBase : BitVec 64 := 0             -- 64 bits RING_BASE; 16_host_interface R424; spec
  ringOn : Bool := false                -- 1 bit ENABLE; 16_host_interface R424; spec
  ringSize : BitVec 5 := 0x0A           -- 5 bits SIZE_LOG2; 16_host_interface R424; spec
  ringWb : BitVec 64 := 0               -- 64 bits RING_WB; 16_host_interface R424; spec
  prod : BitVec 32 := 0                 -- 32 bits PROD; 16_host_interface R424; spec
  cons : BitVec 32 := 0                 -- 32 bits CONS; 16_host_interface R424; spec
  coalTime : BitVec 16 := 0x0064        -- 16 bits COAL_TIME; 16_host_interface R424; spec
  coalCount : BitVec 16 := 0x0010       -- 16 bits COAL_COUNT; 16_host_interface R424; spec
  coalSeen : Nat := 0                   -- entries written since the last vector 0; 16_host_interface R427; DC 2
  dmaError : Bool := false              -- 1 bit DMA_ERROR; 16_host_interface R424; spec
  stopped : Bool := false               -- 1 bit STOPPED; 16_host_interface R424; spec
  nextRing : Nat := 1                   -- next log index for the ring, WRITTEN; 17_pelavazil_commands R465; DC 2
  ringDropped : Nat := 0                -- records that left the log unwritten; 17_pelavazil_commands R465; DC 2
  ringGaps : List (Nat × BitVec 32 × BitVec 32) := [] -- sources owed an EV_GAP 0x03: first missing, count; 12_time_events R327; DC 2
  resume : List ResumeEntry := []       -- resume set; 17_pelavazil_commands R466; DC 2
  resumeDflt : Fin 3 := 1               -- DEFAULT of the resume set; 17_pelavazil_commands R466; DC 2
  resumeFinal : Bool := true            -- 1 bit, the set is closed; 17_pelavazil_commands R466; DC 2
  resumeFrom : Nat := 0                 -- log index that DEFAULT refers to; 17_pelavazil_commands R466; DC 2
  resumeUse : Bool := false             -- 1 bit, the set governs delivery; 17_pelavazil_commands R466; DC 2
  resumeNew : Bool := false             -- 1 bit, an EVT.RESUME has come since the ring was last enabled; 16_host_interface R426; DC 2
  resumeSnap : List ResumeEntry := []   -- under DEFAULT 0, each source seen at the snapshot with the SEQ that follows its latest; 17_pelavazil_commands R466; DC 2
  evtwIndex : BitVec 64 := 0            -- 64 bits EVTW_INDEX; 16_host_interface R431; spec
  bankSrc : Option CmdSrc := none       -- DEV.BANK in progress; 16_host_interface R435; DC 2
  spiErr : Bool := false                -- 1 bit, ERROR of the SPI status byte; 16_host_interface R428; DC 2
deriving DecidableEq, Repr

/-- The PMBus target (16 R432 to R434). -/
structure PmbSt where
  addr : Fin 8 := 0                     -- PMB_ADDR pins sampled at power-on; 16_host_interface R432; DC 2
  page : BitVec 8 := 0                  -- 8 bits PAGE; 16_host_interface R432; DC 2
  cml : BitVec 8 := 0                   -- 8 bits STATUS_CML latches; 16_host_interface R434; DC 2
  word : Tab (BitVec 16) := []          -- STATUS_WORD latches of pages 0 to 8; 16_host_interface R434; DC 2
  input : Tab (BitVec 8) := []          -- STATUS_INPUT latches of pages 1 to 8; 16_host_interface R434; DC 2
  temp : Tab (BitVec 8) := []           -- STATUS_TEMPERATURE latches of pages 0 to 8; 16_host_interface R434; DC 2
  mfr : Tab (BitVec 8) := []            -- STATUS_MFR_SPECIFIC latches of pages 0 to 8; 16_host_interface R434; DC 2
  vin : Tab (BitVec 16) := []           -- READ_VIN of each page; 16_host_interface R433; DC 2
  iin : Tab (BitVec 16) := []           -- READ_IIN; 16_host_interface R433; DC 2
  vout : Tab (BitVec 16) := []          -- READ_VOUT; 16_host_interface R433; DC 2
  temp1 : Tab (BitVec 16) := []         -- READ_TEMPERATURE_1; 16_host_interface R433; DC 2
  temp2 : Tab (BitVec 16) := []         -- READ_TEMPERATURE_2; 16_host_interface R433; DC 2
  pin : Tab (BitVec 16) := []           -- READ_PIN; 16_host_interface R433; DC 2
  reply : Option (List Byte) := none    -- bytes of the latest read, none = NACKed or no read; 16_host_interface R433; model
deriving DecidableEq, Repr

/-- JTAG instructions of the test port (18 R487). -/
inductive JtagIr where
  | idcode | samplePreload | extest | clamp | highz | bypass | debug
deriving DecidableEq, Repr

/-- The JTAG port (18 R487). -/
structure JtagSt where
  ir : JtagIr := .idcode                -- instruction register; 18_electrical_package R487; DC 2
  bsr : BitVec 256 := 0                 -- boundary-scan register; 18_electrical_package R487; DC 2
  bypass : Bool := false                -- 1 bit, bypass register; 18_electrical_package R487; DC 2
  shift : BitVec 32 := 0                -- 32 bits, data register selected for shifting; 18_electrical_package R487; DC 2
deriving DecidableEq, Repr

/-- A link on which the part sends. -/
inductive Link where
  | down (h : Nat)          -- to hearth Hh, own (hearth link) or adopted (Yj)
  | up (h : Nat) (p : Port) -- from own hearth Hh
  | pair                    -- the pair lane
  | works (n : Nat)         -- Works lane Wn
deriving DecidableEq, Repr

/-- What the part sends out in a step, in order (log entry 6): frames block by block, header and trailer included (01 R19), MSI-X messages,
memory writes, heartbeat pulses, and the bytes a serial port returns. -/
inductive Out where
  | frame (link : Link) (blocks : List (BitVec 64))
  | msix (vector : Nat)
  | dma (addr : Nat) (bytes : List Byte)
  | pulse
  | reply (bytes : List Byte)
deriving DecidableEq, Repr

/-- The Crown's end of the link to a hearth: an own hearth link, or cross-in lane Yj (01 R19 to R21). -/
structure LinkSt where
  tx : BitVec 32 := 0                   -- 32 bits, next frame sequence number; 01_architecture R19; DC 2
  rx : BitVec 32 := 0                   -- 32 bits, sequence number after the last one received in order; 01_architecture R20; DC 2
  seen : Bool := false                  -- 1 bit, a STATE frame came in this tick; 01_architecture R24; DC 2
  missed : Nat := 0                     -- consecutive ticks in which none came, up to 3; 01_architecture R24; DC 2
  changed : BitVec 64 := 0              -- 64 bits, channels whose command word changed since the last CMD frame; 01_architecture R21; DC 2
deriving DecidableEq, Repr

/-- The whole device: the Crown die, its eight hearth dies, and the queue of commands waiting. -/
structure State where
  cells : Tab Cell := []                -- cells of own channels 0 to 511; 01_architecture R14
  hearths : Tab HearthSt := []          -- hearths H0 to H7; 01_architecture R14
  slots : Tab SlotSt := []              -- slots S0 to S127; 02_channel_life R43
  spies : Tab Spy := []                 -- spyholes, hearth h number n at key 130 h + n; 07_spyholes R181
  captures : Tab Capture := []          -- capture slots, hearth h slot i at key 16 h + i; 07_spyholes R192
  groups : Tab Group := []              -- feed groups 0 to 7; 08_feeds R205
  hks : Tab Hk := []                    -- housekeeping converters of hearths 0 to 7; of 8 to 15, the changes sent; 06_converters R161
  chans : Tab ChanSt := []              -- Crown records of channels 0 to 1023; 09_engines R228
  cones : Tab ConeSt := []              -- Cone states of channels 0 to 1023; 05_cone_model R127
  engines : Tab Engine := []            -- engines E0 to E1023; 09_engines R227
  clusters : Tab Cluster := []          -- clusters 0 to 15; 09_engines R227
  links : Tab LinkSt := []              -- Crown ends of the links to hearths 0 to 15; 01_architecture R19
  gbus : Tab (BitVec 16 × Bool) := []   -- latest usable GBUS and its OVR, groups 0 to 15; 09_engines R233; DC 2
  feedWord : Tab (BitVec 16) := []      -- feed status word seen by the Crown, groups 0 to 15; 09_engines R233; spec (08 R205)
  hblocks : Tab (BitVec 64) := []       -- hearth-state block seen by the Crown, hearths 0 to 15; 13_partner_adoption R345; spec
  frameShadow : Tab Bool := []          -- SHADOW of the latest SAMPLE frame, hearths 0 to 15; 06_converters R160; spec
  frameTick : Tab Nat := []             -- engine tick that presents the latest SAMPLE frame, hearths 0 to 15; 09_engines R230; DC 2
  gbusNew : Tab Bool := []              -- the latest SAMPLE frame brought a usable GBUS, groups 0 to 15; 09_engines R233; DC 2
  hkRecs : Tab (BitVec 64 × BitVec 64 × BitVec 32) := [] -- latest record, aperture time and count of entry e of hearth h, key 32 h + e; 17_pelavazil_commands R462; DC 2
  passes : Tab (BitVec 32) := []        -- passes since commit, hearths 0 to 7; 17_pelavazil_commands R462; DC 2
  boot : Boot := {}                     -- boot, fuses, flash, measurement; 15_boot_trust
  books : Books := {}                   -- Kiln Books; 15_boot_trust
  time : TimeSt := {}                   -- time island; 12_time_events
  log : LogSt := {}                     -- event log and audit chain; 12_time_events
  coll : CollectorSt := {}              -- fault collector; 11_fault_collector
  pair : PairSt := {}                   -- partner pair; 13_partner_adoption
  works : WorksSt := {}                 -- the Works; 14_works
  host : HostSt := {}                   -- host island; 16_host_interface
  pmb : PmbSt := {}                     -- PMBus target; 16_host_interface
  jtag : JtagSt := {}                   -- JTAG port; 18_electrical_package
  out : List Out := []                  -- what the part has sent, oldest first; model
  free : Nat := 0                       -- free values met so far; model
  pending : List Instr := []            -- commands waiting, first in, first out; model
deriving DecidableEq, Repr

/-- Why a step faults. No meaning of this model faults: an operand names only registers that exist, and what the spec leaves open is a free value. -/
inductive Fault where
  /-- Raised by no meaning; it stands so that the type of faults is inhabited by a name. Safe: nothing reaches it. -/
  | unreachable
deriving DecidableEq, Repr

/-- Why a step is refused. -/
inductive Refusal where
  /-- Raised by an arm of `exec` whose command has no meaning yet. Safe: the machine stops. -/
  | notModelled (mnemonic : String)
  /-- Raised by AELHEIP_DEBUG while the fuse DEBUG_LOCK reads 0: 18 R487 names the instruction and gives no effect. Safe: the machine stops. -/
  | debugNotGiven
deriving DecidableEq, Repr

/-- The part before its first power: every field at its default, the queue empty (11 R303, 15 R388). -/
def State.reset : State := {}

end Sys2Proof.Machine
end

