-- ==== Sys2Proof/Machine/Ops.lean ====
section
/-! DEFINITION. The named operations over the tables of the state: reading and updating one cell, hearth, channel, engine and so on. -/
namespace Sys2Proof.Machine
open Sys2Proof

/-- The entry of a table at a key; what is not listed reads as the default. -/
def tabGet {α : Type} (d : α) : Tab α → Nat → α
  | [], _ => d
  | (a, v) :: r, k => if a = k then v else tabGet d r k

/-- The table with an entry put before the first greater key. -/
def tabIns {α : Type} : Tab α → Nat → α → Tab α
  | [], k, v => [(k, v)]
  | (a, w) :: r, k, v => if k < a then (k, v) :: (a, w) :: r else (a, w) :: tabIns r k v

/-- The table with the entry at a key replaced, in the same form: keys strictly rising, no entry equal to the default. -/
def tabSet {α : Type} [DecidableEq α] (d : α) (t : Tab α) (k : Nat) (v : α) : Tab α :=
  let u := t.filter fun p => p.1 != k
  if v = d then u else tabIns u k v

/-- All keys of a table lie above a bound and rise strictly, and no entry equals the default. -/
def tabWfAbove {α : Type} [DecidableEq α] (d : α) : Option Nat → Tab α → Bool
  | _, [] => true
  | lo, (a, v) :: r =>
    (match lo with | none => true | some b => decide (b < a)) && decide (v ≠ d) && tabWfAbove d (some a) r

/-- A table is in its one canonical form. -/
def tabWf {α : Type} [DecidableEq α] (d : α) (t : Tab α) : Bool := tabWfAbove d none t

/-- Write a run of values from a key on. -/
def tabPut {α : Type} [DecidableEq α] (d : α) (t : Tab α) : Nat → List α → Tab α
  | _, [] => t
  | k, v :: r => tabPut d (tabSet d t k v) (k + 1) r

/-- Read a run of `n` values from a key on. -/
def tabRun {α : Type} (d : α) (t : Tab α) : Nat → Nat → List α
  | _, 0 => []
  | k, n + 1 => tabGet d t k :: tabRun d t (k + 1) n

/-- The state with another `boot`. -/
def State.setBoot (s : State) (x : Boot) : State := { s with boot := x }

/-- The state with another `books`. -/
def State.setBooks (s : State) (x : Books) : State := { s with books := x }

/-- The state with another `time`. -/
def State.setTime (s : State) (x : TimeSt) : State := { s with time := x }

/-- The state with another `log`. -/
def State.setLog (s : State) (x : LogSt) : State := { s with log := x }

/-- The state with another `coll`. -/
def State.setColl (s : State) (x : CollectorSt) : State := { s with coll := x }

/-- The state with another `pair`. -/
def State.setPair (s : State) (x : PairSt) : State := { s with pair := x }

/-- The state with another `works`. -/
def State.setWorks (s : State) (x : WorksSt) : State := { s with works := x }

/-- The state with another `host`. -/
def State.setHost (s : State) (x : HostSt) : State := { s with host := x }

/-- The state with another `pmb`. -/
def State.setPmb (s : State) (x : PmbSt) : State := { s with pmb := x }

/-- The state with another `jtag`. -/
def State.setJtag (s : State) (x : JtagSt) : State := { s with jtag := x }

/-- The state with another `free`. -/
def State.setFree (s : State) (x : Nat) : State := { s with free := x }

/-- The state with the GBUS reading of a group entered. -/
def State.putGbus (s : State) (k : Nat) (x : BitVec 16 × Bool) : State := { s with gbus := tabSet (0, false) s.gbus k x }

/-- The state with the feed status word of a group entered. -/
def State.putFeedWord (s : State) (k : Nat) (x : BitVec 16) : State := { s with feedWord := tabSet 0 s.feedWord k x }

/-- The state with the hearth-state block of a hearth entered. -/
def State.putHblock (s : State) (k : Nat) (x : BitVec 64) : State := { s with hblocks := tabSet 0 s.hblocks k x }

/-- The state with the SHADOW flag of a hearth entered. -/
def State.putFrameShadow (s : State) (k : Nat) (x : Bool) : State := { s with frameShadow := tabSet false s.frameShadow k x }

/-- The state with the presentation tick of a hearth entered. -/
def State.putFrameTick (s : State) (k : Nat) (x : Nat) : State := { s with frameTick := tabSet 0 s.frameTick k x }

/-- The state with the mark of a fresh GBUS reading of a group entered. -/
def State.putGbusNew (s : State) (k : Nat) (x : Bool) : State := { s with gbusNew := tabSet false s.gbusNew k x }

/-- The state with the latest record of a sequence entry entered. -/
def State.putHkRec (s : State) (k : Nat) (x : BitVec 64 × BitVec 64 × BitVec 32) : State := { s with hkRecs := tabSet (0, 0, 0) s.hkRecs k x }

/-- The state with the passes of a hearth entered. -/
def State.putPasses (s : State) (k : Nat) (x : BitVec 32) : State := { s with passes := tabSet 0 s.passes k x }

/-- The state with another flash memory. -/
def State.setFlash (s : State) (x : Tab Byte) : State := { s with boot := { s.boot with flash := x } }

/-- The state with other fuses. -/
def State.setFuses (s : State) (x : BitVec 2560) : State := { s with boot := { s.boot with fuses := x } }

/-- The state with a measurement slot extended to `h`, counted, and logged while the log has room (15 R408, R409). -/
def State.measure (s : State) (slot : Nat) (h : BitVec 384) (x : BitVec 8 × BitVec 8 × BitVec 384) : State :=
  { s with boot := { s.boot with
      slots := s.boot.slots.set slot h
      mcount := s.boot.mcount + 1
      mlog := if s.boot.mlog.length < 512 then s.boot.mlog ++ [x] else s.boot.mlog } }

/-- The state with the passes and record counts of every own hearth at 0 (17 R462). -/
def State.restartHk (s : State) : State :=
  { s with passes := [], hkRecs := s.hkRecs.foldl (fun t p => if p.1 < 256 then tabSet (0, 0, 0) t p.1 (p.2.1, p.2.2.1, 0) else t) s.hkRecs }

/-- The own channel. -/
def State.cell (s : State) (k : Nat) : Cell := tabGet {} s.cells k

/-- The state with the own channel changed. -/
def State.updCell (s : State) (k : Nat) (f : Cell → Cell) : State :=
  { s with cells := tabSet {} s.cells k (f (s.cell k)) }

/-- The hearth. -/
def State.hearth (s : State) (k : Nat) : HearthSt := tabGet {} s.hearths k

/-- The state with the hearth changed. -/
def State.updHearth (s : State) (k : Nat) (f : HearthSt → HearthSt) : State :=
  { s with hearths := tabSet {} s.hearths k (f (s.hearth k)) }

/-- The slot. -/
def State.slot (s : State) (k : Nat) : SlotSt := tabGet {} s.slots k

/-- The state with the slot changed. -/
def State.updSlot (s : State) (k : Nat) (f : SlotSt → SlotSt) : State :=
  { s with slots := tabSet {} s.slots k (f (s.slot k)) }

/-- The spyhole at key 130 h + n. -/
def State.spy (s : State) (k : Nat) : Spy := tabGet {} s.spies k

/-- The state with the spyhole at key 130 h + n changed. -/
def State.updSpy (s : State) (k : Nat) (f : Spy → Spy) : State :=
  { s with spies := tabSet {} s.spies k (f (s.spy k)) }

/-- The capture slot at key 16 h + i. -/
def State.capture (s : State) (k : Nat) : Capture := tabGet {} s.captures k

/-- The state with the capture slot at key 16 h + i changed. -/
def State.updCapture (s : State) (k : Nat) (f : Capture → Capture) : State :=
  { s with captures := tabSet {} s.captures k (f (s.capture k)) }

/-- The feed group. -/
def State.group (s : State) (k : Nat) : Group := tabGet {} s.groups k

/-- The state with the feed group changed. -/
def State.updGroup (s : State) (k : Nat) (f : Group → Group) : State :=
  { s with groups := tabSet {} s.groups k (f (s.group k)) }

/-- The housekeeping converter. -/
def State.hk (s : State) (k : Nat) : Hk := tabGet {} s.hks k

/-- The state with the housekeeping converter changed. -/
def State.updHk (s : State) (k : Nat) (f : Hk → Hk) : State :=
  { s with hks := tabSet {} s.hks k (f (s.hk k)) }

/-- The channel record of the Crown. -/
def State.chan (s : State) (k : Nat) : ChanSt := tabGet {} s.chans k

/-- The state with the channel record of the Crown changed. -/
def State.updChan (s : State) (k : Nat) (f : ChanSt → ChanSt) : State :=
  { s with chans := tabSet {} s.chans k (f (s.chan k)) }

/-- The Cone state. -/
def State.cone (s : State) (k : Nat) : ConeSt := tabGet {} s.cones k

/-- The state with the Cone state changed. -/
def State.updCone (s : State) (k : Nat) (f : ConeSt → ConeSt) : State :=
  { s with cones := tabSet {} s.cones k (f (s.cone k)) }

/-- The engine. -/
def State.engine (s : State) (k : Nat) : Engine := tabGet {} s.engines k

/-- The state with the engine changed. -/
def State.updEngine (s : State) (k : Nat) (f : Engine → Engine) : State :=
  { s with engines := tabSet {} s.engines k (f (s.engine k)) }

/-- The cluster. -/
def State.cluster (s : State) (k : Nat) : Cluster := tabGet {} s.clusters k

/-- The state with the cluster changed. -/
def State.updCluster (s : State) (k : Nat) (f : Cluster → Cluster) : State :=
  { s with clusters := tabSet {} s.clusters k (f (s.cluster k)) }

/-- The checkpoint buffer of a partner hearth. -/
def State.cp (s : State) (k : Nat) : CpBuf := tabGet {} s.pair.cps k

/-- The state with the checkpoint buffer of a partner hearth changed. -/
def State.updCp (s : State) (k : Nat) (f : CpBuf → CpBuf) : State :=
  { s with pair := { s.pair with cps := tabSet {} s.pair.cps k (f (s.cp k)) } }

/-- The mailbox. -/
def State.mbox (s : State) (k : Nat) : Mbox := tabGet {} s.host.mboxes k

/-- The state with the mailbox changed. -/
def State.updMbox (s : State) (k : Nat) (f : Mbox → Mbox) : State :=
  { s with host := { s.host with mboxes := tabSet {} s.host.mboxes k (f (s.mbox k)) } }

/-- The forwarded queue of an origin. -/
def State.fwdBox (s : State) (k : Nat) : Mbox := tabGet {} s.host.fwd k

/-- The state with the forwarded queue of an origin changed. -/
def State.updFwdBox (s : State) (k : Nat) (f : Mbox → Mbox) : State :=
  { s with host := { s.host with fwd := tabSet {} s.host.fwd k (f (s.fwdBox k)) } }

/-- The Works lane. -/
def State.wlane (s : State) (k : Nat) : WLaneSt := tabGet {} s.works.lanes k

/-- The state with the Works lane changed. -/
def State.updWlane (s : State) (k : Nat) (f : WLaneSt → WLaneSt) : State :=
  { s with works := { s.works with lanes := tabSet {} s.works.lanes k (f (s.wlane k)) } }

/-- The 4-bit code of a channel state (02 R40). -/
def stCode : ChState → Nat
  | .vacant => 0 | .seated => 1 | .ready => 2 | .ramping => 3 | .full => 4 | .good => 5 | .tripped => 6 | .cooling => 7
  | .locked => 8 | .off => 9 | .held => 10

/-- The channel state of a code; the codes 0xB to 0xF name none (02 R40). -/
def stOf : Nat → Option ChState
  | 0 => some .vacant | 1 => some .seated | 2 => some .ready | 3 => some .ramping | 4 => some .full | 5 => some .good
  | 6 => some .tripped | 7 => some .cooling | 8 => some .locked | 9 => some .off | 10 => some .held
  | _ => none

/-- The state with one more thing sent. -/
def State.emit (s : State) (o : Out) : State := { s with out := s.out ++ [o] }

/-- The Crown's end of the link to a hearth. -/
def State.link (s : State) (k : Nat) : LinkSt := tabGet {} s.links k

/-- The state with the Crown's end of a link changed. -/
def State.updLink (s : State) (k : Nat) (f : LinkSt → LinkSt) : State :=
  { s with links := tabSet {} s.links k (f (s.link k)) }

/-- The lane on which frames to a hearth travel: the active lane of an own hearth link, else the one cross-in lane (01 R18). -/
def downLane (s : State) (h : Nat) : Nat := if h < 8 then (s.hearth h).active.val else 0

/-- A frame of the Crown to a hearth that takes the next sequence number (01 R19). -/
def sendDown (s : State) (h type : Nat) (payload : List (BitVec 64)) : State :=
  (s.emit (.frame (.down h) (linkFrame type (h % 8) (downLane s h) (s.link h).tx s.time.tick payload))).updLink h fun L => { L with tx := L.tx + 1 }

/-- A frame of the Crown on a lane that takes no sequence number: IDLE, ACK and the standby lane's TICK (01 R18; log entry 161). -/
def sendDownIdle (s : State) (h type lane : Nat) (payload : List (BitVec 64)) : State :=
  s.emit (.frame (.down h) (linkFrame type (h % 8) lane (s.link h).tx s.time.tick payload))

/-- A frame of a hearth is the latest received in order at the Crown (01 R20). -/
def takeUp (s : State) (h : Nat) : State := s.updLink h fun L => { L with rx := L.rx + 1 }

/-- A PARAM frame to an adopted hearth: address and value pairs of 64 bits each (01 R20). The address of word `i` of an item is
65536 × item + 256 × index + i: items 0 to 12 are those of ConfigItem in their order, 13 clears the housekeeping counters, 14 raises gate
event 9, 15 is the hearth reset, 16 the gate-current register, 17 an event request (log entry 12). -/
def sendParam (s : State) (h item index : Nat) (values : List Nat) : State :=
  sendDown s h 9 (payBlocks (((List.range values.length).zip values).flatMap fun p => [(64, 65536 * item + 256 * index + p.1), (64, p.2)]))

/-- The next free value and the state that has met it (log entry 1). -/
def State.freshFree (s : State) : Nat × State := (Config.freeValue s.free, { s with free := s.free + 1 })

/-- Apply an update for each number of a list, in order. -/
def forEach {α : Type} (l : List α) (f : State → α → State) (s : State) : State := l.foldl f s

/-- Keep the state unless a condition holds. -/
def State.when (s : State) (b : Bool) (f : State → State) : State := if b then f s else s

end Sys2Proof.Machine
end

