-- ==== Sys2Proof/Machine/Events.lean ====
section
/-! DEFINITION. Event records: stamping in a hearth and in the Crown, admission to the event log, the audit chain, interrupts (12, 16). -/
namespace Sys2Proof.Machine
open Sys2Proof

/-- Source identifiers (12 R318). -/
def srcDevice : Nat := 0x0000
def srcChan (c : Nat) : Nat := 0x1000 + c
def srcSlot (n : Nat) : Nat := 0x2000 + n
def srcHearth (h : Nat) : Nat := 0x3000 + h
def srcGroup (g : Nat) : Nat := 0x4000 + g
def srcLaneC (i : Nat) : Nat := 0x5000 + i
def srcLaneH (i : Nat) : Nat := 0x6000 + i
def srcEngine (e : Nat) : Nat := 0x7000 + e
def srcCluster (n : Nat) : Nat := 0x8000 + n
def srcIsland (i : Nat) : Nat := 0x9000 + i
def srcPartner : Nat := 0xA000
def srcWorks : Nat := 0xB000

/-- Type of a source identifier. -/
def srcType (src : Nat) : Nat := src / 4096
/-- Index of a source identifier. -/
def srcIdx (src : Nat) : Nat := src % 4096

/-- The hearth (0 to 15) at which a source's records are numbered, none for a source the Crown numbers (12 R318). -/
def srcHearthOf (src : Nat) : Option Nat :=
  let i := srcIdx src
  match srcType src with
  | 1 => some (i / 64)
  | 2 => some (i / 16)
  | 3 => some i
  | 4 => some i
  | 6 => if i < 32 then some (i / 2) else some (i - 32)
  | _ => none

/-- The 14-byte payload. -/
def pay (l : List (Nat × Nat)) : BitVec 112 := BitVec.ofNat 112 (payNat l)

/-- The number that follows a sequence number (12 R321). -/
def nextSeq (q : BitVec 32) : BitVec 32 := if q = 0xFFFFFFFF#32 then 1 else q + 1

/-- How far `q` lies after `last`, number 0 skipped (12 R324). -/
def seqDist (last q : BitVec 32) : Nat :=
  if last.toNat ≤ q.toNat then q.toNat - last.toNat else q.toNat + 0xFFFFFFFF - last.toNat

/-- U_BASE now, in 1/80 ns: its value at the loss or setting, grown by HOLD_RATE in FREE and HOLDOVER (12 R307). -/
def uBaseNow (s : State) : Nat :=
  if s.time.state = 1 ∨ s.time.state = 4 then
    s.time.uBase + ceilNat (fld s.time.word 32 12 * 80 * (s.time.tai - s.time.uAt)) 1000000000
  else s.time.uBase

/-- U_BASE in whole ns, rounded up. -/
def uBaseNs (s : State) : Nat := ceilNat (uBaseNow s) 80

/-- The 32-bit field that reports U_BASE in ns: all ones in UNSET (12 R307). -/
def uBaseField (s : State) : Nat := if s.time.state = 0 then 0xFFFFFFFF else min (uBaseNs s) 0xFFFFFFFF

/-- The holdover term of R314 in ns times 1,000,000: 20 ns per ms on the 250 MHz oscillator, 500 ns per ms on the other. -/
def holdTerm (H : HearthSt) : Nat := if H.holdover then 20 * H.holdNs + 500 * H.holdOscNs else 0

/-- UNC as a hearth writes it: the site term plus the holdover term, rounded up; 255 for a sampled record (12 R316). -/
def siteUnc (H : HearthSt) (site : Nat) (sampled : Bool) : BitVec 8 :=
  if sampled then 255 else BitVec.ofNat 8 (min 255 (site + ceilNat (holdTerm H) 1000000))

/-- A hearth numbers and stamps a record of one of its sources and keeps it for its next EVENT frame (12 R320, R321). -/
def stampRec (s : State) (h : Nat) (src code : Nat) (payload : BitVec 112) (cls time site : Nat) (sampled tickF : Bool) : State :=
  let H := s.hearth h
  let q := tabGet 0 H.seqs src
  let r : EventRec := {
    source := BitVec.ofNat 16 src, seq := q, time := BitVec.ofNat 64 time, unc := siteUnc H site sampled, unset := false,
    tick := tickF, holdover := H.holdover, sampled := sampled, cls := BitVec.ofNat 2 cls,
    code := BitVec.ofNat 16 code, payload := payload }
  s.updHearth h fun H => { H with seqs := tabSet 0 H.seqs src (nextSeq q), outbox := H.outbox ++ [r] }

/-- A record of a hearth action at the hearth's time plus `off` ns (12 R316, site term 8 ns). -/
def stampNow (s : State) (h src code : Nat) (l : List (Nat × Nat)) (off : Nat := 0) : State :=
  stampRec s h src code (pay l) 0 ((s.hearth h).tai + off) 8 false false

/-- A hearth reports an error as an EV_ERROR record of the erring source (11 R283, 12 R319). -/
def stampError (s : State) (h src code : Nat) (detail : Nat) (off : Nat := 0) : State :=
  stampRec s h src 0x1501 (pay [(16, code), (96, detail)]) (code / 256) ((s.hearth h).tai + off) 8 false false

/-- An MSI-X message, or its pending bit while its vector is masked (16 R427); none in host lost or D3hot (16 R415). -/
def msix (s : State) (v : Nat) : State :=
  if s.host.hostLost || s.host.d3 then s
  else if bitOf s.host.msixMask v then s.setHost { s.host with msixPba := s.host.msixPba ||| BitVec.ofNat 32 (2 ^ v) }
  else s.emit (.msix v)

/-- Set a bit of SPI_IRQ_STATUS (16 R430). -/
def spiIrq (s : State) (b : Nat) : State :=
  s.setHost { s.host with irqStatus := s.host.irqStatus ||| BitVec.ofNat 21 (2 ^ b) }

/-- The level of the IRQ_N ball (16 R430, 11 R300). -/
def irqN (s : State) : Bool := !(decide (s.host.irqStatus &&& s.host.irqMask ≠ 0) || s.boot.cracked)

/-- A hash as the byte string SHA-384 defines for it (12 R330). -/
def hashBytes (d : BitVec 384) : List Byte := (toLe 48 d.toNat).reverse

/-- A record as its 32 bytes (12 R317). -/
def recBytes (r : EventRec) : List Byte :=
  toLe 2 r.source.toNat ++ toLe 4 r.seq.toNat ++ toLe 8 r.time.toNat ++ toLe 1 r.unc.toNat ++
  toLe 1 (b2n r.unset * 4 + b2n r.tick * 8 + b2n r.holdover * 16 + b2n r.sampled * 32 + r.cls.toNat * 64) ++
  toLe 2 r.code.toNat ++ toLe 14 r.payload.toNat

/-- The record as admitted: the Crown adds U_BASE to UNC and the flags of its time base (12 R316, R317). -/
def admitForm (s : State) (r : EventRec) : EventRec :=
  { r with
    unset := r.unset || decide (s.time.state = 0)
    holdover := r.holdover || decide (s.time.state = 1) || decide (s.time.state = 4)
    unc := if r.sampled || r.unset || decide (s.time.state = 0) then 255 else BitVec.ofNat 8 (min 255 (r.unc.toNat + uBaseNs s)) }

/-- Account for a record that leaves the log without having been written to the ring (12 R327, 16 R426). -/
def noteDropped (gaps : List (Nat × BitVec 32 × BitVec 32)) (r : EventRec) : List (Nat × BitVec 32 × BitVec 32) :=
  match gaps with
  | [] => [(r.source.toNat, r.seq, 1)]
  | (a, f, n) :: t => if a = r.source.toNat then (a, f, n + 1) :: t else (a, f, n) :: noteDropped t r

/-- The number before a sequence number; number 0 is skipped (12 R321). -/
def prevSeq (q : BitVec 32) : BitVec 32 := if q = 1 then 0xFFFFFFFF#32 else q - 1

/-- A record of sequence `q` is new against a last number (12 R324). -/
def newAfter (last q : BitVec 32) : Bool := decide (q = 0) || (decide (1 ≤ seqDist last q) && decide (seqDist last q ≤ 2 ^ 31))

/-- Whether the resume set in force lets the record at a log index into the ring (17 R466). -/
def ringAdmits (s : State) (i : Nat) (r : EventRec) : Bool :=
  if !s.host.resumeUse then true
  else match s.host.resume.find? fun e => e.source == r.source with
    | some e => decide (r.seq = e.first) || newAfter (prevSeq e.first) r.seq
    | none => s.host.resumeDflt == 1 || decide (s.host.resumeFrom < i)

/-- Admit a record to the log and the chain, as the latest (12 R327, R328). A device in Cracked admits none (12 R331). The oldest of 16,384
records leaves the log; one that the ring was still to get is owed a gap record. -/
def admitRec (s : State) (r0 : EventRec) : State :=
  if s.boot.cracked then s
  else if !s.log.running then s.setLog { s.log with early := s.log.early ++ [r0] }
  else
    let r := admitForm s r0
    let n := s.log.head + 1
    let src := r.source.toNat
    let old := n - 16384
    let unwritten := (s.log.recs.drop 16383).filter fun q => decide (s.host.nextRing ≤ old) && ringAdmits s old q
    let s := s.setLog { s.log with
      recs := r :: s.log.recs.take 16383
      head := n
      chain := Config.sha384 (hashBytes s.log.chain ++ recBytes r)
      last := tabSet 0 s.log.last src r.seq
      firsts := if s.log.seen.contains src then s.log.firsts else tabSet 0 s.log.firsts src r.seq
      seen := insertAsc src s.log.seen }
    let s := s.setHost { s.host with
      ringDropped := s.host.ringDropped + unwritten.length
      ringGaps := unwritten.foldl noteDropped s.host.ringGaps
      nextRing := max s.host.nextRing (old + 1) }
    if s.host.evtwIndex.toNat < n then spiIrq s 20 else s

/-- Whether the log has reached sequence number `b` of a source, so that nothing up to it is still to come (11 R293). -/
def barrierMet (s : State) (src : Nat) (b : BitVec 32) : Bool :=
  decide (src ∉ s.log.seen) || decide (2 ^ 31 < seqDist (tabGet 0 s.log.last src) b) ||
    decide (tabGet 0 s.log.last src = b)

/-- Number a record of a Crown-numbered source and admit it (12 R320, R321). -/
def numberAdmit (s : State) (r : EventRec) : State :=
  let src := r.source.toNat
  let q := tabGet 0 s.log.crownSeq src
  let s := s.setLog { s.log with crownSeq := tabSet 0 s.log.crownSeq src (nextSeq q) }
  admitRec s { r with seq := q }

/-- A Crown record at the time counter's reading (12 R316, site term 8 ns). -/
def crownRec (s : State) (src code : Nat) (payload : BitVec 112) (cls : Nat) : EventRec :=
  { source := BitVec.ofNat 16 src, seq := 0, time := BitVec.ofNat 64 s.time.tai, unc := 8, unset := false, tick := false,
    holdover := false, sampled := false, cls := BitVec.ofNat 2 cls, code := BitVec.ofNat 16 code, payload := payload }

/-- The Crown stamps an event of one of its sources. -/
def crownStamp (s : State) (src code : Nat) (l : List (Nat × Nat)) : State :=
  numberAdmit s (crownRec s src code (pay l) 0)

/-- Place the EV_FAULT records whose BARRIER the log has reached, in the order they were held (11 R293). -/
def releaseHeld (s : State) : State :=
  let go := s.coll.heldEv.filter fun e => barrierMet s e.2.1.toNat e.2.2
  let keep := s.coll.heldEv.filter fun e => !barrierMet s e.2.1.toNat e.2.2
  go.foldl (fun s e => numberAdmit s e.1) (s.setColl { s.coll with heldEv := keep })

/-- Whether a record of sequence `q` is new for its source (12 R324). A source with no record admitted since the device reset
has no last number, so any number is new and next (log entry 13). -/
def isNew (s : State) (src : Nat) (q : BitVec 32) : Bool :=
  decide (src ∉ s.log.seen) || newAfter (tabGet 0 s.log.last src) q

/-- The first number that a record stands for: FIRST_MISSING for a hearth's EV_GAP of cause 0x01, else its own (12 R326). -/
def firstCovered (r : EventRec) : BitVec 32 :=
  if r.code = 0x1001 ∧ (r.payload.toNat / 2 ^ 64) % 256 = 1 then BitVec.ofNat 32 r.payload.toNat else r.seq

/-- Whether a record is the next of its source: nothing between it and the last admitted is missing (12 R324). -/
def isNext (s : State) (r : EventRec) : Bool :=
  let src := r.source.toNat
  decide (r.seq = 0) || decide (src ∉ s.log.seen) || decide (firstCovered r = nextSeq (tabGet 0 s.log.last src)) ||
    decide (r.seq = nextSeq (tabGet 0 s.log.last src))

/-- Admit the waiting records that have become next, oldest arrival first. `n` bounds the passes by the number waiting. -/
def drainWaiting : Nat → State → State
  | 0, s => s
  | n + 1, s =>
    match s.log.waiting.find? (isNext s) with
    | none => s
    | some r => drainWaiting n (admitRec (s.setLog { s.log with waiting := s.log.waiting.erase r }) r)

/-- The Crown receives a record: a duplicate is discarded, the next is admitted, a later one waits (12 R324). -/
def receiveRec (s : State) (r : EventRec) : State :=
  if !isNew s r.source.toNat r.seq || s.log.waiting.contains r then s
  else if isNext s r then
    let s := admitRec s r
    drainWaiting s.log.waiting.length s
  else s.setLog { s.log with waiting := s.log.waiting ++ [r] }

end Sys2Proof.Machine
end

