-- ==== Sys2Proof/Machine/Collector.lean ====
section
/-! DEFINITION. The fault collector: classes, the Fault Status Word, shards, reaction shadows, EV_FAULT and Cracked (11). -/
namespace Sys2Proof.Machine
open Sys2Proof

/-- Class of an error code: its high byte (11 R286, R288). -/
def errClass (code : Nat) : Nat := code / 256

/-- Errors without a lasting condition (11 R288). -/
def momentary (code : Nat) : Bool := (0x100 ≤ code && code ≤ 0x106) || code == 0x214

/-- Errors that describe the power path are never merged into a shadow (11 R297). -/
def powerPath (code : Nat) : Bool := [0x202, 0x203, 0x20F, 0x211, 0x212, 0x210, 0x207, 0x20B].contains code

/-- Whether the Crown numbers a source's records (12 R318). -/
def crownNumbered (src : Nat) : Bool := (srcHearthOf src).isNone

/-- The hearth (0 to 15) that an error's source belongs to, for the FSW and the shadow of a hearth reset (11 R289, R295). -/
def errHearth (src : Nat) : Option Nat :=
  let i := srcIdx src
  if srcType src = 5 then (if i < 16 then some (i / 2) else if i < 24 then some (8 + (i - 16)) else none)
  else srcHearthOf src

/-- The FSW bits of an error (11 R289): CORRECTED; or CONTAINED and the first further field that fits. -/
def fswBits (code src : Nat) : List Nat :=
  let i := srcIdx src
  let t := srcType src
  if errClass code = 1 then [60]
  else if errClass code = 3 then [63, 62]
  else
    let own (lo : Nat) := match errHearth src with
      | some h => if h < 8 then [61, lo + h] else [61, 8 + (h - 8)]
      | none => [61]
    match errHearth src with
    | some h =>
      if 8 ≤ h then [61, 8 + (h - 8)]
      else if code = 0x217 then [61, 48 + h]
      else if code = 0x213 then own 40
      else if code = 0x218 then [61, 4]
      else if code = 0x219 then [61, 3]
      else own 32
    | none =>
      if code = 0x215 ∨ code = 0x216 then [61, 16 + (if t = 7 then i / 64 else i) % 16]
      else if code = 0x21A ∨ code = 0x21B ∨ (code = 0x213 ∧ i = 24) then [61, 58]
      else if code = 0x21C ∨ code = 0x213 then [61, 57]
      else if code = 0x21D then [61, 56]
      else if code = 0x21E then [61, 7]
      else if code = 0x21F then [61, 6]
      else if code = 0x220 then [61, 5]
      else if code = 0x218 then [61, 4]
      else if code = 0x219 then [61, 3]
      else [61]

/-- A word with the listed bits set. -/
def setBits (w : BitVec 64) (bs : List Nat) : BitVec 64 := bs.foldl (fun w b => w ||| BitVec.ofNat 64 (2 ^ b)) w

/-- Latch the FSW bits of an error; vector 4 and SPI bit 19 when a bit of class contained rises (16 R427, R430). -/
def latchFsw (s : State) (code src : Nat) : State :=
  let old := s.coll.fsw
  let new := setBits old (fswBits code src)
  let s := s.setColl { s.coll with fsw := new }
  if errClass code = 2 ∧ old ≠ new then spiIrq (msix s 4) 19 else s

/-- Last sequence number that a source has stamped, and the source whose records the barrier waits for. For a hearth lane's Crown
end it is the hearth's own sequence, as in the worked example of 11. -/
def barrierOf (s : State) (src : Nat) : Nat × BitVec 32 :=
  let b := if srcType src = 5 ∧ srcIdx src < 16 then srcHearth (srcIdx src / 2) else src
  match srcHearthOf b with
  | some h => if h < 8 then (b, tabGet 0 (s.hearth h).seqs b - 1) else (b, tabGet 0 s.log.last b)
  | none => (b, tabGet 0 s.log.crownSeq b - 1)

/-- The channels an engine serves (09 R229). -/
def engineChans (s : State) (e : Nat) : List Nat :=
  (s.chans.filter fun p => p.2.sitter = some e || p.2.cone = some e).map (·.1)

/-- The channels a cluster serves. -/
def clusterChans (s : State) (n : Nat) : List Nat :=
  (s.chans.filter fun p => (match p.2.sitter with | some e => e / 64 == n | none => false) ||
    (match p.2.cone with | some e => e / 64 == n | none => false)).map (·.1)

/-- The reaction that an error starts, with the index of its target (11 R295). A commanded reset names its target as source. -/
def reactionOf (code src : Nat) : Option (Nat × Nat) :=
  let i := srcIdx src
  let t := srcType src
  if code = 0x213 ∧ (t = 5 ∨ t = 6) ∧ i < 16 then some (1, i)
  else if code = 0x215 then some (2, i)
  else if code = 0x100 ∧ t = 8 then some (3, i)
  else if code = 0x100 ∧ t = 3 then some (4, i)
  else if errClass code = 3 then some (5, 0)
  else none

/-- Whether an error lies in the shadow set of a reaction (11 R295). -/
def inSet (sh : Shadow) (code src : Nat) : Bool :=
  let i := srcIdx src
  let t := srcType src
  let onChan := t == 1 && sh.chans.contains i
  match sh.code.toNat with
  | 1 => ((t == 5 || t == 6) && i == sh.index && (code == 0x102 || code == 0x103 || code == 0x213)) ||
      (t == 3 && i == sh.index / 2 && (code == 0x104 || code == 0x214)) ||
      (t == 1 && i / 64 == sh.index / 2 && code == 0x201)
  | 2 => (t == 7 && i == sh.index && (code == 0x105 || code == 0x101)) ||
      (onChan && (code == 0x20C || code == 0x20D || code == 0x201))
  | 3 => (t == 8 && i == sh.index) || (t == 7 && i / 64 == sh.index) ||
      (t == 7 && i / 64 == (sh.index + 8) % 16 && code == 0x105) ||
      (onChan && (code == 0x20C || code == 0x20D || code == 0x201))
  | 4 => (match errHearth src with | some h => h == sh.index | none => false) && t != 2
  | 5 => crownNumbered src
  | _ => false

/-- The running shadow, oldest first, that an error detected at a time lies in (11 R296). -/
def shadowOf (s : State) (code src atNs : Nat) : Option Shadow :=
  if powerPath code then none
  else s.coll.shadows.find? fun sh =>
    decide (sh.opened ≤ atNs) && (match sh.closed with | none => true | some c => decide (atNs ≤ c)) && inSet sh code src

/-- Saturating increment of a 32-bit counter. -/
def satInc (n : BitVec 32) : BitVec 32 := if n = 0xFFFFFFFF#32 then n else n + 1

/-- Change the shards with one number. -/
def updShard (l : List Shard) (id : BitVec 16) (f : Shard → Shard) : List Shard :=
  l.map fun x => if x.id = id then f x else x

/-- Put an EV_FAULT (or EV_FAULT_CLEAR) of a shard into the stream, held back until its BARRIER is met (11 R293). -/
def placeFault (s : State) (x : Shard) (clear : Bool) : State :=
  let b := barrierOf s x.source.toNat
  let r := if clear then crownRec s (srcIsland 2) 0x1503 (pay [(16, x.id.toNat), (16, x.source.toNat), (16, x.code.toNat)]) x.cls.toNat
    else crownRec s (srcIsland 2) 0x1502
      (pay [(16, x.id.toNat), (16, x.source.toNat), (16, x.code.toNat), (32, x.occurrences.toNat), (32, x.barrier.toNat)]) x.cls.toNat
  if barrierMet s b.1 x.barrier ∧ s.coll.heldEv.all (fun e => e.2.1.toNat ≠ b.1) then numberAdmit s r
  else s.setColl { s.coll with heldEv := s.coll.heldEv ++ [(r, BitVec.ofNat 16 b.1, x.barrier)] }

/-- A shard's PRESENT has risen (or fallen): place the record unless one of its kind was placed in this window (11 R293). -/
def noteChange (s : State) (id : BitVec 16) (clear : Bool) : State :=
  match s.coll.shards.find? (fun x => x.id = id) with
  | none => s
  | some x =>
    if (if clear then x.clearInWin else x.faultInWin) then s
    else
      let s := s.setColl { s.coll with shards := updShard s.coll.shards id fun x =>
        if clear then { x with clearInWin := true, shown := false } else { x with faultInWin := true, shown := true } }
      placeFault s x clear

/-- The lowest free shard slot of a range, if any (11 R294). -/
def freeSlot (l : List Shard) : Nat → Nat → Option Nat
  | _, 0 => none
  | lo, n + 1 => if l.any (fun x => x.slot = lo) then freeSlot l (lo + 1) n else some lo

/-- A shard was lost: SHARD_LOSS and the lost-shard counter (11 R294). -/
def loseShard (s : State) : State :=
  s.setColl { s.coll with fsw := setBits s.coll.fsw [59], lost := satInc s.coll.lost }

/-- What the collector is told of an error: code, source, detection time, its uncertainty, barrier and context words. -/
structure ErrIn where
  code : Nat
  src : Nat
  atNs : Nat
  unc : Nat
  barrier : BitVec 32
  detail : Nat

/-- A new shard of an error in a slot (11 R291). -/
def mkShard (s : State) (e : ErrIn) (slot : Nat) : Shard :=
  { slot := slot, id := s.coll.nextId, code := BitVec.ofNat 16 e.code, source := BitVec.ofNat 16 e.src,
    cls := BitVec.ofNat 2 (errClass e.code), present := !momentary e.code, latched := true, shadowed := false,
    firstAt := BitVec.ofNat 64 e.atNs, clearedAt := if momentary e.code then BitVec.ofNat 64 e.atNs else 0,
    occurrences := 1, merged := 0, barrier := e.barrier, unc := BitVec.ofNat 8 (min 255 e.unc),
    reaction := BitVec.ofNat 8 ((reactionOf e.code e.src).map (·.1) |>.getD 0), latestAt := 0,
    detail := BitVec.ofNat 96 e.detail, shown := false, faultInWin := false, clearInWin := false }

/-- Write a shard, displacing the oldest corrected one for a contained error when no slot is free (11 R294). -/
def writeShard (s : State) (e : ErrIn) : State :=
  let put (s : State) (slot : Nat) : State :=
    let x := mkShard s e slot
    s.setColl { s.coll with shards := s.coll.shards ++ [x], nextId := x.id + 1, newest := x.id }
  match freeSlot s.coll.shards 0 1008 with
  | some n => put s n
  | none =>
    if errClass e.code = 1 then loseShard s
    else match s.coll.shards.find? (fun x => x.cls = 1) with
      | some y => put (loseShard (s.setColl { s.coll with shards := s.coll.shards.filter (fun x => x.id ≠ y.id) })) y.slot
      | none => loseShard s

/-- The events of an occurrence: EV_FAULT at a rise of PRESENT, and EV_FAULT_CLEAR after it for a contained momentary error;
a corrected shard gives EV_FAULT at its creation only (11 R293). -/
def noteOccurrence (s : State) (e : ErrIn) (id : BitVec 16) (created rose : Bool) : State :=
  if errClass e.code = 1 then (if created then noteChange s id false else s)
  else if momentary e.code then noteChange (noteChange s id false) id true
  else if rose then noteChange s id false else s

/-- Open the shadow of the reaction that an error starts (11 R295). -/
def openShadow (s : State) (e : ErrIn) (id : BitVec 16) : State :=
  match reactionOf e.code e.src with
  | none => s
  | some (r, i) =>
    let sh : Shadow := {
      code := BitVec.ofNat 8 r, shard := id, source := BitVec.ofNat 16 e.src, opened := e.atNs, closed := none, index := i,
      ends := if r = 1 then some (e.atNs + 22000000) else none,
      chans := if r = 2 then engineChans s i else if r = 3 then clusterChans s i else [] }
    s.setColl { s.coll with shadows := s.coll.shadows ++ [sh] }

/-- An error is merged into the latched shard of its code and source, or opens a new one (11 R292). -/
def recordShard (s : State) (e : ErrIn) : State :=
  match s.coll.shards.find? (fun x => x.code.toNat = e.code ∧ x.source.toNat = e.src ∧ x.latched) with
  | some x =>
    let s := s.setColl { s.coll with shards := updShard s.coll.shards x.id fun x => { x with
      occurrences := satInc x.occurrences, latestAt := BitVec.ofNat 64 e.atNs,
      present := !momentary e.code, clearedAt := if momentary e.code then BitVec.ofNat 64 e.atNs else 0 } }
    openShadow (noteOccurrence s e x.id false (!x.present)) e x.id
  | none =>
    let id := s.coll.nextId
    let s := writeShard s e
    openShadow (if s.coll.nextId = id then s else noteOccurrence s e id true true) e id

/-- The counts of a source and code by TAI second, one raised; those of more than 4 seconds before the newest are dropped (11 R287). -/
def stormCount (l : List (Nat × Nat)) (sec newest : Nat) : Nat × List (Nat × Nat) :=
  let n := ((l.find? fun p => p.1 = sec).map (·.2)).getD 0 + 1
  (n, (sec, n) :: l.filter fun p => decide (p.1 ≠ sec) && decide (newest < p.1 + 4))

/-- Count a corrected error; the 1,001st of one source and code detected in one TAI second is a storm, however late the error comes
(11 R286, R287). -/
def countCorrected (s : State) (e : ErrIn) : State × Bool :=
  let k := e.src * 65536 + e.code
  let sec := e.atNs / 1000000000
  let newest := max s.coll.stormSec sec
  let x := stormCount (tabGet [] s.coll.storm k) sec newest
  (s.setColl { s.coll with
      counts := tabSet 0 s.coll.counts k (satInc (tabGet 0 s.coll.counts k)), storm := tabSet [] s.coll.storm k x.2, stormSec := newest },
   x.1 = 1001)

/-- An error of class corrected or contained outside every shadow sets its FSW bits and its shard (11 R284). -/
def recordError (s : State) (e : ErrIn) : State := recordShard (latchFsw s e.code e.src) e

/-- Merge an error into the shard that started a shadow (11 R296). -/
def mergeInto (s : State) (sh : Shadow) : State :=
  let f (x : Shard) : Shard := { x with merged := satInc x.merged, shadowed := true }
  if sh.code = 5 then s.setColl { s.coll with fatalSh := s.coll.fatalSh.map f }
  else s.setColl { s.coll with shards := updShard s.coll.shards sh.shard f }

/-- Entry to Cracked, by the collector alone (11 R300): the fatal shard, the FSW, frames and heartbeats stop (they are sent only by
a device not in Cracked), IRQ_N, and vector 1. A later fatal error merges into the first shard. -/
def enterCracked (s : State) (e : ErrIn) : State :=
  if s.boot.cracked then s.setColl { s.coll with fatalSh := s.coll.fatalSh.map fun x => { x with merged := satInc x.merged, shadowed := true } }
  else
    let x := mkShard s e 1008
    let s := (s.setColl { s.coll with fsw := setBits s.coll.fsw [63, 62], fatalSh := some x, nextId := x.id + 1, newest := x.id, copyDue := true }).setBoot { s.boot with cracked := true, devState := 5 }
    msix (spiIrq (openShadow s e x.id) 16) 1

/-- An error inside a running shadow merges into the shard that started it; any other is recorded (11 R284, R296). -/
def judgeError (s : State) (e : ErrIn) : State :=
  match shadowOf s e.code e.src e.atNs with
  | some sh => mergeInto s sh
  | none => recordError s e

/-- An error reaches the collector (11 R284 to R297). -/
def takeError (s : State) (e : ErrIn) : State :=
  if errClass e.code = 3 then enterCracked s e
  else if errClass e.code = 1 then
    let c := countCorrected s e
    let s := judgeError c.1 e
    if c.2 then judgeError s { e with code := 0x219, detail := e.code + 2 ^ 32 * 1001 } else s
  else judgeError s e

/-- A Crown block raises an error now: detected at the time counter's reading, with U_BASE plus 8 ns (11 R283). -/
def raiseError (s : State) (code src detail : Nat) : State :=
  takeError s { code := code, src := src, atNs := s.time.tai, unc := if s.time.state = 0 then 255 else uBaseNs s + 8,
                barrier := (barrierOf s src).2, detail := detail }

/-- The condition of an error has gone: PRESENT falls (11 R292, R293). -/
def clearErrorAt (s : State) (code src atNs : Nat) : State :=
  match s.coll.shards.find? (fun x => x.code.toNat = code ∧ x.source.toNat = src ∧ x.present) with
  | none => s
  | some x =>
    let s := s.setColl { s.coll with shards := updShard s.coll.shards x.id fun x =>
      { x with present := false, clearedAt := BitVec.ofNat 64 atNs } }
    if errClass code = 1 then s else noteChange s x.id true

/-- The same, at the time counter's reading. -/
def clearError (s : State) (code src : Nat) : State := clearErrorAt s code src s.time.tai

/-- Whether an error's condition holds now, by its shard (11 R290). -/
def errPresent (s : State) (code src : Nat) : Bool :=
  s.coll.shards.any fun x => x.code.toNat = code && x.source.toNat = src && x.present

/-- An own hearth reports an error that lasts while its condition holds (11 R288). -/
def reportError (s : State) (h src code : Nat) (detail : Nat) (off : Nat := 0) : State :=
  stampError (s.updHearth h fun H => { H with lasting := H.lasting.filter (fun e => decide (e ≠ (code, src))) ++ [(code, src)] }) h src code detail off

/-- The condition of an own hearth's error has ended: PRESENT falls at once (11 R288; log entry 45). -/
def endError (s : State) (h src code : Nat) : State :=
  if (s.hearth h).lasting.contains (code, src) then
    clearError (s.updHearth h fun H => { H with lasting := H.lasting.filter fun e => decide (e ≠ (code, src)) }) code src
  else s

/-- The codes that an own hearth ends by itself. -/
def endsItself (code : Nat) : Bool := [0x203, 0x204, 0x209, 0x20A, 0x20E, 0x20F, 0x210, 0x211, 0x212].contains code

/-- An EV_ERROR record that the Crown admits is an error that reaches the collector, at the hearth's stamp (11 R283). An own hearth's error that
has ended while its record was on its way is not present (11 R288). -/
def collectRecord (s : State) (r : EventRec) : State :=
  if r.code = 0x1501 then
    let code := r.payload.toNat % 65536
    let src := r.source.toNat
    let s := takeError s { code := code, src := src, atNs := r.time.toNat, unc := (admitForm s r).unc.toNat,
                           barrier := r.seq - 1, detail := r.payload.toNat / 65536 }
    match srcHearthOf src with
    | some h => if endsItself code && decide (h < 8) && !(s.hearth h).lasting.contains (code, src) then clearError s code src else s
    | none => s
  else s

/-- A reset that a command performs is counted on its target, and starts the target's reaction (11 R288, R295; 17 R464). -/
def commandedReset (s : State) (target op mbox : Nat) : State := raiseError s 0x100 target (op + 2 ^ 16 * mbox + 2 ^ 32 * target)

/-- The happening that ends a reaction's shadow has come: the running shadow will end at a time (11 R295). -/
def scheduleEnd (s : State) (r i : Nat) (endNs : Nat) : State :=
  s.setColl { s.coll with shadows := s.coll.shadows.map fun sh =>
      if sh.code.toNat = r ∧ sh.index = i ∧ sh.closed.isNone then { sh with ends := some endNs } else sh }

/-- The same, unless an end is already set. -/
def scheduleFirst (s : State) (r i : Nat) (endNs : Nat) : State :=
  s.setColl { s.coll with shadows := s.coll.shadows.map fun sh =>
      if sh.code.toNat = r ∧ sh.index = i ∧ sh.closed.isNone ∧ sh.ends.isNone then { sh with ends := some endNs } else sh }

end Sys2Proof.Machine
end

