-- ==== Sys2Proof/Machine/HkOps.lean ====
section
/-! DEFINITION. The housekeeping sequencer's shared operations: entries, inputs, gate events, passes (06 R161 to R176). -/
namespace Sys2Proof.Machine
open Sys2Proof

/-- The word of an unlisted sequence entry: every field at its Reset value, ACQ 4 (06 R168). -/
def entryReset : BitVec 64 := 0x0000080000000000#64

/-- A sequence entry of a hearth. -/
def hkEntry (K : Hk) (i : Nat) : BitVec 64 := tabGet entryReset K.entries i

/-- Fields of a sequence entry (06 R168). -/
def eInput (w : BitVec 64) : Nat := fld w 57 7
def eSpan (w : BitVec 64) : Nat := fld w 51 6
def eMode (w : BitVec 64) : Nat := fld w 49 2
def eAcq (w : BitVec 64) : Nat := fld w 41 6
def eUrgent (w : BitVec 64) : Bool := bitOf w 40
def eEvt (w : BitVec 64) : Nat := fld w 36 4
def eDelay (w : BitVec 64) : Nat := fld w 28 8
def eSel (w : BitVec 64) : Nat := fld w 18 10
def eFollow (w : BitVec 64) : Bool := bitOf w 17
def eOwner (w : BitVec 64) : Nat := fld w 13 4

/-- Fields of the sequence control word (06 R167). -/
def cPeriod (K : Hk) : Nat := fld K.control 48 16
def cStartEvt (K : Hk) : Nat := fld K.control 44 4
def cLast (K : Hk) : Nat := fld K.control 31 5
def cIdeality (K : Hk) : Nat := fld K.control 19 12

/-- TSNS_MODE of a channel, from its Cone limit word (06 R164; 05 R133). -/
def tsnsMode (s : State) (c : Nat) : Nat := fld ((s.chan c).prof.getD 21 0) 38 2

/-- The hearth's logic and continuous spyholes run: neither Banked nor without logic rails (07 R195). -/
def continuous (H : HearthSt) : Bool := H.alwaysOn && H.logic && !H.banked

/-- The housekeeping converter is powered (06 R153). -/
def hkUp (s : State) (h : Nat) : Bool := (s.hk h).started && continuous (s.hearth h)

/-- Fire a gate event of a hearth while its converter is powered (06 R153, R169, R172, R174): START_EVT begins its delay, and each urgent entry
on the event begins its own. An entry already pending or counting down is an urgent overrun; of several channels in one hearth tick the lowest
stands, and the others are overruns. DESIGN CHOICES: START_EVT 0x2, whose control word has no SEL, is a trip of any channel (log entry 175);
several channels that cause START_EVT in one tick each begin a delay (log entry 176). -/
def gateEvent (s : State) (h code k : Nat) : State :=
  let K := s.hk h
  let hit (i : Nat) : Bool :=
    let w := hkEntry K i
    eUrgent w && decide (eOwner w ≠ 0) && decide (eEvt w = code) && (decide (code ≠ 2) || decide (eSel w = k))
  let one (K : Hk) (i : Nat) : Hk :=
    let w := hkEntry K i
    let keep := if eFollow w then tabSet 0 K.follow i (if K.evTick.contains i then min k (tabGet 0 K.follow i) else k) else K.follow
    if K.urgWait.contains i || K.urgPend.contains i || K.evTick.contains i then
      { K with urgOver := if K.urgOver = 0xFFFF#16 then K.urgOver else K.urgOver + 1
               follow := if K.evTick.contains i then keep else K.follow }
    else { K with urgWait := insertAsc i K.urgWait, follow := keep, evTick := insertAsc i K.evTick }
  if !hkUp s h || (K.entries.isEmpty && decide (cStartEvt K = 0)) then s
  else s.updHk h fun K =>
    let K := if cStartEvt K = code ∧ code ≠ 0 then { K with startDue := K.startDue + 1 } else K
    ((List.range 32).filter hit).foldl one K

/-- The sources that a sequence entry converts, in order: (input, selection). Inactive TSNS inputs are skipped (06 R164, R171). -/
def entrySources (s : State) (h : Nat) (w : BitVec 64) (followed : Nat) : List (Nat × Nat) :=
  let inp := eInput w
  let active (i : Nat) : Bool := if i < 64 then (s.cell (64 * h + i)).configured && decide (tsnsMode s (64 * h + i) ≠ 0) else true
  let confd := ((List.range 64).filter fun k => (s.cell (64 * h + k)).configured)
  if eOwner w = 0 then []
  else if eMode w = 0 then
    if active inp then [(inp, if 72 ≤ inp ∧ inp ≤ 75 then (if eFollow w && eUrgent w then followed else eSel w) else 0)] else []
  else if eMode w = 1 ∧ inp = 72 then (List.range 388).map fun d => (72, d)
  else if eMode w = 1 ∧ 73 ≤ inp ∧ inp ≤ 75 then confd.map fun k => (inp, k)
  else (((List.range (eSpan w + 1)).map (· + inp)).filter active).map fun i => (i, if 72 ≤ i ∧ i ≤ 75 then eSel w else 0)

/-- By what a position in an entry's sources is named: the selection where STEP steps over selections, else the input number (06 R171). -/
def srcKey (w : BitVec 64) (p : Nat × Nat) : Nat := if eMode w = 1 ∧ 72 ≤ eInput w ∧ eInput w ≤ 75 then p.2 else p.1

/-- The source at which a step pointer stands, and the next active one, at which it stands after the conversion; the range wraps (06 R171). -/
def stepAt (w : BitVec 64) (l : List (Nat × Nat)) (at_ : Nat) : Option ((Nat × Nat) × Nat) :=
  match l.dropWhile (fun p => decide (srcKey w p < at_)) ++ l with
  | [] => none
  | [a] => some (a, srcKey w a)
  | a :: b :: _ => some (a, srcKey w b)

/-- The first normal entry from `i` on with something to convert; LAST + 1 when none is left. -/
def nextEntry (s : State) (h : Nat) (K : Hk) : Nat → Nat → Nat
  | 0, i => i
  | n + 1, i => if cLast K < i then i else if (entrySources s h (hkEntry K i) 0).isEmpty then nextEntry s h K n (i + 1) else i

/-- Where a pass stands: its normal entry, and in a BURST the input to go on from. What has become inactive is passed over in no time
(06 R171). -/
def hkPlace (s : State) (h : Nat) (K : Hk) : Nat × Nat :=
  let w := hkEntry K K.entry
  if eMode w = 2 ∧ K.inputPos ≠ 0 ∧ (entrySources s h w 0).all (fun p => decide (p.1 < K.inputPos)) then (nextEntry s h K 33 (K.entry + 1), 0)
  else
    let e := nextEntry s h K 33 K.entry
    (e, if e = K.entry then K.inputPos else 0)

/-- The first pending urgent entry with something to convert, and those behind it (06 R164, R174). -/
def nextUrgent (s : State) (h : Nat) (K : Hk) : List Nat → Option Nat × List Nat
  | [] => (none, [])
  | u :: r => if (entrySources s h (hkEntry K u) (tabGet 0 K.follow u)).isEmpty then nextUrgent s h K r else (some u, r)

/-- Start a pass at entry 0, with the changes accepted for it (06 R171, R180). -/
def startPass (s : State) (h : Nat) (marked : Bool) : State :=
  let s := s.updHk h fun K => { K with
    entries := K.entriesNext.foldl (fun t p => tabSet entryReset t p.1 p.2) K.entries
    entriesNext := [], running := true, inputPos := 0, diode := 0, diodeSettle := false, markFirst := marked }
  let K := s.hk h
  s.updHk h fun _ => { K with entry := nextEntry s h K 33 0 }

/-- A sequence trigger: it starts a pass, becomes the one pending trigger, or is counted and dropped (06 R172). -/
def seqTrigger (s : State) (h : Nat) : State :=
  let K := s.hk h
  if !K.running then startPass s h false
  else if K.pending then s.updHk h fun K => { K with overruns := if K.overruns = 0xFFFF#16 then K.overruns else K.overruns + 1 }
  else s.updHk h fun K => { K with pending := true, overrun := true }

/-- Form of an input (06 R161, R163, R177). -/
def inputForm (i : Nat) : Nat :=
  if i < 64 ∨ i = 76 then 5
  else if i = 67 ∨ i = 75 then 1
  else if i = 70 ∨ i = 71 ∨ i = 73 ∨ i = 78 ∨ i = 94 then 2
  else if i = 77 ∨ (79 ≤ i ∧ i ≤ 82) then 3
  else if i = 72 ∨ i = 83 ∨ i = 92 ∨ i = 93 ∨ i = 95 then 4
  else 0

/-- Value and OVR of a conversion in a form: the clamp codes of R163 outside the range. -/
def formValue (form : Nat) (v : ConvH) : Nat × Bool :=
  match v with
  | .inRange x => (x.toNat, false)
  | .above => (if form = 1 ∨ form = 5 then 0x7FFF else 0xFFFF, true)
  | .below => (if form = 1 ∨ form = 5 then 0x8000 else 0, true)

/-- The raw code of a conversion, clamped (06 R163). -/
def rawCode (v : ConvH) : Nat := match v with | .inRange x => x.toNat | .above => 0xFFFF | .below => 0

/-- A temperature as its 16-bit two's-complement form, within the form's range. -/
def tempForm (t : Int) : Nat := (BitVec.ofInt 16 (clampInt (-32768) 32767 t)).toNat

/-- Diode temperature in 1/128 °C from three raw conversions (06 R164), rounded to nearest: ΔV·q/(η·k·ln 4) less 273.15 °C. `dv` is 3 ΔV in
codes of 2.5 V / 65,536; q/k is 11604.51812 K/V, ln 4 is 1.38629436112 (log entry 48), and η is (9000 + IDEALITY)/10000. -/
def diode128 (v1 v2 v3 ideality : Nat) : Int :=
  let dv : Int := 4 * ((v2 : Int) - v1) - ((v3 : Int) - v2)
  let num : Int := dv * 1160451812 * 25 * 128 * 1000000000
  let den : Nat := 3 * 65536 * (9000 + ideality) * 138629436112
  nearDiv (100 * num - 27315 * 128 * (den : Int)) (100 * den)

/-- The reading of a diode TSNS from its three conversions (06 R163, R164): a V1 above 1.2 V or below 0.1 V, an out-of-range third conversion, and a
temperature outside the form's range read a clamp code, with OVR. -/
def diodeTemp (v1 v2 : Nat) (third : ConvH) (ideality : Nat) : Nat × Bool :=
  if 12 * 65536 < 25 * v1 then (0x7FFF, true)
  else if 25 * v1 < 65536 then (0x8000, true)
  else match third with
    | .above => (0x7FFF, true)
    | .below => (0x8000, true)
    | .inRange v3 =>
      let t := diode128 v1 v2 v3.toNat ideality
      (tempForm t, decide (t < -32768) || decide (32767 < t))

/-- NTC temperature from a raw code through the hearth's table, linear between words, rounded to nearest (06 R164, R165). -/
def ntcTemp (ntc : List (BitVec 16)) (raw : Nat) : Nat × Bool :=
  if 0xFFF0 < raw then (0x8000, true)
  else if raw < 0x10 then (0x7FFF, true)
  else
    let j := raw / 4096
    let a := (ntc.getD j 0).toInt
    let b := (ntc.getD (j + 1) 0).toInt
    (tempForm (a + nearDiv ((b - a) * (raw % 4096 : Nat)) 4096), false)

end Sys2Proof.Machine
end

