-- ==== Sys2Proof/Machine/Profile.lean ====
section
/-! DEFINITION. Fields of a channel's profile as its parameter bank holds them: the 28 words of a channel section (15 R403). -/
namespace Sys2Proof.Machine
open Sys2Proof

/-- Word `i` of the profile in the active bank. -/
def profWord (A : ChanSt) (i : Nat) : BitVec 64 := A.prof.getD i 0

/-- RSHUNT in µΩ and SCHED, of the channel word (15 R403). -/
def pRshunt (A : ChanSt) : Nat := fld (profWord A 0) 42 13
def pSched (A : ChanSt) : Nat := fld (profWord A 0) 34 8

/-- Fields of the life word (02 R73). -/
def pDwell (A : ChanSt) : Nat := fld (profWord A 1) 48 8
def pEarly (A : ChanSt) : Bool := bitOf (profWord A 1) 47
def pConsent (A : ChanSt) : Nat := fld (profWord A 1) 44 2
def pStartDelay (A : ChanSt) : Nat := fld (profWord A 1) 32 12
def pVdsFull (A : ChanSt) : Nat := fld (profWord A 1) 14 10

/-- Fields of the firing header (03 R81). -/
def pDeadline (A : ChanSt) : Nat := fld (profWord A 2) 52 12
def pDvdt (A : ChanSt) : Nat := fld (profWord A 2) 40 12
def pFloor (A : ChanSt) : Nat := fld (profWord A 2) 30 10
def pIgFull (A : ChanSt) : Nat := fld (profWord A 2) 22 8
def pIlimRun (A : ChanSt) : Nat := fld (profWord A 2) 12 10
def pSegM1 (A : ChanSt) : Nat := fld (profWord A 2) 9 3

/-- Fields of a segment word (03 R82). -/
def segType (w : BitVec 64) : Nat := fld w 62 2
def segIlim (w : BitVec 64) : Nat := fld w 52 10
def segPfold (w : BitVec 64) : Nat := fld w 40 12
def segVend (w : BitVec 64) : Nat := fld w 32 8
def segDuration (w : BitVec 64) : Nat := fld w 20 12
def segIg (w : BitVec 64) : Nat := fld w 12 8

/-- Segment `i` of the firing schedule. -/
def pSeg (A : ChanSt) (i : Nat) : BitVec 64 := profWord A (3 + i)

/-- The running segment, and whether all have ended (03 R84). -/
def segNow (A : ChanSt) : BitVec 64 := pSeg A (min A.seg (pSegM1 A))
def segsDone (A : ChanSt) : Bool := decide (pSegM1 A < A.seg)

/-- The trip word (04 R98): drain time in µs, and pass-short level in 0.125 A. -/
def drainUs (w : BitVec 64) : Nat := fld w 22 12 * 10 ^ fld w 34 3
def tripPshort (w : BitVec 64) : Nat := fld w 37 8
def tripCode (w : BitVec 64) : Nat := fld w 48 8
def tripFilterNs (w : BitVec 64) : Nat := 40 * fld w 46 2

/-- A breaker point word (04 R99) as its current code and its trip time in µs. -/
def pointOf (w : Nat) : Nat × Nat := (bitsOf w 22 10, bitsOf w 7 12 * 10 ^ bitsOf w 19 3)

/-- Eight points packed two to a word, the even-numbered one in bits 31:0 (15 R403). -/
def pointsOf (ws : List (BitVec 64)) : List (Nat × Nat) :=
  ws.flatMap fun w => [pointOf (fld w 0 32), pointOf (fld w 32 32)]

/-- The channel's solo curve. -/
def pPoints (A : ChanSt) : List (Nat × Nat) := pointsOf ((A.prof.drop 12).take 4)

/-- Fields of the retry word (04 R112). -/
def pRetryLimit (A : ChanSt) : Nat := fld (profWord A 16) 60 4
def pDecay (A : ChanSt) : Nat := fld (profWord A 16) 40 8

/-- Pole word `i`, 0 to 2 (05 R128): RTH in 0.1 mK/W and the time constant in µs. -/
def pRth (A : ChanSt) (i : Nat) : Nat := fld (profWord A (17 + i)) 44 20
def pTau (A : ChanSt) (i : Nat) : Nat := fld (profWord A (17 + i)) 29 12 * 10 ^ fld (profWord A (17 + i)) 41 3

/-- The Cone power word (05 R130). -/
def pRdsOn (A : ChanSt) : Nat := fld (profWord A 20) 48 16
def pRdsTc (A : ChanSt) : Nat := fld (profWord A 20) 40 8
def pSoaHold (A : ChanSt) : Nat := fld (profWord A 20) 32 8
def pHorizon (A : ChanSt) : Nat := fld (profWord A 20) 20 12

/-- The Cone limit word (05 R133). -/
def pTjBend (A : ChanSt) : Nat := fld (profWord A 21) 56 8
def pTjWarn (A : ChanSt) : Nat := fld (profWord A 21) 48 8
def pTRefFix (A : ChanSt) : Int := (fld (profWord A 21) 40 8 : Int) - 64
def pTsnsMode (A : ChanSt) : Nat := fld (profWord A 21) 38 2
def pSnsWeight (A : ChanSt) : Nat := fld (profWord A 21) 30 8
def pErrLimit (A : ChanSt) : Nat := fld (profWord A 21) 22 8
def pModelUnc (A : ChanSt) : Nat := fld (profWord A 21) 16 6
def pWarnTime (A : ChanSt) : Nat := fld (profWord A 21) 8 8

/-- A point of the SOA table: VDS in 0.1 V, IMAX in 0.5 A, DERATE in 1/256 (05 R143). -/
structure SoaPoint where
  vds : Nat
  imax : Nat
  derate : Nat
deriving DecidableEq, Repr

/-- A SOA point word. -/
def soaOf (w : Nat) : SoaPoint := { vds := bitsOf w 22 10, imax := bitsOf w 12 10, derate := bitsOf w 3 9 }

/-- The SOA table of a channel, two words of 32 bits to each word of the section (15 R403). -/
def pSoa (A : ChanSt) : List SoaPoint :=
  ((A.prof.drop 22).take 4).flatMap fun w => [soaOf (fld w 0 32), soaOf (fld w 32 32)]

/-- The spyhole words of the channel section: SPY_I and SPY_V (07 R182). -/
def pSpyI (A : ChanSt) : BitVec 64 := profWord A 26
def pSpyV (A : ChanSt) : BitVec 64 := profWord A 27

/-- Whether a trip cause admits a retry (04 R110). -/
def admitsRetry (retryWord : BitVec 64) (first : Nat) : Bool :=
  if first < 6 then !bitOf retryWord (32 + first)
  else if first = 6 then true
  else if first = 7 then !bitOf retryWord 34
  else false

/-- The back-off of the n-th retry in ticks: BACKOFF_BASE ms doubled n − 1 times, at most BACKOFF_SHIFT times (04 R113). -/
def backoffTicks (retryWord : BitVec 64) (n : Nat) : Nat :=
  4000 * fld retryWord 52 8 * 2 ^ min (n - 1) (fld retryWord 48 4)

/-- A channel's schedule is the library's (15 R403). -/
def libSched (A : ChanSt) : Bool := decide (pSched A = 1)

end Sys2Proof.Machine
end

