-- ==== Sys2Proof/Machine/Operands.lean ====
section
/-! DEFINITION. The operands of an engine instruction: registers, pairs, memories, the schedule descriptor and port words (10 R262 to R264). -/
namespace Sys2Proof.Machine
open Sys2Proof

/-- g[r]; g0 always reads 0 (10 R262). -/
def regGet (E : Engine) (r : Reg) : W24 := if r = 0 then 0 else tabGet 0 E.regs r.val

/-- Write g[r]; a write to g0 is discarded (10 R262). -/
def regSet (E : Engine) (r : Reg) (v : W24) : Engine := if r = 0 then E else { E with regs := tabSet 0 E.regs r.val v }

/-- The first register of a pair: gN with N even from 2 to 30 (10 R262). -/
def pairReg (p : Pair) : Nat := 2 * (p.val + 1)

/-- The 48-bit value of a pair; gN holds bits 47:24 (10 R262). -/
def pairGet (E : Engine) (p : Pair) : BitVec 48 :=
  (tabGet (0 : W24) E.regs (pairReg p)) ++ (tabGet (0 : W24) E.regs (pairReg p + 1))

/-- Write a pair. -/
def pairSet (E : Engine) (p : Pair) (v : BitVec 48) : Engine :=
  { E with regs := tabSet 0 (tabSet 0 E.regs (pairReg p) (v.extractLsb' 24 24)) (pairReg p + 1) (v.extractLsb' 0 24) }

/-- The active parameter bank. -/
def bankOf (E : Engine) : Tab W24 := if E.active = 0 then E.bank0 else E.bank1

/-- A word of the active parameter bank, its address modulo 256 (10 R263). -/
def parGet (E : Engine) (a : Nat) : W24 := tabGet 0 (bankOf E) (a % 256)

/-- A word of state memory, its address modulo 512 (10 R263). -/
def memGet (E : Engine) (a : Nat) : W24 := tabGet 0 E.mem (a % 512)

/-- Write a word of state memory. -/
def memSet (E : Engine) (a : Nat) (v : W24) : Engine := { E with mem := tabSet 0 E.mem (a % 512) v }

/-- Fields of the schedule descriptor in the active bank (10 R264). -/
def entryOf (E : Engine) : Nat := fld (parGet E 0) 0 13
def replayOf (E : Engine) : Nat := fld (parGet E 1) 0 13
def carryBase (E : Engine) : Nat := fld (parGet E 2) 15 9
def carryLen (E : Engine) : Nat := fld (parGet E 2) 0 6
def coneSBase (E : Engine) : Nat := fld (parGet E 3) 15 9
def conePBase (E : Engine) : Nat := fld (parGet E 3) 0 8

/-- The carry region's words, in ascending address order (10 R274). -/
def carryWords (E : Engine) : List W24 := (List.range (carryLen E)).map fun i => memGet E (carryBase E + i)

/-- CRC-32C over words taken as 3 bytes each, least significant byte first (10 R274). -/
def crcWords (l : List W24) : BitVec 32 := crc32c (l.flatMap fun w => toLe 3 w.toNat)

/-- The engine that runs the peer role outside packed service (09 R229): E(c) and E(c + 512). -/
def peerEngine (e : Nat) : Nat := if e < 512 then e + 512 else e - 512

/-- The cluster whose mirror memory holds an engine's slot: its peer's, and in packed service its own (09 R250, R255). -/
def mirrorHome (s : State) (e : Nat) : Nat := (if (s.engine e).packed then e else peerEngine e) / 64

/-- An engine's mirror slot. -/
def mirrorOf (s : State) (e : Nat) : MirrorSlot := tabGet {} (s.cluster (mirrorHome s e)).mirror (e % 64)

/-- An engine's mirror slot as latched at the end of the tick before `n`. -/
def mirrorAt (s : State) (e n : Nat) : Tab W24 := if n ≤ (s.engine e).ranTick then (mirrorOf s e).old else (mirrorOf s e).words

/-- The check word that stands in an engine's output ports (09 R243). -/
def checkOut (E : Engine) : BitVec 32 := (tabGet (0 : BitVec 16) E.outs 0x47) ++ (tabGet (0 : BitVec 16) E.outs 0x46)

/-- An engine's check word as latched in the tick before `n` (09 R233, PEER). -/
def checkAt (E : Engine) (n : Nat) : BitVec 32 := if n ≤ E.ranTick then E.checkOld else checkOut E

/-- The DIGEST of carry words (09 R243). -/
def digestOf (ws : List W24) : Nat := (crcWords ws).toNat % 2 ^ 24

/-- How many ticks back the inputs of this moment lie: 0 outside RLOOP, else the catch-up tick replayed (10 R275). -/
def ticksBack (E : Engine) : Nat := match E.loop with | none => 0 | some (_, _, left) => left

/-- An input port word; words 0x10 to 0x3F read 0 (09 R233); inside RLOOP it is the history of the catch-up tick (10 R275). -/
def inWord (E : Engine) (p : Nat) : BitVec 16 :=
  if 16 ≤ p then 0
  else match ticksBack E with
    | 0 => tabGet 0 E.ins p
    | n + 1 => tabGet 0 (E.hist.getD n []) p

/-- Spend slots and go on to an address; at the end of an RLOOP body the next catch-up tick starts, or the loop ends (10 R275). -/
def advanceTo (E : Engine) (slots : Nat) (next : Nat) : Engine :=
  let E := { E with slots := E.slots + slots }
  match E.loop with
  | none => { E with pc := next % 8192 }
  | some (first, target, left) =>
    if next = target then
      if 1 < left then { E with pc := first, loop := some (first, target, left - 1), z := !E.loopCone, n := !E.loopSitter }
      else { E with pc := target, loop := none, catchUp := 0 }
    else { E with pc := next % 8192 }

/-- Go on to the next instruction. -/
def advance (E : Engine) (slots : Nat) : Engine := advanceTo E slots (E.pc + 1)

end Sys2Proof.Machine
end

