-- ==== Sys2Proof/Machine/Flags.lean ====
section
/-! DEFINITION. The flags Z, N, C and V of an engine instruction, and its condition codes (10 R262, R266, R268, R269). -/
namespace Sys2Proof.Machine
open Sys2Proof

/-- Z and N of a 24-bit result. -/
def flagsZN (E : Engine) (v : W24) : Engine := { E with z := decide (v = 0), n := v.msb }

/-- Z, N and V of a 24-bit result. -/
def flagsZNV (E : Engine) (v : W24) (o : Bool) : Engine := { E with z := decide (v = 0), n := v.msb, v := o }

/-- Z, N, C and V of a 24-bit result. -/
def flagsZNCV (E : Engine) (v : W24) (c o : Bool) : Engine := { E with z := decide (v = 0), n := v.msb, c := c, v := o }

/-- Z, N and C of a 48-bit result. -/
def flagsWide (E : Engine) (v : BitVec 48) (c : Bool) : Engine := { E with z := decide (v = 0), n := v.msb, c := c }

/-- Sum, carry and signed overflow of two 24-bit words (10 R266: a sum that is not saturating wraps and sets V). -/
def add24 (a b : W24) : W24 × Bool × Bool :=
  (a + b, decide (2 ^ 24 ≤ a.toNat + b.toNat), over24 (a.toInt + b.toInt))

/-- Difference, borrow and signed overflow of two 24-bit words. -/
def sub24 (a b : W24) : W24 × Bool × Bool :=
  (a - b, decide (a.toNat < b.toNat), over24 (a.toInt - b.toInt))

/-- A 24-bit word from an exact integer, saturated (10 R266). -/
def satW (x : Int) : W24 := BitVec.ofInt 24 (sat24 x)

/-- Whether a condition code holds (10 R268). -/
def condHolds (E : Engine) : Cond → Bool
  | .al => true
  | .eq => E.z
  | .ne => !E.z
  | .lt => E.n != E.v
  | .ge => E.n == E.v
  | .gt => !E.z && (E.n == E.v)
  | .le => E.z || (E.n != E.v)
  | .lo => E.c
  | .hs => !E.c
  | .vs => E.v
  | .vc => !E.v
  | .mi => E.n
  | .pl => !E.n

end Sys2Proof.Machine
end

