-- ==== Sys2Proof/Machine/Params.lean ====
section
/-! DEFINITION. The fixed-point arithmetic that the library schedules and the engine instructions share, and the parameter words 0x04 to 0x7F that
the firmware computes from a channel's profile (05 R127, R131; 10 R265, R266, R270 to R273; 17 R461). -/
namespace Sys2Proof.Machine
open Sys2Proof

/-- The unit of the fixed-point numbers used for e^-x. -/
def fpOne : Nat := 2 ^ 80

/-- The series of e^-x for x at most 1/2, by Horner from term `n` down. -/
def expSeries (x : Nat) : Nat → Nat → Nat
  | 0, acc => acc
  | n + 1, acc => expSeries x n (fpOne - x * acc / ((n + 1) * fpOne))

/-- Square a fixed-point number `k` times. -/
def squareTimes : Nat → Nat → Nat
  | 0, y => y
  | k + 1, y => squareTimes k (y * y / fpOne)

/-- e^-(num/den) as a fixed-point number (05 R127). -/
def expNeg (num den : Nat) : Nat :=
  if den = 0 ∨ 60 * den ≤ num then 0
  else squareTimes 7 (expSeries (num * fpOne / (den * 128)) 22 fpOne)

/-- Interval of a pole in ticks: the largest power of two at most τ / 1024, at least one tick (05 R131). -/
def poleDelta (A : ChanSt) (i : Nat) : Nat := 2 ^ Nat.log2 (pTau A i / 256)

/-- RTH_i × (1 − e^-x), in QR, rounded up, for `l` ticks. -/
def poleB (A : ChanSt) (i l : Nat) : Nat :=
  ceilNat (pRth A i * 65536 * (fpOne - expNeg l (4 * pTau A i))) (10000 * fpOne)

/-- Z_H as a fixed-point number of 0.1 mK/W (05 R140). -/
def horizonZ (A : ChanSt) : Nat :=
  ((List.range 3).map fun i => pRth A i * (fpOne - expNeg (10 * pHorizon A) (pTau A i))).sum

/-- ceil(UF24 x 2^46): 0 for exponent 0, else (2^18 + M) x 2^(E - 36) rounded up (10 R265, R271). -/
def uf24Grid (u : W24) : Nat :=
  let x := fld u 18 6
  let m := fld u 0 18
  if x = 0 then 0 else if 36 ≤ x then (2 ^ 18 + m) * 2 ^ (x - 36) else ceilNat (2 ^ 18 + m) (2 ^ (36 - x))

/-- A UF24 as an exact multiple of 2^-81: (2^18 + M) x 2^(E - 1) (10 R265). -/
def uf24Exact (u : W24) : Nat := if fld u 18 6 = 0 then 0 else (2 ^ 18 + fld u 0 18) * 2 ^ (fld u 18 6 - 1)

/-- The exponent of the UF24 that holds an exact value: the largest E with 2^(18 + E - 1) not above it, at most 63. -/
def uf24Exp (x : Nat) : Nat := if x < 2 ^ 18 then 1 else min 63 (Nat.log2 x - 17)

/-- An exact value rounded up to a UF24; 0 stays 0, and a value below the least is that least (10 R265, R270). -/
def uf24Up (x : Nat) : W24 :=
  if x = 0 then 0
  else
    let e := uf24Exp x
    let m := ceilNat x (2 ^ (e - 1))
    let (e, m) := if 2 ^ 19 ≤ m then (e + 1, 2 ^ 18) else (e, m)
    if 63 < e then 0xFFFFFF#24 else BitVec.ofNat 24 (e * 2 ^ 18 + (max m (2 ^ 18) - 2 ^ 18))

/-- The index k below 7 of the segment with x[k] < x ≤ x[k+1], for x above the first point and not above the last. -/
def pwlSeg (xs : Nat → Int) (x : Int) : Nat → Nat → Nat
  | 0, k => k
  | n + 1, k => if xs (k + 1) < x ∧ k < 6 then pwlSeg xs x n (k + 1) else k

/-- Where a value lies in a table of eight points: at or below the first, above the last, or in the segment from point k to the next
(10 R270). -/
inductive PwlSpot where
  | first | last | seg (k : Nat)
deriving DecidableEq, Repr

/-- The place of a value in a table of eight points (10 R270). -/
def pwlSpot (xs : Nat → Int) (x : Int) : PwlSpot :=
  if x ≤ xs 0 then .first else if xs 7 < x then .last else .seg (pwlSeg xs x 7 0)

/-- The piecewise-linear value (10 R270), exact and then rounded: to nearest, up or down, or up to a UF24. -/
def pwlVal (mode : PwlMode) (xs : Nat → Int) (ys : Nat → W24) (x : Int) : W24 :=
  match pwlSpot xs x with
  | .first => ys 0
  | .last => ys 7
  | .seg k =>
    let dx := (xs (k + 1) - xs k).toNat
    match mode with
    | .lin rnd => satW (roundDiv rnd ((ys k).toInt * dx + ((ys (k + 1)).toInt - (ys k).toInt) * (x - xs k)) dx)
    | .uf24 => uf24Up (ceilDiv ((uf24Exact (ys k) : Int) * dx + ((uf24Exact (ys (k + 1)) : Int) - uf24Exact (ys k)) * (x - xs k)) dx).toNat

/-- MUL of two 24-bit quantities: shifted right, rounded, saturated (10 R266). -/
def mulQ (rnd : Rnd) (a b : Int) (shift : Nat) : Int := sat24 (roundDiv rnd (a * b) (2 ^ shift))

/-- DIV of two 24-bit quantities; a divisor of 0 or less saturates by the sign of the dividend (10 R266, R269). -/
def divQ (rnd : Rnd) (a b : Int) (shift : Nat) : Int :=
  if b ≤ 0 then (if 0 ≤ a then 8388607 else -8388608) else sat24 (roundDiv rnd (a * 2 ^ shift) b.toNat)

/-- A coefficient in QF, at most the largest value below 1. -/
def qf (n : Nat) : Nat := min n 0x7FFFFF

/-- A breaker curve's point: current in QI, increment of one tick as UF24 rounded up (17 R461, 10 R271). -/
def curveWord (pts : List (Nat × Nat)) (i : Nat) : W24 :=
  let p := pts.getD (i / 2) (0, 1)
  if i % 2 = 0 then BitVec.ofNat 24 (64 * p.1) else uf24Up (ceilNat (2 ^ 79) p.2)

/-- C_i for an interval of `l` ticks: RTH_i × min(1, l / τ_i) in QR, rounded up (10 R272). -/
def poleC (A : ChanSt) (i l : Nat) : Nat := ceilNat (pRth A i * 65536 * min l (4 * pTau A i)) (10000 * (4 * pTau A i))

/-- A word of a pole's coefficient record, each rounded up (10 R272). -/
def poleWord (A : ChanSt) (i j : Nat) : W24 :=
  let d := poleDelta A i
  let a (l : Nat) : Nat := qf (ceilNat (expNeg l (4 * pTau A i) * 2 ^ 23) fpOne)
  BitVec.ofNat 24 (match j with
    | 0 => a d
    | 1 => poleB A i d
    | 2 => if 4 ≤ d then 0 else a 4
    | 3 => if 4 ≤ d then 0 else poleB A i 4
    | 4 => poleC A i d
    | 5 => Nat.log2 d
    | _ => 0)

/-- Parameter word `a` from 0x04 to 0x7F of a channel with a profile and its twin's shared points (17 R461). -/
def paramWord (A : ChanSt) (shared : List (Nat × Nat)) (a : Nat) : W24 :=
  let n (x : Nat) : W24 := BitVec.ofNat 24 x
  let r := pRshunt A
  let drain := 2 ^ 44 / max 1 (drainUs (profWord A 11))
  if a = 0x04 then n (qf (ceilNat (2 ^ 25) r))
  else if a = 0x05 then n (qf (ceilNat (2048 * 32767) r))
  else if a = 0x06 then n 167772
  else if a = 0x07 then n 13422
  else if a = 0x08 then n ((r * 2 ^ 23 + 500000) / 1000000)
  else if a = 0x09 then n (qf (r * 131072 / 100))
  else if a = 0x0A then n (drain / 2 ^ 24)
  else if a = 0x0B then n drain
  else if a < 0x10 then Config.lifeParam (profWord A 1) (a - 0x0C)
  else if a < 0x20 then
    let w := pSeg A ((a - 0x10) / 2)
    if a % 2 = 0 then n (64 * segIlim w) else n (512 * segPfold w / 10)
  else if a < 0x30 then curveWord (pPoints A) (a - 0x20)
  else if a < 0x40 then (if shared.isEmpty then 0 else curveWord shared (a - 0x30))
  else if a = 0x40 then n (256 * pTjBend A)
  else if a = 0x41 then n (2 ^ 23 * 100 / (100 + pModelUnc A))
  else if a = 0x42 then n (qf (8192 * 10000 * fpOne / max 1 (horizonZ A)))
  else if a = 0x43 then n 3277
  else if a = 0x44 then n 0xFFFF
  else if a < 0x48 then 0
  else if a < 0x68 then
    let p := (pSoa A).getD ((a - 0x48) % 16 / 2) { vds := 0, imax := 0, derate := 0 }
    if a % 2 = 0 then n (p.vds * 32768 / 10)
    else if a < 0x58 then n (qf (p.derate * 2 ^ 15)) else n (p.imax * 256)
  else if a < 0x80 then poleWord A ((a - 0x68) / 8) ((a - 0x68) % 8)
  else 0

/-- A parameter word as the signed quantity that an instruction reads (17 R461). -/
def par (A : ChanSt) (a : Nat) : Int := (paramWord A [] a).toInt

end Sys2Proof.Machine
end

