-- ==== Sys2Proof/Machine/Engines.lean ====
section
/-! DEFINITION. Engines as resources: failure, hosts, mismatches, takeover (09 R244 to R253). -/
namespace Sys2Proof.Machine
open Sys2Proof

/-- Whether a channel is Absent: no profile of it is committed (02 R40). -/
def absent (s : State) (c : Nat) : Bool := (s.chan c).prof.isEmpty

/-- The channel that an engine serves in the present mapping (01 R16): c and c + 512 for channel c outside packed mode. -/
def mappedChan (s : State) (e : Nat) : Nat := if s.boot.packed then e else e % 512

/-- The channel an engine works for: the one it hosts, else its mapped channel. -/
def engChan (s : State) (e : Nat) : Nat := (engineChans s e).headD (mappedChan s e)

/-- A sound engine in a sound cluster that serves no channel and is about to take none over. -/
def idleEngine (s : State) (e : Nat) : Bool :=
  !(s.engine e).failed && !(s.cluster (e / 64)).failed && (engineChans s e).isEmpty &&
    !(s.chans.any fun p => match p.2.takeover with | some (_, q, _) => q == e | none => false)

/-- A free engine: idle, its channel in the present mapping Absent (09 R249). -/
def freeEngine (s : State) (e : Nat) : Bool := idleEngine s e && absent s (mappedChan s e)

/-- The lowest-numbered free engine of a cluster (09 R249). -/
def lowestFree (s : State) (n : Nat) : Option Nat :=
  ((List.range 64).map (· + 64 * n)).find? (freeEngine s)

/-- The host engine for channel `c` when engine `e` fails (09 R249). -/
def hostFor (s : State) (c e : Nat) : Option Nat :=
  if (s.engine e).packed then lowestFree s (e / 64)
  else
    let p := if e < 512 then c % 512 + 512 else c % 512
    if (s.engine p).failed || (s.cluster (p / 64)).failed then none else some p

/-- The context words of a channel's error (17 R464). -/
def chanDetail (s : State) (c w2 : Nat) : Nat :=
  let C := s.chan c
  (stCode C.obs * 2 ^ 28 + stCode C.commanded * 2 ^ 24 + (if c < 512 then (s.cell c).tripReg.toNat else C.tripReg.toNat)) +
    2 ^ 32 * (C.iWord.toNat * 2 ^ 16 + C.vWord.toNat) + 2 ^ 64 * w2

/-- A channel is left with no engine (09 R252). -/
def unhost (s : State) (c e : Nat) : State :=
  let s := s.updChan c fun C => { C with sitter := none, cone := none, takeover := none, lostEngine := e }
  raiseError s 0x20D (srcChan c) (chanDetail s c e)

/-- The role of channel `c` on engine `e` is lost: a takeover falls due on its host, or the channel is unhosted (09 R249, R252). -/
def rehost (s : State) (e c : Nat) : State :=
  match hostFor s c e with
  | none => unhost s c e
  | some p => s.updChan c fun C => { C with
      sitter := if C.sitter = some e then none else C.sitter
      cone := if C.cone = some e then none else C.cone
      takeover := some (e, p, (s.engine e).mirrorTick) }

/-- An engine goes out of service: the takeover of every channel it served (09 R248, R249). -/
def engineDown (s : State) (e : Nat) : State :=
  if (s.engine e).failed then s
  else
    let cs := engineChans s e
    forEach cs (fun s c => rehost s e c) (s.updEngine e fun E => { E with failed := true, ended := true, loop := none })

/-- An engine fails, with its error (09 R248, R249). -/
def failEngine (s : State) (e cause : Nat) : State :=
  if (s.engine e).failed then s
  else engineDown (raiseError s 0x215 (srcEngine e) (cause + 2 ^ 32 * engChan s e + 2 ^ 64 * ((s.cluster (e / 64)).tick % 2 ^ 32))) e

/-- What a check unit freezes of a channel's roles in a tick (09 R247). -/
def freezeTick (s : State) (c n : Nat) : FrozenTick :=
  let S := s.engine ((s.chan c).sitter.getD c)
  let K := s.engine ((s.chan c).cone.getD (peerEngine c))
  { tick := n, sitterIns := S.ins, coneIns := K.ins, sitterCarry := carryWords S, coneCarry := carryWords K, sitterOuts := S.outs, coneOuts := K.outs }

/-- A mismatch between the roles of a channel (09 R247): the first freezes the tick, a further one is counted, and each reaches
the collector as engine disagreement. -/
def mismatch (s : State) (c code e : Nat) : State :=
  let n := (s.cluster (e / 64)).tick
  let d := code + 2 ^ 32 * (n % 2 ^ 32) + 2 ^ 64 * e
  let F := freezeTick s c n
  let s := s.updChan c fun C =>
    if C.frozen then { C with mismatches := C.mismatches + 1 }
    else { C with frozen := true, mismatches := 0, mismDetail := d, frozenTick := some F }
  raiseError s 0x20C (srcChan c) d

end Sys2Proof.Machine
end

