-- ==== Sys2Proof/Machine/Cells.lean ====
section
/-! DEFINITION. The channel's cell on its hearth: state register, gate, trips, the envelope's judgement of a command word, Saggar hold
(02, 04 R109 to R111, 09 R235 to R242, 13 R349). -/
namespace Sys2Proof.Machine
open Sys2Proof

/-- Channel `c`'s hearth and local number (01 R14). -/
def hOf (c : Nat) : Nat := c / 64
def kOf (c : Nat) : Nat := c % 64

/-- The own slots of a hearth's 16 that are enabled and name local channel `k` (02 R43, R44). -/
def slotNames (s : State) (n k : Nat) : Bool :=
  let w := (s.slot n).word
  bitOf w 6 && decide (fld w 10 6 ≤ k) && decide (k ≤ fld w 10 6 + fld w 7 3)

/-- The local channels of a slot (02 R44). -/
def slotChans (s : State) (n : Nat) : List Nat :=
  let w := (s.slot n).word
  if bitOf w 6 then (List.range (fld w 7 3 + 1)).map fun i => (64 * (n / 16) + fld w 10 6 + i) else []

/-- Whether a channel's slot is debounced seated, or the channel is fixed (02 R45, R46). -/
def seatedOrFixed (s : State) (c : Nat) : Bool :=
  bitOf (s.cell c).env.word 27 ||
    (List.range 16).any fun i => (s.slot (16 * hOf c + i)).seated && slotNames s (16 * hOf c + i) (kOf c)

/-- Whether the gate is low or being made low. -/
def gateLow (g : GateDrive) : Bool := match g with | .pullDown | .soft => true | _ => false

/-- Start the gate discharge: at the 1.5 A pull-down, or softly (02 R60, R66). The gate-off confirmation is awaited again when the
gate was driven. -/
def discharge (C : Cell) (soft : Bool) : Cell :=
  if gateLow C.gate then { C with gate := if soft && decide (C.gate = .soft) then .soft else .pullDown }
  else { C with gate := if soft then .soft else .pullDown, confirmed := false, offTicks := 0 }

/-- Saturating 16-bit increment. -/
def satInc16 (n : BitVec 16) : BitVec 16 := if n = 0xFFFF#16 then n else n + 1

/-- States in which an envelope write is accepted (09 R242). -/
def envState (x : ChState) : Bool := match x with | .vacant | .seated | .off | .locked => true | _ => false

/-- Apply an envelope write that waits, once the state permits it (09 R242). -/
def takeEnv (C : Cell) : Cell :=
  match C.envWait with
  | some e => if envState C.state then { C with env := e, envWait := none } else C
  | none => C

/-- What decides a change of state, as EV_STATE reports it (12 R319). -/
inductive By where
  | hearth | sitter | firmware

/-- Code of the decider in EV_STATE. -/
def byCode : By → Nat
  | .hearth => 0 | .sitter => 1 | .firmware => 2

/-- Change a channel's state register: held envelope writes, SEATS and LOCKS, EV_STATE, and EV_LOCKED at entry to Locked
(02 R40, R74; 04 R115; 09 R242; 12 R319). A change to the present state does nothing. -/
def enterState (s : State) (c : Nat) (new : ChState) (d : By) (off : Nat := 0) : State :=
  let C := s.cell c
  let old := C.state
  if old = new then s
  else
    let asked := match d with | .hearth => C.asked | _ => some new
    let s := s.updCell c fun C => takeEnv { C with
      state := new, asked := asked, offPend := false
      undo := match d with | .hearth => none | _ => C.undo
      pgDropped := C.pgDropped && decide (new = .good)
      tripTicks := if new = .tripped then 0 else C.tripTicks
      shortTicks := if new = .tripped ∨ new = .cooling ∨ new = .locked then C.shortTicks else 0 }
    let s := s.updChan c fun A => { A with
      seats := if old = .vacant ∧ new = .seated then satInc A.seats else A.seats
      locks := if new = .locked then satInc16 A.locks else A.locks }
    let s := if new = .ramping then gateEvent s (hOf c) 5 (kOf c) else if new = .full then gateEvent s (hOf c) 6 (kOf c) else s
    let cmd := match asked with | some x => x | none => new
    let s := stampNow s (hOf c) (srcChan c) 0x1101
      [(4, stCode old), (4, stCode new), (4, byCode d), (4, stCode cmd), (16, (s.cell c).tripReg.toNat)] off
    if new = .locked then
      stampNow s (hOf c) (srcChan c) 0x1103 [(4, fld (s.cell c).tripReg 12 4), (4, (s.chan c).retry), (16, (s.chan c).locks.toNat)] off
    else s

/-- The cause code that the retry rule uses: the first in the order of R111, which is the order of the codes 0 to 7. -/
def firstCause (causes : Nat) : Nat := ((List.range 8).find? fun i => causes / 2 ^ i % 2 = 1).getD 15

/-- Set bits of the trip register and form FIRST from the causes of this hearth tick (04 R109, R111). -/
def latchCauses (C : Cell) (bits : Nat) : Cell :=
  let t := C.tickCauses ||| BitVec.ofNat 16 bits
  let r := C.tripReg ||| BitVec.ofNat 16 bits
  { C with tickCauses := t, tripReg := putFld r 12 4 (firstCause (t.toNat % 256)) }

/-- Whether a trip of this hearth tick already stands on the channel, so that a further cause joins it (04 R111). -/
def trippedThisTick (C : Cell) : Bool := decide (C.tickCauses ≠ 0)

/-- A trip is taken on a channel (02 R60, R66, R67; 04 R111): causes latched, the gate discharged, PG deasserted, TRIPS raised,
EV_TRIP stamped; Ramping, Full and Good become Tripped, Off and Held stay. A further cause in the same tick only joins the trip. -/
def takeTrip (s : State) (c bits sub : Nat) (d : By) (time site off : Nat) : State :=
  let C := s.cell c
  let extra := if C.state = .held then 0x400 else if C.state = .off then 0x800 else 0
  if trippedThisTick C then s.updCell c fun C => { latchCauses C (bits + extra) with sub := C.sub ||| BitVec.ofNat 4 sub }
  else
    let s := s.updCell c fun C => { discharge (latchCauses C (bits + extra)) false with
      confirmed := false, offTicks := 0, shortTicks := 0, pg := false, pgDropped := false
      sub := BitVec.ofNat 4 sub, heldTrip := C.heldTrip || decide (C.state = .held), heldGood := false }
    let s := s.updChan c fun A => { A with trips := satInc A.trips }
    let s := gateEvent (gateEvent s (hOf c) 1 (kOf c)) (hOf c) 2 (kOf c)
    let D := s.cell c
    let s := stampRec s (hOf c) (srcChan c) 0x1102
      (pay [(16, D.tripReg.toNat), (4, sub), (4, stCode C.state), (16, D.iSample.toNat), (16, D.vSample.toNat), (4, (s.chan c).retry)])
      0 time site false false
    match C.state with
    | .ramping | .full | .good => enterState s c .tripped d off
    | _ => s

/-- A trip that the hearth or the Sitter decides now. -/
def tripNow (s : State) (c bits sub : Nat) (d : By) (off : Nat := 0) : State :=
  takeTrip s c bits sub d ((s.hearth (hOf c)).tai + off) 8 off

/-- States that entry to Saggar hold moves to Held (02 R67). -/
def holdable (x : ChState) : Bool := match x with | .vacant | .locked | .off | .held => false | _ => true

/-- Keep what a channel is before a transition that a command word makes, for the case that Saggar hold begins in this tick (02 R50). -/
def noteUndo (s : State) (c : Nat) : State :=
  let C := s.cell c
  if holdable C.state && C.undo.isNone then
    s.updCell c fun C => { C with undo := some {
      state := C.state, gate := C.gate, iset := C.iset, pg := C.pg, pgDropped := C.pgDropped, confirmed := C.confirmed, offTicks := C.offTicks,
      tripReg := C.tripReg, sub := C.sub, env := C.env, envWait := C.envWait,
      seq := tabGet 0 (s.hearth (hOf c)).seqs (srcChan c), locks := (s.chan c).locks } }
  else s

/-- A channel reset (02 R69): gate discharged, PG deasserted, trip causes and retry count cleared, A and the under-voltage timer
cancelled, Seated or Vacant by the seat. The Cone and the lifetime counters stay. -/
def channelReset (s : State) (c : Nat) (d : By) : State :=
  let s := s.updCell c fun C => { discharge C false with pg := false, pgDropped := false, iset := 0, tripReg := 0xF000, tickCauses := 0, sub := 0, heldGood := false }
  let s := s.updChan c fun A => { A with a := 0, uvRun := false, uvTicks := 0, retry := 0 }
  enterState s c (if seatedOrFixed s c then .seated else .vacant) d

/-- What a request code asks for, from a state that R49 allows (09 R235). `none`: not allowed, or no transition asked for. -/
def requestTarget (st : ChState) (req : Nat) (seat : Bool) : Option ChState :=
  match req with
  | 1 => (match st with | .seated | .cooling => some .ready | _ => none)
  | 2 => (match st with | .ready => some .ramping | _ => none)
  | 3 => (match st with | .ramping => some .full | _ => none)
  | 4 => (match st with | .full => some .good | _ => none)
  | 5 => (match st with | .tripped => some .cooling | _ => none)
  | 6 => (match st with | .tripped => some .locked | _ => none)
  | 7 => (match st with | .seated | .ready | .ramping | .full | .good | .tripped | .cooling => some .off | _ => none)
  | 8 => (match st with | .off => some .seated | _ => none)
  | 9 => (match st with | .vacant | .held => none | _ => some (if seat then .seated else .vacant))
  | _ => none

/-- Who decides the transition of a request (02 R49). -/
def requestBy (st : ChState) (req : Nat) : By :=
  match req with
  | 1 => (match st with | .seated => .firmware | _ => .sitter)
  | 7 | 8 | 9 => .firmware
  | _ => .sitter

/-- The gate-current register of a cell is written, in every state (03 R508). -/
def writeIgReg (s : State) (c : Nat) (ig : BitVec 8) : State := s.updCell c fun C => { C with igReg := ig }

/-- Gate modes (03 R78). -/
def gmodeDrive : Nat → GateDrive
  | 1 => .damp | 2 => .soak | 3 => .enh | _ => .pullDown

/-- Whether a gate mode is permitted in a state (09 R240 row 6). -/
def gmodeOk (st : ChState) (g : Nat) (twin : Bool) : Bool :=
  match st with
  | .ramping => g != 0 || twin
  | .full | .good => g == 3
  | _ => g == 0

/-- The ISET ceiling that applies in a state with a gate mode, none where row 7 of R240 names none. -/
def isetCeiling (w : BitVec 64) (st : ChState) (g : Nat) : Option Nat :=
  match st with
  | .ramping => if g = 0 then none else if g = 3 ∧ bitOf w 25 then some (fld w 44 10) else some (fld w 54 10)
  | .full | .good => some (fld w 44 10)
  | _ => none

/-- Channels of a hearth that are Ramping. -/
def rampingCount (s : State) (h : Nat) : Nat :=
  ((List.range 64).filter fun k => decide ((s.cell (64 * h + k)).state = .ramping)).length

/-- Whether a group has a selected feed for consent and for the start rule (08 R206). -/
def feedSelected (p : Phase) : Bool := match p with | .idle | .gap | .recharge | .none => false | _ => true

/-- The reason for which the envelope refuses a command word, none when it is applied (09 R240, rows 1 to 6). -/
def refusal (s : State) (c : Nat) (w : BitVec 16) : Option Nat :=
  let C := s.cell c
  let req := fld w 12 4
  let g := fld w 10 2
  let res := match requestTarget C.state req (seatedOrFixed s c) with | some x => x | none => C.state
  let pgReq := req = 11 ∨ req = 12
  if req = 10 then
    (match C.state with
     | .ramping | .full | .good => if fld w 0 6 = 0 then some 1 else none
     | .tripped => if fld w 0 6 ≠ 0 ∧ trippedThisTick C then none else some 1
     | _ => some 1)
  else if (req ≠ 0 ∧ ¬ pgReq ∧ (requestTarget C.state req true).isNone) ∨ (pgReq ∧ C.state ≠ .good) then some 1
  else if req = 1 ∧ C.state = .cooling ∧ C.offTicks < 4000 * fld C.env.word 36 8 then some 2
  else if req = 2 ∧ (!bitOf C.env.word 26 || !feedSelected (s.group (hOf c)).phase ||
      decide ((s.hearth (hOf c)).rampAllow ≤ rampingCount s (hOf c))) then some 3
  else if (req = 3 ∨ req = 4) ∧ !C.gateFull then some 4
  else if !gmodeOk res g (bitOf C.env.word 25) then some 5
  else none

/-- Apply the gate mode and ISET of a word in the state it leaves, the ISET at its ceiling at most (03 R79, 09 R240 row 7). -/
def applyDamper (C : Cell) (w : BitVec 16) : Cell :=
  let g := fld w 10 2
  let i := fld w 0 10
  let drive := gmodeDrive g
  let C := match isetCeiling C.env.word C.state g with
    | some m => if m < i then { C with iset := BitVec.ofNat 10 m, clips := satInc C.clips } else { C with iset := BitVec.ofNat 10 i }
    | none => { C with iset := BitVec.ofNat 10 i }
  match C.state with
  | .ramping | .full | .good => if drive = .pullDown then discharge C false else { C with gate := drive }
  | _ => C

/-- Carry out an admitted command word (09 R235, R236; 02 R57, R66, R69). OFF from Tripped waits for the gate-off confirmation (02 R49). -/
def applyWord (s : State) (c : Nat) (w : BitVec 16) : State :=
  let C := s.cell c
  let req := fld w 12 4
  let s := s.updCell c fun C => { C with refused := false }
  let s := if 1 ≤ req ∧ req ≤ 9 then noteUndo s c else s
  if req = 10 then tripNow s c (fld w 0 6 * 2) (fld w 6 4) .sitter
  else if req = 9 then channelReset s c .firmware
  else if req = 7 ∧ C.state = .tripped ∧ !C.confirmed then s.updCell c fun C => { C with offPend := true, asked := some .off }
  else
    let s := match requestTarget C.state req (seatedOrFixed s c) with
      | some x => enterState s c x (requestBy C.state req)
      | none => s
    let s := s.updCell c fun C => applyDamper C w
    if req = 7 then s.updCell c fun C => { discharge C (bitOf C.lifeWord 13) with pg := false, pgDropped := false }
    else if req = 4 then s.updCell c fun C => { C with pg := true, pgDropped := false }
    else if req = 11 then s.updCell c fun C => { C with pg := false, pgDropped := true }
    else if req = 12 then s.updCell c fun C => { C with pg := true, pgDropped := false }
    else s

/-- Refuse a command word (09 R241): REFUSED, and EV_ENV_REFUSE unless the word equals the last word refused. -/
def refuseWord (s : State) (c : Nat) (w : BitVec 16) (reason : Nat) : State :=
  let C := s.cell c
  if C.lastRefused = some w then s.updCell c fun C => { C with refused := true, refusals := satInc16 C.refusals }
  else
    let s := s.updCell c fun C => { C with refused := true, lastRefused := some w, refusals := 0 }
    stampNow s (hOf c) (srcChan c) 0x110D [(16, w.toNat), (4, reason), (16, C.refusals.toNat)]

/-- Whether a hearth acts on CMD and PARAM frames of a port: it holds the accepted claim, and the hearth is neither in Saggar hold
nor in hearth fault (13 R349, 11 R299). -/
def obeys (H : HearthSt) (p : Port) : Bool :=
  H.held && decide (H.holder = p) && !H.admitting && !H.saggar && !H.fault

/-- A fast trip was latched on the channel in this hearth tick. -/
def fastThisTick (C : Cell) : Bool := bitOf C.tickCauses 0

/-- A command word for channel `c` reaches its hearth on a port (09 R232, R240): a word equal to the last one received is a
repetition; any other is judged, and applied or refused. In the tick of a fast trip a word other than a TRIP request, which joins the trip,
has no effect (03 R79; 09 R236). -/
def hearthReceive (s : State) (c : Nat) (p : Port) (w : BitVec 16) : State :=
  if !obeys (s.hearth (hOf c)) p then s
  else if (s.cell c).kept = some w then s
  else
    let s := s.updCell c fun C => { C with kept := some w }
    if fastThisTick (s.cell c) && decide (fld w 12 4 ≠ 10) then s
    else match refusal s c w with
    | some r => refuseWord s c w r
    | none => applyWord s c w

/-- The records of a source from number `first` on without its EV_STATE and EV_LOCKED, numbered anew from `q`; and the next number. -/
def takeBack (src : Nat) (first : BitVec 32) : List EventRec → BitVec 32 → List EventRec × BitVec 32
  | [], q => ([], q)
  | r :: l, q =>
    if r.source.toNat = src ∧ (r.seq - first).toNat < 2 ^ 31 then
      if r.code = 0x1101#16 ∨ r.code = 0x1103#16 then takeBack src first l q
      else ({ r with seq := q } :: (takeBack src first l (nextSeq q)).1, (takeBack src first l (nextSeq q)).2)
    else (r :: (takeBack src first l q).1, (takeBack src first l q).2)

/-- Entry to Saggar hold cancels the transition that a command word made in the same tick (02 R50): the cell is as it was, and the records of
the transition are taken back. A trip of the tick stands. -/
def cancelWord (s : State) (c : Nat) : State :=
  let C := s.cell c
  match C.undo with
  | none => s
  | some u =>
    let s := s.updCell c fun C => { C with undo := none }
    if trippedThisTick C then
      (if C.state = .tripped then s else s.updCell c fun C => { C with
        state := u.state, tripReg := if bitOf u.tripReg 11 then C.tripReg else C.tripReg &&& ~~~0x0800#16 })
    else
      let s := s.updCell c fun C => { C with
        state := u.state, gate := u.gate, iset := u.iset, pg := u.pg, pgDropped := u.pgDropped, confirmed := u.confirmed, offTicks := u.offTicks
        tripReg := u.tripReg, sub := u.sub, env := u.env, envWait := u.envWait, offPend := false }
      let s := s.updChan c fun A => { A with locks := u.locks }
      s.updHearth (hOf c) fun H =>
        let x := takeBack (srcChan c) u.seq H.outbox u.seq
        { H with seqs := tabSet 0 H.seqs (srcChan c) x.2, outbox := x.1 }

/-- One channel at entry to Saggar hold (02 R50, R67; 13 R353: a fallback trip that is due is taken at entry). A trip of the same tick is a
trip in Held: IN_HELD is set in place of IN_OFF. -/
def holdChannel (s : State) (c : Nat) : State :=
  let s := cancelWord s c
  let C := s.cell c
  if !holdable C.state then s
  else
    let trip := trippedThisTick C
    let good := (decide (C.state = .full) || decide (C.state = .good)) && !trip
    let s := s.updCell c fun C => if good then { C with heldGood := true, heldTrip := false }
      else { discharge C false with heldGood := false, pg := false, heldTrip := trip || decide (C.state = .tripped) }
    let s := if trip then s.updCell c fun C => { C with
        tripReg := C.tripReg ||| 0x0400#16, tickCauses := C.tickCauses ||| 0x0400#16 } else s
    let s := enterState s c .held .hearth
    if 2 ^ 46 ≤ C.f ∧ good then tripNow s c 0x80 0 .hearth else s

/-- The hearth enters Saggar hold (02 R67, 01 R27, R510): EV_SAGGAR, and its channels enter Held. -/
def enterSaggar (s : State) (h : Nat) : State :=
  let s := stampNow s h (srcHearth h) 0x1403 [(8, 1), (32, (s.hearth h).claim.toNat)]
  let s := s.updHearth h fun H => { H with saggar := true }
  forEach (List.range 64) (fun s k => holdChannel s (64 * h + k)) s

/-- The state in which a Held channel leaves Held, by the hearth's live state (02 R68). -/
def leaveHeldState (s : State) (c : Nat) : ChState :=
  let C := s.cell c
  if C.gate = .enh then (if C.pg then .good else .full)
  else if C.heldTrip then .tripped
  else if seatedOrFixed s c then .seated
  else .vacant

/-- One channel at the acceptance of a claim (02 R68; 04 R107: A starts at the larger of its value and F). -/
def releaseChannel (s : State) (c : Nat) : State :=
  let s := s.updCell c fun C => { C with asked := none, kept := none }
  let s := s.updChan c fun A => { A with igMode := 0 }
  if (s.cell c).state = .held then
    let x := leaveHeldState s c
    let s := enterState s c x .hearth
    s.updCell c fun C => { C with heldTrip := false, heldGood := false }
  else s

end Sys2Proof.Machine
end

