-- ==== Sys2Proof/Machine/Feeds.lean ====
section
/-! DEFINITION. Feed groups: eligibility, warnings, losses, handovers, the shadow, selector faults (08). -/
namespace Sys2Proof.Machine
open Sys2Proof

/-- Code of a feed in events and in SEL (08 R205). -/
def feedCode : Feed → Nat
  | .a => 1 | .b => 2

/-- The other feed. -/
def otherFeed : Feed → Feed
  | .a => .b | .b => .a

/-- Code of a phase (08 R205). -/
def phaseCode : Phase → Nat
  | .idle => 0 | .steady => 1 | .confirm => 2 | .lead => 3 | .gap => 4 | .recharge => 5 | .tail => 6 | .none => 7

/-- The spyhole of a feed, as its key (07 R181). -/
def feedSpy (h : Nat) (f : Feed) : Nat := 130 * h + (match f with | .a => 128 | .b => 129)

/-- FEEDS includes a feed (08 R202). -/
def feedWired (G : Group) (f : Feed) : Bool := match f with | .a => bitOf G.word0 60 | .b => bitOf G.word0 61

/-- PREFER (08 R202). -/
def prefer (G : Group) : Option Feed := match fld G.word0 62 2 with | 0 => some .a | 1 => some .b | _ => none

/-- A feed is barred (08 R223). -/
def barred (G : Group) (f : Feed) : Bool := match f with | .a => G.barA | .b => G.barB

/-- A spyhole in service that is INSIDE and not between a start and its compare (07 R184). -/
def spyInside (y : Spy) : Bool := bitOf y.word 31 && decide (y.st = .inside) && !y.starting

/-- The hearth's time at `off` ns into the tick. -/
def hearthNow (s : State) (h off : Nat) : Nat := (s.hearth h).tai + off

/-- CONFIRM in ns (08 R202). -/
def confirmNs (G : Group) : Nat := 100 * fld G.word0 47 8

/-- A feed is eligible `off` ns into the tick (08 R209). In NONE the outgoing feed counts again once it has been INSIDE for CONFIRM (08 R211). -/
def eligible (s : State) (h : Nat) (f : Feed) (off : Nat := 0) : Bool :=
  let G := s.group h
  let y := s.spy (feedSpy h f)
  feedWired G f && !barred G f && spyInside y &&
    (decide (G.outgoing ≠ some f) || (decide (G.phase = .none) && decide (y.insideAt + confirmNs G ≤ hearthNow s h off)))

/-- The highest-priority eligible feed: the preferred one, A where none is preferred (08 R207, R211). -/
def bestFeed (s : State) (h : Nat) (off : Nat := 0) : Option Feed :=
  let first := match prefer (s.group h) with | some f => f | none => Feed.a
  if eligible s h first off then some first else if eligible s h (otherFeed first) off then some (otherFeed first) else none

/-- A record of a feed group (12 R316: hearth action). -/
def stampGroup (s : State) (h code : Nat) (l : List (Nat × Nat)) (off : Nat) : State := stampNow s h (srcGroup h) code l off

/-- Raise a warning: the next identifier, EV_WARN with its cause (08 R216). -/
def raiseWarn (s : State) (h cause off : Nat) : State :=
  let id := (s.group h).nextId
  let s := s.updGroup h fun G => { G with
    nextId := id + 1, warns := G.warns ++ [{ ident := id, cause := BitVec.ofNat 8 cause, kind := .pending, due := false }] }
  stampGroup s h 0x1305 [(16, id.toNat), (8, cause)] off

/-- Whether a warning awaits confirmation. -/
def isPending (w : Warn) : Bool := decide (w.kind = .pending)

/-- Confirm every pending warning, each with EV_WARN_CONFIRM (08 R217). -/
def confirmWarns (s : State) (h : Nat) (kind : WarnKind) (off : Nat) : State :=
  let ids := ((s.group h).warns.filter isPending).map (·.ident)
  let s := s.updGroup h fun G => { G with warns := G.warns.map fun w => if isPending w then { w with kind := kind } else w }
  forEach ids (fun s i => stampGroup s h 0x1306 [(16, i.toNat)] off) s

/-- Whether a warning was raised by a comparator crossing: cause sag or surge (08 R216). -/
def isCrossing (w : Warn) : Bool := isPending w && (decide (w.cause = 0) || decide (w.cause = 1))

/-- Retract the pending warnings of comparator crossings, each with EV_WARN_RETRACT (08 R217). -/
def retractWarns (s : State) (h off : Nat) : State :=
  let ids := ((s.group h).warns.filter isCrossing).map (·.ident)
  let s := s.updGroup h fun G => { G with
    warns := G.warns.map fun w => if isCrossing w then { w with kind := .retracted, due := true } else w }
  forEach ids (fun s i => stampGroup s h 0x1307 [(16, i.toNat)] off) s

/-- Warnings of a kind become due for release. -/
def dueWarns (s : State) (h : Nat) (p : WarnKind → Bool) : State :=
  s.updGroup h fun G => { G with warns := G.warns.map fun w => if p w.kind then { w with due := true } else w }

/-- The feed status word (08 R205). -/
def feedStatus (G : Group) : BitVec 16 :=
  BitVec.ofNat 16 ((match G.sel with | none => 0 | some f => feedCode f) * 2 ^ 14 + phaseCode G.phase * 2 ^ 11 +
    b2n (!G.warns.isEmpty) * 2 ^ 10 + b2n G.shadow * 2 ^ 9 + b2n G.barA * 2 ^ 8 + b2n G.barB * 2 ^ 7 + b2n G.forced * 2 ^ 6)

/-- Context words of a group's error (17 R464); the feed current at detection is a free value. -/
def groupDetail (s : State) (h : Nat) (sel : Option Feed) (low : Nat) : Nat × State :=
  let (v, s) := s.freshFree
  let gb := (tabGet (0, false) s.gbus h).1.toNat
  ((feedStatus (s.group h)).toNat + 2 ^ 32 * (gb * 2 ^ 16 + v % 2 ^ 16) +
    2 ^ 64 * ((match sel with | none => 0 | some f => feedCode f) * 2 ^ 24 + low % 2 ^ 24), s)

/-- Report an error of the group (11 R283). -/
def groupError (s : State) (h code : Nat) (sel : Option Feed) (low off : Nat) : State :=
  let (d, s) := groupDetail s h sel low
  reportError s h (srcGroup h) code d off

/-- An error of the group ends (11 R288). -/
def groupEnd (s : State) (h code : Nat) : State := endError s h (srcGroup h) code

/-- A planned handover: its warning and LEAD (08 R210, R211, R216). -/
def planned (s : State) (h : Nat) (f : Feed) (cause off : Nat) : State :=
  let s := raiseWarn s h cause off
  s.updGroup h fun G => { G with phase := .lead, target := some f, lossKind := 0 }

/-- Apply FEED.SELECT in STEADY: its feed is judged again, and dropped with EV_FEED_SELECT_DROP when not eligible (08 R210). A selection of the
feed that conducts is in force with no warning and no handover (DESIGN CHOICE, log entry 179). -/
def applySelect (s : State) (h : Nat) (t : FeedSel) (off : Nat) : State :=
  let force (f : Feed) : State :=
    if !eligible s h f off then
      stampGroup (s.updGroup h fun G => { G with forced := false, forcedTo := none, pendSel := none }) h 0x1309 [(8, feedCode f), (8, 0)] off
    else
      let t := s.updGroup h fun G => { G with forced := true, forcedTo := some f, pendSel := none }
      if (s.group h).sel = some f then t else planned t h f 5 off
  match t with
  | .auto => s.updGroup h fun G => { G with forced := false, forcedTo := none, pendSel := none }
  | .a => force .a
  | .b => force .b

/-- A pending selection is applied as the group enters STEADY (08 R220). -/
def takePending (s : State) (h off : Nat) : State :=
  match (s.group h).pendSel with
  | some t => applySelect s h t off
  | none => s

/-- The conducting feed's spyhole is in an excursion. -/
def inExcursion (s : State) (h : Nat) : Bool :=
  match (s.group h).sel with | some f => (s.spy (feedSpy h f)).excursion | none => false

/-- The group enters STEADY: the handover is over, an excursion of the conducting feed awaits its confirmation, and a pending
selection is applied (08 R205, R220). -/
def enterSteady (s : State) (h off : Nat) : State :=
  let exc := inExcursion s h
  let s := s.updGroup h fun G => { G with
    phase := if exc then .confirm else .steady, outgoing := none, target := none, lossKind := 0, limited := false }
  if exc then s else takePending s h off

/-- The warnings of a handover, and of a make out of NONE, become due (08 R218). -/
def dueHandover (s : State) (h : Nat) : State := dueWarns s h fun k => match k with | .handover | .inNone => true | _ => false

/-- The shadow ends: EV_FEED_SETTLED, and the warnings it held become due (08 R214, R218): not while both selectors are off or a break is awaited,
for the warnings then go with the make to come. -/
def endShadow (s : State) (h off : Nat) : State :=
  let G := s.group h
  let s := s.updGroup h fun G => { G with shadow := false }
  let s := stampGroup s h 0x1304 [(32, hearthNow s h off - G.shadowAt)] off
  let s := if G.sel.isNone || G.pulling then s else dueHandover s h
  if G.phase = .tail ∧ !G.pulling then enterSteady s h off else s

/-- Start the outgoing selector's pull-down (08 R211). Warnings kept for a loss that stood go with the handover (08 R209, R218). -/
def pullOutgoing (s : State) (h lossKind : Nat) : State :=
  s.updGroup h fun G => { G with
    pulling := true, outgoing := G.sel, lossKind := BitVec.ofNat 4 lossKind, standing := false
    warns := G.warns.map fun w => if w.kind = .kept ∧ !w.due then { w with kind := .handover } else w }

/-- A loss of the conducting feed (08 R208, R209, R216, R217, R220, R223). Kinds: 1 excursion, 2 reverse current, 3 path open. A loss of the forced
feed clears FORCED (R210). With no eligible feed a confirmed excursion keeps the conducting feed, and the loss stands; the group is then in STEADY. -/
def loss (s : State) (h kind off : Nat) : State :=
  let s := if kind = 2 ∨ kind = 3 then raiseWarn s h kind off else s
  let f := (s.group h).sel
  let s := s.updGroup h fun G => { G with
    forced := G.forced && decide (G.forcedTo ≠ f), forcedTo := if G.forcedTo = f then none else G.forcedTo
    barA := G.barA || (decide (kind = 3) && decide (f = some .a))
    barB := G.barB || (decide (kind = 3) && decide (f = some .b)) }
  if (s.group h).pulling then confirmWarns s h .handover off
  else
    let out := (s.group h).outgoing
    let s := s.updGroup h fun G => { G with outgoing := f }
    if (bestFeed s h off).isSome ∨ kind = 2 ∨ kind = 3 then confirmWarns (pullOutgoing s h kind) h .handover off
    else
      let s := confirmWarns s h .kept off
      let steady := decide ((s.group h).phase = .confirm) || decide ((s.group h).phase = .lead)
      let s := s.updGroup h fun G => { G with
        outgoing := out, standing := true, phase := if steady then .steady else G.phase, target := if steady then none else G.target }
      if steady then takePending s h off else s

/-- A feed may have become eligible while a loss stands: the group then breaks (08 R209, R218). -/
def standingCheck (s : State) (h off : Nat) : State :=
  let G := s.group h
  if G.standing ∧ !G.pulling ∧ (bestFeed (s.updGroup h fun G => { G with outgoing := G.sel }) h off).isSome then pullOutgoing s h 1 else s

/-- The make on a feed (08 R211, R214): EV_FEED_MAKE, gate event 0x4, RECHARGE. Out of NONE with no shadow running, a new shadow; after the gap with
no shadow running, the warnings of the handover are due at once. -/
def makeFeed (s : State) (h : Nat) (f : Feed) (limited : Bool) (off : Nat) : State :=
  let now := hearthNow s h off
  let G := s.group h
  let new := decide (G.phase = .none) && !G.shadow
  let s := s.updGroup h fun G => { G with
    sel := some f, phase := .recharge, makeAt := now, limited := limited, stuck := false
    shadow := G.shadow || new, shadowAt := if new then now else G.shadowAt, shadowTick := G.shadowTick || new }
  let s := if G.phase = .gap ∧ !G.shadow then dueHandover s h else s
  gateEvent (stampGroup s h 0x1302 [(2, feedCode f)] off) h 4 0

/-- A spyhole comparator of a feed crosses a trip edge, before its filter (08 R216). -/
def feedCross (s : State) (h : Nat) (f : Feed) (above : Bool) (off : Nat) : State :=
  if (s.group h).sel = some f then raiseWarn s h (b2n above) off else s

/-- A feed's spyhole has changed state (08 R205, R208, R209, R217, R218). -/
def feedSpyChange (s : State) (h : Nat) (f : Feed) (new : SpyState) (began : Bool) (off : Nat) : State :=
  let G := s.group h
  if G.sel = some f then
    if began ∧ G.phase = .steady ∧ !G.pulling then s.updGroup h fun G => { G with phase := .confirm }
    else if new = .inside ∧ !G.pulling then
      let s := retractWarns s h off
      let s := dueWarns s h fun k => match k with | .kept => true | _ => false
      let s := s.updGroup h fun G => { G with standing := false }
      if G.phase = .confirm then enterSteady s h off else s
    else s
  else if new = .inside then standingCheck s h off
  else s

/-- The conducting feed's spyhole has stayed out of INSIDE for CONFIRM (08 R208). -/
def confirmLoss (h : Hearth) (s : State) : State :=
  let G := s.group h
  if inExcursion s h && !G.pulling && !G.standing &&
      (decide (G.phase = .confirm) || decide (G.phase = .lead) || decide (G.phase = .recharge) || decide (G.phase = .tail)) then loss s h 1 0
  else s

/-- CONFIRM_EXPIRY: in continuous operation; in sampled operation a compare moment confirms (08 R225). -/
def confirmExpiry (h : Hearth) (s : State) : State := if continuous (s.hearth h) then confirmLoss h s else s

def execConfirmExpiry (h : Hearth) (s : State) : Host.Outcome State Fault Refusal := .next (confirmExpiry h s)

/-- REVERSE_CURRENT: above REV_LEVEL for 200 ns while a feed conducts (08 R208). -/
def reverseCurrent (h : Hearth) (s : State) : State :=
  if (s.group h).sel.isSome then loss s h 2 0 else s

def execReverseCurrent (h : Hearth) (s : State) : Host.Outcome State Fault Refusal := .next (reverseCurrent h s)

/-- PATH_DROP: the path-drop condition is a loss, bars the feed and reports feed selector open (08 R222, R223). -/
def pathDrop (h : Hearth) (s : State) : State :=
  let G := s.group h
  if !G.pulling ∧ (G.phase = .steady ∨ G.phase = .confirm ∨ G.phase = .tail ∨ G.phase = .recharge) then
    loss (groupError s h 0x212 G.sel (b2n (decide (G.phase = .recharge))) 0) h 3 0
  else s

def execPathDrop (h : Hearth) (s : State) : Host.Outcome State Fault Refusal := .next (pathDrop h s)

/-- WARN_LEAD_END: the lead of a planned handover ends, and the pull-down starts (08 R211). -/
def warnLeadEnd (h : Hearth) (s : State) : State :=
  let G := s.group h
  if G.phase = .lead ∧ !G.pulling then pullOutgoing s h 0 else s

def execWarnLeadEnd (h : Hearth) (s : State) : Host.Outcome State Fault Refusal := .next (warnLeadEnd h s)

/-- The selector of a feed turns off (08 R221, R223). -/
def turnedOff (f : Option Feed) (now : Nat) (G : Group) : Group :=
  match f with
  | some .a => { G with offAtA := now, offHighA := false }
  | some .b => { G with offAtB := now, offHighB := false }
  | none => G

/-- SELECTOR_BREAK: the outgoing selector's gate falls below 1.0 V (08 R211, R213, R214, R217). -/
def selectorBreak (h : Hearth) (off : Fin 250) (s : State) : State :=
  let G := s.group h
  if !G.pulling then s
  else
    let now := hearthNow s h off
    let s := groupEnd (groupEnd (confirmWarns s h .handover off) h 0x20F) h 0x210
    let s := s.updGroup h fun G => turnedOff G.outgoing now { G with
      pulling := false, stuck := false, sel := none, phase := .gap
      shadow := true, shadowAt := if G.shadow then G.shadowAt else now, shadowTick := true }
    gateEvent (stampGroup s h 0x1301 [(2, (match G.outgoing with | none => 0 | some f => feedCode f)), (4, G.lossKind.toNat)] off) h 3 0

def execSelectorBreak (h : Hearth) (off : Fin 250) (s : State) : Host.Outcome State Fault Refusal := .next (selectorBreak h off s)

/-- SELECTOR_DISCHARGE_TIMEOUT: no break within 2 µs of the pull-down (08 R213). The gate voltage in the context is a free value. -/
def selectorDischargeTimeout (h : Hearth) (s : State) : State :=
  let G := s.group h
  if G.pulling ∧ !G.stuck then
    let s := s.updGroup h fun G => { G with stuck := true, phase := .gap }
    let (v, s) := s.freshFree
    groupError s h 0x20F G.outgoing (v % 65536) 0
  else s

def execSelectorDischargeTimeout (h : Hearth) (s : State) : Host.Outcome State Fault Refusal := .next (selectorDischargeTimeout h s)

/-- GAP_EXPIRY: at GAP after the break the hearth makes on the best eligible feed, or enters NONE (08 R211, R218). Where a forced selection's target
is not eligible then, FORCED stays set (DESIGN CHOICE, log entry 178). -/
def gapExpiry (h : Hearth) (off : Fin 250) (s : State) : State :=
  let G := s.group h
  if G.phase = .gap ∧ G.sel = none then
    match bestFeed s h off with
    | some f => makeFeed s h f true off
    | none => s.updGroup h fun G => { G with
        phase := .none, warns := G.warns.map fun w => if w.kind = .handover then { w with kind := .inNone } else w }
  else s

def execGapExpiry (h : Hearth) (off : Fin 250) (s : State) : Host.Outcome State Fault Refusal := .next (gapExpiry h off s)

/-- FEED_FIRST_MAKE: the first make out of IDLE after the commit, with no warning, no shadow and no limit (08 R207). -/
def feedFirstMake (h : Hearth) (off : Fin 250) (s : State) : State :=
  let G := s.group h
  if G.phase = .idle ∧ fld G.word0 60 2 ≠ 0 then
    match bestFeed s h off with
    | some f => makeFeed s h f false off
    | none => s
  else s

def execFeedFirstMake (h : Hearth) (off : Fin 250) (s : State) : Host.Outcome State Fault Refusal := .next (feedFirstMake h off s)

/-- FEED_MAKE_FROM_NONE: a feed has become eligible in NONE (08 R211, R214). -/
def feedMakeFromNone (h : Hearth) (off : Fin 250) (s : State) : State :=
  if (s.group h).phase = .none then
    match bestFeed s h off with
    | some f => makeFeed s h f true off
    | none => s
  else s

def execFeedMakeFromNone (h : Hearth) (off : Fin 250) (s : State) : Host.Outcome State Fault Refusal := .next (feedMakeFromNone h off s)

/-- RECHARGE_END: the incoming sense exceeds GBUS by 0.5 V or less (08 R212). The shadow ends with it when 20 µs have passed since
the make (08 R214). -/
def rechargeEnd (h : Hearth) (off : Fin 250) (s : State) : State :=
  let G := s.group h
  let now := hearthNow s h off
  if G.phase = .recharge ∧ !G.pulling then
    let s := groupEnd (s.updGroup h fun G => { G with phase := .tail, limited := false }) h 0x210
    let s := stampGroup s h 0x1303 [(32, now - G.makeAt)] off
    if !G.shadow then enterSteady s h off
    else if G.makeAt + 20000 ≤ now then endShadow s h off
    else s
  else s

def execRechargeEnd (h : Hearth) (off : Fin 250) (s : State) : Host.Outcome State Fault Refusal := .next (rechargeEnd h off s)

/-- SHADOW_END: 20 µs after the make with the recharge over, or 1 ms after the shadow's start (08 R214). -/
def shadowEnd (h : Hearth) (off : Fin 250) (s : State) : State :=
  let G := s.group h
  let now := hearthNow s h off
  if G.shadow ∧ ((G.phase = .tail ∧ G.makeAt + 20000 ≤ now) ∨ G.shadowAt + 1000000 ≤ now) then endShadow s h off else s

def execShadowEnd (h : Hearth) (off : Fin 250) (s : State) : Host.Outcome State Fault Refusal := .next (shadowEnd h off s)

/-- RECHARGE_OVERTIME: the recharge still runs at the limit of 1 ms from the break, or from a hearth reset; it is reported, the shadow ends, the
recharge runs on (08 R214, R509). -/
def rechargeOvertime (h : Hearth) (s : State) : State :=
  let G := s.group h
  if G.phase = .recharge ∧ G.limited ∧ G.shadowAt + 1000000 ≤ hearthNow s h 250 then
    let s := groupError s h 0x210 G.sel ((hearthNow s h 0 - G.makeAt) / 1000) 0
    let s := s.updGroup h fun G => { G with limited := false }
    if G.shadow then endShadow s h 0 else s
  else s

def execRechargeOvertime (h : Hearth) (s : State) : Host.Outcome State Fault Refusal := .next (rechargeOvertime h s)

/-- WARNING_RELEASE: the release moment of a warning has come (08 R218); EV_WARN_END for a confirmed one. -/
def warningRelease (h : Hearth) (ident : BitVec 16) (s : State) : State :=
  match (s.group h).warns.find? (fun w => w.ident = ident ∧ w.due) with
  | none => s
  | some w =>
    let s := s.updGroup h fun G => { G with warns := G.warns.erase w }
    if w.kind = .retracted then s else stampGroup s h 0x1308 [(16, ident.toNat)] 0

def execWarningRelease (h : Hearth) (ident : BitVec 16) (s : State) : Host.Outcome State Fault Refusal :=
  .next (warningRelease h ident s)

/-- The return dwell runs: the group is settled on its non-preferred feed, the preferred feed's spyhole is INSIDE, and neither RETURN 0
nor FORCED forbids a return (08 R210). -/
def returnRuns (s : State) (h : Nat) : Bool :=
  let G := s.group h
  match prefer G with
  | none => false
  | some f => decide (G.phase = .steady) && !G.forced && decide (fld G.word0 39 8 ≠ 0) && decide (G.sel = some (otherFeed f)) &&
      spyInside (s.spy (feedSpy h f))

/-- At a tick boundary the dwell's start is noted, or dropped (17 R458, RETURN_LEFT). -/
def returnTick (s : State) (h : Nat) : State :=
  if returnRuns s h then s.updGroup h fun G => { G with returnSince := some (G.returnSince.getD (s.hearth h).tai) }
  else s.updGroup h fun G => { G with returnSince := none }

/-- RETURN_DWELL: the preferred feed has been INSIDE for RETURN × 10 ms (08 R210). The dwell's start is noted at the tick boundary after it. -/
def returnDwell (h : Hearth) (s : State) : State :=
  let G := s.group h
  match prefer G with
  | none => s
  | some f =>
    if G.phase = .steady ∧ !G.pulling ∧ !G.forced ∧ fld G.word0 39 8 ≠ 0 ∧ G.sel = some (otherFeed f) ∧ eligible s h f ∧
        G.returnSince.any (fun t => decide (t + 10000000 * fld G.word0 39 8 ≤ hearthNow s h 500)) then planned s h f 4 0
    else s

def execReturnDwell (h : Hearth) (s : State) : Host.Outcome State Fault Refusal := .next (returnDwell h s)

/-- OFF_STATE_SHORT: the off-state comparator of an off selector has read high, or low again, for 1 ms (08 R221). The report clears when neither
reads high. -/
def offStateShort (h : Hearth) (feed : Feed) (high : Bool) (volts : BitVec 32) (s : State) : State :=
  let G := s.group h
  if G.sel = some feed then s
  else
    let was := match feed with | .a => G.offHighA | .b => G.offHighB
    let s := s.updGroup h fun G => match feed with | .a => { G with offHighA := high } | .b => { G with offHighB := high }
    if high ∧ !was then groupError s h 0x211 (some feed) volts.toNat 0
    else if !(s.group h).offHighA && !(s.group h).offHighB then groupEnd s h 0x211
    else s

def execOffStateShort (h : Hearth) (feed : Feed) (high : Bool) (volts : BitVec 32) (s : State) : Host.Outcome State Fault Refusal :=
  .next (offStateShort h feed high volts s)

/-- FEED.SELECT reaches the hearth: applied in STEADY, else held, a later one replacing an earlier (08 R220). -/
def feedSelectWrite (s : State) (h : Nat) (t : FeedSel) : State :=
  let G := s.group h
  if G.phase = .steady ∧ !G.pulling then applySelect s h t 0 else s.updGroup h fun G => { G with pendSel := some t }

/-- The off-state comparator of a feed has read low for 1 ms: its selector has been off for that long, and no high stands (08 R221, R223). -/
def offLow (s : State) (h : Nat) (f : Feed) : Bool :=
  let G := s.group h
  decide (G.sel ≠ some f) && (match f with
    | .a => !G.offHighA && decide (G.offAtA + 1000000 ≤ hearthNow s h 0)
    | .b => !G.offHighB && decide (G.offAtB + 1000000 ≤ hearthNow s h 0))

/-- FEED.CLEAR reaches the hearth: the bar is cleared when the off-state comparator has read low for 1 ms (08 R223); feed selector open ends with
the last bar (11 R288). -/
def feedClearWrite (s : State) (h : Nat) (f : Feed) : State :=
  if !offLow s h f then s
  else
    let s := s.updGroup h fun G => match f with | .a => { G with barA := false } | .b => { G with barB := false }
    let s := if (s.group h).barA || (s.group h).barB then s else groupEnd s h 0x212
    standingCheck s h 0

/-- A hearth reset on its feed group (08 R509; 02 R216): drives kept, the phase resolved, a pending selection dropped, the shadow
ended, every warning released, identifiers and bars cleared. -/
def groupReset (s : State) (h : Nat) : State :=
  let G := s.group h
  let s := match G.pendSel with
    | some t => stampGroup s h 0x1309 [(8, match t with | .auto => 0 | .a => 1 | .b => 2), (8, 1)] 0
    | none => s
  let s := if G.shadow then stampGroup s h 0x1304 [(32, hearthNow s h 0 - G.shadowAt)] 0 else s
  let s := groupEnd (groupEnd s h 0x20F) h 0x212
  let s := forEach G.warns (fun s w =>
    match w.kind with
    | .retracted => s
    | .pending => stampGroup s h 0x1307 [(16, w.ident.toNat)] 0
    | _ => stampGroup s h 0x1308 [(16, w.ident.toNat)] 0) s
  let ph : Phase := match G.phase with
    | .idle => .idle
    | .steady | .confirm | .lead | .tail => .steady
    | .recharge => .recharge
    | .gap => if G.sel.isSome then .steady else .none
    | .none => .none
  s.updGroup h fun G => { G with
    phase := ph, pendSel := none, shadow := false, warns := [], nextId := 0, barA := false, barB := false
    pulling := false, stuck := false, standing := false, outgoing := none, target := none, lossKind := 0
    shadowAt := hearthNow s h 0, limited := decide (ph = .recharge) }

/-- The groups whose warnings a WARN_N ball carries (08 R219). -/
def ballGroups (s : State) (h : Nat) : List Nat :=
  let w := (s.group h).word1
  match fld w 34 2 with
  | 0 => [h]
  | 1 => (List.range 8).filter fun g => bitOf w (26 + g)
  | _ => []

/-- The level of the WARN_N ball of a group: low while a warning it carries is asserted, or by the firmware in use 0b10 (08 R218, R219). -/
def warnLow (s : State) (h : Nat) : Bool :=
  if fld (s.group h).word1 34 2 = 2 then (s.group h).warnOut
  else (ballGroups s h).any fun g => !(s.group g).warns.isEmpty

end Sys2Proof.Machine
end

