-- ==== Sys2Proof/Machine/Spyholes.lean ====
section
/-! DEFINITION. Spyholes: states, filters, starts, events and their throttle, captures (07 R181 to R196). -/
namespace Sys2Proof.Machine
open Sys2Proof

/-- Fields of a spyhole word (07 R182). -/
def yLower (w : BitVec 64) : Nat := fld w 54 10
def yUpper (w : BitVec 64) : Nat := fld w 44 10
def yHyst (w : BitVec 64) : Nat := fld w 40 4
def yFilterNs (w : BitVec 64) : Nat := 100 * fld w 37 3
def yEvt (w : BitVec 64) : Nat := fld w 35 2
def yOn (w : BitVec 64) : Bool := bitOf w 31
def yUvTime (w : BitVec 64) : Nat := fld w 23 8

/-- Code of a spyhole state (07 R184). -/
def spyCode : SpyState → Nat
  | .inside => 0 | .below => 1 | .above => 2 | .unresolved => 3

/-- Where the input lies once edges that are absent are left out (07 R182: code 0 and code 0x3FF). -/
def zoneIn (w : BitVec 64) (z : Zone) : Zone :=
  match z with
  | .belowLower | .lowerBand => if yLower w = 0 then .inside else z
  | .upperBand | .aboveUpper => if yUpper w = 0x3FF then .inside else z
  | .inside => .inside

/-- The state that an input in a zone leads to, from a state (07 R184, R186). An UNRESOLVED spyhole keeps its state within the band it stands in. -/
def spyTarget (st : SpyState) (band z : Zone) : SpyState :=
  match z with
  | .belowLower => .below
  | .aboveUpper => .above
  | .inside => .inside
  | .lowerBand =>
    (match st with
     | .below => .below
     | .unresolved => if band = .lowerBand then .unresolved else .inside
     | _ => .inside)
  | .upperBand =>
    (match st with
     | .above => .above
     | .unresolved => if band = .upperBand then .unresolved else .inside
     | _ => .inside)

/-- The state a start compare enters (07 R186). -/
def startState (z : Zone) : SpyState :=
  match z with
  | .belowLower => .below | .aboveUpper => .above | .inside => .inside | .lowerBand | .upperBand => .unresolved

/-- The presented state (07 R183, R184, R186). -/
def presented (y : Spy) : SpyState :=
  if !yOn y.word then .inside
  else if y.starting then (if yLower y.word = 0 then .above else .below)
  else match y.st with
    | .unresolved => if y.band = .upperBand then .above else .below
    | x => x

/-- Source of a spyhole's events (12 R319): its channel, or the feed group. -/
def spySrc (h n : Nat) : Nat := if n < 128 then srcChan (64 * h + n % 64) else srcGroup h

/-- The feed of a feed spyhole. -/
def spyFeed (n : Nat) : Option Feed := if n = 128 then some .a else if n = 129 then some .b else none

/-- Typical response of a spyhole in ns (07 R181). -/
def spyResponse (n : Nat) : Nat := if n < 64 then 100 else if n < 128 then 300 else 150

/-- Site term of a spyhole's stamp (12 R316). -/
def spySite (n : Nat) : Nat := if 64 ≤ n ∧ n < 128 then 108 else 58

/-- A matching change enters a capture slot (07 R194). -/
def captureChange (C : Capture) (st : SpyState) (time : Nat) (unc : BitVec 8) (sampled : Bool) : Capture :=
  let code := BitVec.ofNat 2 (spyCode st)
  let D := if C.count = 0 then { C with first := BitVec.ofNat 64 time, uncFirst := unc, stFirst := code, smpFirst := sampled } else C
  { D with latest := BitVec.ofNat 64 time, uncLatest := unc, stLatest := code, smpLatest := sampled
           count := if C.count = 0xFFFF#16 then C.count else C.count + 1 }

/-- Whether a capture binding takes an entry of spyhole `n` into a state (07 R192). -/
def bindingTakes (b : BitVec 16) (n : Nat) (st : SpyState) : Bool :=
  bitOf b 4 && decide (fld b 8 8 = n) &&
    (match st with | .above => bitOf b 7 | .below => bitOf b 6 | .inside => bitOf b 5 | .unresolved => false)

/-- EV_SPY of a change, within the throttle of 16 a window (07 R190, R191). -/
def stampSpy (s : State) (h n : Nat) (old new : SpyState) (time : Nat) (sampled : Bool) : State :=
  let k := 130 * h + n
  if (s.spy k).stamped < 16 then
    let s := s.updSpy k fun y => { y with stamped := y.stamped + 1 }
    stampRec s h (spySrc h n) 0x110A (pay [(8, n), (2, spyCode old), (2, spyCode new)]) 0 time (spySite n) sampled false
  else s.updSpy k fun y => { y with suppressed := satInc16 y.suppressed }

/-- A change of state enters a capture slot that takes it; while a read is under way, one at or after the boundary waits for the next record
(07 R192, R194). -/
def captureTakes (n : Nat) (new : SpyState) (time : Nat) (unc : BitVec 8) (sampled : Bool) (C : Capture) : Capture :=
  if !bindingTakes C.binding n new then C
  else if C.edge.any (fun e => decide (e ≤ time)) then { C with late := C.late ++ [(new, time, unc, sampled)] }
  else captureChange C new time unc sampled

/-- A resolved change of a spyhole (07 R184, R190 to R194): the state, the excursion, EV_SPY by EVT, captures, gate events, and the
feed group. -/
def changeSpy (s : State) (h n : Nat) (new : SpyState) (time : Nat) (sampled : Bool) (off : Nat) : State :=
  let k := 130 * h + n
  let y := s.spy k
  let now := hearthNow s h off
  let began := decide (new = .below ∨ new = .above) && !y.excursion
  let ended := decide (new = .inside) && y.excursion
  let s := s.updSpy k fun y => { y with
    st := new, starting := false, filter := none, insideAt := if new = .inside then now else y.insideAt
    excursion := (y.excursion || began) && !ended }
  let evt := yEvt y.word
  let s := if evt = 2 ∨ (evt = 1 ∧ (began ∨ ended)) then stampSpy s h n y.st new time sampled else s
  let unc := siteUnc (s.hearth h) (spySite n) sampled
  let s := forEach (List.range 16) (fun s i => s.updCapture (16 * h + i) (captureTakes n new time unc sampled)) s
  match spyFeed n with
  | none => s
  | some f =>
    let s := if began then (gateEvent s h (n - 121) 0).updGroup h fun G => { G with returnSince := none } else s
    feedSpyChange s h f new began off

/-- A spyhole start (07 R186): UNRESOLVED until its compare; out of service it presents INSIDE (R183). -/
def spyStart (s : State) (k : Nat) : State :=
  s.updSpy k fun y =>
    if yOn y.word then { y with st := .unresolved, starting := true, filter := none, excursion := false }
    else { y with st := .inside, starting := false, filter := none, excursion := false }

/-- A new spyhole word at a hearth tick boundary (07 R186, R187): the state is kept, to be judged against the new edges, and a filter in progress
starts again. A start is due at a commit and where ENABLE rises; ENABLE falling powers the spyhole down. -/
def spyNewWord (s : State) (k : Nat) (w : BitVec 64) (now : Nat) : State :=
  let y := s.spy k
  let s := s.updSpy k fun y => { y with word := w, nextWord := none, restart := false, rejudge := true, filterAt := now }
  if y.restart || yOn y.word != yOn w then spyStart s k else s

/-- The first trip edge that a filter target lies beyond raises the warning of a conducting feed (08 R216). -/
def crossWarning (s : State) (h n : Nat) (st target : SpyState) (off : Nat) : State :=
  match spyFeed n with
  | none => s
  | some f =>
    if st = .inside ∨ st = .unresolved then
      (match target with
       | .below => feedCross s h f false off
       | .above => feedCross s h f true off
       | _ => s)
    else s

/-- The state that the comparators' placement of the input leads to. At the first judgement against new edges an input within a band keeps the
state (07 R187). -/
def spyJudged (y : Spy) (z : Zone) : SpyState :=
  if y.rejudge && (decide (z = .lowerBand) || decide (z = .upperBand)) then y.st else spyTarget y.st y.band z

/-- What a placement of the input leaves: its zone, and the band of a spyhole that stays UNRESOLVED (07 R184, R187). -/
def placeSpy (y : Spy) (z : Zone) : Spy :=
  { y with zone := z, rejudge := false, band := if y.rejudge && (decide (z = .lowerBand) || decide (z = .upperBand)) then z else y.band }

/-- The warning of a crossing that its filter still times is retracted where the input has returned across the trip edge (08 R217). -/
def crossingBack (s : State) (h n : Nat) (y : Spy) (t : SpyState) (off : Nat) : State :=
  match spyFeed n, y.filter with
  | some f, some x =>
    if (y.st = .inside ∨ y.st = .unresolved) ∧ (x = .below ∨ x = .above) ∧ t ≠ x ∧ (s.group h).sel = some f ∧ !(s.group h).pulling then
      retractWarns s h off
    else s
  | _, _ => s

/-- SPYHOLE_CROSSING: in continuous operation the comparators place the input in a zone; a filter starts, restarts towards another
state, or is abandoned with the warning it raised (07 R185; 08 R216, R217). -/
def spyholeCrossing (h : Hearth) (spy : SpyNo) (zone : Zone) (off : Fin 250) (s : State) : State :=
  let k := 130 * h.val + spy.val
  let y := s.spy k
  if !(yOn y.word && !y.starting && continuous (s.hearth h)) then s
  else
    let z := zoneIn y.word zone
    let t := spyJudged y z
    let s := s.updSpy k fun y => { placeSpy y z with
      filter := if t = y.st then none else some t
      filterAt := if y.filter = some t then y.filterAt else hearthNow s h off }
    let s := crossingBack s h spy y t off
    if t = y.st ∨ y.filter = some t then s else crossWarning s h spy y.st t off

def execSpyholeCrossing (h : Hearth) (spy : SpyNo) (zone : Zone) (off : Fin 250) (s : State) : Host.Outcome State Fault Refusal :=
  .next (spyholeCrossing h spy zone off s)

/-- SPYHOLE_FILTER_COMPLETE: the input has stayed beyond the edge for FILTER; its capture time is this moment less FILTER and less the
typical response (07 R185, R193). A filter that a new word started again at this boundary has not completed (07 R187). -/
def spyholeFilterComplete (h : Hearth) (spy : SpyNo) (off : Fin 250) (s : State) : State :=
  let y := s.spy (130 * h.val + spy.val)
  let now := hearthNow s h off
  match y.filter with
  | none => s
  | some t =>
    if !continuous (s.hearth h) || (decide (y.filterAt = now) && decide (yFilterNs y.word ≠ 0)) then s
    else changeSpy s h spy t (now - yFilterNs y.word - spyResponse spy) false off

def execSpyholeFilterComplete (h : Hearth) (spy : SpyNo) (off : Fin 250) (s : State) : Host.Outcome State Fault Refusal :=
  .next (spyholeFilterComplete h spy off s)

/-- SPYHOLE_START_COMPARE: the compare of a start (07 R186). Outside the bands it is a resolution; within a band the spyhole is
UNRESOLVED, which is no resolved change. -/
def spyholeStartCompare (h : Hearth) (spy : SpyNo) (zone : Zone) (off : Fin 250) (s : State) : State :=
  let k := 130 * h.val + spy.val
  let y := s.spy k
  if !y.starting then s
  else
    let z := zoneIn y.word zone
    let s := s.updSpy k fun y => { y with zone := z, band := z, rejudge := false, starting := false }
    match startState z with
    | .unresolved => s
    | x => changeSpy s h spy x (hearthNow s h off) false off

def execSpyholeStartCompare (h : Hearth) (spy : SpyNo) (zone : Zone) (off : Fin 250) (s : State) : Host.Outcome State Fault Refusal :=
  .next (spyholeStartCompare h spy zone off s)

/-- The end of a hearth's throttle window: EV_SPY_THROTTLED for each spyhole with changes suppressed (07 R191). -/
def throttleEnd (s : State) (h : Nat) : State :=
  forEach (List.range 130) (fun s n =>
    let k := 130 * h + n
    let y := s.spy k
    if y.stamped = 0 ∧ y.suppressed = 0 then s
    else
      let s := s.updSpy k fun y => { y with stamped := 0, suppressed := 0 }
      if y.suppressed = 0 then s
      else stampNow s h (spySrc h n) 0x110B [(8, n), (2, spyCode y.st), (16, y.suppressed.toNat)]) s

def execSpyThrottleWindowEnd (h : Hearth) (s : State) : Host.Outcome State Fault Refusal := .next (throttleEnd s h)

/-- A hearth that enters sampled operation drops every filter in progress (07 R195). -/
def dropFilters (s : State) (h : Nat) : State :=
  forEach (List.range 130) (fun s n => s.updSpy (130 * h + n) fun y => { y with filter := none }) s

/-! The read of a capture slot (07 R194): taken at a tick boundary, and complete once every change with an earlier capture time is in, which takes
the longest filter and response, 1,000 ns. -/

/-- The 192 bits of a capture record, with the device's U_BASE in its uncertainties (07 R193, R194). -/
def captureBits (C : Capture) (base : Nat) : Nat :=
  let unc (u : BitVec 8) : Nat := if C.count = 0 then 0 else min 255 (u.toNat + base)
  C.first.toNat * 2 ^ 128 + C.latest.toNat * 2 ^ 64 + C.count.toNat * 2 ^ 48 + unc C.uncFirst * 2 ^ 40 + unc C.uncLatest * 2 ^ 32 +
    C.stFirst.toNat * 2 ^ 30 + C.stLatest.toNat * 2 ^ 28 + b2n C.smpFirst * 2 ^ 27 + b2n C.smpLatest * 2 ^ 26

/-- A read of a slot is asked for. -/
def captureRead (s : State) (h i : Nat) (src : Option CmdSrc) : State :=
  s.updCapture (16 * h + i) fun C => { C with readers := C.readers ++ [src] }

/-- A read completes: the record is cleared, the next read may start, and the changes that came after the boundary enter the next record. -/
def captureNext (C : Capture) : Capture :=
  C.late.foldl (fun D x => captureChange D x.1 x.2.1 x.2.2.1 x.2.2.2) { ({} : Capture) with binding := C.binding, readers := C.readers.drop 1 }

/-- A hearth reset clears a record; a read under way starts again. -/
def captureClear (C : Capture) : Capture := { ({} : Capture) with binding := C.binding, readers := C.readers }

/-- The mark of a mailbox whose SPY.CAPTURE waits for capture slot `key`. -/
def captureMark (key : Nat) : Nat × Nat := (1024 + key, 0)

/-- The answer of a SPY.CAPTURE that waits. -/
def answerCapture (key : Nat) (body : List Byte) (m : Mbox) : Mbox :=
  if m.acted = some (captureMark key) then { m with acted := none, answer := some (0, body) } else m

/-- One capture slot at a hearth tick boundary (07 R194). -/
def captureTick (h : Nat) (s : State) (i : Nat) : State :=
  let k := 16 * h + i
  let C := s.capture k
  match C.readers with
  | [] => s
  | src :: _ =>
    if C.edge.isNone then s.updCapture k fun C => { C with edge := some (s.hearth h).tai, wait := 4 }
    else if 1 < C.wait then s.updCapture k fun C => { C with wait := C.wait - 1 }
    else
      let body := toLe 24 (captureBits C (if s.time.state = 0 then 255 else uBaseNs s))
      let s := s.updCapture k captureNext
      match src with
      | some (.mbox m) => s.updMbox m (answerCapture k body)
      | some (.fwd o) => s.updFwdBox o.toNat (answerCapture k body)
      | none => s

end Sys2Proof.Machine
end

