-- ==== Sys2Proof/Machine/WakeReq.lean ====
section
/-! DEFINITION. The arrival of a wake cause (16 R437). -/
namespace Sys2Proof.Machine
open Sys2Proof

/-- The WAKE_CAUSE bits of a cause; causes 2 and 3 also name their hearth (16 R437). -/
def wakeBits (cause h : Nat) : BitVec 32 :=
  BitVec.ofNat 32 (2 ^ cause + if cause = 2 ∨ cause = 3 then 2 ^ (8 + h) else 0)

/-- A wake cause: in Banked it starts the wake, in a wake it sets its bit, in Entering Banked it is held; otherwise it has no effect
(16 R437, R438). WAKE_TIME is the time of the first cause. -/
def requestWake (s : State) (cause h : Nat) : State :=
  let b := wakeBits cause h
  let now := BitVec.ofNat 64 s.time.tai
  if s.boot.devState = 3 then
    (s.setBoot { s.boot with devState := 4 }).setHost { s.host with wakeCause := b, wakeTime := now, wakeStage := 0, wakeTick := s.time.tick }
  else if s.boot.devState = 4 then s.setHost { s.host with wakeCause := s.host.wakeCause ||| b }
  else if s.boot.devState = 2 then
    s.setHost { s.host with
      wakeHeld := s.host.wakeHeld ||| b
      wakeTime := if s.host.wakeHeld = 0 then now else s.host.wakeTime }
  else s

/-- WAKE_CAUSE: a cause arises (16 R437). -/
def execWakeCause (cause : Fin 7) (h : Hearth) (s : State) : Host.Outcome State Fault Refusal := .next (requestWake s cause h)

end Sys2Proof.Machine
end

