-- ==== Sys2Proof/Machine/Slots.lean ====
section
/-! DEFINITION. Slots: presence and seat contacts, debounce, removal, the slot LED (02 R43 to R48, R64, R65; 07 R199). -/
namespace Sys2Proof.Machine
open Sys2Proof

/-- The slot is in use (02 R44). -/
def slotOn (w : BitVec 32) : Bool := bitOf w 6

/-- The configured channels of a slot: those whose cells a Kiln Book has configured (02 R44). -/
def slotCells (s : State) (n : Nat) : List Nat := (slotChans s n).filter fun c => (s.cell c).configured

/-- The payload of EV_SEAT and EV_UNSEAT (12 R319). -/
def slotPay (w : BitVec 32) : List (Nat × Nat) := [(6, fld w 10 6), (4, fld w 7 3 + 1)]

/-- Restart of the debounce (02 R46, R48): it runs while PRES is high, to the seat with SEAT, or to presence alone. It runs before a Kiln Book
has enabled the slot too (02 R47; log entry 172). -/
def restartDebounce (S : SlotSt) (now : Nat) : SlotSt :=
  { S with since := now, debouncing := !S.seated && S.pres && (S.seat || !S.present) }

/-- The levels of the two contacts with the 1 µs filter of R64: a low that the filter still times has had no effect yet. -/
def presHigh (S : SlotSt) : Bool := S.pres || S.fellP.isSome
def seatHigh (S : SlotSt) : Bool := S.seat || S.fellS.isSome

/-- One input of a slot changes: a fall starts its 1 µs filter; a rise inside the filter undoes the fall; any other rise restarts
the debounce (02 R46, R64). -/
def slotInputs (S : SlotSt) (pres seat : Bool) (now : Nat) : SlotSt :=
  let riseP := pres && !S.pres
  let riseS := seat && !S.seat
  let restart := (riseP && S.fellP.isNone) || (riseS && S.fellS.isNone)
  let T := { S with
    pres := pres, seat := seat
    presFell := if S.pres && !pres then seat else if riseP then false else S.presFell
    fellP := if S.pres && !pres then some now else if riseP then none else S.fellP
    fellS := if S.seat && !seat then some now else if riseS then none else S.fellS }
  if restart then restartDebounce T now else T

/-- SEAT_CHANGE: PRES or SEAT of a slot changes level (02 R46, R47, R64). Without always-on power the contacts are only followed. -/
def seatChange (n : SlotNo) (pres seat : Bool) (off : Fin 250) (s : State) : State :=
  let H := s.hearth (n.val / 16)
  s.updSlot n fun S =>
    if H.alwaysOn then slotInputs S pres seat (H.tai + off.val)
    else { S with pres := pres, seat := seat, fellP := none, fellS := none, presFell := false }

def execSeatChange (n : SlotNo) (pres seat : Bool) (off : Fin 250) (s : State) : Host.Outcome State Fault Refusal :=
  .next (seatChange n pres seat off s)

/-- The seat half of a seat cycle clears trip causes, retry count, A and the under-voltage timer (02 R65, R69). -/
def seatCycleClear (s : State) (c : Nat) : State :=
  let s := s.updCell c fun C => { C with tripReg := 0xF000, sub := 0 }
  s.updChan c fun A => { A with retry := 0, a := 0, uvRun := false, uvTicks := 0 }

/-- Every Vacant channel of a slot enters Seated (02 R46). Saggar hold moves channels at its entry only (02 R67), so a channel that
seats while it lasts stays Seated. -/
def seatChannels (s : State) (n : Nat) (off : Nat) : State :=
  forEach (slotCells s n) (fun s c =>
    if (s.cell c).state = .vacant then enterState (seatCycleClear s c) c .seated .hearth off else s) s

/-- EV_SEAT of a slot at the end of its debounce, given as a time (02 R46, R47). -/
def stampSeat (s : State) (n time : Nat) : State :=
  stampRec s (n / 16) (srcSlot n) 0x1201 (pay (slotPay (s.slot n).word)) 0 time 8 false false

/-- DEBOUNCE_COMPLETE: the contacts have been high for the slot's DEBOUNCE (02 R46 to R48): the running debounce of an enabled slot ends. Before
Draw only its time is kept. A low of SEAT that has not yet passed its filter has no effect (02 R64). -/
def debounceComplete (n : SlotNo) (off : Fin 250) (s : State) : State :=
  let S := s.slot n
  let h := n.val / 16
  let now := (s.hearth h).tai + off.val
  if !(S.debouncing && slotOn S.word && (s.hearth h).alwaysOn) then s
  else if seatHigh S then
    let s := s.updSlot n fun S => { S with debouncing := false, seated := true, present := false, seats := satInc S.seats }
    let s := if (s.hearth h).banked then requestWake s 3 h else s
    if (s.hearth h).released then seatChannels (stampSeat s n now) n off.val
    else s.updSlot n fun S => { S with doneAt := some now }
  else
    let s := s.updSlot n fun S => { S with debouncing := false, present := true }
    stampNow s h (srcSlot n) 0x1203 [] off.val

def execDebounceComplete (n : SlotNo) (off : Fin 250) (s : State) : Host.Outcome State Fault Refusal :=
  .next (debounceComplete n off s)

/-- A channel of a removed slot: gate discharge, PG low, Vacant whatever the state (02 R64). -/
def removeChannel (s : State) (c : Nat) : State :=
  let s := s.updCell c fun C => { discharge C false with pg := false, pgDropped := false, heldTrip := false, heldGood := false }
  enterState s c .vacant .hearth

/-- A debounced-seated slot is removed (02 R48, R64): EV_UNSEAT at the falling edge, EV_SEAT_ORDER when PRES broke first, its
channels Vacant; with PRES still high the slot is present, and EV_SLOT_PRESENT is stamped at once, not after a new debounce (DESIGN CHOICE, log
entry 173). -/
def removeSlot (s : State) (n edge : Nat) (order : Bool) : State :=
  let h := n / 16
  let S := s.slot n
  let s := s.updSlot n fun S => { S with seated := false, doneAt := none }
  let s := stampRec s h (srcSlot n) 0x1202 (pay (slotPay S.word)) 0 edge 40 false false
  let s := if order then stampNow s h (srcSlot n) 0x1204 [] else s
  let s := forEach (slotCells s n) removeChannel s
  if S.pres then stampNow (s.updSlot n fun S => { S with present := true }) h (srcSlot n) 0x1203 [] else s

/-- SLOT_REMOVAL: SEAT or PRES has been low for 1 µs (02 R64, R65). It ends a debounce in progress. -/
def slotRemoval (n : SlotNo) (s : State) : State :=
  let S := s.slot n
  let h := n.val / 16
  if (S.fellP.isNone && S.fellS.isNone) || !(s.hearth h).alwaysOn then s
  else
    let edge := match S.fellP, S.fellS with | some a, some b => min a b | some a, none => a | none, some b => b | none, none => 0
    let order := S.fellP.isSome && S.presFell
    let s := s.updSlot n fun S => restartDebounce { S with
      fellP := none, fellS := none, presFell := false, debouncing := false, present := S.present && S.fellP.isNone } (s.hearth h).tai
    if S.seated then removeSlot s n edge order else s

def execSlotRemoval (n : SlotNo) (s : State) : Host.Outcome State Fault Refusal := .next (slotRemoval n s)

/-- The row of R199 that applies to a slot. -/
def ledRowOf (s : State) (n : Nat) : Nat :=
  let H := s.hearth (n / 16)
  let cs := slotCells s n
  let st (c : Nat) : ChState := (s.cell c).state
  let spyBad (c : Nat) : Bool :=
    let y := s.spy (130 * hOf c + 64 + kOf c)
    decide (presented y = .below) || decide (presented y = .above)
  if H.banked || !H.logic then 1
  else if cs.any fun c => decide (st c = .locked) || decide (st c = .tripped) || (decide (st c = .good) && spyBad c) then 2
  else if cs.any fun c => decide (st c = .held) then 3
  else if cs.any fun c => decide (st c = .seated) || decide (st c = .ready) || decide (st c = .ramping) || decide (st c = .full) ||
      decide (st c = .cooling) then 4
  else if cs.all (fun c => decide (st c = .good) || decide (st c = .off)) && cs.any fun c => decide (st c = .good) then 5
  else 6

/-- The slot has a channel whose PG ball drives the LED (02 R59, 07 R199). -/
def hasLed (s : State) (n : Nat) : Bool := (slotCells s n).any fun c => bitOf (s.cell c).lifeWord 46

/-- Whether the LED is lit in a step of a row's pattern (07 R199). -/
def ledLit (row step : Nat) : Bool :=
  match row with
  | 2 | 4 => step % 2 == 0
  | 3 => step % 4 == 0 || step % 4 == 2
  | 5 => true
  | _ => false

/-- A change of pattern takes effect at a hearth tick; a pattern that stays keeps its phase (07 R199). -/
def ledTick (s : State) (n : Nat) : State :=
  if !hasLed s n then s
  else
    let r := ledRowOf s n
    s.updSlot n fun S => if S.ledRow = r then S else { S with ledRow := r, ledStep := 0, ledOn := ledLit r 0 }

/-- SLOT_LED_PHASE: a phase of the blinking pattern in force ends (07 R199). -/
def slotLedPhase (n : SlotNo) (s : State) : State :=
  let S := s.slot n
  if hasLed s n && (S.ledRow == 2 || S.ledRow == 3 || S.ledRow == 4) then
    let k := (S.ledStep + 1) % (if S.ledRow = 3 then 4 else 2)
    s.updSlot n fun S => { S with ledStep := k, ledOn := ledLit S.ledRow k }
  else s

def execSlotLedPhase (n : SlotNo) (s : State) : Host.Outcome State Fault Refusal := .next (slotLedPhase n s)

end Sys2Proof.Machine
end

