-- ==== Sys2Proof/Machine/Trips.lean ====
section
/-! DEFINITION. Command words sent by a Sitter, the retry rule, and the steps a hearth decides on one channel: fast trip, gate-off
confirmation, the two lockouts, the fallback breaker (02 R60 to R62; 04 R94 to R96, R106, R110, R113). -/
namespace Sys2Proof.Machine
open Sys2Proof

/-- A command word: state request, gate mode, setpoint (03 R77, 09 R235). -/
def cmdWord (req gmode iset : Nat) : BitVec 16 := BitVec.ofNat 16 (req % 16 * 4096 + gmode % 4 * 1024 + iset % 1024)

/-- A TRIP request with its causes and the Cone's sub-causes (09 R236). -/
def tripWord (causes sub : Nat) : BitVec 16 := BitVec.ofNat 16 (0xA000 + sub % 16 * 64 + causes % 64)

/-- The commanded state becomes `x`, and the counters that run from the entry to it start (02 R52, R54, R68; 04 R113, R114; 17 R455). The
gate-hold count goes on from Full to Good and back (02 R58). -/
def commandTo (x : ChState) (A : ChanSt) : ChanSt :=
  let hold := match A.commanded with | .full | .good => A.holdTicks | _ => 0
  let A := { A with commanded := x, skewTicks := 0 }
  match x with
  | .ready => { A with readyTicks := 0, coneWait := 0 }
  | .ramping => { A with coneWaitDone := false }
  | .full => { A with dwell := 0, holdTicks := hold }
  | .good => { A with dwell := 0, holdTicks := hold, decay := 0, pgDrop := false }
  | .cooling => { A with backoff := 0 }
  | .seated => { A with consented := false, waitStamped := false }
  | .off | .locked => { A with consented := false }
  | .vacant => { A with consented := false, hostOn := false }
  | _ => A

/-- Frames other than CLAIM and RELEASE go to an adopted hearth only while it is held under this device's claim (13 R346). -/
def downOpen (s : State) (c : Nat) : Bool := (s.cp (c / 64 - 8)).held

/-- A CMD frame to hearth `h` (01 R20): the channel mask, then the command word of each channel in it, in ascending order. -/
def sendCmd (s : State) (h : Nat) (mask : BitVec 64) : State :=
  let ks := (List.range 64).filter (bitOf mask)
  sendDown s h 2 (payBlocks ((64, mask.toNat) :: ks.map fun k => (16, (s.chan (64 * h + k)).cmd.toNat)))

/-- A channel's command word has changed: the next CMD frame carries it (01 R21). A word that has not left yet goes first, in a frame of its
own, so that no request is lost (log entry 162). -/
def markCmd (s : State) (c : Nat) : State :=
  let L := s.link (c / 64)
  let s := if bitOf L.changed (c % 64) then sendCmd s (c / 64) L.changed else s
  s.updLink (c / 64) fun _ => { s.link (c / 64) with
    changed := (if bitOf L.changed (c % 64) then 0 else L.changed) ||| BitVec.ofNat 64 (2 ^ (c % 64)) }

/-- The Sitter sets the gate-current register of its channel, ahead of the tick's command word (03 R508). -/
def sitterIg (s : State) (c ig : Nat) : State :=
  if c < 512 then writeIgReg s c (BitVec.ofNat 8 ig) else sendParam s (c / 64) 16 (c % 64) [ig]

/-- Whether this device's frames act on a channel's hearth: it obeys the local port, or the adopted hearth is held (13 R346, R349). -/
def commands (s : State) (c : Nat) : Bool := if c < 512 then obeys (s.hearth (hOf c)) .loc else downOpen s c

/-- The gate-current register ahead of a command word (03 R508): IG_FULL with the first ENH, the running segment's IG with the first DAMP of a
segment. A new holder of a claim has written neither. A TRIP request carries no gate mode. -/
def igFirst (s : State) (c : Nat) (w : BitVec 16) : State :=
  let A := s.chan c
  let g := if fld w 12 4 = 10 then 0 else fld w 10 2
  if !commands s c || decide (g = 2) then s
  else
    let s := if g = 3 ∧ A.igMode ≠ 3#2 then sitterIg s c (pIgFull A) else if g = 1 ∧ A.igMode ≠ 1#2 then sitterIg s c (segIg (segNow A)) else s
    s.updChan c fun A => { A with igMode := BitVec.ofNat 2 g }

/-- The Sitter latches a command word (09 R232). One that changed is marked for the CMD frame of the next tick (01 R21). On an own hearth it
reaches the cell in the same step (log entry 162). -/
def sitterCmd (s : State) (c : Nat) (w : BitVec 16) : State :=
  let s := igFirst s c w
  let s := if (s.chan c).cmd ≠ w ∧ (c < 512 ∨ downOpen s c) then markCmd s c else s
  let s := s.updChan c fun A => { A with cmd := w, lastReq := if fld w 12 4 = 0 then A.lastReq else w }
  if c < 512 then hearthReceive s c .loc w else s

/-- The Sitter requests a trip: it takes Tripped as its commanded state, and its trip request shows at the other twin (04 R118). -/
def sitterTrip (s : State) (c causes sub : Nat) : State :=
  let s := s.updChan c fun A => { commandTo .tripped A with tripReq := true }
  sitterCmd s c (tripWord causes sub)

/-- The Sitter's word of a tick. Of a word that asks for nothing, a command that is to be sent again takes the place (02 R71). -/
def sitterOut (s : State) (c : Nat) (w : BitVec 16) : State :=
  match (s.chan c).resend with
  | some r => sitterCmd (s.updChan c fun A => { A with resend := none }) c (if fld w 12 4 = 0 then r else w)
  | none => sitterCmd s c w

/-- The Sitter's decision at the gate-off confirmation of a trip (04 R110, R113). -/
def gateOffDecision (s : State) (c : Nat) (tripReg : BitVec 16) : State :=
  let A := s.chan c
  if admitsRetry (profWord A 16) (fld tripReg 12 4) ∧ A.retry < pRetryLimit A then
    let s := s.updChan c fun A => { commandTo .cooling A with retry := A.retry + 1 }
    sitterCmd s c (cmdWord 5 0 0)
  else
    let s := s.updChan c (commandTo .locked)
    sitterCmd s c (cmdWord 6 0 0)

/-- Whether this device's Sitter commands the own channel: it is hosted, and the hearth acts on the local port. -/
def sitterServes (s : State) (c : Nat) : Bool := (s.chan c).sitter.isSome && obeys (s.hearth (hOf c)) .loc

/-- The fast trip is armed (02 R41, 04 R95): in Ramping, Full, Good and Held; in Off until the gate-off confirmation; and with a trip
that this hearth tick already took, which it joins (04 R111). -/
def fastArmed (C : Cell) : Bool :=
  match C.state with
  | .ramping | .full | .good | .held => true
  | .off => !C.confirmed
  | .tripped => trippedThisTick C
  | _ => false

/-- FAST_TRIP: the comparator has been above its level for the filter time (04 R94). EV_TRIP carries the crossing at the comparator
input: the capture less FT_FILTER less 60 ns (04 R96, 12 R316). -/
def fastTrip (c : OwnChan) (off : Fin 250) (s : State) : State :=
  let C := s.cell c
  if C.configured && fastArmed C then
    takeTrip s c 1 0 .hearth ((s.hearth (hOf c)).tai + off.val - tripFilterNs C.tripWord - 60) 48 off.val
  else s

def execFastTrip (c : OwnChan) (off : Fin 250) (s : State) : Host.Outcome State Fault Refusal := .next (fastTrip c off s)

/-- GATE_OFF_CONFIRMATION: the gate-to-source voltage is measured below 1.0 V after a discharge (02 R49, R66). A waiting OFF request
is taken; otherwise a Tripped channel's Sitter, on the library schedule, decides its retry (04 R113). -/
def gateOffConfirmation (c : OwnChan) (off : Fin 250) (s : State) : State :=
  let C := s.cell c
  if C.confirmed || !gateLow C.gate then s
  else
    let s := s.updCell c fun C => { C with confirmed := true, gateOff := true, gateFull := false, offTicks := 0, shortTicks := 0, gate := .pullDown }
    let s := endError s (hOf c) (srcChan c) 0x203
    if C.state ≠ .tripped then s
    else if C.offPend then enterState (noteUndo s c) c .off .firmware off.val
    else if sitterServes s c && libSched (s.chan c) then gateOffDecision s c C.tripReg
    else s

def execGateOffConfirmation (c : OwnChan) (off : Fin 250) (s : State) : Host.Outcome State Fault Refusal :=
  .next (gateOffConfirmation c off s)

/-- Set a lockout's bit in the trip register; FIRST takes its code unless the channel is Locked already (02 R61, R62; 04 R110). -/
def lockoutReg (C : Cell) (code : Nat) : BitVec 16 :=
  let r := C.tripReg ||| BitVec.ofNat 16 (2 ^ code)
  if C.state = .locked then r else putFld r 12 4 code

/-- GATE_DISCHARGE_FAILURE: no gate-off confirmation within 10 µs of the trip tick (02 R62). The gate voltage in the error's context
is a free value. -/
def gateDischargeFailure (c : OwnChan) (s : State) : State :=
  let C := s.cell c
  if C.state = .tripped ∧ !C.confirmed ∧ 40 ≤ C.tripTicks then
    let (v, s) := s.freshFree
    let s := s.updCell c fun C => { C with tripReg := lockoutReg C 9 }
    let s := reportError s (hOf c) (srcChan c) 0x203 (chanDetail s c (v % 65536))
    enterState s c .locked .hearth
  else s

def execGateDischargeFailure (c : OwnChan) (s : State) : Host.Outcome State Fault Refusal := .next (gateDischargeFailure c s)

/-- PASS_TRANSISTOR_SHORT: the current has stayed above the pass-short level for 8 consecutive ticks after the gate-off
confirmation (02 R61). -/
def passTransistorShort (c : OwnChan) (s : State) : State :=
  let C := s.cell c
  if C.shortTicks = 8 ∧ (C.state = .tripped ∨ C.state = .cooling ∨ C.state = .locked) then
    let s := s.updCell c fun C => { C with tripReg := lockoutReg C 8, shortTicks := 9 }
    let s := stampError s (hOf c) (srcChan c) 0x202 (chanDetail s c 8)
    enterState s c .locked .hearth
  else s

def execPassTransistorShort (c : OwnChan) (s : State) : Host.Outcome State Fault Refusal := .next (passTransistorShort c s)

/-- FALLBACK_BREAKER_TRIP: F of a Held channel has reached 1 (04 R106). -/
def fallbackBreakerTrip (c : OwnChan) (s : State) : State :=
  let C := s.cell c
  if C.state = .held ∧ 2 ^ 46 ≤ C.f ∧ (!C.heldTrip || trippedThisTick C) then tripNow s c 0x80 0 .hearth else s

def execFallbackBreakerTrip (c : OwnChan) (s : State) : Host.Outcome State Fault Refusal := .next (fallbackBreakerTrip c s)

end Sys2Proof.Machine
end

