-- ==== Sys2Proof/Machine/Isa.lean ====
section
/-! DEFINITION. What each instruction of an engine does (10 R261 to R277). An instruction takes its slots and goes on to the next
address; its operands and results are registers, pairs, memories and port words of the engine that issues it. -/
namespace Sys2Proof.Machine
open Sys2Proof

abbrev Res := Host.Outcome State Fault Refusal

/-- NOP (10 R269). -/
def execOpNop (e : EngineNo) (s : State) : Res := .next (s.updEngine e fun E => advance E 1)

/-- END ends the tick (09 R231). -/
def execOpEnd (e : EngineNo) (s : State) : Res := .next (s.updEngine e fun E => { advance E 1 with ended := true })

/-- LDI (10 R269). -/
def execOpLdi (e : EngineNo) (rd : Reg) (imm : BitVec 16) (s : State) : Res :=
  .next (s.updEngine e fun E => advance (regSet E rd (imm.signExtend 24)) 1)

/-- LUI writes bits 23:16 and keeps the rest (10 R269). -/
def execOpLui (e : EngineNo) (rd : Reg) (imm : BitVec 8) (s : State) : Res :=
  .next (s.updEngine e fun E => advance (regSet E rd (imm ++ (regGet E rd).extractLsb' 0 16)) 1)

/-- Write a result with its flags Z and N and go on. -/
def finishZN (E : Engine) (rd : Reg) (v : W24) : Engine := advance (flagsZN (regSet E rd v) v) 1

/-- Write a result with its flags Z, N and V and go on after `slots`. -/
def finishZNV (E : Engine) (rd : Reg) (v : W24) (o : Bool) (slots : Nat) : Engine := advance (flagsZNV (regSet E rd v) v o) slots

/-- Write a sum or difference with its flags Z, N, C and V and go on. -/
def finishZNCV (E : Engine) (rd : Reg) (r : W24 × Bool × Bool) : Engine :=
  advance (flagsZNCV (regSet E rd r.1) r.1 r.2.1 r.2.2) 1

/-- MOV (10 R269). -/
def execOpMov (e : EngineNo) (rd ra : Reg) (s : State) : Res := .next (s.updEngine e fun E => finishZN E rd (regGet E ra))

/-- The input word of a port for an instruction, and the state that has met it. A port number of 0x40 or more names no input word;
what is read there is a free value (log entry 14). -/
def readPort (s : State) (e : EngineNo) (p : Fin 128) : BitVec 16 × State :=
  if p.val < 64 then
    (inWord (s.engine e) p.val, if p.val = 0x0C ∧ ticksBack (s.engine e) = 0 then s.updEngine e fun E => { E with reqRead := true } else s)
  else (BitVec.ofNat 16 s.freshFree.1, s.freshFree.2)

/-- A field value that the checker rejects fails the engine as for a double-bit error (10 R277). -/
def rejects (bad : Bool) (e : Nat) (s : State) (t : State) : Res := .next (if bad then failEngine s e 2 else t)

/-- A reserved input word (09 R233), which the checker rejects (10 R279). -/
def reservedIn (p : Nat) : Bool := decide (16 ≤ p) && decide (p < 64)

/-- Absolute addresses outside the parameter bank and outside a mirror slot (10 R279). -/
def outsideBank (ra : Reg) (a : Nat) : Bool := decide (ra = 0) && decide (256 ≤ a)
def outsideSlot (a : Nat) : Bool := decide (32 ≤ a)

/-- INU (10 R269, R277). -/
def execOpInu (e : EngineNo) (rd : Reg) (port : Fin 128) (s : State) : Res :=
  let r := readPort s e port
  rejects (reservedIn port) e s (r.2.updEngine e fun E => finishZN E rd (r.1.zeroExtend 24))

/-- INS (10 R269, R277). -/
def execOpIns (e : EngineNo) (rd : Reg) (port : Fin 128) (s : State) : Res :=
  let r := readPort s e port
  rejects (reservedIn port) e s (r.2.updEngine e fun E => finishZN E rd (r.1.signExtend 24))

/-- Put an event request into the engine's queue of 4; a further one is dropped and counted (09 R238). Inside RLOOP it carries the
catch-up tick's start (10 R276). -/
def postEvent (s : State) (e : EngineNo) (code : BitVec 16) : State :=
  let c := engChan s e
  s.updEngine e fun E =>
    let q : EventReq := {
      source := BitVec.ofNat 16 (srcChan c), code := code
      payload := pay [(16, (tabGet 0 E.outs 0x44).toNat), (16, (tabGet 0 E.outs 0x45).toNat)]
      tickTime := BitVec.ofNat 64 (s.time.tai - 250 * ticksBack E), dropped := E.dropped }
    if E.events.length < 4 then { E with events := E.events ++ [q], dropped := 0 } else { E with dropped := E.dropped + 1 }

/-- Latch an output word. -/
def setOut (E : Engine) (p : Nat) (v : BitVec 16) : Engine :=
  { E with outs := tabSet 0 E.outs p v, wrote := insertAsc p E.wrote }

/-- OUT (10 R269, R276; 09 R234): a nonzero EVT_CODE posts a request; another write inside RLOOP is discarded; a write to words
0x4A to 0x5F is ignored; any other word is a field that the checker rejects, so the engine fails (10 R277). -/
def execOpOut (e : EngineNo) (port : Fin 128) (rs : Reg) (s : State) : Res :=
  let p := port.val
  let v : BitVec 16 := (regGet (s.engine e) rs).extractLsb' 0 16
  let go (s : State) : State := s.updEngine e fun E => advance E 1
  if 0x4A ≤ p ∧ p ≤ 0x5F then .next (go s)
  else if p < 0x40 ∨ 0x60 ≤ p ∨ p = 0x46 ∨ p = 0x47 then .next (failEngine s e 2)
  else
    let inLoop := ticksBack (s.engine e) ≠ 0
    let s := if inLoop then s else s.updEngine e fun E => setOut E p v
    let s := if p = 0x43 ∧ v ≠ 0 then postEvent s e v else s
    .next (go s)

/-- LDP reads the active parameter bank (10 R263, R277). -/
def execOpLdp (e : EngineNo) (rd ra : Reg) (addr : Fin 512) (s : State) : Res :=
  rejects (outsideBank ra addr) e s (s.updEngine e fun E => finishZN E rd (parGet E (addr.val + (regGet E ra).toNat)))

/-- LDS reads state memory (10 R263). -/
def execOpLds (e : EngineNo) (rd ra : Reg) (addr : Fin 512) (s : State) : Res :=
  .next (s.updEngine e fun E => finishZN E rd (memGet E (addr.val + (regGet E ra).toNat)))

/-- STS writes state memory (10 R263). -/
def execOpSts (e : EngineNo) (rs ra : Reg) (addr : Fin 512) (s : State) : Res :=
  .next (s.updEngine e fun E => advance (memSet E (addr.val + (regGet E ra).toNat) (regGet E rs)) 1)

/-- LDM reads the peer role's mirror slot as latched at the end of the previous tick (10 R263, R277). -/
def execOpLdm (e : EngineNo) (rd : Reg) (addr : Fin 512) (s : State) : Res :=
  let v := tabGet 0 (mirrorAt s (peerEngine e) (s.cluster (e.val / 64)).tick) (addr.val % 32)
  rejects (outsideSlot addr) e s (s.updEngine e fun E => finishZN E rd v)

/-- ADD (10 R269). -/
def execOpAdd (e : EngineNo) (rd ra rb : Reg) (s : State) : Res :=
  .next (s.updEngine e fun E => finishZNCV E rd (add24 (regGet E ra) (regGet E rb)))

/-- SUB; C is the borrow (10 R269). -/
def execOpSub (e : EngineNo) (rd ra rb : Reg) (s : State) : Res :=
  .next (s.updEngine e fun E => finishZNCV E rd (sub24 (regGet E ra) (regGet E rb)))

/-- ADDS saturates (10 R269). -/
def execOpAdds (e : EngineNo) (rd ra rb : Reg) (s : State) : Res :=
  .next (s.updEngine e fun E =>
    let x := (regGet E ra).toInt + (regGet E rb).toInt
    finishZNV E rd (satW x) (over24 x) 1)

/-- SUBS saturates (10 R269). -/
def execOpSubs (e : EngineNo) (rd ra rb : Reg) (s : State) : Res :=
  .next (s.updEngine e fun E =>
    let x := (regGet E ra).toInt - (regGet E rb).toInt
    finishZNV E rd (satW x) (over24 x) 1)

/-- ADDI (10 R269). -/
def execOpAddi (e : EngineNo) (rd ra : Reg) (imm : BitVec 16) (s : State) : Res :=
  .next (s.updEngine e fun E => finishZNCV E rd (add24 (regGet E ra) (imm.signExtend 24)))

/-- MIN, signed (10 R269). -/
def execOpMin (e : EngineNo) (rd ra rb : Reg) (s : State) : Res :=
  .next (s.updEngine e fun E =>
    finishZN E rd (if (regGet E ra).toInt ≤ (regGet E rb).toInt then regGet E ra else regGet E rb))

/-- MAX, signed (10 R269). -/
def execOpMax (e : EngineNo) (rd ra rb : Reg) (s : State) : Res :=
  .next (s.updEngine e fun E =>
    finishZN E rd (if (regGet E ra).toInt ≤ (regGet E rb).toInt then regGet E rb else regGet E ra))

/-- ABS; 0x80_0000 gives 0x7F_FFFF and V (10 R269). -/
def execOpAbs (e : EngineNo) (rd ra : Reg) (s : State) : Res :=
  .next (s.updEngine e fun E =>
    let x : Int := (regGet E ra).toInt.natAbs
    finishZNV E rd (satW x) (over24 x) 1)

/-- MUL (10 R266, R269). -/
def execOpMul (e : EngineNo) (rd ra rb : Reg) (shift : Fin 32) (rnd : Rnd) (s : State) : Res :=
  .next (s.updEngine e fun E =>
    let x := roundDiv rnd ((regGet E ra).toInt * (regGet E rb).toInt) (2 ^ shift.val)
    finishZNV E rd (satW x) (over24 x) 1)

/-- DIV; a divisor of 0 or less saturates by the sign of g[RA], with V (10 R269). -/
def execOpDiv (e : EngineNo) (rd ra rb : Reg) (shift : Fin 32) (rnd : Rnd) (s : State) : Res :=
  .next (s.updEngine e fun E =>
    let a := (regGet E ra).toInt
    let b := (regGet E rb).toInt
    if b ≤ 0 then finishZNV E rd (if 0 ≤ a then 0x7FFFFF#24 else 0x800000#24) true 8
    else
      let x := roundDiv rnd (a * 2 ^ shift.val) b.toNat
      finishZNV E rd (satW x) (over24 x) 8)

/-- SHL; V when a bit unlike the sign is lost (10 R269). -/
def execOpShl (e : EngineNo) (rd ra : Reg) (sh : Fin 24) (s : State) : Res :=
  .next (s.updEngine e fun E =>
    let a := regGet E ra
    let lost := a.toNat / 2 ^ (24 - sh.val)
    let same := if a.msb then 2 ^ sh.val - 1 else 0
    finishZNV E rd (a <<< sh.val) (decide (lost ≠ same)) 1)

/-- SHR, arithmetic (10 R269). -/
def execOpShr (e : EngineNo) (rd ra : Reg) (sh : Fin 32) (s : State) : Res :=
  .next (s.updEngine e fun E => finishZN E rd ((regGet E ra).sshiftRight sh.val))

/-- SHRU, logical (10 R269). -/
def execOpShru (e : EngineNo) (rd ra : Reg) (sh : Fin 32) (s : State) : Res :=
  .next (s.updEngine e fun E => finishZN E rd (regGet E ra >>> sh.val))

/-- AND (10 R269). -/
def execOpAnd (e : EngineNo) (rd ra rb : Reg) (s : State) : Res :=
  .next (s.updEngine e fun E => finishZN E rd (regGet E ra &&& regGet E rb))

/-- OR (10 R269). -/
def execOpOr (e : EngineNo) (rd ra rb : Reg) (s : State) : Res :=
  .next (s.updEngine e fun E => finishZN E rd (regGet E ra ||| regGet E rb))

/-- XOR (10 R269). -/
def execOpXor (e : EngineNo) (rd ra rb : Reg) (s : State) : Res :=
  .next (s.updEngine e fun E => finishZN E rd (regGet E ra ^^^ regGet E rb))

/-- ANDI (10 R269). -/
def execOpAndi (e : EngineNo) (rd ra : Reg) (imm : BitVec 16) (s : State) : Res :=
  .next (s.updEngine e fun E => finishZN E rd (regGet E ra &&& imm.zeroExtend 24))

/-- The flags of a difference, with nothing written. -/
def compareFlags (E : Engine) (a b : W24) : Engine :=
  let r := sub24 a b
  advance (flagsZNCV E r.1 r.2.1 r.2.2) 1

/-- CMP (10 R269). -/
def execOpCmp (e : EngineNo) (ra rb : Reg) (s : State) : Res :=
  .next (s.updEngine e fun E => compareFlags E (regGet E ra) (regGet E rb))

/-- CMPI (10 R269). -/
def execOpCmpi (e : EngineNo) (ra : Reg) (imm : BitVec 16) (s : State) : Res :=
  .next (s.updEngine e fun E => compareFlags E (regGet E ra) (imm.signExtend 24))

/-- SEL (10 R268, R269). -/
def execOpSel (e : EngineNo) (rd ra rb : Reg) (cond : Cond) (s : State) : Res :=
  .next (s.updEngine e fun E => advance (regSet E rd (if condHolds E cond then regGet E ra else regGet E rb)) 1)

/-- ADDW: the pair plus a sign-extended register, modulo 2^48 (10 R269). -/
def execOpAddw (e : EngineNo) (rd ra : Pair) (rb : Reg) (s : State) : Res :=
  .next (s.updEngine e fun E =>
    let a := pairGet E ra
    let b : BitVec 48 := (regGet E rb).signExtend 48
    advance (flagsWide (pairSet E rd (a + b)) (a + b) (decide (2 ^ 48 ≤ a.toNat + b.toNat))) 1)

/-- SUBW, modulo 2^48; C is the borrow (10 R269). -/
def execOpSubw (e : EngineNo) (rd ra rb : Pair) (s : State) : Res :=
  .next (s.updEngine e fun E =>
    let a := pairGet E ra
    let b := pairGet E rb
    advance (flagsWide (pairSet E rd (a - b)) (a - b) (decide (a.toNat < b.toNat))) 1)

/-- SUBWZ: the unsigned difference, not below 0 (10 R269). -/
def execOpSubwz (e : EngineNo) (rd ra rb : Pair) (s : State) : Res :=
  .next (s.updEngine e fun E =>
    let v : BitVec 48 := BitVec.ofNat 48 ((pairGet E ra).toNat - (pairGet E rb).toNat)
    advance { pairSet E rd v with z := decide (v = 0) } 1)

/-- ACCF (10 R269, R271). -/
def execOpAccf (e : EngineNo) (rd ra : Pair) (rb : Reg) (s : State) : Res :=
  .next (s.updEngine e fun E =>
    let x := (pairGet E ra).toNat + uf24Grid (regGet E rb)
    let v : BitVec 48 := BitVec.ofNat 48 (min x (2 ^ 48 - 1))
    advance { pairSet E rd v with z := decide (v = 0), v := decide (2 ^ 48 ≤ x) } 2)

/-- NARW: sat24(ceil(pair / 2^g)), the pair taken as signed; for a shift outside -23 to 31 the spec states no result, and the
result and V are free values (log entry 15). -/
def execOpNarw (e : EngineNo) (rd : Reg) (ra : Pair) (rb : Reg) (s : State) : Res :=
  let E := s.engine e
  let g := (regGet E rb).toInt
  if -23 ≤ g ∧ g ≤ 31 then
    .next (s.updEngine e fun E =>
      let a := (pairGet E ra).toInt
      let x := if 0 ≤ g then ceilDiv a (2 ^ g.toNat) else a * 2 ^ (-g).toNat
      finishZNV E rd (satW x) (over24 x) 1)
  else
    let r := s.freshFree
    .next (r.2.updEngine e fun E => finishZNV E rd (BitVec.ofNat 24 r.1) (decide (r.1 / 2 ^ 24 % 2 = 1)) 1)

/-- CMPW, unsigned (10 R269). -/
def execOpCmpw (e : EngineNo) (ra rb : Pair) (s : State) : Res :=
  .next (s.updEngine e fun E =>
    let a := (pairGet E ra).toNat
    let b := (pairGet E rb).toNat
    advance { E with z := decide (a = b), c := decide (a < b) } 1)

/-- PWL (10 R270). -/
def execOpPwl (e : EngineNo) (rd ra rb : Reg) (base : BitVec 8) (mode : PwlMode) (s : State) : Res :=
  .next (s.updEngine e fun E =>
    let t := base.toNat + (regGet E rb).toNat % 256
    let xs (j : Nat) : Int := (parGet E (t + 2 * j)).toInt
    let ys (j : Nat) : W24 := parGet E (t + 2 * j + 1)
    let x := (regGet E ra).toInt
    advance { regSet E rd (pwlVal mode xs ys x) with n := decide (pwlSpot xs x = .first), v := decide (pwlSpot xs x = .last) } 4)

/-- The 48-bit value in two words of state memory, high word first. -/
def mem48 (E : Engine) (a : Nat) : BitVec 48 := (memGet E a) ++ (memGet E (a + 1))

/-- Write a 48-bit value to two words of state memory. -/
def setMem48 (E : Engine) (a : Nat) (v : BitVec 48) : Engine := memSet (memSet E a (v.extractLsb' 24 24)) (a + 1) (v.extractLsb' 0 24)

/-- PACC into one pole's record (10 R272). -/
def paccPole (p : Nat) (E : Engine) (i : Nat) : Engine :=
  let a := coneSBase E + 5 * i
  let E := setMem48 E (a + 1) (mem48 E (a + 1) + BitVec.ofNat 48 (ceilNat p 64))
  let w := memGet E (a + 3)
  memSet E (a + 3) (BitVec.ofNat 24 (b2n w.msb * 2 ^ 23 + max (fld w 0 23) p))

/-- PACC forms a tick's power: the larger of the two in Full and Good, else g[RA]; negative counts as 0 (10 R272). -/
def execOpPacc (e : EngineNo) (ra rb : Reg) (s : State) : Res :=
  .next (s.updEngine e fun E =>
    let st := fld (inWord E 6) 12 4
    let a := (regGet E ra).toInt
    let b := (regGet E rb).toInt
    let p := (if st = 4 ∨ st = 5 then max a b else a).toNat
    advance ([0, 1, 2].foldl (paccPole p) E) 2)

/-- A pole that is due is integrated: its record at `a`, its coefficients at `q` (10 R273). -/
def integratePole (E : Engine) (a q delta : Nat) : Engine :=
  let w3 := memGet E (a + 3)
  let l := if w3.msb ∧ delta < 4 then 4 else delta
  let pbar := ceilDiv ((mem48 E (a + 1)).toInt * 64) l
  let ca := (parGet E (q + (if l = delta then 0 else 2))).toInt
  let cb := (parGet E (q + (if l = delta then 1 else 3))).toInt
  let theta := ceilDiv ((memGet E a).toInt * ca) (2 ^ 23) + ceilDiv (pbar * cb) (2 ^ 17)
  let eint := ceilDiv ((fld w3 0 23 : Int) * (parGet E (q + 4)).toInt) (2 ^ 17)
  let F := setMem48 (memSet E a (satW theta)) (a + 1) 0
  let F := memSet F (a + 3) (if E.packed then 0x800000#24 else 0)
  { memSet F (a + 4) (satW eint) with z := false }

/-- POLE integrates one pole when it is due (10 R273). T is the tick that the engine runs, inside an RLOOP body too (DESIGN CHOICE,
log entry 170). -/
def execOpPole (e : EngineNo) (i : Fin 3) (s : State) : Res :=
  let t := (s.cluster (e.val / 64)).tick
  .next (s.updEngine e fun E =>
    let q := conePBase E + 8 * i.val
    let delta := 2 ^ (fld (parGet E (q + 5)) 0 5)
    let leff := if E.packed then max delta 4 else delta
    if t % leff ≠ 0 then advance { E with z := true } 3
    else advance (integratePole E (coneSBase E + 5 * i.val) q delta) 10)

/-- CHECK writes the check word of 09 R243 into output words 0x46 (low half) and 0x47 (10 R274). -/
def execOpCheck (e : EngineNo) (s : State) : Res :=
  let t := (s.cluster (e.val / 64)).tick
  .next (s.updEngine e fun E =>
    let w : BitVec 32 := BitVec.ofNat 32 (t % 256 * 2 ^ 24 + digestOf (carryWords E))
    advance (setOut (setOut E 0x46 (w.extractLsb' 0 16)) 0x47 (w.extractLsb' 16 16)) 4)

/-- PEERCHK compares the CRC-32C over the peer's mirror slot with the DIGEST in the PEER words (10 R274). -/
def execOpPeerchk (e : EngineNo) (s : State) : Res :=
  let d := digestOf (tabRun 0 (mirrorAt s (peerEngine e) (s.cluster (e.val / 64)).tick) 0 (carryLen (s.engine (peerEngine e))))
  .next (s.updEngine e fun E =>
    let dig := (inWord E 0xE).toNat + 2 ^ 16 * ((inWord E 0xF).toNat % 256)
    advance { E with z := decide (d = dig) } 4)

/-- The code of a mismatch (10 R274). -/
def mismCode : MismCode → Nat
  | .iset => 1 | .bend => 2 | .fresh => 3 | .digest => 4

/-- MISM reports a mismatch of the engine's channel (10 R274, 09 R247). A bend mismatch makes the check unit write a TRIP request with
cause cone bend and the engine's CONE_SUB in place of the Sitter's word (09 R246). -/
def execOpMism (e : EngineNo) (code : MismCode) (s : State) : Res :=
  let c := engChan s e
  let s := mismatch s c (mismCode code) e
  let s := match code with
    | .bend => sitterTrip s c 1 (fld (tabGet (0 : BitVec 16) (s.engine e).outs 0x48) 0 4)
    | _ => s
  .next (s.updEngine e fun E => advance E 1)

/-- A branch: 2 slots when taken, 1 when not (10 R261). -/
def branch (E : Engine) (taken : Bool) (target : Nat) : Engine := if taken then advanceTo E 2 target else advance E 1

/-- BR (10 R268, R269). -/
def execOpBr (e : EngineNo) (cond : Cond) (target : Fin 8192) (s : State) : Res :=
  .next (s.updEngine e fun E => branch E (condHolds E cond) target.val)

/-- BBS (10 R269). -/
def execOpBbs (e : EngineNo) (ra : Reg) (bit : Fin 24) (target : Fin 8192) (s : State) : Res :=
  .next (s.updEngine e fun E => branch E (bitOf (regGet E ra) bit.val) target.val)

/-- BBC (10 R269). -/
def execOpBbc (e : EngineNo) (ra : Reg) (bit : Fin 24) (target : Fin 8192) (s : State) : Res :=
  .next (s.updEngine e fun E => branch E (!bitOf (regGet E ra) bit.val) target.val)

/-- RLOOP: the body once for each catch-up tick of a replay, then TARGET; outside a replay TARGET at once (10 R275). -/
def execOpRloop (e : EngineNo) (target : Fin 8192) (s : State) : Res :=
  .next (s.updEngine e fun E =>
    if E.catchUp = 0 then { advanceTo E 1 target.val with catchUp := 0 }
    else
      let first := (E.pc + 1) % 8192
      { E with slots := E.slots + 1, pc := first, loop := some (first, target.val, E.catchUp), z := !E.loopCone, n := !E.loopSitter })

/-- A reserved opcode or rejected field fails the engine as for a double-bit error (10 R277). -/
def execReservedOpcode (e : EngineNo) (_word : BitVec 32) (s : State) : Res := .next (failEngine s e 2)

end Sys2Proof.Machine
end

