-- ==== Sys2Proof/Machine/EngineRun.lean ====
section
/-! DEFINITION. Decoding a word of a schedule store and running an engine's tick (10 R261, R267 to R269, R277; 09 R231). -/
namespace Sys2Proof.Machine
open Sys2Proof

/-- A register number. -/
def regOf (n : Nat) : Reg := ⟨n % 32, Nat.mod_lt _ (by decide)⟩

/-- A pair register: even, 2 to 30 (10 R262). -/
def pairOf (n : Nat) : Option Pair :=
  if n % 2 = 0 ∧ 2 ≤ n then some ⟨(n / 2 - 1) % 15, Nat.mod_lt _ (by decide)⟩ else none

/-- A rounding mode; 0b11 names none (10 R266). -/
def rndOf : Nat → Option Rnd
  | 0 => some .near | 1 => some .up | 2 => some .down | _ => none

/-- A condition code; 0xD to 0xF name none (10 R268). -/
def condOf : Nat → Option Cond
  | 0 => some .al | 1 => some .eq | 2 => some .ne | 3 => some .lt | 4 => some .ge | 5 => some .gt | 6 => some .le
  | 7 => some .lo | 8 => some .hs | 9 => some .vs | 10 => some .vc | 11 => some .mi | 12 => some .pl
  | _ => none

/-- A MISM code; only 0x01 to 0x04 name one (10 R274). -/
def mismOf : Nat → Option MismCode
  | 1 => some .iset | 2 => some .bend | 3 => some .fresh | 4 => some .digest | _ => none

/-- A number below 2^k as an index. -/
def portOf (n : Nat) : Fin 128 := ⟨n % 128, Nat.mod_lt _ (by decide)⟩
def addrOf (n : Nat) : Fin 512 := ⟨n % 512, Nat.mod_lt _ (by decide)⟩
def targetOf (n : Nat) : Fin 8192 := ⟨n % 8192, Nat.mod_lt _ (by decide)⟩
def shiftOf (n : Nat) : Fin 32 := ⟨n % 32, Nat.mod_lt _ (by decide)⟩

/-- A shift or bit number of 0 to 23. -/
def bit24Of (n : Nat) : Option (Fin 24) := if h : n < 24 then some ⟨n, h⟩ else none

/-- Keep an answer when a condition holds. -/
def ifSo {α : Type} (b : Bool) (x : Option α) : Option α := if b then x else none

/-- The instruction that a store word spells for engine `e`; none for a reserved opcode or a field value that the checker rejects
(10 R267, R269, R277, R279). POLE takes BASE 0 to 2 alone (DESIGN CHOICE, log entry 170). -/
def decodeOp (e : EngineNo) (w : BitVec 32) : Option Instr :=
  let rd := regOf (fld w 21 5)
  let ra := regOf (fld w 16 5)
  let rb := regOf (fld w 11 5)
  let imm : BitVec 16 := w.extractLsb' 0 16
  let rOk := decide (fld w 0 4 = 0)
  let rnd := rndOf (fld w 4 2)
  let mOk := decide (fld w 9 7 = 0)
  let pOk := decide (fld w 16 5 = 0) && decide (fld w 7 9 = 0)
  let bOk := decide (fld w 13 3 = 0)
  let r3 (f : EngineNo → Reg → Reg → Reg → Instr) : Option Instr := ifSo rOk (rnd.map fun _ => f e rd ra rb)
  let pd := pairOf (fld w 21 5)
  let pa := pairOf (fld w 16 5)
  let pb := pairOf (fld w 11 5)
  match fld w 26 6 with
  | 0x00 => ifSo rOk (rnd.map fun _ => .opNop e)
  | 0x01 => ifSo rOk (rnd.map fun _ => .opEnd e)
  | 0x02 => ifSo (decide (ra = 0)) (some (.opLdi e rd imm))
  | 0x03 => ifSo (decide (fld w 8 8 = 0)) (some (.opLui e rd (w.extractLsb' 0 8)))
  | 0x04 => ifSo rOk (rnd.map fun _ => .opMov e rd ra)
  | 0x05 => ifSo pOk (some (.opInu e rd (portOf (fld w 0 7))))
  | 0x06 => ifSo pOk (some (.opIns e rd (portOf (fld w 0 7))))
  | 0x07 => ifSo pOk (some (.opOut e (portOf (fld w 0 7)) rd))
  | 0x08 => ifSo mOk (some (.opLdp e rd ra (addrOf (fld w 0 9))))
  | 0x09 => ifSo mOk (some (.opLds e rd ra (addrOf (fld w 0 9))))
  | 0x0A => ifSo mOk (some (.opSts e rd ra (addrOf (fld w 0 9))))
  | 0x0B => ifSo (mOk && decide (ra = 0)) (some (.opLdm e rd (addrOf (fld w 0 9))))
  | 0x10 => r3 .opAdd
  | 0x11 => r3 .opSub
  | 0x12 => r3 .opAdds
  | 0x13 => r3 .opSubs
  | 0x14 => some (.opAddi e rd ra imm)
  | 0x15 => r3 .opMin
  | 0x16 => r3 .opMax
  | 0x17 => ifSo rOk (rnd.map fun _ => .opAbs e rd ra)
  | 0x18 => ifSo rOk (rnd.map fun m => .opMul e rd ra rb (shiftOf (fld w 6 5)) m)
  | 0x19 => ifSo rOk (rnd.map fun m => .opDiv e rd ra rb (shiftOf (fld w 6 5)) m)
  | 0x1A => (bit24Of (fld w 0 5)).map fun k => .opShl e rd ra k
  | 0x1B => some (.opShr e rd ra (shiftOf (fld w 0 5)))
  | 0x1C => some (.opShru e rd ra (shiftOf (fld w 0 5)))
  | 0x1D => r3 .opAnd
  | 0x1E => r3 .opOr
  | 0x1F => r3 .opXor
  | 0x20 => some (.opAndi e rd ra imm)
  | 0x21 => ifSo (rOk && decide (rd = 0)) (rnd.map fun _ => .opCmp e ra rb)
  | 0x22 => ifSo (decide (rd = 0)) (some (.opCmpi e ra imm))
  | 0x23 => ifSo (rOk && !bitOf w 10) (rnd.bind fun _ => (condOf (fld w 6 4)).map fun k => .opSel e rd ra rb k)
  | 0x28 => ifSo rOk (rnd.bind fun _ => pd.bind fun d => pa.map fun a => .opAddw e d a rb)
  | 0x29 => ifSo rOk (rnd.bind fun _ => pd.bind fun d => pa.bind fun a => pb.map fun b => .opSubw e d a b)
  | 0x2A => ifSo rOk (rnd.bind fun _ => pd.bind fun d => pa.bind fun a => pb.map fun b => .opSubwz e d a b)
  | 0x2B => ifSo rOk (rnd.bind fun _ => pd.bind fun d => pa.map fun a => .opAccf e d a rb)
  | 0x2C => ifSo rOk (rnd.bind fun _ => pa.map fun a => .opNarw e rd a rb)
  | 0x2D => ifSo rOk (rnd.bind fun _ => pa.bind fun a => pb.map fun b => .opCmpw e a b)
  | 0x30 =>
    if bitOf w 8 then ifSo (decide (fld w 9 2 = 0)) (some (.opPwl e rd ra rb (w.extractLsb' 0 8) .uf24))
    else (rndOf (fld w 9 2)).map fun m => .opPwl e rd ra rb (w.extractLsb' 0 8) (.lin m)
  | 0x31 => some (.opPacc e ra rb)
  | 0x32 => if h : fld w 0 8 < 3 then some (.opPole e ⟨fld w 0 8, h⟩) else none
  | 0x33 => some (.opCheck e)
  | 0x34 => some (.opPeerchk e)
  | 0x35 => (mismOf (fld w 0 8)).map fun k => .opMism e k
  | 0x38 => ifSo bOk ((condOf (fld w 16 4)).map fun k => .opBr e k (targetOf (fld w 0 13)))
  | 0x39 => ifSo bOk ((bit24Of (fld w 16 5)).map fun k => .opBbs e rd k (targetOf (fld w 0 13)))
  | 0x3A => ifSo bOk ((bit24Of (fld w 16 5)).map fun k => .opBbc e rd k (targetOf (fld w 0 13)))
  | 0x3B => ifSo bOk (some (.opRloop e (targetOf (fld w 0 13))))
  | _ => none

/-- The state that a meaning answers with. -/
def afterRes (r : Res) (s : State) : State := match r with | .next t => t | _ => s

/-- The effect of one decoded instruction; a command that is no engine instruction has none here. -/
def runOp (i : Instr) (s : State) : State :=
  match i with
  | .opNop e => afterRes (execOpNop e s) s
  | .opEnd e => afterRes (execOpEnd e s) s
  | .opLdi e rd imm => afterRes (execOpLdi e rd imm s) s
  | .opLui e rd imm => afterRes (execOpLui e rd imm s) s
  | .opMov e rd ra => afterRes (execOpMov e rd ra s) s
  | .opInu e rd p => afterRes (execOpInu e rd p s) s
  | .opIns e rd p => afterRes (execOpIns e rd p s) s
  | .opOut e p rs => afterRes (execOpOut e p rs s) s
  | .opLdp e rd ra a => afterRes (execOpLdp e rd ra a s) s
  | .opLds e rd ra a => afterRes (execOpLds e rd ra a s) s
  | .opSts e rs ra a => afterRes (execOpSts e rs ra a s) s
  | .opLdm e rd a => afterRes (execOpLdm e rd a s) s
  | .opAdd e rd ra rb => afterRes (execOpAdd e rd ra rb s) s
  | .opSub e rd ra rb => afterRes (execOpSub e rd ra rb s) s
  | .opAdds e rd ra rb => afterRes (execOpAdds e rd ra rb s) s
  | .opSubs e rd ra rb => afterRes (execOpSubs e rd ra rb s) s
  | .opAddi e rd ra imm => afterRes (execOpAddi e rd ra imm s) s
  | .opMin e rd ra rb => afterRes (execOpMin e rd ra rb s) s
  | .opMax e rd ra rb => afterRes (execOpMax e rd ra rb s) s
  | .opAbs e rd ra => afterRes (execOpAbs e rd ra s) s
  | .opMul e rd ra rb sh m => afterRes (execOpMul e rd ra rb sh m s) s
  | .opDiv e rd ra rb sh m => afterRes (execOpDiv e rd ra rb sh m s) s
  | .opShl e rd ra k => afterRes (execOpShl e rd ra k s) s
  | .opShr e rd ra k => afterRes (execOpShr e rd ra k s) s
  | .opShru e rd ra k => afterRes (execOpShru e rd ra k s) s
  | .opAnd e rd ra rb => afterRes (execOpAnd e rd ra rb s) s
  | .opOr e rd ra rb => afterRes (execOpOr e rd ra rb s) s
  | .opXor e rd ra rb => afterRes (execOpXor e rd ra rb s) s
  | .opAndi e rd ra imm => afterRes (execOpAndi e rd ra imm s) s
  | .opCmp e ra rb => afterRes (execOpCmp e ra rb s) s
  | .opCmpi e ra imm => afterRes (execOpCmpi e ra imm s) s
  | .opSel e rd ra rb k => afterRes (execOpSel e rd ra rb k s) s
  | .opAddw e d a rb => afterRes (execOpAddw e d a rb s) s
  | .opSubw e d a b => afterRes (execOpSubw e d a b s) s
  | .opSubwz e d a b => afterRes (execOpSubwz e d a b s) s
  | .opAccf e d a rb => afterRes (execOpAccf e d a rb s) s
  | .opNarw e rd a rb => afterRes (execOpNarw e rd a rb s) s
  | .opCmpw e a b => afterRes (execOpCmpw e a b s) s
  | .opPwl e rd ra rb b m => afterRes (execOpPwl e rd ra rb b m s) s
  | .opPacc e ra rb => afterRes (execOpPacc e ra rb s) s
  | .opPole e i => afterRes (execOpPole e i s) s
  | .opCheck e => afterRes (execOpCheck e s) s
  | .opPeerchk e => afterRes (execOpPeerchk e s) s
  | .opMism e k => afterRes (execOpMism e k s) s
  | .opBr e k t => afterRes (execOpBr e k t s) s
  | .opBbs e ra k t => afterRes (execOpBbs e ra k t s) s
  | .opBbc e ra k t => afterRes (execOpBbc e ra k t s) s
  | .opRloop e t => afterRes (execOpRloop e t s) s
  | _ => s

/-- Run an engine until END, or until it has spent its 240 slots without END, which fails it (09 R231). -/
def engineLoop (e : EngineNo) : Nat → State → State
  | 0, s => if (s.engine e).ended then s else failEngine s e 1
  | n + 1, s =>
    let E := s.engine e
    if E.ended then s
    else if 240 ≤ E.slots then failEngine s e 1
    else match decodeOp e (tabGet 0 (s.cluster (e / 64)).store E.pc) with
      | none => failEngine s e 2
      | some i => engineLoop e n (runOp i s)

/-- Start an engine's tick at its entry address, or in a replay at the replay entry (10 R261; 09 R250), and run it to its END. -/
def engineTick (e : EngineNo) (s : State) : State :=
  let s := s.updEngine e fun E => { E with
    pc := if E.loopSitter || E.loopCone then replayOf E else entryOf E, slots := 0, ended := false, loop := none, wrote := [], reqRead := false }
  engineLoop e 240 s

end Sys2Proof.Machine
end

