-- ==== Sys2Proof/Machine/SchedCheck.lean ====
section
/-! DEFINITION. Schedule objects and the budget checker (10 R278, R279; 09 R259; 17 R460). -/
namespace Sys2Proof.Machine
open Sys2Proof

/-- Why a schedule is rejected (09 R259, 10 R279, 17 R459). -/
inductive SchedErr where
  | digest | incomplete | encoding | flow | port | budget | full | busy
deriving DecidableEq, Repr

/-- One form of a schedule: its words with the addresses of its header relative to the first word (17 R460). -/
structure Form where
  words : List (BitVec 32)
  entry : Nat
  replay : Nat
  carryBase : Nat
  carryLen : Nat
  conePBase : Nat
  coneSBase : Nat
deriving DecidableEq, Repr

/-- A schedule object: its forms for the Sitter, the Cone and packed service, and its constants (17 R460). -/
structure SchedObj where
  forms : List Form
  consts : List W24
deriving DecidableEq, Repr

/-- Words of `k` bytes from a byte string, least significant byte first. -/
def wordsLe (k : Nat) (bs : List Byte) : Nat → Nat → List Nat
  | _, 0 => []
  | off, n + 1 => leAt bs off k :: wordsLe k bs (off + k) n

/-- A form record of 16 bytes and the words it names. -/
def formAt (obj : List Byte) (off : Nat) : Form :=
  { words := (wordsLe 4 obj (leAt obj off 4) (leAt obj (off + 4) 2)).map (BitVec.ofNat 32)
    entry := leAt obj (off + 6) 2, replay := leAt obj (off + 8) 2, carryBase := leAt obj (off + 10) 2
    carryLen := leAt obj (off + 12) 1, conePBase := leAt obj (off + 13) 1, coneSBase := leAt obj (off + 14) 2 }

/-- A form record lies within its object, at an offset that is a multiple of 4. -/
def formOk (obj : List Byte) (off : Nat) : Bool :=
  decide (leAt obj off 4 % 4 = 0) && decide (leAt obj off 4 + 4 * leAt obj (off + 4) 2 ≤ obj.length)

/-- Read a schedule object; a form of no words is missing (17 R460, 09 R259). -/
def parseSched (obj : List Byte) : Except SchedErr SchedObj :=
  let co := leAt obj 52 4
  let cc := leAt obj 56 2
  if obj.length < 64 || decide (leAt obj 0 2 ≠ 1) || decide (leAt obj 2 2 ≠ 0) || decide (leAt obj 58 6 ≠ 0) || decide (128 < cc) ||
      decide (obj.length < co + 3 * cc) || !([4, 20, 36].all (formOk obj)) then .error .encoding
  else
    let fs := [4, 20, 36].map (formAt obj)
    if fs.any fun f => f.words.isEmpty then .error .incomplete
    else .ok { forms := fs, consts := (wordsLe 3 obj co cc).map (BitVec.ofNat 24) }

/-- What an instruction reads and writes: registers 0 to 31, and the flags Z, N, C, V as 32 to 35; and its largest cost in slots. -/
structure OpUse where
  reads : List Nat
  writes : List Nat
  slots : Nat

/-- Both registers of a pair. -/
def pairRegs (p : Pair) : List Nat := [pairReg p, pairReg p + 1]

/-- Flags that a condition code reads (10 R268). -/
def condReads : Cond → List Nat
  | .al => [] | .eq => [32] | .ne => [32] | .lt => [33, 35] | .ge => [33, 35] | .gt => [32, 33, 35] | .le => [32, 33, 35]
  | .lo => [34] | .hs => [34] | .vs => [35] | .vc => [35] | .mi => [33] | .pl => [33]

/-- Reads, writes and slots of each instruction (10 R269); POLE at its cost when due. -/
def opUse (i : Instr) : OpUse :=
  let zn (r : Reg) (l : List Nat) : OpUse := { reads := l, writes := [r.val, 32, 33], slots := 1 }
  let znv (r : Reg) (l : List Nat) (k : Nat) : OpUse := { reads := l, writes := [r.val, 32, 33, 35], slots := k }
  let zncv (r : Reg) (l : List Nat) : OpUse := { reads := l, writes := [r.val, 32, 33, 34, 35], slots := 1 }
  match i with
  | .opLdi _ rd _ => { reads := [], writes := [rd.val], slots := 1 }
  | .opLui _ rd _ => { reads := [rd.val], writes := [rd.val], slots := 1 }
  | .opMov _ rd ra => zn rd [ra.val]
  | .opInu _ rd _ => zn rd []
  | .opIns _ rd _ => zn rd []
  | .opOut _ _ rs => { reads := [rs.val], writes := [], slots := 1 }
  | .opLdp _ rd ra _ => zn rd [ra.val]
  | .opLds _ rd ra _ => zn rd [ra.val]
  | .opSts _ rs ra _ => { reads := [rs.val, ra.val], writes := [], slots := 1 }
  | .opLdm _ rd _ => zn rd []
  | .opAdd _ rd ra rb => zncv rd [ra.val, rb.val]
  | .opSub _ rd ra rb => zncv rd [ra.val, rb.val]
  | .opAdds _ rd ra rb => znv rd [ra.val, rb.val] 1
  | .opSubs _ rd ra rb => znv rd [ra.val, rb.val] 1
  | .opAddi _ rd ra _ => zncv rd [ra.val]
  | .opMin _ rd ra rb => zn rd [ra.val, rb.val]
  | .opMax _ rd ra rb => zn rd [ra.val, rb.val]
  | .opAbs _ rd ra => znv rd [ra.val] 1
  | .opMul _ rd ra rb _ _ => znv rd [ra.val, rb.val] 1
  | .opDiv _ rd ra rb _ _ => znv rd [ra.val, rb.val] 8
  | .opShl _ rd ra _ => znv rd [ra.val] 1
  | .opShr _ rd ra _ => zn rd [ra.val]
  | .opShru _ rd ra _ => zn rd [ra.val]
  | .opAnd _ rd ra rb => zn rd [ra.val, rb.val]
  | .opOr _ rd ra rb => zn rd [ra.val, rb.val]
  | .opXor _ rd ra rb => zn rd [ra.val, rb.val]
  | .opAndi _ rd ra _ => zn rd [ra.val]
  | .opCmp _ ra rb => { reads := [ra.val, rb.val], writes := [32, 33, 34, 35], slots := 1 }
  | .opCmpi _ ra _ => { reads := [ra.val], writes := [32, 33, 34, 35], slots := 1 }
  | .opSel _ rd ra rb k => { reads := [ra.val, rb.val] ++ condReads k, writes := [rd.val], slots := 1 }
  | .opAddw _ d a rb => { reads := pairRegs a ++ [rb.val], writes := pairRegs d ++ [32, 33, 34], slots := 1 }
  | .opSubw _ d a b => { reads := pairRegs a ++ pairRegs b, writes := pairRegs d ++ [32, 33, 34], slots := 1 }
  | .opSubwz _ d a b => { reads := pairRegs a ++ pairRegs b, writes := pairRegs d ++ [32], slots := 1 }
  | .opAccf _ d a rb => { reads := pairRegs a ++ [rb.val], writes := pairRegs d ++ [32, 35], slots := 2 }
  | .opNarw _ rd a rb => znv rd (pairRegs a ++ [rb.val]) 1
  | .opCmpw _ a b => { reads := pairRegs a ++ pairRegs b, writes := [32, 34], slots := 1 }
  | .opPwl _ rd ra rb _ _ => { reads := [ra.val, rb.val], writes := [rd.val, 33, 35], slots := 4 }
  | .opPacc _ ra rb => { reads := [ra.val, rb.val], writes := [], slots := 2 }
  | .opPole _ _ => { reads := [], writes := [32], slots := 10 }
  | .opCheck _ => { reads := [], writes := [], slots := 4 }
  | .opPeerchk _ => { reads := [], writes := [32], slots := 4 }
  | .opBr _ k _ => { reads := condReads k, writes := [], slots := 1 }
  | .opBbs _ ra _ _ => { reads := [ra.val], writes := [], slots := 1 }
  | .opBbc _ ra _ _ => { reads := [ra.val], writes := [], slots := 1 }
  | .opRloop _ _ => { reads := [], writes := [32, 33], slots := 1 }
  | _ => { reads := [], writes := [], slots := 1 }

/-- The target of a branch, and whether the branch may fall through. -/
def opTarget : Instr → Option (Nat × Bool)
  | .opBr _ k t => some (t.val, decide (k ≠ .al))
  | .opBbs _ _ _ t => some (t.val, true)
  | .opBbc _ _ _ t => some (t.val, true)
  | _ => none

/-- An absolute address outside its memory (10 R279): parameter bank 256 words, mirror slot 32. -/
def badAddress : Instr → Bool
  | .opLdp _ _ ra a => outsideBank ra a.val
  | .opLdm _ _ a => outsideSlot a.val
  | _ => false

/-- A port word, or a use of the peer, that form `kind` (0 Sitter, 1 Cone, 2 packed) may not have (10 R279). -/
def badPort (kind : Nat) : Instr → Bool
  | .opInu _ _ p => decide (16 ≤ p.val) || (decide (kind = 2) && decide (14 ≤ p.val))
  | .opIns _ _ p => decide (16 ≤ p.val) || (decide (kind = 2) && decide (14 ≤ p.val))
  | .opOut _ p _ => decide (p.val < 0x40) || decide (0x49 < p.val) || decide (p.val = 0x46) || decide (p.val = 0x47) ||
      (decide (kind = 1) && (decide (p.val = 0x40) || decide (p.val = 0x49))) ||
      (decide (kind = 0) && (decide (p.val = 0x41) || decide (p.val = 0x42) || decide (p.val = 0x48)))
  | .opLdm _ _ _ => decide (kind = 2)
  | .opPeerchk _ => decide (kind = 2)
  | _ => false

/-- What holds on every path to an address: the largest cost, the registers and flags written, the counts of CHECK that occur (bit 0, 1, 2
for none, one, more), and the most event requests. -/
structure PathInfo where
  cost : Nat
  defs : List Nat
  checks : Nat
  evts : Nat
deriving DecidableEq, Repr

/-- Two paths meet. -/
def PathInfo.meet (a b : PathInfo) : PathInfo :=
  { cost := max a.cost b.cost, defs := a.defs.filter b.defs.contains, checks := Nat.lor a.checks b.checks, evts := max a.evts b.evts }

/-- The start of a tick. -/
def PathInfo.start : PathInfo := { cost := 0, defs := [0], checks := 1, evts := 0 }

/-- Note that a path reaches an address. -/
def reach (l : List (Nat × PathInfo)) (a : Nat) (p : PathInfo) : List (Nat × PathInfo) :=
  match l with
  | [] => [(a, p)]
  | (b, q) :: r => if a = b then (b, q.meet p) :: r else (b, q) :: reach r a p

/-- The paths met so far: those that reach an address still ahead, those that left the range, and those that reached END. -/
structure Scan where
  ahead : List (Nat × PathInfo)
  exit : Option PathInfo
  done : Option PathInfo
  bad : Bool
deriving DecidableEq, Repr

/-- Join two answers that may be absent. -/
def meetOpt (a : Option PathInfo) (p : PathInfo) : Option PathInfo := match a with | none => some p | some q => some (q.meet p)

/-- A path goes on to an address: to the one where the range is left, to another ahead of `stop`, or past the form. -/
def goTo (x : Scan) (out stop a : Nat) (p : PathInfo) : Scan :=
  if a = out then { x with exit := meetOpt x.exit p }
  else if a < stop then { x with ahead := reach x.ahead a p }
  else { x with bad := true }

/-- One instruction of a range met on its paths. -/
def scanOp (f : Form) (out stop : Nat) (x : Scan) (ai : Nat × Instr) : Scan :=
  let (a, i) := ai
  match x.ahead.find? (fun q => q.1 = a) with
  | none => x
  | some (_, p) =>
    let u := opUse i
    let x := { x with ahead := x.ahead.filter (fun q => q.1 ≠ a), bad := x.bad || u.reads.any fun r => !p.defs.contains r }
    let p' := { p with cost := p.cost + u.slots, defs := (u.writes.filter fun r => !p.defs.contains r) ++ p.defs }
    match i with
    | .opEnd _ => { x with done := meetOpt x.done p', bad := x.bad || decide (p.checks ≠ 2) }
    | .opCheck _ => goTo x out stop (a + 1) { p' with checks := Nat.lor (2 * (p.checks % 4)) (p.checks / 4 * 4) }
    | .opSts _ _ ra ad =>
      let into := decide (ra ≠ 0) || (decide (f.carryBase ≤ ad.val) && decide (ad.val < f.carryBase + f.carryLen))
      goTo { x with bad := x.bad || (into && decide (1 < p.checks)) } out stop (a + 1) p'
    | .opOut _ port _ => goTo x out stop (a + 1) { p' with evts := p.evts + b2n (decide (port.val = 0x43)) }
    | _ => match opTarget i with
      | some (t, falls) =>
        let x := goTo x out stop t { p' with cost := p.cost + 2 }
        if falls then goTo x out stop (a + 1) p' else x
      | none => goTo x out stop (a + 1) p'

/-- Scan the paths of a form from an address, with what holds there, to `out` or to END. -/
def scanRange (f : Form) (is : List (Nat × Instr)) (first out : Nat) (p : PathInfo) : Scan :=
  (is.filter fun q => decide (first ≤ q.1)).foldl (scanOp f out f.words.length)
    (goTo { ahead := [], exit := none, done := none, bad := false } out f.words.length first p)

/-- Whether an instruction may not stand in an RLOOP body. -/
def notInBody : Instr → Bool
  | .opCheck _ | .opEnd _ | .opRloop _ _ => true
  | _ => false

/-- A branch or RLOOP target at or below its own address or outside the form. -/
def badTarget (n : Nat) (q : Nat × Instr) : Bool :=
  match q.2 with
  | .opRloop _ t => decide (t.val ≤ q.1) || decide (n ≤ t.val)
  | i => match opTarget i with | some (t, _) => decide (t ≤ q.1) || decide (n ≤ t) | none => false

/-- The RLOOP instructions of a form: address and target. -/
def rloops (is : List (Nat × Instr)) : List (Nat × Nat) :=
  is.filterMap fun q => match q.2 with | .opRloop _ t => some (q.1, t.val) | _ => none

/-- The larger cost and the larger count of event requests of two kinds of path. -/
def worse (a b : Nat × Nat) : Nat × Nat := (max a.1 b.1, max a.2 b.2)

/-- The worst replay path of the packed form (10 R278): its own way to RLOOP, the body three times, and the tick entry; or a way that leaves
RLOOP or its body out. None where the replay entry breaks a flow rule; with the most event requests. -/
def replayCost (f : Form) (is : List (Nat × Instr)) (tick : PathInfo) : Option (Nat × Nat) :=
  let ends (base : Nat × Nat) (x : Scan) : Nat × Nat := match x.done with | some d => (base.1 + d.cost, base.2 + d.evts) | none => (0, 0)
  match rloops is with
  | [] =>
    let x := scanRange f is f.replay f.words.length .start
    if x.bad || x.exit.isSome || x.done.isNone then none else some (ends (0, 0) x)
  | [(r, t)] =>
    if t ≠ f.entry || decide (r < f.replay) || ((is.filter fun q => decide (r < q.1) && decide (q.1 < t)).any fun q => notInBody q.2) then none
    else
      let pre := scanRange f is f.replay r .start
      match pre.exit with
      | none => none
      | some p =>
        let body := scanRange f is (r + 1) t { p with cost := 0, evts := 0, defs := 32 :: 33 :: p.defs }
        if pre.bad || body.bad || decide (p.checks ≠ 1) then none
        else
          let b := match body.exit with | some b => (b.cost, b.evts) | none => (0, 0)
          let q := (p.cost + 1, p.evts)
          some (worse (q.1 + 3 * b.1 + tick.cost, q.2 + 3 * b.2 + tick.evts) (worse (ends (0, 0) pre) (ends (q.1 + 2 * b.1, q.2 + 2 * b.2) body)))
  | _ => none

/-- Check one form: its worst cost of a tick, and of the replay in the packed form (10 R278, R279). The rules are judged in the order
encoding, flow, port, budget. -/
def checkForm (kind : Nat) (f : Form) : Except SchedErr (Nat × Nat) :=
  let n := f.words.length
  let ops := f.words.map (decodeOp 0)
  let is := (List.range n).filterMap fun a => ((ops.getD a none).map fun i => (a, i))
  if ops.any Option.isNone || (is.any fun q => badAddress q.2) || decide (32 < f.carryLen) || decide (f.carryLen = 0) ||
      decide (512 < f.carryBase + f.carryLen) ||
      (decide (kind ≠ 0) && (decide (f.coneSBase < f.carryBase) || decide (f.carryBase + f.carryLen < f.coneSBase + 15))) then .error .encoding
  else if (is.any (badTarget n)) || decide (n ≤ f.entry) || (decide (kind ≠ 2) && !(rloops is).isEmpty) then .error .flow
  else
    let tick := scanRange f is f.entry n .start
    match tick.done with
    | none => .error .flow
    | some p =>
      let rep := if kind = 2 then replayCost f is p else some (0, 0)
      if tick.bad || tick.exit.isSome || rep.isNone then .error .flow
      else
        let rp := rep.getD (0, 0)
        if (is.any fun q => badPort kind q.2) || decide (2 < p.evts) || decide (4 < rp.2) then .error .port
        else if 240 < p.cost ∨ 240 < rp.1 then .error .budget
        else .ok (p.cost, rp.1)

/-- What a check answers: the worst tick of each form, and the worst replay (17 R459, WORST and REPLAY). -/
structure SchedCost where
  sitter : Nat
  cone : Nat
  packed : Nat
  replay : Nat
deriving DecidableEq, Repr

/-- Check all three forms. -/
def checkSched (o : SchedObj) : Except SchedErr SchedCost :=
  match o.forms with
  | [a, b, c] => do
    let x ← checkForm 0 a
    let y ← checkForm 1 b
    let z ← checkForm 2 c
    .ok { sitter := x.1, cone := y.1, packed := z.1, replay := z.2 }
  | _ => .error .incomplete

end Sys2Proof.Machine
end

