-- ==== Sys2Proof/Machine/Book.lean ====
section
/-! DEFINITION. The Kiln Book: its layout, and the checks of a commit in their order (15 R401 to R404). A place is a section type, an
instance and an item; of several violations of one check the lowest place decides. -/
namespace Sys2Proof.Machine
open Sys2Proof

/-- A section as its directory entry gives it (15 R401). -/
structure BookSec where
  typ : Nat
  inst : Nat
  off : Nat
  len : Nat
  crc : Nat
deriving DecidableEq, Repr

/-- A Kiln Book: its bytes up to LENGTH, its generation, SIGNED and its directory. -/
structure Book where
  bytes : List Byte
  gen : Nat
  signed : Bool
  secs : List BookSec
deriving DecidableEq, Repr

/-- Where a violation lies: TYPE, INSTANCE, item. -/
abbrev Place := Nat × Nat × Nat

/-- Why a Book is refused (15 R404): the status, and its place where it has one. -/
structure BookErr where
  status : Nat
  place : Option Place
deriving DecidableEq, Repr

/-- Lexicographic order of places. -/
def placeLt (a b : Place) : Bool :=
  decide (a.1 < b.1) || (decide (a.1 = b.1) && (decide (a.2.1 < b.2.1) || (decide (a.2.1 = b.2.1) && decide (a.2.2 < b.2.2))))

/-- The lowest of a list of places. -/
def lowest : List Place → Option Place
  | [] => none
  | p :: r => match lowest r with
    | none => some p
    | some q => some (if placeLt q p then q else p)

/-- A place when a condition holds. -/
def viol (b : Bool) (t i j : Nat) : List Place := if b then [(t, i, j)] else []

/-- The highest instance of a section type, none for an unknown type (15 R402). -/
def maxInst : Nat → Option Nat
  | 1 => some 0 | 2 => some 511 | 3 => some 0 | 4 => some 7 | 5 => some 7 | 6 => some 7 | 7 => some 0 | 8 => some 0 | 9 => some 0
  | 10 => some 0 | 11 => some 0 | 255 => some 0
  | _ => none

/-- A directory entry. -/
def dirEntry (bs : List Byte) (i : Nat) : BookSec :=
  let o := 32 + 16 * i
  { typ := leAt bs o 2, inst := leAt bs (o + 2) 2, off := leAt bs (o + 4) 4, len := leAt bs (o + 8) 4, crc := leAt bs (o + 12) 4 }

/-- The bytes of a section. -/
def secBytes (bs : List Byte) (e : BookSec) : List Byte := sliceBytes bs e.off e.len

/-- HEADER_CRC and the fields of the header (15 R401). -/
def headerOk (h : List Byte) : Bool :=
  decide (leAt h 0 2 = 1) && decide (leAt h 2 2 < 2) && decide (1 ≤ leAt h 4 2) && decide (leAt h 4 2 ≤ 1024) &&
    decide (32 + 16 * leAt h 4 2 ≤ leAt h 8 4) && decide (leAt h 8 4 ≤ 1048576) &&
    decide (leAt h 20 4 = (crc32c (sliceBytes h 0 20)).toNat)

/-- DIR_CRC. -/
def dirOk (bs : List Byte) : Bool := decide (leAt bs 16 4 = (crc32c (sliceBytes bs 32 (16 * leAt bs 4 2))).toNat)

/-- Two sections overlap. -/
def overlap (a b : BookSec) : Bool := decide (a.off < b.off + b.len) && decide (b.off < a.off + a.len)

/-- Violations of check 1 in the sections of a directory, each entry against the entries before it (15 R404). -/
def secViol (bs : List Byte) (n : Nat) : List BookSec → List BookSec → List Place
  | _, [] => []
  | before, e :: r =>
    let bad := (match maxInst e.typ with | none => true | some m => decide (m < e.inst)) ||
      before.any (fun x => x.typ == e.typ && x.inst == e.inst) || before.any (overlap e) ||
      decide (e.off % 8 ≠ 0) || decide (e.off < 32 + 16 * n) || decide (bs.length < e.off + e.len) ||
      (decide (e.typ = 2) && decide (e.len < 8)) || decide (e.crc ≠ (crc32c (secBytes bs e)).toNat)
    viol bad e.typ e.inst 0 ++ secViol bs n (before ++ [e]) r

/-- The signature section of a directory. -/
def sigSec (secs : List BookSec) : Option BookSec := secs.find? fun e => e.typ == 255

/-- A signature section stands exactly when SIGNED is 1, and then last (15 R404). -/
def sigPlaced (secs : List BookSec) (signed : Bool) (len : Nat) : Bool :=
  match sigSec secs with
  | none => !signed
  | some e => signed && decide (e.off + e.len = len) && secs.all fun x => x.typ == 255 || decide (x.off < e.off)

/-- Check 1: the layout, and the directory read (15 R404). -/
def parseBook (all : List Byte) : Except BookErr Book :=
  if !(headerOk (all.take 32)) || decide (all.length < leAt all 8 4) then .error ⟨0x301, none⟩
  else
    let bs := all.take (leAt all 8 4)
    if !(dirOk bs) then .error ⟨0x301, none⟩
    else
      let n := leAt bs 4 2
      let secs := (List.range n).map (dirEntry bs)
      match lowest (secViol bs n [] secs) with
      | some p => .error ⟨0x301, some p⟩
      | none =>
        let signed := decide (leAt bs 2 2 = 1)
        if sigPlaced secs signed bs.length then .ok { bytes := bs, gen := leAt bs 12 4, signed := signed, secs := secs }
        else .error ⟨0x301, some (255, 0, 0)⟩

/-- The section of a type and instance. -/
def secOf (b : Book) (t i : Nat) : Option BookSec := b.secs.find? fun e => e.typ == t && e.inst == i

/-- Word `j` of a section, in words of `k` bytes; a word that is absent or not whole takes its Reset value (15 R402). -/
def secWord (b : Book) (t i k j dflt : Nat) : Nat :=
  match secOf b t i with
  | none => dflt
  | some e => if k * (j + 1) ≤ e.len then leAt b.bytes (e.off + k * j) k else dflt

/-- The number of whole words of `k` bytes in a section. -/
def secCount (b : Book) (t i k : Nat) : Nat := match secOf b t i with | none => 0 | some e => e.len / k

/-- Reset values of the 28 words of a channel section (02 R73, 03 R81, 04 R98, R112, 05 R130, R133, R143, 07 R182). -/
def chanResets : List Nat :=
  [0, 0x00020000C83E80A0, 0x1F40190219000000] ++ List.replicate 8 0 ++ [0x00C80210FA000000] ++ List.replicate 4 0 ++
    [0x3643320000000000] ++ List.replicate 3 0 ++ [0x0000460206400000, 0x967D9500050A0000] ++ List.replicate 4 0x0000080000000800 ++
    List.replicate 2 0x003FF20000000000

/-- The 28 words of a configured channel; the empty list for a channel without a section (15 R402, R403). -/
def bookProf (b : Book) (c : Nat) : List (BitVec 64) :=
  match secOf b 2 c with
  | none => []
  | some _ => (List.range 28).map fun j => BitVec.ofNat 64 (secWord b 2 c 8 j (chanResets.getD j 0))

/-- A channel record that holds nothing but a profile: the field accessors of a profile read it. -/
def profOnly (ws : List (BitVec 64)) : ChanSt := { prof := ws }

/-- The configured channels of a Book, in ascending order. -/
def bookChans (b : Book) : List Nat := (List.range 512).filter fun c => (secOf b 2 c).isSome

/-- Slot word of slot `n`; feed word `j` of a hearth (0, 1 feed words, 2, 3 spyholes, 4 ledger map). -/
def bookSlot (b : Book) (n : Nat) : BitVec 32 := BitVec.ofNat 32 (secWord b 1 0 4 n 0x00080000)
def feedResets : List Nat := [0x0105321905280140, 0x0800014000000000, 0x003FF20000000000, 0x003FF20000000000, 0xFFF0]
def bookFeed (b : Book) (h j : Nat) : BitVec 64 := BitVec.ofNat 64 (secWord b 4 h 8 j (feedResets.getD j 0))

/-- Housekeeping words of a hearth: control, entries, NTC table. -/
def bookHkControl (b : Book) (h : Nat) : BitVec 64 := BitVec.ofNat 64 (secWord b 5 h 8 0 0x0019000021C00000)
def bookHkEntry (b : Book) (h i : Nat) : BitVec 64 := BitVec.ofNat 64 (secWord b 5 h 8 (1 + i) 0x0000080000000000)
def bookNtc (b : Book) (h : Nat) : List (BitVec 16) := (List.range 17).map fun j => BitVec.ofNat 16 (secWord b 5 h 2 (132 + j) 0)

/-- Capture binding, time, pair and Works words. -/
def bookCapture (b : Book) (h i : Nat) : BitVec 16 := BitVec.ofNat 16 (secWord b 6 h 2 i 0)
def bookTime (b : Book) : BitVec 64 := BitVec.ofNat 64 (secWord b 7 0 8 0 0x100003E806400000)
def bookPair (b : Book) : BitVec 64 := BitVec.ofNat 64 (secWord b 8 0 8 0 0x0000002814000000)
def bookWorks (b : Book) (j : Nat) : BitVec 64 := BitVec.ofNat 64 (secWord b 9 0 8 j 0)

/-- The facility feed entries (14 R376). -/
def bookFacility (b : Book) : List (BitVec 64) :=
  (List.range (secCount b 10 0 8)).map fun i => BitVec.ofNat 64 (secWord b 10 0 8 i 0)

/-- A twin entry: its word and the four words of its shared points (04 R116). -/
def bookTwin (b : Book) (t : Nat) : List (BitVec 64) := (List.range 5).map fun j => BitVec.ofNat 64 (secWord b 3 0 8 (5 * t + j) 0)

/-- The twin entries, each with its number. -/
def bookTwins (b : Book) : List (Nat × List (BitVec 64)) :=
  (List.range (min 256 (ceilNat ((secOf b 3 0).map (·.len) |>.getD 0) 40))).map fun t => (t, bookTwin b t)

/-- An entry of the schedule map (15 R402). -/
structure MapEntry where
  id : Nat
  kind : Nat
  off : Nat
  len : Nat
  digest : BitVec 384
deriving DecidableEq, Repr

/-- A hash from the 48 bytes that SHA-384 defines for it. -/
def hashOfBytes (bs : List Byte) : BitVec 384 := BitVec.ofNat 384 (ofLe bs.reverse)

/-- The schedule map. -/
def bookMap (b : Book) : List MapEntry :=
  match secOf b 11 0 with
  | none => []
  | some e => (List.range (e.len / 64)).map fun i =>
      let o := e.off + 64 * i
      { id := leAt b.bytes o 1, kind := leAt b.bytes (o + 1) 1, off := leAt b.bytes (o + 8) 4, len := leAt b.bytes (o + 12) 4
        digest := hashOfBytes (sliceBytes b.bytes (o + 16) 48) }

/-- BOOK_DIGEST (15 R402). -/
def bookDigest (b : Book) : BitVec 384 :=
  Config.sha384 (match sigSec b.secs with | some e => b.bytes.take e.off | none => b.bytes)

/-- Check 2: the signature section under the key hash of the fuses (15 R404). -/
def sigOk (b : Book) (keyHash : BitVec 384) : Bool :=
  match sigSec b.secs with
  | none => false
  | some e =>
    let k := sliceBytes b.bytes e.off 96
    decide (Config.sha384 k = keyHash) &&
      Config.ecdsaVerify k (bookDigest b) (hashOfBytes (sliceBytes b.bytes (e.off + 96) 48)) (hashOfBytes (sliceBytes b.bytes (e.off + 144) 48))

/-! Check 3: ranges. -/

/-- Ranges of one spyhole word, SPY_V or not (07 R183). -/
def spyBad (w : BitVec 64) (isV : Bool) : Bool :=
  let lo := fld w 54 10
  let up := fld w 44 10
  let hy := fld w 40 4
  decide (hy = 0) || decide (fld w 35 2 = 3) || (!isV && decide (fld w 23 8 ≠ 0)) ||
    (decide (lo ≠ 0) && decide (up ≠ 0x3FF) && decide (up ≤ lo + 2 * hy)) || (decide (fld w 32 3 ≠ 0) && !bitOf w 31)

/-- Ranges of the life word (02 R73). -/
def lifeBad (w : BitVec 64) : Bool :=
  decide (fld w 48 8 = 0) || decide (1 < fld w 44 2) || decide (fld w 24 8 < 80) || decide (240 < fld w 24 8) ||
    decide (fld w 14 10 < 10) || decide (1000 < fld w 14 10) || decide (fld w 4 8 = 0)

/-- A segment word by its type (03 R82); a word beyond SEG_M1 is 0. -/
def segBad (w : BitVec 64) : Bool :=
  let common := decide (segIlim w = 0) || decide (segPfold w = 0)
  match segType w with
  | 1 => common || decide (segVend w = 0) || decide (segIg w = 0) || decide (segDuration w ≠ 0)
  | 2 => common || decide (segDuration w = 0) || decide (segVend w ≠ 0) || decide (segIg w ≠ 0)
  | _ => true

/-- VEND of the segments of type RAMP, with their indexes. -/
def rampVends (A : ChanSt) : List (Nat × Nat) :=
  ((List.range (pSegM1 A + 1)).filter fun i => segType (pSeg A i) = 1).map fun i => (i, segVend (pSeg A i))

/-- The first RAMP segment whose VEND a later RAMP segment undercuts. -/
def vendFalls : List (Nat × Nat) → Option Nat
  | [] => none
  | (i, v) :: r => if r.any fun q => decide (q.2 < v) then some i else vendFalls r

/-- Firing schedule of a channel (03 R83). -/
def firingViol (A : ChanSt) (c : Nat) : List Place :=
  let hd := profWord A 2
  let segs := (List.range (pSegM1 A + 1)).map fun i => (i, pSeg A i)
  let ft := tripCode (profWord A 11)
  let r := pRshunt A
  let limit (x : Nat) : Bool := decide (3200 * ft < x * r) || decide (818400 < x * r)
  viol (decide (fld hd 52 12 = 0) || decide (fld hd 40 12 = 0) || decide (fld hd 22 8 = 0)) 2 c 2 ++
  segs.flatMap (fun q => viol (segBad q.2) 2 c (3 + q.1)) ++
  ((List.range 8).flatMap fun i => viol (decide (pSegM1 A < i) && decide (pSeg A i ≠ 0)) 2 c (3 + i)) ++
  viol (rampVends A).isEmpty 2 c 2 ++
  (match vendFalls (rampVends A) with | some i => [(2, c, 3 + i)] | none => []) ++
  viol (limit (pIlimRun A) || segs.any fun q => limit (segIlim q.2)) 2 c 0 ++
  viol (segs.any fun q => decide (segIlim q.2 < pFloor A) || decide (8 * segPfold q.2 < 750 * pFloor A)) 2 c 2 ++
  viol (decide (10 * pDeadline A ≤ ((segs.filter fun q => segType q.2 = 2).map fun q => segDuration q.2).sum)) 2 c 2

/-- Successive elements of a list that break an order, by the index of the first of the two. -/
def stepsBad {α : Type} (bad : α → α → Bool) : Nat → List α → List Nat
  | i, a :: b :: r => (if bad a b then [i] else []) ++ stepsBad bad (i + 1) (b :: r)
  | _, _ => []

/-- A breaker curve (04 R100): a field out of range or an order broken, by point, and whether P7 reaches the fast trip. -/
def curvePoints (pts : List (Nat × Nat)) : List Nat :=
  ((List.range pts.length).filter fun k => decide ((pts.getD k (0, 0)).1 = 0) || decide ((pts.getD k (0, 0)).2 = 0)) ++
    stepsBad (fun a b => decide (b.1 ≤ a.1) || decide (a.2 ≤ b.2)) 0 pts
def curveHigh (A : ChanSt) (pts : List (Nat × Nat)) : Bool := decide (4000 * tripCode (profWord A 11) ≤ (pts.getD 7 (0, 0)).1 * pRshunt A)

/-- The Cone words of a channel (05 R151). -/
def coneViol (A : ChanSt) (c : Nat) : List Place :=
  let pw := profWord A 20
  let lw := profWord A 21
  let soa := pSoa A
  ((List.range 3).flatMap fun i => viol (decide (pRth A i = 0) || decide (fld (profWord A (17 + i)) 29 12 = 0)) 2 c (17 + i)) ++
  viol (decide (fld pw 48 16 = 0) || decide (fld pw 32 8 = 0) || decide (fld pw 20 12 = 0)) 2 c 20 ++
  viol (decide (pTjBend A < 50) || decide (200 < pTjBend A) || decide (pTjWarn A < 40) || decide (pTjBend A < pTjWarn A + 5) ||
    decide (fld lw 40 8 < 24) || decide (214 < fld lw 40 8) || decide (pTsnsMode A = 3) || decide (pErrLimit A = 0) ||
    decide (50 < pModelUnc A)) 2 c 21 ++
  viol (decide (pTau A 0 < 5)) 2 c 17 ++
  ((stepsBad (fun a b => decide (b ≤ a)) 0 [pTau A 0, pTau A 1, pTau A 2]).map fun i => (2, c, 17 + i)) ++
  ((List.range 8).flatMap fun k => let p := soa.getD k { vds := 0, imax := 0, derate := 0 }
    viol (decide (p.imax = 0) || decide (p.derate = 0) || decide (256 < p.derate)) 2 c (22 + k / 2)) ++
  viol (decide ((soa.getD 0 { vds := 0, imax := 0, derate := 0 }).vds ≠ 0)) 2 c 22 ++
  viol (decide ((soa.getD 7 { vds := 0, imax := 0, derate := 0 }).vds < 750)) 2 c 25 ++
  ((stepsBad (fun (a b : SoaPoint) => decide (b.vds ≤ a.vds) || decide (a.imax < b.imax) || decide (a.derate < b.derate)) 0 soa).map
    fun k => (2, c, 22 + k / 2)) ++
  viol (decide (pIlimRun A ≠ 0) && decide (4 * (soa.getD 0 { vds := 0, imax := 0, derate := 0 }).imax < pIlimRun A)) 2 c 2

/-- Ranges of one channel section (15 R403, R404). -/
def chanRange (b : Book) (c : Nat) : List Place :=
  let A := profOnly (bookProf b c)
  let tw := profWord A 11
  let rw_ := profWord A 16
  viol (decide (fld (profWord A 0) 55 9 ≠ c) || decide (pRshunt A < 500) || decide (5000 < pRshunt A) || decide (pSched A = 0) ||
    (decide (pSched A ≠ 1) && (bookMap b).all fun e => e.id != pSched A)) 2 c 0 ++
  viol (lifeBad (profWord A 1)) 2 c 1 ++ firingViol A c ++
  viol (decide (tripCode tw = 0) || decide (fld tw 46 2 = 3) || decide (tripPshort tw = 0) || decide (fld tw 22 12 = 0)) 2 c 11 ++
  ((curvePoints (pPoints A)).map fun k => (2, c, 12 + k / 2)) ++ viol (curveHigh A (pPoints A)) 2 c 0 ++
  viol (decide (fld rw_ 52 8 = 0) || decide (7 < fld rw_ 48 4) || decide (fld rw_ 40 8 = 0) || decide (fld rw_ 38 2 ≠ 0)) 2 c 16 ++
  coneViol A c ++ viol (spyBad (pSpyI A) false) 2 c 26 ++ viol (spyBad (pSpyV A) true) 2 c 27

/-- Slot words (02 R45). -/
def slotRange (b : Book) : List Place :=
  (List.range 128).flatMap fun n =>
    let w := bookSlot b n
    viol (bitOf w 6 && (decide (63 < fld w 10 6 + fld w 7 3) || decide (fld w 16 8 < 2) || decide (250 < fld w 16 8))) 1 0 n

/-- Twin entries against the sections of their channels (04 R117). -/
def twinRange (b : Book) (t : Nat) (ws : List (BitVec 64)) : List Place :=
  let w := ws.getD 0 0
  if !bitOf w 45 then []
  else
    let pts := pointsOf (ws.drop 1)
    let own (c : Nat) : List Place :=
      if (secOf b 2 c).isNone then []
      else
        let A := profOnly (bookProf b c)
        ((List.range 8).flatMap fun k => viol (decide (((pPoints A).getD k (0, 0)).1 < (pts.getD k (0, 0)).1)) 2 c (12 + k / 2)) ++
          viol (curveHigh A pts) 2 c 0 ++ viol (decide (pIlimRun A ≠ 0) && decide (pIlimRun A < ((pPoints A).getD 0 (0, 0)).1)) 2 c 2
    viol (decide (fld w 41 4 = 0)) 3 0 (5 * t) ++ ((curvePoints pts).map fun k => (3, 0, 5 * t + 1 + k / 2)) ++
      own (fld w 55 9) ++ own (fld w 46 9)

/-- Feed words (08 R204; 07 R183). -/
def feedRange (b : Book) (h : Nat) : List Place :=
  let w0 := bookFeed b h 0
  let w1 := bookFeed b h 1
  let feeds := fld w0 60 2
  viol (decide (fld w0 62 2 = 3) || decide (fld w0 55 5 = 0) || decide (20 < fld w0 55 5) || decide (fld w0 47 8 = 0) ||
    decide (fld w0 13 10 = 0) || decide (fld w0 5 8 = 0) ||
    (decide (feeds = 1) && decide (fld w0 62 2 = 1)) || (decide (feeds = 2) && decide (fld w0 62 2 = 0))) 4 h 0 ++
  viol (decide (fld w1 57 7 = 0) || decide (64 < fld w1 57 7) || decide (fld w1 36 8 = 0) || decide (fld w1 34 2 = 3)) 4 h 1 ++
  viol (spyBad (bookFeed b h 2) false) 4 h 2 ++ viol (spyBad (bookFeed b h 3) false) 4 h 3

/-- A housekeeping entry's own ranges (06 R168, R179). -/
def hkEntryBad (w : BitVec 64) : Bool :=
  decide (94 < eInput w + eSpan w) || (decide (eMode w = 0) && decide (eSpan w ≠ 0)) || decide (eMode w = 3) || decide (1 < fld w 47 2) ||
    decide (eAcq w < 4) || decide (9 < eEvt w) || (!eUrgent w && decide (eEvt w ≠ 0)) || decide (6 < eOwner w) ||
    (decide (eInput w = 72) && decide (387 < eSel w)) || (decide (73 ≤ eInput w) && decide (eInput w ≤ 75) && decide (63 < eSel w)) ||
    (decide (eEvt w = 2) && decide (63 < eSel w))

/-- An entry in the wrong part of the sequence (06 R179). -/
def hkPlaceBad (last i : Nat) (w : BitVec 64) : Bool :=
  (eUrgent w && (decide (i ≤ last) || decide (eMode w ≠ 0))) || (!eUrgent w && decide (last < i) && decide (eOwner w ≠ 0))

/-- Hearths whose housekeeping block is judged: those with the section, and those with configured channels. -/
def hkJudged (b : Book) (h : Nat) : Bool := (secOf b 5 h).isSome || (bookChans b).any fun c => c / 64 == h

/-- TSNS_MODE of a local channel of a hearth in a Book; 0 when not configured. -/
def bookTsns (b : Book) (h k : Nat) : Nat := match secOf b 2 (64 * h + k) with | none => 0 | some _ => pTsnsMode (profOnly (bookProf b (64 * h + k)))

/-- Housekeeping ranges (06 R165, R179). -/
def hkRange (b : Book) (h : Nat) : List Place :=
  if !hkJudged b h then []
  else
    let cw := bookHkControl b h
    let last := fld cw 31 5
    viol (decide (9 < fld cw 44 4)) 5 h 0 ++
    ((List.range 32).flatMap fun i => viol (hkEntryBad (bookHkEntry b h i)) 5 h (1 + i) ++
      viol (hkPlaceBad last i (bookHkEntry b h i)) 5 h 0) ++
    (if (List.range 64).any fun k => bookTsns b h k == 2 then
      (stepsBad (fun (x y : BitVec 16) => decide (x.toInt ≤ y.toInt)) 0 (bookNtc b h)).map fun j => (5, h, 33 + j / 4) else [])

/-- The spyhole word that a capture source names, and where it stands (07 R181, R192). -/
def sourceWord (b : Book) (h n : Nat) : BitVec 64 × List Place :=
  if n < 128 then
    let c := 64 * h + n % 64
    match secOf b 2 c with
    | none => (0, [])
    | some _ => (profWord (profOnly (bookProf b c)) (if n < 64 then 26 else 27), [(2, c, if n < 64 then 26 else 27)])
  else (bookFeed b h (n - 126), if (secOf b 4 h).isSome then [(4, h, n - 126)] else [])

/-- Capture bindings (07 R192). -/
def captureRange (b : Book) (h : Nat) : List Place :=
  (List.range 16).flatMap fun i =>
    let w := bookCapture b h i
    let n := fld w 8 8
    viol (decide (129 < n)) 6 h i ++
    (if !bitOf w 4 || decide (129 < n) then []
     else viol (decide (fld w 5 3 = 0)) 6 h i ++
       (let q := sourceWord b h n
        if bitOf q.1 31 then [] else (lowest ((6, h, i) :: q.2)).toList))

/-- Time, pair, facility and schedule-map ranges (12 R308; 13 R333; 14 R376; 15 R402). -/
def otherRange (b : Book) : List Place :=
  let tw := bookTime b
  let pw := bookPair b
  viol (decide (fld tw 32 12 = 0) || decide (fld tw 20 12 = 0)) 7 0 0 ++
  viol (bitOf pw 63 && (decide (fld pw 34 8 = 0) || decide (fld pw 25 8 = 0))) 8 0 0 ++
  ((List.range (bookFacility b).length).flatMap fun i => let w := (bookFacility b).getD i 0
    viol (decide (fld w 48 16 ≠ 0) && decide (fld w 32 16 = 0)) 10 0 i) ++
  viol (decide (63 < (bookFacility b).length)) 10 0 63 ++
  ((List.range (bookMap b).length).flatMap fun i =>
    match (bookMap b)[i]? with
    | none => []
    | some e => viol (decide (e.id = 0) || (decide (e.id = 1) != decide (e.kind = 1)) || (decide (e.kind ≠ 1) && decide (e.kind ≠ 0x80)) ||
        decide (1048576 < e.off + e.len)) 11 0 (8 * i))

/-- Check 3 as a whole (15 R404). -/
def rangeViol (b : Book) : List Place :=
  slotRange b ++ (bookChans b).flatMap (chanRange b) ++ (bookTwins b).flatMap (fun q => twinRange b q.1 q.2) ++
    (List.range 8).flatMap (feedRange b) ++ (List.range 8).flatMap (hkRange b) ++ (List.range 8).flatMap (captureRange b) ++ otherRange b

/-! Check 4: ownership of shared resources. -/

/-- The channels an enabled slot names (02 R44). -/
def slotNamed (b : Book) (n : Nat) : List Nat :=
  let w := bookSlot b n
  if bitOf w 6 then (List.range (fld w 7 3 + 1)).map fun i => 64 * (n / 16) + fld w 10 6 + i else []

/-- The enabled slot that names a channel. -/
def slotFor (b : Book) (c : Nat) : Option Nat := ((List.range 16).map (· + 16 * (c / 64))).find? fun n => (slotNamed b n).contains c

/-- PG_BALL of a configured channel (02 R59). -/
def pgBall (b : Book) (c : Nat) : Bool := (secOf b 2 c).isSome && bitOf (profWord (profOnly (bookProf b c)) 1) 46

/-- Slot ownership (02 R45; 07 R200). -/
def slotConflict (b : Book) : List Place :=
  (List.range 128).flatMap fun n =>
    viol (((List.range 128).filter fun m => decide (n < m) && decide (m / 16 = n / 16)).any fun m =>
      (slotNamed b n).any fun c => (slotNamed b m).contains c) 1 0 n ++
    viol (decide (2 ≤ ((slotNamed b n).filter (pgBall b)).length)) 1 0 n

/-- A fixed channel with PG_BALL (07 R200). -/
def fixedBall (b : Book) : List Place := (bookChans b).flatMap fun c => viol (pgBall b c && (slotFor b c).isNone) 2 c 1

/-- Enabled twin entries, with the channels they name. -/
def twinNamed (b : Book) : List (Nat × Nat × Nat) :=
  (bookTwins b).filterMap fun q => let w := q.2.getD 0 0
    if bitOf w 45 then some (q.1, fld w 55 9, fld w 46 9) else none

/-- Twin ownership (04 R117). -/
def twinConflict (b : Book) : List Place :=
  (twinNamed b).flatMap fun q =>
    viol (decide (q.2.1 / 64 = q.2.2 / 64) || (twinNamed b).any fun r => decide (q.1 < r.1) &&
      ([r.2.1, r.2.2].contains q.2.1 || [r.2.1, r.2.2].contains q.2.2)) 3 0 (5 * q.1)

/-- Inputs that an owner may use (06 R170). -/
def ownerInputs : Nat → Nat × Nat
  | 1 => (64, 64) | 2 => (0, 63) | 3 => (64, 71) | 4 => (72, 72) | 5 => (64, 94) | 6 => (64, 94)
  | _ => (0, 94)

/-- The range of an entry; STEP on input 72 ignores SPAN (06 R171). -/
def entryRange (w : BitVec 64) : Nat × Nat :=
  (eInput w, if eMode w = 0 ∨ (eMode w = 1 ∧ eInput w = 72) then eInput w else eInput w + eSpan w)

/-- An entry whose range covers an input that its owner may not use (06 R179). -/
def ownerBad (w : BitVec 64) : Bool :=
  let r := entryRange w
  decide (eOwner w ≠ 0) && (decide (r.1 < (ownerInputs (eOwner w)).1) || decide ((ownerInputs (eOwner w)).2 < r.2))

/-- Housekeeping ownership (06 R179). -/
def hkConflict (b : Book) (h : Nat) : List Place :=
  if !hkJudged b h then []
  else
    let cone := (List.range 32).filter fun i => eOwner (bookHkEntry b h i) == 2
    let r (i : Nat) : Nat × Nat := entryRange (bookHkEntry b h i)
    ((List.range 32).flatMap fun i => viol (ownerBad (bookHkEntry b h i)) 5 h (1 + i)) ++
    cone.flatMap fun i => viol (cone.any fun j => decide (i < j) && decide ((r i).1 ≤ (r j).2) && decide ((r j).1 ≤ (r i).2)) 5 h (1 + i)

/-- Capture ownership (07 R192). -/
def captureConflict (b : Book) (h : Nat) : List Place :=
  (List.range 16).flatMap fun i =>
    let w := bookCapture b h i
    viol (bitOf w 4 && (List.range 16).any fun j => let v := bookCapture b h j
      decide (i < j) && bitOf v 4 && decide (fld v 8 8 = fld w 8 8) &&
        decide (w &&& v &&& 0xE0 ≠ 0)) 6 h i

/-- WARN_N ownership (08 R204). -/
def warnConflict (b : Book) (h : Nat) : List Place :=
  let w := bookFeed b h 1
  viol ((decide (fld w 34 2 = 2) && decide (fld w 26 8 ≠ 0)) || (decide (fld w 34 2 = 1) && !bitOf w (26 + h))) 4 h 1

/-- Ledger entries and the pair address (14 R376; 13 R333). An entry whose KEEPER a device outside every Works may not accept stands with
them (log entry 21). -/
def ledgerConflict (b : Book) : List Place :=
  let fs := bookFacility b
  let w0 := bookWorks b 0
  ((List.range fs.length).flatMap fun i =>
    let w := fs.getD i 0
    viol (decide (fld w 48 16 ≠ 0) && (decide (fld w 21 11 = fld w 10 11) ||
      (!bitOf w0 63 && decide (fld w 21 11 ≠ fld w0 52 11)) ||
      (List.range fs.length).any fun j => decide (i < j) && decide (fld (fs.getD j 0) 48 16 = fld w 48 16))) 10 0 i) ++
  viol (bitOf (bookPair b) 63 && decide (fld (bookPair b) 51 11 = fld w0 52 11)) 8 0 0

/-- Check 4 as a whole (15 R404, R405). -/
def conflictViol (b : Book) : List Place :=
  slotConflict b ++ fixedBall b ++ twinConflict b ++ (List.range 8).flatMap (hkConflict b) ++ (List.range 8).flatMap (captureConflict b) ++
    (List.range 8).flatMap (warnConflict b) ++ ledgerConflict b

/-! Check 5: completeness. -/

/-- The WARN_N balls that carry a group's warnings (08 R219). -/
def warnReached (b : Book) (g : Nat) : Bool :=
  (List.range 8).any fun h => let w := bookFeed b h 1
    (decide (fld w 34 2 = 0) && decide (h = g)) || (decide (fld w 34 2 = 1) && bitOf w (26 + g))

/-- Feed groups (07 R183; 08 R204; 14 R376). -/
def feedMissing (b : Book) (h : Nat) : List Place :=
  let w0 := bookFeed b h 0
  let feeds := fld w0 60 2
  let spy (f : Nat) : List Place :=
    let y := bookFeed b h (2 + f)
    viol (decide (feeds / 2 ^ f % 2 = 1) && (!bitOf y 31 || decide (fld y 54 10 = 0))) 4 h (if bitOf y 31 then 0 else 2 + f)
  let ledger (e : Nat) : Bool := decide (e ≠ 0x3F) && decide (fld ((bookFacility b).getD e 0) 48 16 = 0)
  viol (decide (feeds = 0) && (bookChans b).any fun c => c / 64 == h) 4 h 0 ++
  viol (decide (feeds ≠ 0) && decide (fld (bookFeed b h 1) 44 13 = 0)) 4 h 0 ++ spy 0 ++ spy 1 ++
  viol (decide (feeds ≠ 0) && !warnReached b h) 4 h 0 ++
  viol ((secOf b 4 h).isSome && (ledger (fld (bookFeed b h 4) 10 6) || ledger (fld (bookFeed b h 4) 4 6))) 4 h 4

/-- Housekeeping blocks (05 R138; 06 R179). -/
def hkMissing (b : Book) (h : Nat) : List Place :=
  if !hkJudged b h then []
  else
    let es := (List.range 32).map (bookHkEntry b h)
    viol (((bookChans b).any fun c => c / 64 == h) && !(es.any fun w => eOwner w == 1 && eInput w == 64)) 5 h 1 ++
    ((List.range 64).flatMap fun k => viol (bookTsns b h k != 0 &&
      !(es.any fun w => eOwner w == 2 && decide ((entryRange w).1 ≤ k) && decide (k ≤ (entryRange w).2))) 2 (64 * h + k) 21) ++
    viol (!(es.any fun w => eOwner w == 4 && eMode w == 1 && eInput w == 72)) 5 h 1 ++
    viol (decide (fld (bookHkControl b h) 48 16 = 0) && decide (fld (bookHkControl b h) 44 4 = 0)) 5 h 0

/-- Check 5 as a whole (15 R404). -/
def missingViol (b : Book) : List Place :=
  let tw := bookTime b
  let w0 := bookWorks b 0
  ((twinNamed b).flatMap fun q => viol ((secOf b 2 q.2.1).isNone || (secOf b 2 q.2.2).isNone) 3 0 (5 * q.1)) ++
    (List.range 8).flatMap (feedMissing b) ++ (List.range 8).flatMap (hkMissing b) ++
    viol (bitOf tw 62 && !bitOf tw 63) 7 0 0 ++
    viol (bitOf w0 63 && (decide (fld w0 16 32 = 0) || decide (fld w0 48 4 = 0))) 9 0 0

/-! Check 6: housekeeping timing. -/

/-- Conversions of one TSNS input by its mode: three for a diode, none without a sensor (06 R164). -/
def tsnsConvs (mode : Nat) : Nat := match mode with | 1 => 3 | 0 => 0 | _ => 1

/-- Conversions of an input. -/
def inputConvs (tsns : Nat → Nat) (i : Nat) : Nat := if i < 64 then tsnsConvs (tsns i) else 1

/-- Time of one pass of an entry in ns at worst (06 R162, R171). -/
def entryNs (tsns : Nat → Nat) (w : BitVec 64) : Nat :=
  let one := 100 * eAcq w + 600
  let r := entryRange w
  let convs := (List.range (r.2 + 1 - r.1)).map fun i => inputConvs tsns (r.1 + i)
  if eOwner w = 0 then 0
  else match eMode w with
  | 0 => one * inputConvs tsns (eInput w)
  | 1 => one * convs.foldl max 0
  | _ => one * convs.sum

/-- Start of each normal entry in a worst-case pass, and its end. -/
def passTimes (tsns : Nat → Nat) : Nat → List (BitVec 64) → List (Nat × BitVec 64) × Nat
  | t, [] => ([], t)
  | t, w :: r => let q := passTimes tsns (t + entryNs tsns w) r
                 ((t, w) :: q.1, q.2)

/-- The largest gap between successive apertures, the first of the next pass included. Without apertures there is none. -/
def worstGap (period : Nat) : List Nat → Nat
  | [] => 0
  | a :: r =>
    let rec go : Nat → List Nat → Nat
      | last, [] => period + a - last
      | last, b :: t => max (b - last) (go b t)
    go a r

/-- Active TSNS inputs of a range. -/
def activeIn (tsns : Nat → Nat) (r : Nat × Nat) : Nat := ((List.range 64).filter fun k => decide (r.1 ≤ k) && decide (k ≤ r.2) && tsns k != 0).length

/-- The timing checks of R179 on a sequence. -/
def hkTimingBad (control : BitVec 64) (entries : List (BitVec 64)) (tsns : Nat → Nat) : Bool :=
  let period := 1000 * fld control 48 16
  if period = 0 then false
  else
    let q := passTimes tsns 0 (entries.take (fld control 31 5 + 1))
    let sit := (q.1.filter fun x => eOwner x.2 == 1 && eInput x.2 == 64).map fun x => x.1 + 100 * eAcq x.2
    let late (k : Nat) : Bool := tsns k != 0 && !(q.1.any fun x => eOwner x.2 == 2 && decide ((entryRange x.2).1 ≤ k) &&
      decide (k ≤ (entryRange x.2).2) && decide ((if eMode x.2 = 1 then activeIn tsns (entryRange x.2) else 1) * period ≤ 5000000))
    decide (period ≤ q.2) || decide (16000 < worstGap period sit) || (List.range 64).any late

/-- Check 6 (15 R404). -/
def timingViol (b : Book) : List Place :=
  (List.range 8).flatMap fun h =>
    viol (hkJudged b h && hkTimingBad (bookHkControl b h) ((List.range 32).map (bookHkEntry b h)) (bookTsns b h)) 5 h 0

/-- Checks 3 to 6 in their order. -/
def bookChecks (b : Book) : Option BookErr :=
  match lowest (rangeViol b) with
  | some p => some ⟨0x303, some p⟩
  | none => match lowest (conflictViol b) with
    | some p => some ⟨0x304, some p⟩
    | none => match lowest (missingViol b) with
      | some p => some ⟨0x305, some p⟩
      | none => (lowest (timingViol b)).map fun p => ⟨0x306, some p⟩

end Sys2Proof.Machine
end

