-- ==== Sys2Proof/Machine/Claims.lean ====
section
/-! DEFINITION. A hearth's upstream ports and its claim: silence, Saggar hold, claims, release, hearth fault, hearth reset, release flag
(01 R27, R510; 11 R298, R299, R303; 13 R344 to R351; 15 R396). -/
namespace Sys2Proof.Machine
open Sys2Proof

/-- Code of a port (13 R345). -/
def portCode : Port → Nat
  | .loc => 0 | .cross => 1

/-- The port has been silent for at least 5 µs: 20 ticks (01 R27). -/
def portSilent (H : HearthSt) (p : Port) : Bool := match p with | .loc => decide (20 ≤ H.silentL) | .cross => decide (20 ≤ H.silentX)

/-- A CRC-valid frame other than ACK and IDLE has completed on a port: the port is not silent (01 R27), and the frame is the latest received
in order (01 R20). -/
def controlFrame (s : State) (h : Nat) (p : Port) : State :=
  s.updHearth h fun H => match p with
    | .loc => { H with silentL := 0, frameL := true, rxL := H.rxL + 1 }
    | .cross => { H with silentX := 0, frameX := true, rxX := H.rxX + 1 }

/-- SAGGAR_HOLD_ENTRY: the holding port has been silent for 5 µs (01 R27). -/
def saggarHoldEntry (h : Hearth) (s : State) : State :=
  let H := s.hearth h
  if H.held && portSilent H H.holder && !H.saggar then enterSaggar s h else s

def execSaggarHoldEntry (h : Hearth) (s : State) : Host.Outcome State Fault Refusal := .next (saggarHoldEntry h s)

/-- EV_CLAIM: port, claim number, previous claim in force, outcome (13, event codes). -/
def stampClaim (s : State) (h : Nat) (p : Port) (num prev : BitVec 32) (outcome : Nat) : State :=
  stampNow s h (srcHearth h) 0x1604 [(8, portCode p), (32, num.toNat), (32, prev.toNat), (8, outcome)]

/-- Why a claim is refused, none when it is admitted (13 R348). -/
def claimRefusal (H : HearthSt) (p : Port) (num : BitVec 32) : Option Nat :=
  if H.fault then some 1
  else if H.claim.toNat / 2 = 0x7FFFFFFF then some 2
  else if num.toNat ≤ H.claim.toNat then some 3
  else if H.held ∧ H.holder ≠ p ∧ !portSilent H H.holder then some 4
  else none

/-- The event records still unacknowledged on a port (12 R325). -/
def unackedRecs (H : HearthSt) (p : Port) : List EventRec :=
  let l : List ReplayFrame := match p with | .loc => H.replayL | .cross => H.replayX
  l.flatMap (·.events)

/-- The other upstream port. -/
def otherPort : Port → Port
  | .loc => .cross | .cross => .loc

/-- Judge a CLAIM frame (13 R348, R349): a renewal takes the number at once; another admitted claim sets the holder and ADMITTING, with
the hearth kept in Saggar hold and the records unacknowledged on the old port sent first (12 R325). -/
def judgeClaim (s : State) (h : Nat) (p : Port) (num : BitVec 32) : State :=
  let H := s.hearth h
  match claimRefusal H p num with
  | some r =>
    let s := stampClaim s h p num H.claim r
    s.updHearth h fun H => match p with
      | .loc => { H with refusedL := some (BitVec.ofNat 4 r) }
      | .cross => { H with refusedX := some (BitVec.ofNat 4 r) }
  | none =>
    if H.held ∧ H.holder = p then stampClaim (s.updHearth h fun H => { H with claim := num }) h p num H.claim 0
    else
      let s := if H.saggar then s else enterSaggar s h
      let s := s.updHearth h fun H =>
        let old := unackedRecs H (otherPort p)
        let H := { H with
          claim := num, held := true, holder := p, admitting := true, admitTicks := 0, firstOut := H.firstOut ++ old }
        match p with
        | .loc => { H with replayX := [] }
        | .cross => { H with replayL := [] }
      stampClaim s h p num H.claim 0

/-- CLAIM_FRAME: judged at the end of the tick in which the frame completes (13 R348). -/
def claimFrame (h : Hearth) (port : Port) (num : BitVec 32) (s : State) : State :=
  if (s.hearth h).logic then judgeClaim (controlFrame s h port) h port num else s

def execClaimFrame (h : Hearth) (port : Port) (num _claimant : BitVec 32) (s : State) : Host.Outcome State Fault Refusal :=
  .next (claimFrame h port num s)

/-- The number with which this device claims a hearth: from the highest number it knows and its SIDE (13 R344). -/
def nextClaim (known : BitVec 32) (side : Nat) : BitVec 32 := BitVec.ofNat 32 ((known.toNat / 2 + 1) * 2 + side)

/-- SIDE of this device, from the pair word (13 R333). -/
def pairSide (s : State) : Nat := fld s.pair.word 62 1

/-- The larger of two words. -/
def maxWord (a b : BitVec 32) : BitVec 32 := if a.toNat < b.toNat then b else a

/-- This device's Crown claims an own hearth on its local port, numbered from the highest claim that it knows: the one in force, or that of
the latest hearth-state block (13 R344, 15 R395). -/
def claimOwn (s : State) (h : Nat) : State :=
  let H := s.hearth h
  let known := maxWord H.claim (BitVec.ofNat 32 (fld (tabGet (0 : BitVec 64) s.hblocks h) 32 32))
  if H.logic then judgeClaim (controlFrame s h .loc) h .loc (nextClaim known (pairSide s)) else s

/-- The new controller's Sitter after a Held channel left Held: A at the larger of its value and F; a channel left for Seated needs
consent again (02 R68, 04 R107). -/
def acceptChannel (s : State) (c : Nat) : State :=
  let was := (s.cell c).state
  let s := releaseChannel s c
  let C := s.cell c
  if was = .held ∧ (s.hearth (hOf c)).holder = .loc then
    s.updChan c fun A => { A with
      a := max A.a C.f, commanded := C.state, obs := C.state, dwell := 0, decay := 0
      consented := if C.state = .seated ∨ C.state = .vacant then false else A.consented
      waitStamped := if C.state = .seated then false else A.waitStamped }
  else s

/-- CLAIM_ACCEPTANCE: at the end of the fourth tick after the judging tick, unless in hearth fault (13 R349): Saggar hold ends, and
each Held channel leaves Held (02 R68). -/
def claimAcceptance (h : Hearth) (s : State) : State :=
  let H := s.hearth h
  if H.admitting ∧ 4 ≤ H.admitTicks ∧ !H.fault then
    let s := s.updHearth h fun H => { H with admitting := false, saggar := false, admitTicks := 0 }
    let s := stampClaim s h H.holder H.claim H.claim 0x10
    let s := stampNow s h (srcHearth h) 0x1403 [(8, 0), (32, H.claim.toNat)]
    forEach (List.range 64) (fun s k => acceptChannel s (64 * h + k)) s
  else s

def execClaimAcceptance (h : Hearth) (s : State) : Host.Outcome State Fault Refusal := .next (claimAcceptance h s)

/-- Source of a lane's hearth end: of a hearth lane, or of the cross-out lane (12 R318). -/
def laneHSrc (h : Nat) (p : Port) (lane : Nat) : Nat := match p with | .loc => srcLaneH (2 * h + lane) | .cross => srcLaneH (32 + h)

/-- A frame discarded at a hearth is counted on the lane's hearth end; what the header holds is a free value (11 R288, 17 R464). -/
def discardAtHearth (s : State) (h : Nat) (p : Port) (lane code cause : Nat) : State :=
  let (a, s) := s.freshFree
  let (b, s) := s.freshFree
  stampError s h (laneHSrc h p lane) code (a % 2 ^ 32 + 2 ^ 32 * (b % 2 ^ 32) + 2 ^ 64 * cause)

/-- RELEASE at a hearth (13 R350). -/
def releaseHearth (s : State) (h : Nat) (p : Port) (num : BitVec 32) (lane : Nat) : State :=
  let H := s.hearth h
  if H.held ∧ H.holder = p ∧ H.claim = num then
    let s := if H.saggar then s else enterSaggar s h
    let s := s.updHearth h fun H => { H with held := false, admitting := false, admitTicks := 0 }
    stampNow s h (srcHearth h) 0x1605 [(8, portCode p), (32, num.toNat)]
  else discardAtHearth s h p lane 0x102 4

/-- RELEASE_FRAME: a RELEASE from the holder ends the hold; any other is discarded and counted (13 R350). -/
def releaseFrame (h : Hearth) (port : Port) (num : BitVec 32) (lane : Fin 2) (s : State) : State :=
  if (s.hearth h).logic then releaseHearth (controlFrame s h port) h port num lane else s

def execReleaseFrame (h : Hearth) (port : Port) (num : BitVec 32) (lane : Fin 2) (s : State) : Host.Outcome State Fault Refusal :=
  .next (releaseFrame h port num lane s)

/-- HEARTH_FAULT_DETECTED (11 R298, R299): the channels enter Held; those whose protection words failed are discharged with FALLBACK
and IN_HELD latched. -/
def hearthFaultDetected (h : Hearth) (failed : BitVec 64) (detail : BitVec 32) (s : State) : State :=
  let H := s.hearth h
  if H.fault then s
  else
    let s := s.updHearth h fun H => { H with fault := true, faultPort := H.holder }
    let s := stampNow s h (srcHearth h) 0x1402 [(32, detail.toNat)]
    let k := ((List.range 64).find? fun k => bitOf failed k).getD 0xFF
    let s := stampError s h (srcHearth h) 0x217 (detail.toNat % 256 + 2 ^ 32 * k)
    let s := forEach (List.range 64) (fun s k => holdChannel s (64 * h + k)) s
    forEach ((List.range 64).filter fun k => bitOf failed k) (fun s k =>
      s.updCell (64 * h + k) fun C => { discharge C false with pg := false, heldGood := false, tripReg := C.tripReg ||| 0x480 }) s

def execHearthFaultDetected (h : Hearth) (failed : BitVec 64) (detail : BitVec 32) (s : State) : Host.Outcome State Fault Refusal :=
  .next (hearthFaultDetected h failed detail s)

/-- One channel at a hearth reset (11 R303): gate discharged, trip register, envelope, IG_REG and last words cleared; Seated or Vacant
as 02 R69 decides, Vacant before the release flag. -/
def hearthResetChannel (s : State) (c : Nat) : State :=
  let x : ChState := if (s.hearth (hOf c)).released ∧ seatedOrFixed s c ∧ (s.cell c).configured then .seated else .vacant
  let s := s.updCell c fun C => { discharge C false with
    pg := false, pgDropped := false, iset := 0, tripReg := 0xF000, tickCauses := 0, sub := 0, undo := none, igReg := 1, env := {}, envWait := none
    kept := none, refused := false, lastRefused := none, refusals := 0, heldTrip := false, heldGood := false, asked := none }
  enterState s c x .hearth

/-- A hearth reset (11 R303; 01 R510; 08 R509; 07 R185, R186): afterwards no port holds a claim, and the hearth is in Saggar hold. -/
def hearthReset (s : State) (h : Nat) : State :=
  let s := groupReset s h
  let s := forEach (List.range 64) (fun s k => hearthResetChannel s (64 * h + k)) s
  let s := s.updHearth h fun H => { H with
    fault := false, replayL := [], replayX := [], lostFrames := [], held := false, admitting := false, admitTicks := 0 }
  let s := if (s.hearth h).saggar then forEach (List.range 64) (fun s k => holdChannel s (64 * h + k)) s else enterSaggar s h
  let s := s.updHearth h fun H => { H with claim := 0 }
  let s := s.updHk h fun K => { K with steps := [] }
  let s := forEach (List.range 16) (fun s i => s.updCapture (16 * h + i) captureClear) s
  forEach (List.range 130) (fun s n => spyStart s (130 * h + n)) s

/-- Whether a hearth takes a write of its reset register from a port (11 R299, R305): from the holder of an accepted claim; in hearth
fault from the port that held the claim when it arose, or from the other once that one has been silent for 5 µs. -/
def takesReset (H : HearthSt) (p : Port) : Bool :=
  if H.fault then decide (H.faultPort = p) || portSilent H H.faultPort else obeys H p

/-- The release flag (15 R396; 02 R47): slots seated before Draw report EV_SEAT with the time of their debounce, and the debounced and
fixed channels enter Seated. A debounce kept over a device reset (11 R303) has had its EV_SEAT and is not reported again (DESIGN CHOICE, log
entry 174). -/
def releaseFlag (s : State) (h : Nat) : State :=
  if (s.hearth h).released then s
  else
    let s := s.updHearth h fun H => { H with released := true }
    let s := forEach (List.range 16) (fun s i =>
      let n := 16 * h + i
      match (s.slot n).doneAt with
      | some t =>
        let s := stampSeat (s.updSlot n fun S => { S with doneAt := none }) n t
        seatChannels s n 0
      | none => s) s
    forEach (List.range 64) (fun s k =>
      let C := s.cell (64 * h + k)
      if C.configured ∧ seatedOrFixed s (64 * h + k) ∧ C.state = .vacant then enterState s (64 * h + k) .seated .hearth else s) s

end Sys2Proof.Machine
end

