-- ==== Sys2Proof/Machine/Frames.lean ====
section
/-! DEFINITION. Frames that reach a hearth: command words, PARAM writes, TICK, ACK, IDLE and discarded frames; and the hearth lanes
(01 R18 to R27; 09 R235 to R242; 12 R313 to R315; 11 R303). -/
namespace Sys2Proof.Machine
open Sys2Proof

/-- A CMD frame names a tick that the hearth has closed by more than 2 ticks (01 R23). The 12-bit number wraps: a tick counts as past for
distances up to 2,047, and as still to come beyond (DESIGN CHOICE, log entry 51). -/
def staleTick (H : HearthSt) (tick : BitVec 12) : Bool :=
  let d := (H.tick + 4096 - tick.toNat) % 4096
  decide (2 < d) && decide (d < 2048)

/-- One command word of a CMD frame (01 R23, 09 R235), judged by the envelope. A stale frame is counted once, with its first word: `cont` says
that the word goes on with the frame of the word before. -/
def cmdFrame (s : State) (h : Nat) (p : Port) (k code : Nat) (lo tick : BitVec 12) (cont : Bool) : State :=
  if !(s.hearth h).logic then s
  else
    let s := if cont then s else controlFrame s h p
    let H := s.hearth h
    if obeys H p then
      let s := if staleTick H tick && !cont then stampError s h (srcHearth h) 0x104 (tick.toNat + 2 ^ 32 * (H.tick % 2 ^ 32)) else s
      hearthReceive s (64 * h + k) p (BitVec.ofNat 16 (code * 4096 + lo.toNat))
    else s

def execCmdKeep (h : Hearth) (port : Port) (k : Local) (lo tick : BitVec 12) (cont : Bool) (s : State) :
    Host.Outcome State Fault Refusal :=
  .next (cmdFrame s h port k 0 lo tick cont)
def execCmdReady (h : Hearth) (port : Port) (k : Local) (lo tick : BitVec 12) (cont : Bool) (s : State) :
    Host.Outcome State Fault Refusal :=
  .next (cmdFrame s h port k 1 lo tick cont)
def execCmdRamp (h : Hearth) (port : Port) (k : Local) (lo tick : BitVec 12) (cont : Bool) (s : State) :
    Host.Outcome State Fault Refusal :=
  .next (cmdFrame s h port k 2 lo tick cont)
def execCmdFull (h : Hearth) (port : Port) (k : Local) (lo tick : BitVec 12) (cont : Bool) (s : State) :
    Host.Outcome State Fault Refusal :=
  .next (cmdFrame s h port k 3 lo tick cont)
def execCmdGood (h : Hearth) (port : Port) (k : Local) (lo tick : BitVec 12) (cont : Bool) (s : State) :
    Host.Outcome State Fault Refusal :=
  .next (cmdFrame s h port k 4 lo tick cont)
def execCmdCool (h : Hearth) (port : Port) (k : Local) (lo tick : BitVec 12) (cont : Bool) (s : State) :
    Host.Outcome State Fault Refusal :=
  .next (cmdFrame s h port k 5 lo tick cont)
def execCmdLock (h : Hearth) (port : Port) (k : Local) (lo tick : BitVec 12) (cont : Bool) (s : State) :
    Host.Outcome State Fault Refusal :=
  .next (cmdFrame s h port k 6 lo tick cont)
def execCmdOff (h : Hearth) (port : Port) (k : Local) (lo tick : BitVec 12) (cont : Bool) (s : State) :
    Host.Outcome State Fault Refusal :=
  .next (cmdFrame s h port k 7 lo tick cont)
def execCmdOn (h : Hearth) (port : Port) (k : Local) (lo tick : BitVec 12) (cont : Bool) (s : State) :
    Host.Outcome State Fault Refusal :=
  .next (cmdFrame s h port k 8 lo tick cont)
def execCmdReset (h : Hearth) (port : Port) (k : Local) (lo tick : BitVec 12) (cont : Bool) (s : State) :
    Host.Outcome State Fault Refusal :=
  .next (cmdFrame s h port k 9 lo tick cont)
def execCmdTrip (h : Hearth) (port : Port) (k : Local) (lo tick : BitVec 12) (cont : Bool) (s : State) :
    Host.Outcome State Fault Refusal :=
  .next (cmdFrame s h port k 10 lo tick cont)
def execCmdPgDrop (h : Hearth) (port : Port) (k : Local) (lo tick : BitVec 12) (cont : Bool) (s : State) :
    Host.Outcome State Fault Refusal :=
  .next (cmdFrame s h port k 11 lo tick cont)
def execCmdPgRaise (h : Hearth) (port : Port) (k : Local) (lo tick : BitVec 12) (cont : Bool) (s : State) :
    Host.Outcome State Fault Refusal :=
  .next (cmdFrame s h port k 12 lo tick cont)
/-- CMD_RESERVED: a command word of request code 0xD to 0xF, which the envelope refuses (09 R235, R240 row 2). -/
def execCmdReserved (h : Hearth) (port : Port) (k : Local) (code : Fin 3) (lo tick : BitVec 12) (cont : Bool) (s : State) :
    Host.Outcome State Fault Refusal :=
  .next (cmdFrame s h port k (13 + code.val) lo tick cont)

/-- A PARAM frame on a port: it ends silence, and acts when the hearth obeys the port (13 R349). -/
def paramFrame (s : State) (h : Nat) (p : Port) (f : State → State) : State :=
  if !(s.hearth h).logic then s
  else
    let s := controlFrame s h p
    if obeys (s.hearth h) p then f s else s

/-- PARAM_ENVELOPE_WRITE: taken in Vacant, Seated, Off and Locked, held in any other state (09 R242). -/
def writeEnvelope (s : State) (c : Nat) (env : EnvImage) : State :=
  s.updCell c fun C => if envState C.state then { C with env := env, envWait := none } else { C with envWait := some env }

def execParamEnvelopeWrite (h : Hearth) (port : Port) (k : Local) (env : EnvImage) (s : State) : Host.Outcome State Fault Refusal :=
  .next (paramFrame s h port fun s => writeEnvelope s (64 * h.val + k.val) env)

/-- PARAM_IG_REG_WRITE (03 R508). -/
def execParamIgRegWrite (h : Hearth) (port : Port) (k : Local) (ig : BitVec 8) (s : State) : Host.Outcome State Fault Refusal :=
  .next (paramFrame s h port fun s => writeIgReg s (64 * h.val + k.val) ig)

/-- An event request at its hearth (09 R238; 12 R316, R320, R326): dropped requests first as an EV_GAP of cause 0x02, then the event at
the start of the deciding tick, TICK set. A source that is not of the hearth is not numbered there. -/
def numberRequest (s : State) (h : Nat) (q : EventReq) : State :=
  if srcHearthOf q.source.toNat ≠ some h then s
  else
    let s := if q.dropped = 0 then s else
      stampRec s h q.source.toNat 0x1001 (pay [(32, 0xFFFFFFFF), (32, q.dropped.toNat), (8, 2), (16, 0)]) 2 q.tickTime.toNat 8 false true
    stampRec s h q.source.toNat q.code.toNat q.payload 0 q.tickTime.toNat 8 false true

def execParamEventRequest (h : Hearth) (port : Port) (req : EventReq) (s : State) : Host.Outcome State Fault Refusal :=
  .next (paramFrame s h port fun s => numberRequest s h req)

/-- PARAM_HEARTH_RESET: a write of the hearth reset register (11 R299, R303, R305). When this device's claim was in force, it claims the hearth
again at once (01 R510); the partner's next claim is a frame of its own. -/
def paramHearthReset (h : Hearth) (port : Port) (s : State) : State :=
  if !(s.hearth h).logic then s
  else
    let s := controlFrame s h port
    let H := s.hearth h
    if !takesReset H port then s
    else
      let s := hearthReset s h
      if H.held ∧ H.holder = .loc then claimOwn s h else s

def execParamHearthReset (h : Hearth) (port : Port) (s : State) : Host.Outcome State Fault Refusal := .next (paramHearthReset h port s)

/-- A slot word written to a hearth (02 R44, R46, R47). The debounce runs on. A slot put out of use is no longer debounced seated or present. -/
def writeSlotWord (s : State) (n : Nat) (w : BitVec 32) : State :=
  s.updSlot n fun S =>
    if slotOn w then { S with word := w }
    else { S with word := w, seated := false, present := false, doneAt := none, debouncing := presHigh S }

/-- One write to a hearth's profile or configuration registers (01 R20; log entry 12). -/
def writeConfig (s : State) (h : Nat) (item : ConfigItem) : State :=
  match item with
  | .spyWord n w => s.updSpy (130 * h + n.val) fun y => { y with nextWord := some w }
  | .feedWords w0 w1 =>
    let s := s.updGroup h fun G => { G with word0 := w0, word1 := w1 }
    s.updHearth h fun H => { H with rampAllow := fld w1 57 7 }
  | .hkControl w => s.updHk h fun K => { K with control := w }
  | .hkEntry i w => s.updHk h fun K => { K with entriesNext := K.entriesNext ++ [(i.val, w)] }
  | .hkNtc ws => s.updHk h fun K => { K with ntc := ws }
  | .capture i w => s.updCapture (16 * h + i.val) fun C => { C with binding := w }
  | .captureRead i => captureRead s h i.val none
  | .slotWord i w => writeSlotWord s (16 * h + i.val) w
  | .cellWords k t l r => s.updCell (64 * h + k.val) fun C => { C with tripWord := t, lifeWord := l, rshunt := r.toNat, configured := true }
  | .release => releaseFlag s h
  | .feedSelect t => feedSelectWrite s h t
  | .feedClear f => feedClearWrite s h f
  | .warnOut low => s.updGroup h fun G => { G with warnOut := low }

def execParamConfigWrite (h : Hearth) (port : Port) (item : ConfigItem) (s : State) : Host.Outcome State Fault Refusal :=
  .next (paramFrame s h port fun s => writeConfig s h item)

/-- The end of holdover at a TICK frame of the holding port (12 R315): EV_TIME_RESYNC with the offset, the duration and the oscillator;
the throttle windows end with the step of the counter (07 R191). -/
def resync (s : State) (h : Nat) (p : Port) (tai : Nat) : State :=
  let H := s.hearth h
  let off : BitVec 32 := BitVec.ofInt 32 ((H.tai : Int) - tai)
  let s := throttleEnd s h
  let s := s.updHearth h fun H => { H with tai := tai, holdover := false, holdNs := 0, holdOscNs := 0 }
  stampNow s h (srcHearth h) 0x1005
    [(32, off.toNat), (32, (H.holdNs + H.holdOscNs) / 1000), (8, if H.holdOscNs = 0 then 0 else 1), (8, portCode p)]

/-- A lane of a hearth link. -/
def laneOf (H : HearthSt) (l : Fin 2) : LaneSt := if l = 0 then H.lane0 else H.lane1

/-- Change a lane of a hearth link. -/
def setLane (H : HearthSt) (l : Fin 2) (L : LaneSt) : HearthSt := if l = 0 then { H with lane0 := L } else { H with lane1 := L }

/-- The other lane. -/
def otherLane (l : Fin 2) : Fin 2 := if l = 0 then 1 else 0

/-- A TICK frame has come on a lane of the hearth (01 R24). -/
def seeTick (s : State) (h : Nat) (p : Port) (l : Fin 2) : State :=
  s.updHearth h fun H => match p with
    | .loc => setLane H l { laneOf H l with seen := true }
    | .cross => { H with laneX := { H.laneX with seen := true } }

/-- TICK_FRAME: from the port that holds the claim in force, accepted or admitted, the hearth takes its time and its tick numbering
(01 R32; 12 R313 to R315; 13 R349). -/
def tickFrame (h : Hearth) (port : Port) (lane : Fin 2) (tai tick : BitVec 64) (s : State) : State :=
  if !(s.hearth h).logic then s
  else
    let s := seeTick (controlFrame s h port) h port lane
    let H := s.hearth h
    if H.held ∧ H.holder = port then
      let s := s.updHearth h fun H => { H with tickSeen := true, tick := tick.toNat }
      if H.holdover then resync s h port tai.toNat
      else
        let s := if H.tai + 125 < tai.toNat ∨ tai.toNat + 125 < H.tai then throttleEnd s h else s
        s.updHearth h fun H => { H with tai := tai.toNat }
    else s

def execTickFrame (h : Hearth) (port : Port) (lane : Fin 2) (tai tick : BitVec 64) (s : State) : Host.Outcome State Fault Refusal :=
  .next (tickFrame h port lane tai tick s)

/-- A sequence number is covered by a cumulative acknowledgement (01 R20, R21). -/
def ackCovers (ack seq : BitVec 32) : Bool := decide ((ack - seq).toNat < 2 ^ 31)

/-- ACK_FRAME: at the hearth it drains the replay buffer of its port up to the sequence number it names (01 R21). At the Crown's end
nothing is kept for replay. An ACK does not end silence (01 R27). -/
def ackFrame (side : LinkEnd) (h : Hearth16) (port : Port) (seq : BitVec 32) (s : State) : State :=
  match side with
  | .crown => s
  | .hearth =>
    if h.val < 8 then
      s.updHearth h fun H => match port with
        | .loc => { H with replayL := H.replayL.filter fun f => !ackCovers seq f.seq
                           lostFrames := H.lostFrames.filter fun f => !ackCovers seq f.seq }
        | .cross => { H with replayX := H.replayX.filter fun f => !ackCovers seq f.seq }
    else s

def execAckFrame (side : LinkEnd) (h : Hearth16) (port : Port) (seq : BitVec 32) (s : State) : Host.Outcome State Fault Refusal :=
  .next (ackFrame side h port seq s)

/-- IDLE_FRAME: it keeps a lane trained and carries no control (01 R18, R27). -/
def execIdleFrame (_side : LinkEnd) (_h : Hearth16) (_port : Port) (s : State) : Host.Outcome State Fault Refusal := .next s

/-- Source of a lane's Crown end: a hearth lane of an own hearth, or cross-in lane Yj (12 R318). -/
def laneCSrc (h lane : Nat) : Nat := if h < 8 then srcLaneC (2 * h + lane) else srcLaneC (16 + (h - 8))

/-- A frame discarded at either end of a lane (01 R19, R20; 11 R288). What its header holds is a free value. -/
def discardFrame (s : State) (side : LinkEnd) (h : Nat) (p : Port) (lane code cause : Nat) : State :=
  match side with
  | .hearth => if h < 8 then discardAtHearth s h p lane code cause else s
  | .crown =>
    let (a, s) := s.freshFree
    let (b, s) := s.freshFree
    raiseError s code (laneCSrc h lane) (a % 2 ^ 32 + 2 ^ 32 * (b % 2 ^ 32) + 2 ^ 64 * cause)

/-- FRAME_CRC_FAIL: a frame whose CRC-32C or Length fails is discarded and not acknowledged (01 R19). -/
def execFrameCrcFail (side : LinkEnd) (h : Hearth16) (port : Port) (lane : Fin 2) (s : State) : Host.Outcome State Fault Refusal :=
  .next (discardFrame s side h port lane 0x102 1)

/-- RESERVED_FRAME_TYPE: a frame of type 0xA to 0xF is discarded and counted; its CRC is valid, so it ends silence (01 R20, R27). -/
def reservedFrameType (side : LinkEnd) (h : Hearth16) (port : Port) (lane : Fin 2) (_code : Fin 6) (s : State) : State :=
  let s := match side with
    | .hearth => if h.val < 8 then controlFrame s h port else s
    | .crown => s
  discardFrame s side h port lane 0x103 3

def execReservedFrameType (side : LinkEnd) (h : Hearth16) (port : Port) (lane : Fin 2) (code : Fin 6) (s : State) :
    Host.Outcome State Fault Refusal :=
  .next (reservedFrameType side h port lane code s)

/-- The state of a lane (01 R24). -/
def laneAt (s : State) : LaneId → LaneSt
  | .link h l => laneOf (s.hearth h) l
  | .crossOut h => (s.hearth h).laneX
  | .crossIn j => (s.cp j).laneY
  | .pair => s.pair.lane

/-- Change the state of a lane. -/
def updLane (s : State) (id : LaneId) (L : LaneSt) : State :=
  match id with
  | .link h l => s.updHearth h fun H => setLane H l L
  | .crossOut h => s.updHearth h fun H => { H with laneX := L }
  | .crossIn j => s.updCp j fun C => { C with laneY := L }
  | .pair => s.setPair { s.pair with lane := L }

/-- The end of a lane that reports its errors: the Crown's, but of a cross-out lane the hearth's (12 R318; 11 R289). -/
def laneSrc : LaneId → Nat
  | .link h l => srcLaneC (2 * h.val + l.val)
  | .crossOut h => srcLaneH (32 + h.val)
  | .crossIn j => srcLaneC (16 + j.val)
  | .pair => srcLaneC 24

/-- Three consecutive ticks have passed on a lane without the frame that one of its ends expects (01 R24): TICK at the hearth, STATE at the
Crown on the lane in use. The pair lane carries neither. -/
def missedFrames (s : State) : LaneId → Bool
  | .link h l => decide (3 ≤ (laneOf (s.hearth h) l).missed) || (decide ((s.hearth h).active = l) && decide (3 ≤ (s.link h).missed))
  | .crossOut h => decide (3 ≤ (s.hearth h).laneX.missed)
  | .crossIn j => decide (3 ≤ (s.link (8 + j.val)).missed)
  | .pair => false

/-- A lane failure is reported, with its cause and no retrain attempt yet (11 R288; 17 R464). -/
def reportLane (s : State) (id : LaneId) (cause : Nat) : State :=
  match id with
  | .crossOut h => stampError s h (laneSrc id) 0x213 cause
  | _ => raiseError s 0x213 (laneSrc id) cause

/-- LANE_FAILED: a lane loses block lock, or misses its frames for three ticks (01 R24). When the active lane of a hearth link fails and the
standby is trained, a failover starts. -/
def laneFailed (id : LaneId) (why : LaneFault) (s : State) : State :=
  if (laneAt s id).failed || (decide (why = .frames) && !missedFrames s id) then s
  else
    let s := updLane s id { trained := false, failed := true, attempts := 0 }
    let s := match id with
      | .link h l => s.updHearth h fun H => { H with failover := H.failover || (decide (H.active = l) && (laneOf H (otherLane l)).trained) }
      | _ => s
    reportLane s id (if why = .blockLock then 1 else 2)

def execLaneFailed (lane : LaneId) (why : LaneFault) (s : State) : Host.Outcome State Fault Refusal := .next (laneFailed lane why s)

/-- The sources with lost records, each with its first lost number and its count (12 R326). -/
def lostBySource : List EventRec → List (Nat × BitVec 32 × Nat) → List (Nat × BitVec 32 × Nat)
  | [], acc => acc
  | r :: t, acc =>
    if acc.any fun a => a.1 = r.source.toNat then
      lostBySource t (acc.map fun a => if a.1 = r.source.toNat then (a.1, a.2.1, a.2.2 + 1) else a)
    else lostBySource t (acc ++ [(r.source.toNat, r.seq, 1)])

/-- The gap records of a replay overflow, one for each source with lost records, and the error replay overflow (01 R26; 12 R326). Lost frames
without records are told by a gap record of the hearth itself, of no records (log entry 163). -/
def replayOverflow (s : State) (h : Nat) : State :=
  let H := s.hearth h
  match H.lostFrames with
  | [] => s
  | f :: _ =>
    let n := H.lostFrames.length
    let s := s.updHearth h fun H => { H with lostFrames := [] }
    let s := stampError s h (srcHearth h) 0x214 (n + 2 ^ 32 * f.seq.toNat)
    let lost := lostBySource (H.lostFrames.flatMap (·.events)) []
    let lost := if lost.isEmpty then [(srcHearth h, tabGet 0 H.seqs (srcHearth h) + 1, 0)] else lost
    forEach lost (fun s a =>
      stampRec s h a.1 0x1001 (pay [(32, a.2.1.toNat), (32, a.2.2), (8, 1), (16, n)]) 2 (s.hearth h).tai 8 false false) s

/-- The Crown redelivers every command word latched for an own hearth, as a full CMD frame does (01 R21, R25; 09 R232). -/
def fullCmd (s : State) (h : Nat) : State :=
  if s.boot.cracked then s
  else forEach (List.range 64) (fun s k =>
    if (s.chan (64 * h + k)).sitter.isSome then hearthReceive s (64 * h + k) .loc (s.chan (64 * h + k)).cmd else s) s

/-- A hearth sends a kept frame again on its local port, on the lane now active (01 R25). -/
def resendFrame (s : State) (h : Nat) (f : ReplayFrame) : State :=
  s.emit (.frame (.up h .loc) (linkFrame f.type h (s.hearth h).active.val f.seq f.tick f.payload))

/-- LANE_FAILOVER_COMPLETE: traffic flows on the standby lane; the hearth resends its unacknowledged frames in order, with gap records
for the lost ones, and the Crown's next CMD frame carries all 64 channels (01 R25, R26). -/
def laneFailoverComplete (h : Hearth) (s : State) : State :=
  let H := s.hearth h
  if !H.failover then s
  else
    let s := s.updHearth h fun H => { H with failover := false, active := otherLane H.active }
    let s := forEach H.replayL (fun s f => resendFrame s h f) s
    fullCmd ((replayOverflow s h).updLink h fun L => { L with changed := BitVec.allOnes 64, seen := false, missed := 0 }) h

def execLaneFailoverComplete (h : Hearth) (s : State) : Host.Outcome State Fault Refusal := .next (laneFailoverComplete h s)

/-- LANE_RESET_ATTEMPT: the collector attempts a lane reset, up to 20 times (11 R303): training state and block lock are cleared. -/
def laneResetAttempt (id : LaneId) (s : State) : State :=
  let L := laneAt s id
  if L.failed ∧ L.attempts < 20 then updLane s id { L with trained := false, attempts := L.attempts + 1 } else s

def execLaneResetAttempt (lane : LaneId) (s : State) : Host.Outcome State Fault Refusal := .next (laneResetAttempt lane s)

/-- LANE_RETRAINED: the lane trains. A lane of a hearth link becomes standby, or active where no other lane is trained; its error clears
(11 R288, R303). -/
def laneRetrained (id : LaneId) (s : State) : State :=
  if !(laneAt s id).failed then s
  else
    let s := updLane s id { trained := true }
    match id with
    | .link h l =>
      let s := s.updHearth h fun H => if (laneOf H (otherLane l)).trained then H else { H with active := l, failover := false }
      let s := clearError s 0x213 (laneSrc id)
      scheduleEnd s 1 (2 * h.val + l.val) (s.time.tai + 2000000)
    | _ => clearError s 0x213 (laneSrc id)

def execLaneRetrained (lane : LaneId) (s : State) : Host.Outcome State Fault Refusal := .next (laneRetrained lane s)

end Sys2Proof.Machine
end

