-- ==== Sys2Proof/Machine/HkRows.lean ====
section
/-! DEFINITION. The housekeeping converter's steps: triggers, completed conversions, read-back, the end of a pass (06 R161 to R178). -/
namespace Sys2Proof.Machine
open Sys2Proof

/-- HK_TIMER_TRIGGER: a period of the sequence timer ends (06 R167, R172). -/
def hkTimerTrigger (h : Hearth) (s : State) : State :=
  if hkUp s h && decide (cPeriod (s.hk h) ≠ 0) then seqTrigger s h else s

def execHkTimerTrigger (h : Hearth) (s : State) : Host.Outcome State Fault Refusal := .next (hkTimerTrigger h s)

/-- HK_START_EVENT_TRIGGER: the delay after a START_EVT ends (06 R167, R172). -/
def hkStartEventTrigger (h : Hearth) (s : State) : State :=
  if hkUp s h && decide (0 < (s.hk h).startDue) then
    seqTrigger (s.updHk h fun K => { K with startDue := K.startDue - 1 }) h
  else s

def execHkStartEventTrigger (h : Hearth) (s : State) : Host.Outcome State Fault Refusal := .next (hkStartEventTrigger h s)

/-- A normal conversion runs: a pass stands at one of its entries and no urgent conversion runs. -/
def normalRuns (s : State) (h : Nat) (K : Hk) : Bool := K.running && K.urgRun.isNone && decide ((hkPlace s h K).1 ≤ cLast K)

/-- HK_URGENT_TRIGGER: the delay of an urgent entry ends (06 R173, R174). `past`: the normal conversion running is past sampling. An entry whose
input is inactive is skipped (06 R164). -/
def hkUrgentTrigger (h : Hearth) (entry : Fin 32) (past : Bool) (s : State) : State :=
  let K := s.hk h
  if !(hkUp s h && K.urgWait.contains entry.val) then s
  else
    let idle := (entrySources s h (hkEntry K entry.val) (tabGet 0 K.follow entry.val)).isEmpty
    let normal := normalRuns s h K
    s.updHk h fun K =>
      let K := { K with urgWait := K.urgWait.erase entry.val }
      if idle then K
      else if K.urgRun.isSome || (normal && past) then { K with urgPend := insertAsc entry.val K.urgPend }
      else if normal then
        { K with urgRun := some entry.val, diode := 0, diodeSettle := false, aborts := satInc16 K.aborts }
      else { K with urgRun := some entry.val }

def execHkUrgentTrigger (h : Hearth) (entry : Fin 32) (past : Bool) (s : State) : Host.Outcome State Fault Refusal :=
  .next (hkUrgentTrigger h entry past s)

/-- The conversion that is running: its entry, whether it is urgent, and its source as input and selection (06 R171, R174). -/
def convRunning (s : State) (h : Nat) : Option (Nat × Bool × Nat × Nat) :=
  let K := s.hk h
  match K.urgRun with
  | some u => (entrySources s h (hkEntry K u) (tabGet 0 K.follow u)).head?.map fun p => (u, true, p.1, p.2)
  | none =>
    if normalRuns s h K then
      let (e, pos) := hkPlace s h K
      let w := hkEntry K e
      let l := entrySources s h w 0
      let p : Option (Nat × Nat) := match eMode w with
        | 1 => (stepAt w l (tabGet 0 K.steps e)).map (·.1)
        | 2 => l.find? fun p => decide (pos ≤ p.1)
        | _ => l.head?
      p.map fun p => (e, false, p.1, p.2)
    else none

/-- The code latched in a DAC, by its number for input 72 (06 R178). -/
def dacCode (s : State) (h d : Nat) : Nat :=
  let spy (n : Nat) : BitVec 64 := (s.spy (130 * h + n)).word
  if d < 64 then tripCode (s.cell (64 * h + d)).tripWord
  else if d < 128 then yLower (spy (d - 64))
  else if d < 192 then yUpper (spy (d - 128))
  else if d < 256 then yLower (spy (64 + (d - 192)))
  else if d < 320 then yUpper (spy (64 + (d - 256)))
  else if d = 320 then yLower (spy 128)
  else if d = 321 then yUpper (spy 128)
  else if d = 322 then yLower (spy 129)
  else if d = 323 then yUpper (spy 129)
  else (s.cell (64 * h + (d - 324))).iset.toNat

/-- The error of a failing DAC: code, and its channel on the hearth, none for the feed spyholes (06 R178, 04 R97, 07 R198). -/
def dacError (d : Nat) : Nat × Option Nat :=
  if d < 64 then (0x204, some d)
  else if d < 320 then (0x20A, some (d % 64))
  else if d < 324 then (0x20A, none)
  else (0x209, some (d - 324))

/-- What the hearth keeps at the end of each tick for a read-back: the DAC whose conversion runs, and the code latched in it (06 R178). -/
def dacNow (s : State) (h : Nat) : Option (Nat × Nat) :=
  match convRunning s h with
  | some (_, _, 72, d) => some (d, dacCode s h d)
  | _ => none

/-- The code that was latched in a DAC when the aperture closed, `aperture` ns before the end of the present tick (06 R177, R178). -/
def dacLatched (s : State) (h d aperture : Nat) : Nat :=
  match (s.hk h).dacPast[aperture / 250 - 1]? with
  | some (some p) => if p.1 = d ∧ 250 ≤ aperture then p.2 else dacCode s h d
  | _ => dacCode s h d

/-- A read-back is compared with the code latched at aperture close: more than 2 codes apart, or OVR, is a fail. It is reported when it begins; a
pass ends the error when no other DAC that it stands for fails (04 R97; 06 R178; 07 R198; 11 R288). -/
def compareDac (s : State) (h d raw want : Nat) (ovr : Bool) : State :=
  let code := Config.readback d raw
  let fail := ovr || decide (want + 2 < code) || decide (code + 2 < want)
  let was := (s.hk h).badDacs.contains d
  let s := s.updHk h fun K => { K with badDacs := if fail then insertAsc d K.badDacs else K.badDacs.erase d }
  if fail && !was then
    let w2 := d % 512 * 2 ^ 20 + code % 1024 * 2 ^ 10 + want % 1024
    match dacError d with
    | (e, some k) => reportError s h (srcChan (64 * h + k)) e (chanDetail s (64 * h + k) w2)
    | (e, none) =>
      let (det, s) := groupDetail s h none w2
      reportError s h (srcGroup h) e det
  else if was && !fail && (s.hk h).badDacs.all (fun x => decide (dacError x ≠ dacError d)) then
    endError s h (match (dacError d).2 with | some k => srcChan (64 * h + k) | none => srcGroup h) (dacError d).1
  else s

/-- The housekeeping record (06 R177). -/
def hkRecord (inp entry form : Nat) (ovr settle urgent overrun : Bool) (apert sel value : Nat) : BitVec 64 :=
  BitVec.ofNat 64 (inp % 128 * 2 ^ 57 + entry % 32 * 2 ^ 52 + form % 8 * 2 ^ 49 + b2n ovr * 2 ^ 48 + b2n settle * 2 ^ 47 +
    b2n urgent * 2 ^ 46 + b2n overrun * 2 ^ 45 + apert % 16384 * 2 ^ 31 + sel % 1024 * 2 ^ 21 + value % 65536)

/-- The pass goes on after the conversion of a normal entry at the input or selection `key` (06 R171). -/
def passOn (s : State) (h e key : Nat) (K : Hk) : Hk :=
  let w := hkEntry K e
  let l := entrySources s h w 0
  let K := if eMode w = 1 then
      { K with steps := tabSet 0 K.steps e (match stepAt w l (tabGet 0 K.steps e) with | some p => p.2 | none => 0) }
    else K
  if eMode w = 2 ∧ l.any (fun p => decide (key < p.1)) then { K with entry := e, inputPos := key + 1 }
  else { K with entry := nextEntry s h K 33 (e + 1), inputPos := 0 }

/-- The sequencer goes on after a conversion: the pass's place, and the next pending urgent entry (06 R171, R174). -/
def hkAdvance (s : State) (h e key : Nat) (urgent : Bool) : State :=
  let K := s.hk h
  let K := if urgent then { K with urgRun := none } else passOn s h e key K
  let u := nextUrgent s h K K.urgPend
  s.updHk h fun _ => { K with diode := 0, diodeSettle := false, urgRun := u.1, urgPend := u.2 }

/-- A conversion that yields a record: its value, flags and record, the reference check, and the read-back (06 R166, R175 to R178). -/
def hkFinish (s : State) (h entry : Nat) (urgent : Bool) (inp sel value : Nat) (ovr : Bool) (v : HkConv) : State :=
  let K := s.hk h
  let settle := decide (0 < K.settle) || v.clamp || K.diodeSettle
  let mark := K.markFirst && !urgent
  let rec0 := hkRecord inp entry (inputForm inp) ovr settle urgent mark v.aperture.toNat (if 72 ≤ inp ∧ inp ≤ 75 then sel else 0) value
  let s := s.updHk h fun K => { K with
    record := some rec0, settle := if ovr then 2 else K.settle - 1, markFirst := K.markFirst && urgent }
  let s :=
    if inp = 83 then
      let bad := decide (0x8000 + 66 < value) || decide (value + 66 < 0x8000)
      let t := s.updHk h fun K => { K with refBad := bad }
      if bad && !K.refBad then reportError t h (srcHearth h) 0x20E value else if bad then t else endError t h (srcHearth h) 0x20E
    else s
  if inp = 72 ∧ eOwner (hkEntry K entry) = 4 ∧ !v.dacChanged ∧ (ovr ∨ !settle) then compareDac s h sel value (dacLatched s h sel v.aperture.toNat) ovr else s

/-- One conversion of a diode measurement that is not its last (06 R164). A pending urgent entry runs at the end of a normal one, and the
measurement then restarts from its 10 µA conversion (06 R173, R174). -/
def hkDiodeStep (s : State) (h : Nat) (urgent : Bool) (v : HkConv) : State :=
  let u := if urgent then (none, (s.hk h).urgPend) else nextUrgent s h (s.hk h) (s.hk h).urgPend
  s.updHk h fun K =>
    let (raw, ovr) := (rawCode v.value, (formValue 4 v.value).2)
    let K := { K with
      v1 := if K.diode = 0 then BitVec.ofNat 16 raw else K.v1
      v2 := if K.diode = 0 then K.v2 else BitVec.ofNat 16 raw
      diode := K.diode + 1
      diodeSettle := K.diodeSettle || decide (0 < K.settle) || v.clamp
      settle := if ovr then 2 else K.settle - 1, urgPend := u.2 }
    if u.1.isSome then { K with urgRun := u.1, diode := 0, diodeSettle := false } else K

/-- HK_CONVERSION_COMPLETE: the running conversion completes (06 R162 to R178). A diode TSNS takes three conversions; those already done of
another input count for nothing. -/
def hkConversionComplete (h : Hearth) (conv : HkConv) (s : State) : State :=
  if !hkUp s h then s
  else match convRunning s h with
  | none =>
    let u := nextUrgent s h (s.hk h) (s.hk h).urgPend
    s.updHk h fun K => { K with urgRun := u.1, urgPend := u.2 }
  | some (entry, urgent, inp, sel) =>
    let s := if (s.hk h).diodeIn = inp then s else s.updHk h fun K => { K with diodeIn := inp, diode := 0, diodeSettle := false }
    let K := s.hk h
    let key := srcKey (hkEntry K entry) (inp, sel)
    let mode := if inp < 64 then tsnsMode s (64 * h.val + inp) else 0
    if mode = 1 ∧ K.diode < 2 then hkDiodeStep s h urgent conv
    else
      let (v, ovr) := if mode = 1 then diodeTemp K.v1.toNat K.v2.toNat conv.value (cIdeality K)
        else if mode = 2 then ntcTemp K.ntc (rawCode conv.value)
        else formValue (inputForm inp) conv.value
      hkAdvance (hkFinish s h entry urgent inp sel v ovr conv) h entry key urgent

def execHkConversionComplete (h : Hearth) (conv : HkConv) (s : State) : Host.Outcome State Fault Refusal :=
  .next (hkConversionComplete h conv s)

/-- HK_PASS_END: every normal entry of the pass is done; a pending trigger starts the next pass at once (06 R172). -/
def hkPassEnd (h : Hearth) (s : State) : State :=
  let K := s.hk h
  if K.running ∧ cLast K < (hkPlace s h K).1 then
    let s := s.putPasses h (tabGet 0 s.passes h + 1)
    let s := s.updHk h fun K => { K with running := false, pending := false }
    if K.pending then startPass s h true else s
  else s

def execHkPassEnd (h : Hearth) (s : State) : Host.Outcome State Fault Refusal := .next (hkPassEnd h s)

end Sys2Proof.Machine
end

