-- ==== Sys2Proof/Machine/HearthTick.lean ====
section
/-! DEFINITION. The hearth tick boundary: conversions, fallback accumulators, counters, and the SAMPLE, STATE and EVENT frames
(01 R21, R27; 02 R61; 04 R106; 06 R154 to R160; 08 R215; 12 R314; 13 R345, R346). -/
namespace Sys2Proof.Machine
open Sys2Proof

/-- A current sample and its OVR (06 R156, R159): the 14-bit code, less the measured offset, over two zero bits, or a clamp code (log entry
177). -/
def iConv (offset : BitVec 14) : ConvI → BitVec 16 × Bool
  | .inRange c =>
    let v := c.toInt - offset.toInt
    if 8191 < v then (0x7FFF, true) else if v < -8192 then (0x8000, true) else (BitVec.ofInt 14 v ++ (0#2), false)
  | .above => (0x7FFF, true)
  | .below => (0x8000, true)

/-- A voltage sample and its OVR (06 R157). -/
def vConv : ConvV → BitVec 16 × Bool
  | .inRange c => (c.setWidth 16, false)
  | .above => (0x0FFF, true)
  | .below => (0x0000, true)

/-- Whether a current sample exceeds a current in 0.125 A units through a shunt in µΩ: 4 µV a step against 125 mA times µΩ. -/
def sampleAbove (i : BitVec 16) (units rshunt : Nat) : Bool := decide ((units * rshunt : Nat) < 32 * i.toInt)

/-- The trip time in µs of the point above a sample on the fallback curve, none at or below the continuous point (04 R106). The curve
is given in current-sample codes. -/
def fallbackTime : List (Nat × Nat) → Int → Option Nat
  | [], _ => none
  | [(i, t)], v => if (i : Int) < v then some t else none
  | (i0, _) :: (i1, t1) :: r, v =>
    if v ≤ i0 then none else if v ≤ i1 then some t1 else (match fallbackTime ((i1, t1) :: r) v with | some t => some t | none => some t1)

/-- F after one tick: raised at the rate of the point above, rounded up, or drained, in units of 2^-46 of a trip (04 R101, R106).
An OVR sample counts as above the last point (04 R103). -/
def fallbackTick (C : Cell) : Nat :=
  let t := if C.iOvr then (C.env.points.getLast?).map (·.2) else fallbackTime C.env.points C.iSample.toInt
  match t with
  | some us => C.f + ceilNat (2 ^ 44) us
  | none => C.f - 2 ^ 44 / max 1 C.env.drainUs

/-- The pass-short count of a channel whose gate-off has been confirmed (02 R61): it stops at its eighth tick; 9 marks it reported. -/
def shortTick (C : Cell) : Nat :=
  if (C.state = .tripped ∨ C.state = .cooling ∨ C.state = .locked) ∧ C.confirmed then
    if 8 ≤ C.shortTicks then C.shortTicks
    else if C.configured ∧ (C.iOvr ∨ sampleAbove C.iSample (tripPshort C.tripWord) C.rshunt) then C.shortTicks + 1 else 0
  else 0

/-- The conversions of one channel that complete at tick `n` (06 R154). A channel that is not configured reads 0x0000 with no flags. -/
def convTick (io : TickInput) (n k : Nat) (C : Cell) : Cell :=
  let C := if k % 2 = n % 2 then
      (let p := if C.configured then iConv C.offset (io.cur.getD (k / 2) (.inRange 0)) else (0, false)
       { C with iSample := p.1, iOvr := p.2 }) else C
  if k % 8 = n % 8 then
    (let p := if C.configured then vConv (io.volt.getD (k / 8) (.inRange 0)) else (0, false)
     { C with vSample := p.1, vOvr := p.2 }) else C

/-- The counters of one cell at a tick boundary. -/
def cellCounters (C : Cell) : Cell :=
  { C with
    tickCauses := 0, undo := none
    tripTicks := if C.state = .tripped then min (C.tripTicks + 1) 1048576 else C.tripTicks
    offTicks := if C.confirmed then min (C.offTicks + 1) 1048576 else C.offTicks }

/-- One cell at a tick boundary with the logic rails present: conversions, gate comparators, F (frozen in the shadow), pass-short. -/
def cellTick (io : TickInput) (n k : Nat) (shadow : Bool) (C : Cell) : Cell :=
  let C := convTick io n k C
  let C := { C with gateOff := bitOf io.gateOff k, gateFull := bitOf io.gateFull k }
  let C := if C.configured ∧ !shadow then { C with f := fallbackTick C } else C
  cellCounters { C with shortTicks := shortTick C }

/-- The 16-bit STATE entry of a channel, in the layout of input word 0x06 (09 R233); 0xF for one not configured (02 R40). -/
def stateEntry (s : State) (c : Nat) : Nat :=
  let C := s.cell c
  let yi := s.spy (130 * hOf c + kOf c)
  let yv := s.spy (130 * hOf c + 64 + kOf c)
  let un (y : Spy) : Nat := b2n (yOn y.word && (y.starting || decide (y.st = .unresolved)))
  (if C.configured then stCode C.state else 15) * 2 ^ 12 + b2n C.gateOff * 2 ^ 11 + b2n C.gateFull * 2 ^ 10 + spyCode (presented yi) * 2 ^ 8 +
    spyCode (presented yv) * 2 ^ 6 + un yi * 2 ^ 5 + un yv * 2 ^ 4 + b2n C.refused * 2 ^ 3

/-- The hearth-state block for a port (13 R345). -/
def hearthBlock (s : State) (h : Nat) (p : Port) : Nat :=
  let H := s.hearth h
  let r := match p with | .loc => H.refusedL | .cross => H.refusedX
  H.claim.toNat * 2 ^ 32 + b2n H.held * 2 ^ 31 + portCode H.holder * 2 ^ 30 + b2n H.admitting * 2 ^ 29 + b2n H.saggar * 2 ^ 28 +
    b2n H.fault * 2 ^ 27 + b2n (portSilent H .loc) * 2 ^ 26 + b2n (portSilent H .cross) * 2 ^ 25 + b2n r.isSome * 2 ^ 24 +
    (match r with | some x => x.toNat | none => 0) * 2 ^ 20 + (feedStatus (s.group h)).toNat

/-- The payload of the SAMPLE frame of tick `n` (06 R160). -/
def samplePayload (s : State) (h n : Nat) : List (BitVec 64) :=
  let is := (List.range 32).map fun i => s.cell (64 * h + 2 * i + n % 2)
  let vs := (List.range 8).map fun j => s.cell (64 * h + 8 * j + n % 8)
  let hk := (s.hk h).record
  let desc := b2n (s.group h).shadowTick * 2 ^ 7 + b2n hk.isSome * 2 ^ 6 + n % 2 * 2 ^ 5 + n % 8 * 2 ^ 2
  payBlocks ([(64, desc)] ++ is.map (fun C => (16, C.iSample.toNat)) ++ vs.map (fun C => (16, C.vSample.toNat)) ++
    [(32, packBits (is.map (·.iOvr))), (32, packBits (vs.map (·.vOvr)))] ++ hk.toList.map fun w => (64, w.toNat))

/-- The payload of a STATE frame: 64 entries, then the hearth-state block (01 R20; log entry 12). -/
def statePayload (s : State) (h : Nat) (p : Port) : List (BitVec 64) :=
  payBlocks (((List.range 64).map fun k => (16, stateEntry s (64 * h + k))) ++ [(64, hearthBlock s h p)])

/-- The payload of an EVENT frame: the records' 32 bytes each (01 R20; 12 R317). -/
def eventPayload (recs : List EventRec) : List (BitVec 64) := payBlocks (byteFlds (recs.flatMap recBytes))

/-- The number of the next frame that a hearth sends on a port, and the lane it takes (01 R18, R19). -/
def upSeq (H : HearthSt) (p : Port) : BitVec 32 := match p with | .loc => H.txL | .cross => H.txX
def upLane (H : HearthSt) (p : Port) : Nat := match p with | .loc => H.active.val | .cross => 0

/-- Keep a frame in a replay buffer of 256; the frames pushed out come second (01 R21, R26). -/
def pushReplay (l : List ReplayFrame) (f : ReplayFrame) : List ReplayFrame × List ReplayFrame :=
  ((l ++ [f]).drop (l.length - 255), (l ++ [f]).take (l.length - 255))

/-- Send one frame on a port, with the port's next number, and keep it in the port's replay buffer. An unacknowledged frame pushed out of the
buffer of the hearth link is lost; the cross lane has no failover, and so no replay (01 R18, R21, R26). -/
def sendUp (s : State) (h : Nat) (p : Port) (type : Nat) (payload : List (BitVec 64)) (recs : List EventRec) : State :=
  let H := s.hearth h
  let f : ReplayFrame := { seq := upSeq H p, type := type, tick := H.tick, payload := payload, events := recs }
  let s := s.emit (.frame (.up h p) (linkFrame type h (upLane H p) (upSeq H p) H.tick payload))
  s.updHearth h fun H => match p with
    | .loc => { H with replayL := (pushReplay H.replayL f).1, lostFrames := H.lostFrames ++ (pushReplay H.replayL f).2, txL := H.txL + 1 }
    | .cross => { H with replayX := (pushReplay H.replayX f).1, txX := H.txX + 1 }

/-- A frame of a hearth that takes no sequence number: IDLE, and ACK with the highest number received in order (01 R18, R20; log entry 161). -/
def sendUpIdle (s : State) (h : Nat) (p : Port) (type lane : Nat) : State :=
  let H := s.hearth h
  let rx := match p with | .loc => H.rxL | .cross => H.rxX
  s.emit (.frame (.up h p) (linkFrame type h lane (upSeq H p) H.tick (if type = 8 then payBlocks [(32, (rx - 1).toNat)] else [])))

/-- IDLE on the standby lane of the hearth link (01 R18). -/
def sendStandby (s : State) (h : Nat) (p : Port) : State :=
  let o := otherLane (s.hearth h).active
  if p = .loc ∧ (laneOf (s.hearth h) o).trained then sendUpIdle s h .loc 0 o.val else s

/-- After a STATE frame on a port, its REFUSED flag has been told (13 R345). -/
def toldRefusal (s : State) (h : Nat) (p : Port) : State :=
  s.updHearth h fun H => match p with | .loc => { H with refusedL := none } | .cross => { H with refusedX := none }

/-- Records in lots of 63, which is what an EVENT frame of at most 255 payload blocks holds. -/
def eventLots : Nat → List EventRec → List (List EventRec)
  | 0, _ => []
  | n + 1, l => if l.isEmpty then [] else l.take 63 :: eventLots n (l.drop 63)

/-- EVENT frames with a list of records (01 R20, R21). -/
def sendEventFrames (s : State) (h : Nat) (p : Port) (recs : List EventRec) : State :=
  forEach (eventLots recs.length recs) (fun s l => sendUp s h p 7 (eventPayload l) l) s

/-- The frames on the port that holds the claim in force (01 R21; 12 R325): the records left unacknowledged on the old port first; then SAMPLE,
STATE, the new records, and an ACK (log entry 161). -/
def sendHolder (s : State) (h n : Nat) (p : Port) : State :=
  let first := (s.hearth h).firstOut
  let s := sendEventFrames (s.updHearth h fun H => { H with firstOut := [] }) h p first
  let s := sendUp s h p 5 (samplePayload s h n) []
  let s := toldRefusal (sendUp s h p 6 (statePayload s h p) []) h p
  let recs := (s.hearth h).outbox
  let s := sendEventFrames (s.updHearth h fun H => { H with outbox := [] }) h p recs
  sendStandby (sendUpIdle s h p 8 (upLane (s.hearth h) p)) h p

/-- The frames on a port that does not hold the claim: IDLE, and one STATE frame every 16 ticks (13 R346). -/
def sendOther (s : State) (h n : Nat) (p : Port) : State :=
  let s := sendStandby (sendUpIdle s h p 0 (upLane (s.hearth h) p)) h p
  if n % 16 = 0 then toldRefusal (sendUp s h p 6 (statePayload s h p) []) h p else s

/-- All frames of a tick. -/
def sendFrames (s : State) (h n : Nat) : State :=
  let H := s.hearth h
  if H.held then sendOther (sendHolder s h n H.holder) h n (otherPort H.holder)
  else sendOther (sendOther s h n .loc) h n .cross

/-- A lane of the hearth at a tick boundary: the ticks in which no TICK frame came, while one was to come (01 R24). -/
def laneTick (expected : Bool) (L : LaneSt) : LaneSt :=
  { L with seen := false, missed := if expected && !L.seen then min 3 (L.missed + 1) else 0 }

/-- The hearth's own counters at a tick boundary: time, silence (01 R27), holdover (12 R314), admission (13 R349). -/
def hearthCounters (H : HearthSt) : HearthSt :=
  let hold := !(H.tickSeen && H.held)
  { H with
    tick := H.tick + 1, tai := H.tai + 250
    silentL := if H.frameL then 0 else min (H.silentL + 1) 65535
    silentX := if H.frameX then 0 else min (H.silentX + 1) 65535
    frameL := false, frameX := false, tickSeen := false, holdover := hold
    lane0 := laneTick (H.held && decide (H.holder = .loc)) H.lane0
    lane1 := laneTick (H.held && decide (H.holder = .loc)) H.lane1
    laneX := laneTick (H.held && decide (H.holder = .cross)) H.laneX
    holdNs := if hold && H.logic then H.holdNs + 250 else H.holdNs
    holdOscNs := if hold && !H.logic then H.holdOscNs + 250 else H.holdOscNs
    admitTicks := if H.admitting then H.admitTicks + 1 else 0 }

/-- The PMBus target latches OT_FAULT of a group for each cone bend that its hearth took in the tick that ends (16 R434). -/
def noteBends (s : State) (h : Nat) : State :=
  if (List.range 64).any fun k => bitOf (s.cell (64 * h + k)).tickCauses 1 then
    s.setPmb { s.pmb with temp := tabSet 0 s.pmb.temp (h + 1) (tabGet 0 s.pmb.temp (h + 1) ||| 0x80) }
  else s

/-- HEARTH_TICK: the boundary of a hearth tick (06 R154, 01 R21). Without logic rails the converters and the frames stop (01 R34). -/
def hearthTick (h : Hearth) (io : TickInput) (s : State) : State :=
  let H := s.hearth h
  if !H.alwaysOn then s
  else
    let n := H.tick + 1
    let run := continuous H
    let sh := (s.group h).shadowTick
    let s := (noteBends s h).updHearth h hearthCounters
    let s := forEach (List.range 64) (fun s k =>
      s.updCell (64 * h.val + k) fun C => if run then cellTick io n k sh C else cellCounters C) s
    let s := if run then forEach (List.range 130) (fun s y =>
        match (s.spy (130 * h.val + y)).nextWord with
        | some w => spyNewWord s (130 * h.val + y) w (s.hearth h).tai
        | none => s) s else s
    let s := if run then sendFrames s h n else s
    let d := dacNow s h
    let s := s.updHk h fun K => { K with record := none, evTick := [], dacPast := (d :: K.dacPast).take 4 }
    let s := returnTick (s.updGroup h fun G => { G with shadowTick := G.shadow }) h
    forEach (List.range 16) (fun s i => ledTick (captureTick h s i) (16 * h.val + i)) s

def execHearthTick (h : Hearth) (io : TickInput) (s : State) : Host.Outcome State Fault Refusal := .next (hearthTick h io s)

end Sys2Proof.Machine
end

