-- ==== Sys2Proof/Machine/CarryWords.lean ====
section
/-! DEFINITION. Carry states: the carry words of the library schedule, what an engine that runs it holds and latches, and the mirror slots
(09 R227 to R230, R243; 17 R461). -/
namespace Sys2Proof.Machine
open Sys2Proof

/-- Back-off and decay remaining in units of 64 ticks, rounded up (17 R461). -/
def remain64 (total elapsed : Nat) : Nat := ceilNat (total - elapsed) 64

/-- The 13 Sitter carry words of the library schedule (17 R461; the packing of composite words is log entry 22). -/
def sitterCarry (A : ChanSt) : List Nat :=
  [A.a / 2 ^ 24 % 2 ^ 24, A.a % 2 ^ 24, 2 * A.seg, fld A.cmd 10 6,
   stCode A.commanded + 16 * b2n A.pgDrop + 32 * b2n A.uvRun + 64 * b2n A.followEnh + 256 * min A.uvTicks 65535,
   min A.segTicks 16777215, min A.rampTicks 16777215,
   A.winTicks % 4096 + 4096 * min A.winFails 15 + 65536 * b2n A.winShadow, A.winStart.toNat,
   min A.dwell 1048575 + 2 ^ 20 * min A.holdTicks 15,
   A.retry % 16 + 16 * b2n A.twinShared + 32 * min A.twinOk 8191,
   if A.commanded = .cooling then remain64 (backoffTicks (profWord A 16) A.retry) A.backoff else 0,
   if A.commanded = .good then remain64 (400000 * pDecay A) A.decay else 0]

/-- One pole's state record (10 R272). -/
def poleCarry (P : PoleSt) : List Nat :=
  [(BitVec.ofInt 24 P.theta).toNat, P.energy / 2 ^ 24 % 2 ^ 24, P.energy % 2 ^ 24, P.runMax % 2 ^ 23 + 2 ^ 23 * b2n P.lastPacked,
   (BitVec.ofInt 24 P.eInt).toNat]

/-- The 19 Cone carry words of the library schedule. -/
def coneCarry (K : ConeSt) : List Nat :=
  poleCarry K.p1 ++ poleCarry K.p2 ++ poleCarry K.p3 ++
  [(BitVec.ofInt 24 K.tBase).toNat, (BitVec.ofInt 24 K.rErr).toNat,
   min (K.preTicks / 64) 1048575 + 2 ^ 20 * b2n K.preRun + 2 ^ 21 * b2n K.anchored + 2 ^ 22 * b2n K.first, min K.soaCount 16777215]

/-- A signed 24-bit word. -/
def int24 (n : Nat) : Int := (BitVec.ofNat 24 n).toInt

/-- A Sitter taken up from carry words (13 R343). -/
def loadSitter (w : List Nat) (A : ChanSt) : ChanSt :=
  let g (i : Nat) : Nat := w.getD i 0
  let st := (stOf (bitsOf (g 4) 0 4)).getD .vacant
  let retry := bitsOf (g 10) 0 4
  { A with
    a := g 0 * 2 ^ 24 + g 1, seg := g 2 / 2, commanded := st, pgDrop := decide (bitsOf (g 4) 4 1 = 1), uvRun := decide (bitsOf (g 4) 5 1 = 1)
    followEnh := decide (bitsOf (g 4) 6 1 = 1), uvTicks := bitsOf (g 4) 8 16, segTicks := g 5, rampTicks := g 6
    winTicks := bitsOf (g 7) 0 12, winFails := bitsOf (g 7) 12 4, winShadow := decide (bitsOf (g 7) 16 1 = 1), winStart := BitVec.ofNat 16 (g 8)
    dwell := bitsOf (g 9) 0 20, holdTicks := bitsOf (g 9) 20 4, retry := retry, twinShared := decide (bitsOf (g 10) 4 1 = 1)
    twinOk := bitsOf (g 10) 5 13, backoff := backoffTicks (profWord A 16) retry - 64 * g 11, decay := 400000 * pDecay A - 64 * g 12 }

/-- A pole's state record taken up. -/
def loadPole (w : List Nat) : PoleSt :=
  let g (i : Nat) : Nat := w.getD i 0
  { theta := int24 (g 0), energy := g 1 * 2 ^ 24 + g 2, runMax := bitsOf (g 3) 0 23, lastPacked := decide (bitsOf (g 3) 23 1 = 1), eInt := int24 (g 4) }

/-- A Cone taken up from carry words (05 R149). -/
def loadCone (w : List Nat) : ConeSt :=
  let g (i : Nat) : Nat := w.getD i 0
  { init := true, p1 := loadPole w, p2 := loadPole (w.drop 5), p3 := loadPole (w.drop 10), tBase := int24 (g 15), rErr := int24 (g 16)
    preTicks := 64 * bitsOf (g 17) 0 20, preRun := decide (bitsOf (g 17) 20 1 = 1), anchored := decide (bitsOf (g 17) 21 1 = 1)
    first := decide (bitsOf (g 17) 22 1 = 1), soaCount := g 18 }

/-- The library's descriptor (17 R461); ENTRY and REPLAY are opaque (log entry 17). -/
def libDesc (kind : Nat) : List W24 :=
  let e := Config.libEntry kind
  let carry := if kind = 0 then 13 else if kind = 1 then 0x0D * 2 ^ 15 + 19 else 32
  [BitVec.ofNat 24 (e.1 % 8192), BitVec.ofNat 24 (if kind = 2 then e.2 % 8192 else 0), BitVec.ofNat 24 carry,
   BitVec.ofNat 24 (0x0D * 2 ^ 15 + 0x68)]

/-- Where the carry words of an engine of channel `c` start in its state memory under the library schedule, and the words, by the roles that it
runs (17 R461). -/
def libCarry (s : State) (c : Nat) (sitter cone : Bool) : Nat × List W24 :=
  (if sitter then 0 else 13,
    ((if sitter then sitterCarry (s.chan c) else []) ++ (if cone then coneCarry (s.cone c) else [])).map (BitVec.ofNat 24))

/-- What an engine that runs the library schedule for channel `c` holds and latches at the end of tick `n`: the carry region of its state memory,
and its output words, the check word among them (09 R230, R234, R243). -/
def libLatch (s : State) (c n : Nat) (sitter cone : Bool) (E : Engine) : Engine :=
  let A := s.chan c
  let K := s.cone c
  let (base, ws) := libCarry s c sitter cone
  let w : BitVec 32 := BitVec.ofNat 32 (n % 256 * 2 ^ 24 + digestOf ws)
  let o := if sitter then tabSet 0 (tabSet 0 E.outs 0x40 A.cmd) 0x49 (BitVec.ofNat 16 (b2n A.startOk)) else E.outs
  let o := if cone then tabSet 0 (tabPut 0 o 0x41 [K.head.extractLsb' 0 16, K.head.extractLsb' 16 16]) 0x48 (K.sub.setWidth 16) else o
  { E with mem := tabPut 0 E.mem base ws, outs := tabPut 0 o 0x46 [w.extractLsb' 0 16, w.extractLsb' 16 16], wrote := [0x46, 0x47] }

/-- The mirror slot of an engine takes its carry words at the end of a tick (09 R230); at a tick with a valid check word it is the mirror tick's
(09 R250). -/
def latchSlot (s : State) (e : Nat) (ws : List W24) (good : Bool) : State :=
  let M := mirrorOf s e
  let t := tabPut 0 [] 0 ws
  s.updCluster (mirrorHome s e) fun K => { K with
    mirror := tabSet {} K.mirror (e % 64) { words := t, old := M.words, good := if good then t else M.good } }

/-- A Cone that has updated after its engine's tick was latched: the same tick's words stand in their place. -/
def relatch (s : State) (c e n : Nat) : State :=
  let sitter := decide ((s.chan c).sitter = some e)
  let M := mirrorOf s e
  let s := s.updEngine e (libLatch s c n sitter true)
  let s := latchSlot s e (libCarry s c sitter true).2 true
  s.updCluster (mirrorHome s e) fun K => { K with mirror := tabSet {} K.mirror (e % 64) { (tabGet {} K.mirror (e % 64)) with old := M.old } }

end Sys2Proof.Machine
end

