-- ==== Sys2Proof/Machine/Requests.lean ====
section
/-! DEFINITION. What a Sitter or a Cone sends besides a command word: event requests and the gate-current register; and the twin pairs
(09 R238; 03 R508; 04 R116, R118). -/
namespace Sys2Proof.Machine
open Sys2Proof

/-- The engine tick number of a cluster. -/
def clusterTickOf (s : State) (e : Nat) : Nat := (s.cluster (e / 64)).tick

/-- The tick number of the cluster that hosts a channel's Sitter role. -/
def sitterTick (s : State) (c : Nat) : Nat := match (s.chan c).sitter with | some e => clusterTickOf s e | none => 0

/-- An event request in a PARAM frame to an adopted hearth (09 R238): source, code and dropped count, the payload, the tick's time. -/
def sendEventReq (s : State) (h : Nat) (q : EventReq) : State :=
  sendParam s h 17 0 [payNat [(16, q.source.toNat), (16, q.code.toNat), (32, q.dropped.toNat)], q.payload.toNat % 2 ^ 64, q.payload.toNat / 2 ^ 64,
    q.tickTime.toNat]

/-- An event that a role decides on channel `c` travels to the channel's hearth as an event request (09 R238). It names the channel in
the hearth's own numbering and the TAI time of the start of the deciding tick. To an adopted hearth it is sent as a PARAM frame. -/
def sitterEvent (s : State) (c code : Nat) (l : List (Nat × Nat)) : State :=
  let q : EventReq := { source := BitVec.ofNat 16 (srcChan (c % 512)), code := BitVec.ofNat 16 code, payload := pay l,
                        tickTime := BitVec.ofNat 64 s.time.tai, dropped := 0 }
  if c < 512 then (if obeys (s.hearth (hOf c)) .loc then numberRequest s (hOf c) q else s)
  else if !downOpen s c then s
  else sendEventReq s (c / 64) q

/-- Fields of a twin word (04 R116). -/
def twChA (w : BitVec 64) : Nat := fld w 55 9
def twChB (w : BitVec 64) : Nat := fld w 46 9
def twOn (w : BitVec 64) : Bool := bitOf w 45
def twFloor (w : BitVec 64) : Nat := fld w 41 4

/-- A twin pair in force seen from one of its channels. -/
structure TwinView where
  pair : Nat
  other : Nat
  floor : Nat
  points : List (Nat × Nat)
deriving DecidableEq, Repr

/-- The pair that names a channel: 512 is added to both channel numbers of a partner's pair (04 R117). -/
def twinAt (c : Nat) : Tab (List (BitVec 64)) → Option TwinView
  | [] => none
  | (t, ws) :: r =>
    let w := ws.getD 0 0
    let o := if t < 256 then 0 else 512
    let v (other : Nat) : TwinView := { pair := t, other := other, floor := twFloor w, points := pointsOf (ws.drop 1) }
    if !twOn w then twinAt c r
    else if o + twChA w = c then some (v (o + twChB w))
    else if o + twChB w = c then some (v (o + twChA w))
    else twinAt c r

/-- The twin pair of a channel, if any. -/
def twinView (s : State) (c : Nat) : Option TwinView := twinAt c s.books.twins

/-- Whether this device hosts the Sitter of a channel. -/
def served (s : State) (c : Nat) : Bool := (s.chan c).sitter.isSome || (s.chan c).takeover.isSome

/-- Whether this device is the one that serves a channel: its own but for a hearth that the partner holds, and the partner's on a hearth that this
device holds (04 R126). -/
def servedHere (s : State) (c : Nat) : Bool :=
  if c < 512 then !((s.hearth (hOf c)).held && decide ((s.hearth (hOf c)).holder = .cross)) else downOpen s c

/-- A pair is split while its channels are served by different devices (04 R126). -/
def twinSplit (s : State) (c : Nat) (v : TwinView) : Bool := servedHere s c != servedHere s v.other

/-- START_OK and the trip request that the other twin's Sitter wrote in the tick before `n` (04 R118, 09 R233). -/
def twinOuts (s : State) (o n : Nat) : Bool × Bool :=
  let B := s.chan o
  if n ≤ sitterTick s o then (B.startSeen, B.tripPrev) else (B.startOk, B.tripReq)

end Sys2Proof.Machine
end

