-- ==== Sys2Proof/Machine/Cone.lean ====
section
/-! DEFINITION. The samples in the library's formats, and the Cone: power, poles, anchor, dose, headroom, pre-bend timer and the safe operating
area (05 R127 to R150; 10 R280, R281). Currents are in 1/512 A (QI), voltages in 1/32,768 V (QV), powers in 1/512 W (QP), temperatures in
1/256 K (QT); each stage is rounded as the library's listings round it. -/
namespace Sys2Proof.Machine
open Sys2Proof

/-- The latest current sample in QI, rounded up; an OVR sample counts at converter full scale (04 R103; 05 R129; 10 R280). -/
def iQi (A : ChanSt) : Int := if A.iOvr then par A 0x05 else mulQ .up A.iWord.toInt (par A 0x04) 14

/-- The group bus voltage of a channel in QV (10 R280). -/
def gbusQv (s : State) (c : Nat) : Int :=
  mulQ .near ((tabGet ((0 : BitVec 16), false) s.gbus (c / 64)).1.toNat : Int) (par (s.chan c) 0x07) 8

/-- Vds in QV from the latest samples: V_GBUS less the shunt's drop less V_OUT (03 R76; 10 R280, block PRO). -/
def vdsQv (s : State) (c : Nat) (A : ChanSt) : Int :=
  sat24 (gbusQv s c - mulQ .near (iQi A) (par A 0x08) 17 - mulQ .near (A.vWord.toNat : Int) (par A 0x06) 8)

/-- The group bus voltage of a channel in µV. -/
def gbusUv (s : State) (c : Nat) : Nat := 1600 * (tabGet ((0 : BitVec 16), false) s.gbus (c / 64)).1.toNat

/-- A channel's record as its Cone role sees it: with the profile in its own cluster's active bank (01 R31; 05 R150). -/
def coneView (s : State) (c : Nat) : ChanSt := { s.chan c with prof := (s.chan c).coneProf }

/-- Transistor power of a tick in QP (05 R129; 10 R281, block POWER): Vds × I, and in Full and Good at least I² × RDS(on). Before a Cone's first
update there is no Tj_model, and RDS(on) counts as 0 (DESIGN CHOICE, log entry 164). -/
def powerOf (s : State) (c : Nat) : Nat :=
  let A := coneView s c
  let i : Int := min ((iQi A).natAbs : Int) 8388607
  let p1 := mulQ .up (max (vdsQv s c A) 0) i 15
  let p2 := mulQ .up (mulQ .up i (s.cone c).rHot 17) i 15
  match A.obs with
  | .full | .good => (max p1 p2).toNat
  | _ => p1.toNat

/-- RDS(on) at a junction temperature in QT, ohms in QF, rounded up (05 R129, R130). -/
def rHotOf (A : ChanSt) (tj : Int) : Nat :=
  qf (ceilDiv ((pRdsOn A : Int) * 2 ^ 23 * (2560000 + (pRdsTc A : Int) * (tj - 6400))) 256000000000).toNat

/-- Pole `i` of a Cone. -/
def coneP (K : ConeSt) (i : Nat) : PoleSt := if i = 0 then K.p1 else if i = 1 then K.p2 else K.p3

/-- Replace pole `i`. -/
def setConeP (K : ConeSt) (i : Nat) (p : PoleSt) : ConeSt :=
  if i = 0 then { K with p1 := p } else if i = 1 then { K with p2 := p } else { K with p3 := p }

/-- Apply an update to each pole. -/
def mapPoles (K : ConeSt) (f : Nat → PoleSt → PoleSt) : ConeSt := { K with p1 := f 0 K.p1, p2 := f 1 K.p2, p3 := f 2 K.p3 }

/-- θ1 + θ2 + θ3. -/
def thetaSum (K : ConeSt) : Int := K.p1.theta + K.p2.theta + K.p3.theta

/-- The energy of one tick into a pole (05 R131, 10 R272). -/
def poleTick (p : Nat) (P : PoleSt) : PoleSt := { P with energy := P.energy + ceilNat p 64, runMax := max P.runMax p }

/-- Integrate a pole over the `l` ticks of the interval just completed (05 R127; 10 R273), with its term of E_INT over the same interval
(05 R139). -/
def poleStep (A : ChanSt) (i l : Nat) (packed : Bool) (P : PoleSt) : PoleSt :=
  let own := decide (l = poleDelta A i)
  let pbar := ceilNat (P.energy * 64) l
  let a := (poleWord A i (if own then 0 else 2)).toNat
  let b := (poleWord A i (if own then 1 else 3)).toNat
  { theta := sat24 (ceilDiv (P.theta * a) (2 ^ 23) + ceilDiv ((pbar * b : Nat) : Int) (2 ^ 17))
    eInt := sat24 ((ceilNat (P.runMax * poleC A i l) (2 ^ 17) : Nat) : Int)
    energy := 0, runMax := 0, lastPacked := packed }

/-- Integrate a pole when its interval has elapsed at tick `t` (05 R131, 10 R273). -/
def poleDue (A : ChanSt) (t i : Nat) (packed : Bool) (P : PoleSt) : PoleSt :=
  let d := poleDelta A i
  let leff := if packed then max d 4 else d
  if t % leff ≠ 0 then P else poleStep A i (if d < 4 ∧ P.lastPacked then 4 else if d < 4 ∧ packed ∧ !P.lastPacked then d else leff) packed P

/-- A pole at the steady state of a power (05 R148): θ_i = RTH_i × P, rounded up. The ticks of its running interval that lie before the start
count with that power, so that its first integration finds a whole interval (DESIGN CHOICE, log entry 165). -/
def poleSteady (A : ChanSt) (p t : Nat) (packed : Bool) (i : Nat) (P : PoleSt) : PoleSt :=
  let leff := if packed then max (poleDelta A i) 4 else poleDelta A i
  { P with theta := sat24 ((ceilNat (pRth A i * p) 20000 : Nat) : Int)
           energy := t % leff * ceilNat p 64, runMax := if t % leff = 0 then 0 else p, lastPacked := packed }

/-- A Cone that starts without model state at tick `t` (05 R148). Only a sensor's first valid sample places T_base. -/
def coneInit (A : ChanSt) (t : Nat) (packed : Bool) (K : ConeSt) : ConeSt :=
  let K := mapPoles K (poleSteady A K.lastP t packed)
  { K with init := true, tBase := 256 * pTRefFix A, rErr := if pTsnsMode A = 0 then 0 else 64 * pErrLimit A,
           anchored := false, first := decide (pTsnsMode A ≠ 0), preRun := false, preTicks := 0, peakD := -8388608 }

/-- The latest TSNS sample in QT, and whether it is valid (05 R137): no OVR, and −55 to +200 °C. -/
def tsnsQt (A : ChanSt) : Int := 2 * A.tsnsWord.toInt
def tsnsValid (A : ChanSt) : Bool := !A.tsnsOvr && decide (-14080 ≤ tsnsQt A) && decide (tsnsQt A ≤ 51200)

/-- The residual of a TSNS sample (05 R135). -/
def tsnsResidual (A : ChanSt) (K : ConeSt) : Int := tsnsQt A - K.tBase - floorDiv ((pSnsWeight A : Int) * K.p3.theta) 256

/-- One valid TSNS sample anchors the model (05 R135), the first after a start places T_base (05 R148); divergence is counted (05 R136). -/
def anchorStep (A : ChanSt) (K : ConeSt) : ConeSt :=
  let r := tsnsResidual A K
  if K.first then { K with first := false, anchored := true, tBase := sat24 (K.tBase + r), resid := r }
  else
    let high := decide (64 * pErrLimit A < r.natAbs)
    { K with
      anchored := true, resid := r
      tBase := sat24 (if 0 < r then K.tBase + r else K.tBase + ceilDiv r 16)
      rErr := max r (ceilDiv (15 * K.rErr) 16)
      divHigh := if high then min 8 (K.divHigh + 1) else 0
      divLow := if high then 0 else min 8 (K.divLow + 1) }

/-- While a TSNS fault exists, T_base and R_ERR are held and ANCHORED is clear (05 R137). Its samples are no consecutive samples of R136. -/
def faultHold (A : ChanSt) (K : ConeSt) : ConeSt :=
  { K with tBase := max K.tBase (256 * pTRefFix A), rErr := max K.rErr (64 * pErrLimit A), anchored := false, divHigh := 0, divLow := 0 }

/-- A TSNS fault begins: kind 0 an OVR, 1 out of range, 2 no sample for 10 ms (05 R137, 17 R464). -/
def startTsnsFault (s : State) (c kind : Nat) : State :=
  if (s.cone c).tsnsFault then s
  else
    let s := s.updCone c fun K => faultHold (coneView s c) { K with tsnsFault := true, tsnsGood := 0, faultCount := satInc16 K.faultCount }
    raiseError s 0x207 (srcChan c) (chanDetail s c (kind * 2 ^ 24 + (s.chan c).tsnsWord.toNat))

/-- A channel without a sensor has T_base at T_REF_FIX, no anchor and no TSNS fault (05 R134, R141). -/
def noSensor (s : State) (c : Nat) : State :=
  let was := (s.cone c).tsnsFault
  let s := s.updCone c fun K => { K with
    tBase := 256 * pTRefFix (coneView s c), rErr := 0, tsnsNew := false, anchored := false, first := false, tsnsFault := false, tsnsGood := 0 }
  if was then clearError s 0x207 (srcChan c) else s

/-- The anchor step of an update (05 R132 step 3, R134, R135, R137). The eighth consecutive valid sample ends a fault and anchors; when it is
the first valid sample since the start, it places T_base as R148 says (DESIGN CHOICE, log entry 166). -/
def anchorUpdate (s : State) (c : Nat) : State :=
  let A := coneView s c
  let K := s.cone c
  if pTsnsMode A = 0 then noSensor s c
  else if !K.tsnsNew then (if K.tsnsFault then s.updCone c (faultHold A) else s)
  else
    let s := s.updCone c fun K => { K with tsnsNew := false }
    if !tsnsValid A then
      let s := startTsnsFault s c (if A.tsnsOvr then 0 else 1)
      s.updCone c fun K => faultHold A { K with tsnsGood := 0 }
    else if K.tsnsFault && decide (K.tsnsGood < 7) then s.updCone c fun K => faultHold A { K with tsnsGood := K.tsnsGood + 1 }
    else if K.tsnsFault then s.updCone c fun K => anchorStep A { K with tsnsFault := false, tsnsGood := 8 }
    else s.updCone c (anchorStep A)

/-- D (05 R139), E_INT being the sum of the poles' terms. -/
def doseOf (A : ChanSt) (K : ConeSt) : Int :=
  K.tBase + ceilDiv ((100 + pModelUnc A : Nat) * thetaSum K) 100 + K.rErr + K.eInt

/-- H_T (05 R140; 10 R281, block HEAD), rounded down. -/
def headTemp (A : ChanSt) (K : ConeSt) : Int :=
  mulQ .down (256 * (pTjBend A : Int) - K.tBase - K.rErr - K.eInt) (par A 0x41) 23 - thetaSum K

/-- A column of the SOA table at a voltage in QV, rounded down (05 R143; 10 R281): DERATE / 256 in QF from word 0x48 on, IMAX in QI from 0x58. -/
def soaAt (A : ChanSt) (base : Nat) (v : Int) : Int :=
  (pwlVal (.lin .down) (fun j => par A (base + 2 * j)) (fun j => paramWord A [] (base + 2 * j + 1)) (max v 0)).toInt

/-- I_CONE in 1/32 A at a voltage in QV, rounded down, from the model's present state (05 R140, R141; 10 R281, block HEAD). -/
def iConeAt (A : ChanSt) (K : ConeSt) (vds : Int) : Nat :=
  let power := mulQ .down (mulQ .down (max K.hT 0) (par A 0x42) 12) (soaAt A 0x48 vds) 23
  let i := min (divQ .down power (max (max vds 0) (par A 0x43)) 15) (soaAt A 0x58 vds)
  min (floorDiv i 16).toNat 0xFFFF

/-- Whether the current exceeds IMAX at the present Vds (05 R144). -/
def aboveImax (s : State) (c : Nat) : Bool :=
  let A := coneView s c
  decide (soaAt A 0x58 (vdsQv s c A) < (iQi A).natAbs)

/-- Fields of the headroom word (05 R141). -/
def hdDose (w : BitVec 32) : Bool := bitOf w 31
def hdSoa (w : BitVec 32) : Bool := bitOf w 30
def hdWarnBend (w : BitVec 32) : Bool := bitOf w 29
def hdWarn (w : BitVec 32) : Bool := bitOf w 28
def hdFresh (w : BitVec 32) : Bool := bitOf w 26
def hdCone (w : BitVec 32) : Nat := fld w 0 16

/-- The headroom word of an update (05 R141). BEND_WARN stands from its step until the pre-bend timer clears. -/
def headOf (A : ChanSt) (K : ConeSt) (vds : Int) : BitVec 32 :=
  BitVec.ofNat 32 (b2n (decide (256 * (pTjBend A : Int) ≤ K.dose)) * 2 ^ 31 + b2n (decide (pSoaHold A ≤ K.soaCount) && hdSoa K.head) * 2 ^ 30 +
    b2n (K.preRun && hdWarnBend K.head) * 2 ^ 29 + b2n K.preRun * 2 ^ 28 + b2n K.anchored * 2 ^ 27 + 2 ^ 26 + iConeAt A K vds)

/-- The pre-bend timer of an update (05 R145), `dt` ticks after the previous one: EV_CONE_WARN at its start, EV_CONE_WARN_END at its end. -/
def preBend (s : State) (c dt : Nat) : State :=
  let A := coneView s c
  let K := s.cone c
  if K.preRun then
    if K.dose ≤ 256 * ((pTjWarn A : Int) - 2) then
      let s := s.updCone c fun K => { K with preRun := false, preStarted := false, preTicks := 0 }
      sitterEvent s c 0x1108 [(32, (BitVec.ofInt 32 K.dose).toNat), (32, (K.preTicks + dt) / 4)]
    else s.updCone c fun K => { K with preTicks := K.preTicks + dt, preStarted := false }
  else if 256 * (pTjWarn A : Int) < K.dose then
    let s := s.updCone c fun K => { K with preRun := true, preStarted := true, preTicks := 0 }
    sitterEvent s c 0x1107 [(32, (BitVec.ofInt 32 K.dose).toNat), (8, pTjWarn A)]
  else s.updCone c fun K => { K with preStarted := false }

/-- One Cone update at tick `t`, in the order of 05 R132. -/
def coneUpdateAt (s : State) (c t : Nat) (packed : Bool) : State :=
  let A := coneView s c
  let dt := t - (s.cone c).lastTick
  let s := s.updCone c fun K => if K.init then mapPoles K (fun i P => poleDue A t i packed P) else coneInit A t packed K
  let s := anchorUpdate s c
  let s := s.updCone c fun K =>
    let K := { K with eInt := sat24 (K.p1.eInt + K.p2.eInt + K.p3.eInt) }
    let d := sat24 (doseOf A K)
    { K with dose := d, peakD := max K.peakD d, hT := sat24 (headTemp A K), rHot := rHotOf A (K.tBase + thetaSum K)
             soaCount := if aboveImax s c then min 256 (K.soaCount + 1) else 0 }
  let s := preBend s c dt
  let v := vdsQv s c A
  s.updCone c fun K => { K with headOld := K.head, head := headOf A K v, headTick := t, lastTick := t }

/-- CONE_UPDATE: one update of a hosted Cone of the library schedule (a custom schedule updates in its engine's tick), once in a tick, and in packed service only in ticks whose number is a multiple of 4
(05 R131, R142). Without model state it waits for Draw and the first tick that has a sample
(05 R148). -/
def coneUpdate (c : Chan) (s : State) : State :=
  let A := coneView s c
  match A.cone with
  | none => s
  | some e =>
    let t := clusterTickOf s e
    let packed := (s.engine e).packed
    let K := s.cone c
    let starts := K.sampled && (decide (512 ≤ c.val) || (s.hearth (hOf c)).released)
    if A.prof.isEmpty || !libSched A || (K.init && decide (K.lastTick = t)) || (!K.init && !starts) || (packed && decide (t % 4 ≠ 0)) then s
    else relatch (coneUpdateAt s c t packed) c e t

def execConeUpdate (c : Chan) (s : State) : Host.Outcome State Fault Refusal := .next (coneUpdate c s)

/-- PREBEND_WARN_TIME: the running pre-bend timer reaches WARN_TIME, so BEND_WARN is set (05 R145). -/
def prebendWarnTime (c : Chan) (s : State) : State :=
  let A := coneView s c
  let K := s.cone c
  if K.preRun && decide (pWarnTime A ≠ 0) && decide (4000 * pWarnTime A ≤ K.preTicks) then
    s.updCone c fun K => { K with head := K.head ||| BitVec.ofNat 32 (2 ^ 29) }
  else s

def execPrebendWarnTime (c : Chan) (s : State) : Host.Outcome State Fault Refusal := .next (prebendWarnTime c s)

/-- SOA_PERSISTENCE: the current has exceeded IMAX in SOA_HOLD consecutive updates, so BEND_SOA is set (05 R144). -/
def soaPersistence (c : Chan) (s : State) : State :=
  let A := coneView s c
  if (s.cone c).init && decide (0 < (s.cone c).soaCount) && decide (pSoaHold A ≤ (s.cone c).soaCount) then
    s.updCone c fun K => { K with head := K.head ||| BitVec.ofNat 32 (2 ^ 30) }
  else s

def execSoaPersistence (c : Chan) (s : State) : Host.Outcome State Fault Refusal := .next (soaPersistence c s)

/-- TSNS_TIMEOUT: no TSNS sample for 10 ms, 40,000 ticks, while TSNS_MODE is not 0 (05 R137). -/
def tsnsTimeout (c : Chan) (s : State) : State :=
  if (s.cone c).init && decide (pTsnsMode (coneView s c) ≠ 0) && decide (40000 ≤ (s.cone c).tsnsAge) then startTsnsFault s c 2 else s

def execTsnsTimeout (c : Chan) (s : State) : Host.Outcome State Fault Refusal := .next (tsnsTimeout c s)

/-- TSNS_FAULT_END: the eighth consecutive valid sample has ended the fault (05 R137), so the present bit of its error clears. -/
def tsnsFaultEnd (c : Chan) (s : State) : State :=
  if !(s.cone c).tsnsFault && decide ((s.cone c).tsnsGood = 8) then
    clearError (s.updCone c fun K => { K with tsnsGood := 0 }) 0x207 (srcChan c)
  else s

def execTsnsFaultEnd (c : Chan) (s : State) : Host.Outcome State Fault Refusal := .next (tsnsFaultEnd c s)

/-- CONE_DIVERGENCE: |r| has exceeded ERR_LIMIT on 8 consecutive samples; or, while the error is present, has stayed within it on 8
(05 R136). -/
def coneDivergence (c : Chan) (s : State) : State :=
  let K := s.cone c
  if !K.diverged && decide (8 ≤ K.divHigh) then
    let s := s.updCone c fun K => { K with diverged := true, divCount := satInc16 K.divCount }
    raiseError s 0x206 (srcChan c) (chanDetail s c (BitVec.ofInt 32 K.resid).toNat)
  else if K.diverged && decide (8 ≤ K.divLow) then
    clearError (s.updCone c fun K => { K with diverged := false }) 0x206 (srcChan c)
  else s

def execConeDivergence (c : Chan) (s : State) : Host.Outcome State Fault Refusal := .next (coneDivergence c s)

end Sys2Proof.Machine
end

