-- ==== Sys2Proof/Machine/Breaker.lean ====
section
/-! DEFINITION. The Sitter's arithmetic: the Damper setpoint, the breaker accumulator, the twin's curve (03 R75 to R90; 04 R99 to R105,
R116 to R123). -/
namespace Sys2Proof.Machine
open Sys2Proof

/-- The setpoint of R75 in QI (10 R280, block SETPT): the smallest of a segment's limit, the fold-back term of its power at Vds, and I_CONE.
At a Vds of zero or less the division saturates, so that the fold-back term does not bound. -/
def setpoint (A : ChanSt) (seg icone : Nat) (vds : Int) : Int :=
  min (min (divQ .down (par A (0x11 + 2 * seg)) vds 15) (par A (0x10 + 2 * seg))) (16 * icone)

/-- The ISET code of a current in QI: 0.1 mV a step, rounded down, 0 to 1023 (03 R75 to R77; 10 R280). -/
def isetCode (A : ChanSt) (i : Int) : Nat := min 1023 (mulQ .down i (par A 0x09) 26).toNat

/-- The code of ILIM_RUN, full scale when it is 0 (03 R84). -/
def runIset (A : ChanSt) : Nat := if pIlimRun A = 0 then 1023 else isetCode A (64 * pIlimRun A)

/-- The setpoint of a twin that enhances in Ramping: its ILIM_RUN, the headroom still bounding it (03 R75, R92; 04 R124). -/
def runSetpoint (A : ChanSt) (icone : Nat) : Int := if pIlimRun A = 0 then 16 * icone else min (64 * pIlimRun A) (16 * icone)

/-- The excess current of R90 in QI over a setpoint: 0 unless it exceeds 2 % of the setpoint plus 0.2 mV / RSHUNT. -/
def excessQi (A : ChanSt) (p : Int) : Int :=
  let x := iQi A - p
  if p * pRshunt A + 5120000 < 50 * x * pRshunt A then x else 0

/-- The increment of A in one tick on a curve at a current in QI, in 2^-46, rounded up to a UF24 and again to the grid of A; none at or below the
continuous point (04 R101; 10 R270, R271). -/
def curveRise (pts : List (Nat × Nat)) (x : Int) : Option Nat :=
  let xs (j : Nat) : Int := (curveWord pts (2 * j)).toInt
  if pwlSpot xs x = .first then none else some (uf24Grid (pwlVal .uf24 xs (fun j => curveWord pts (2 * j + 1)) x))

/-- The increment of a tick: an OVR sample counts as above the last point (04 R103). -/
def riseOf (A : ChanSt) (pts : List (Nat × Nat)) (x : Int) : Option Nat := curveRise pts (if A.iOvr then 8388607 else x)

/-- The accumulator after one tick (04 R101, R102, R105): a rise, or the drain; unchanged in the handover shadow. -/
def breakerNext (A : ChanSt) (shadow : Bool) (rise : Option Nat) : ChanSt :=
  if shadow then { A with aStarted := false, rose := false }
  else match rise with
    | some d => { A with a := min (A.a + d) (2 ^ 48 - 1), aStarted := decide (A.a = 0), rose := true }
    | none => { A with a := A.a - 2 ^ 44 / max 1 (drainUs (profWord A 11)), aStarted := false, rose := false }

/-- Whether SHADOW stands in the latest SAMPLE frame of a channel's hearth (04 R105, 09 R233). -/
def inShadow (s : State) (c : Nat) : Bool := tabGet false s.frameShadow (c / 64)

/-- The headroom word that the Sitter of channel `c` reads in tick `n`: as the Cone latched it in an earlier tick, FRESH only when in the
previous one (05 R142, 09 R233). -/
def headRead (K : ConeSt) (n : Nat) : BitVec 32 :=
  let w := if K.headTick < n then K.head else K.headOld
  if K.headTick + 1 = n then w else w &&& ~~~(BitVec.ofNat 32 (2 ^ 26))

/-- Codes of the reasons of EV_TWIN_SOLO (12 R319). -/
def soloEvent (s : State) (c : Nat) (v : TwinView) (reason : Nat) : State :=
  sitterEvent (s.updChan c fun A => { A with twinReason := BitVec.ofNat 8 reason }) c 0x1105 [(8, v.pair % 256), (16, v.other), (8, reason)]

/-- The third condition of R119 from one side: a current below FLOOR / 16 of the other's while that exceeds the shared P0 current. -/
def belowFloor (v : TwinView) (ri ro : Nat) (i o : BitVec 16) : Bool :=
  decide (16 * i.toInt * ro < v.floor * (o.toInt * ri)) && decide ((((v.points.getD 0 (0, 0)).1 * ro : Nat) : Int) < 32 * o.toInt)

/-- The twin's judgement of one tick `n` (04 R119 to R123, R126). The return to the shared curve and the twin-open report are steps of
their own; here their counts run. -/
def twinStep (s : State) (c n : Nat) : State :=
  match twinView s c with
  | none => s
  | some v =>
    let A := s.chan c
    if twinSplit s c v then
      let s' := s.updChan c fun A => { A with twinShared := false, twinOk := 0, twinLow := 0, twinSplit := true }
      let s' := clearError s' 0x205 (srcChan c)
      if A.twinSplit then s' else soloEvent s' c v 3
    else
      let B := s.chan v.other
      let good := decide (A.obs = .good) && decide (B.obs = .good)
      let trip := A.tripPrev || (twinOuts s v.other n).2
      let low := belowFloor v (pRshunt A) (pRshunt B) A.iWord B.iWord
      let floor := low || belowFloor v (pRshunt B) (pRshunt A) B.iWord A.iWord
      let ok := good && !trip && !floor
      let s' := s.updChan c fun A => { A with
        twinSplit := false
        twinShared := A.twinShared && ok
        twinOk := if ok && !A.twinShared then min 4000 (A.twinOk + 1) else 0
        twinLow := if decide (A.obs = .good) && low then min 4000 (A.twinLow + 1) else 0 }
      let s' := if decide (A.obs = .good) && low then s' else clearError s' 0x205 (srcChan c)
      if A.twinShared && !ok then soloEvent s' c v (if trip then 1 else if good then 2 else 0) else s'

/-- The curve that the Sitter applies: the shared one or the channel's own (04 R119). -/
def curveOf (s : State) (c : Nat) : List (Nat × Nat) :=
  match twinView s c with
  | some v => if (s.chan c).twinShared then v.points else pPoints (s.chan c)
  | none => pPoints (s.chan c)

/-- TWIN_RETURN: 4,000 ticks after R119's first three conditions came to hold, both twins return to the shared curve (04 R121). -/
def twinReturn (t : Fin 512) (s : State) : State :=
  let ws := tabGet [] s.books.twins t.val
  let w := ws.getD 0 0
  let o := if t.val < 256 then 0 else 512
  let a := o + twChA w
  let b := o + twChB w
  if twOn w && served s a && served s b && servedHere s a && servedHere s b && decide (4000 ≤ (s.chan a).twinOk) && decide (4000 ≤ (s.chan b).twinOk) then
    let one (s : State) (c other : Nat) : State :=
      sitterEvent (s.updChan c fun A => { A with twinShared := true, twinOk := 0 }) c 0x1106 [(8, t.val % 256), (16, other)]
    one (one s a b) b a
  else s

def execTwinReturn (t : Fin 512) (s : State) : Host.Outcome State Fault Refusal := .next (twinReturn t s)

/-- TWIN_OPEN: a Good twin has lain below the share floor for 4,000 ticks (04 R123). -/
def twinOpen (c : Chan) (s : State) : State :=
  match twinView s c with
  | none => s
  | some v =>
    if decide (4000 ≤ (s.chan c).twinLow) && !twinSplit s c v && !errPresent s 0x205 (srcChan c) then
      raiseError s 0x205 (srcChan c) (chanDetail s c (v.other + 2 ^ 16 * (v.pair % 256)))
    else s

def execTwinOpen (c : Chan) (s : State) : Host.Outcome State Fault Refusal := .next (twinOpen c s)

end Sys2Proof.Machine
end

