-- ==== Sys2Proof/Machine/Sitter.lean ====
section
/-! DEFINITION. The Sitter role of the library ramp-and-breaker schedule: the state that it takes from the hearth, one tick of it, and the
steps in which one of its timers runs out (02, 03, 04, 07 R189, 09 R233 to R252, 10 R280). -/
namespace Sys2Proof.Machine
open Sys2Proof

/-- Fields of the STATE input word (09 R233). -/
def swGateOff (w : BitVec 16) : Bool := bitOf w 11
def swGateFull (w : BitVec 16) : Bool := bitOf w 10
def swSpyV (w : BitVec 16) : Nat := fld w 6 2
def swRefused (w : BitVec 16) : Bool := bitOf w 3

/-- A channel whose three protective trips from the Sitter apply. -/
def activeState (x : ChState) : Bool := match x with | .ramping | .full | .good => true | _ => false

/-- Whether an observed state that differs from the commanded one is a change that the hearth made on its own authority (02 R42, R70).
Any other difference is a request on its way, or a disagreement. -/
def ownChange (commanded obs : ChState) : Bool :=
  match obs with
  | .vacant | .held => true
  | .tripped => (match commanded with | .cooling | .locked | .off | .seated => false | _ => true)
  | .locked => (match commanded with | .seated => false | _ => true)
  | .seated | .off => (match commanded with | .vacant | .held => true | _ => false)
  | .full | .good => decide (commanded = .held)
  | _ => false

/-- The Sitter takes the observed state after a refusal (02 R71). The channel never left a state that it goes on in, so the counters that run from
its entry go on. -/
def takeRefused (A : ChanSt) : ChanSt :=
  match A.obs with
  | .ready | .ramping | .full | .good | .cooling => { A with commanded := A.obs, skewTicks := 0 }
  | x => commandTo x A

/-- The Sitter meets a STATE frame: it takes a change of the hearth's own, and the observed state after a refusal (02 R70, R71). Either ends a
disagreement, its error and its resending. -/
def adoptState (s : State) (c : Nat) : State :=
  let A := s.chan c
  let own := ownChange A.commanded A.obs
  if A.commanded = A.obs then clearError (s.updChan c fun A => { A with skewTicks := 0, resend := none }) 0x201 (srcChan c)
  else if own || swRefused A.stWord then
    let s := s.updChan c fun A =>
      { (if own then commandTo A.obs A else takeRefused A) with hearthTrip := decide (A.obs = .tripped) && !swRefused A.stWord, resend := none }
    clearError s 0x201 (srcChan c)
  else s

/-- The latest Full condition of R49: GATE_FULL, and Vds at or below VDS_FULL. -/
def vdsLow (s : State) (c : Nat) : Bool :=
  let A := s.chan c
  decide (1000 * vdsQv s c A ≤ 32768 * pVdsFull A)

/-- A progress window that ends now fails (03 R87): V_OUT rose by less than DVDT_MIN × 1 ms, 20 mV codes against 10 mV. -/
def windowFails (A : ChanSt) : Bool := decide (20 * ((A.vWord.toNat : Int) - A.winStart.toNat) < 10 * pDvdt A)

/-- The fourth failing window ends now (03 R87, R88). -/
def progressDue (A : ChanSt) : Bool :=
  decide (A.commanded = .ramping) && decide (4000 ≤ A.winTicks) && !A.winShadow && windowFails A && decide (3 ≤ A.winFails)

/-- A has reached 1 by a rise in the latest tick (04 R102). -/
def atTrip (A : ChanSt) : Bool := A.rose && decide (2 ^ 46 ≤ A.a)

/-- Of a pair whose accumulators reach 1 in one tick on the shared curve, only the twin of the lower number trips (04 R122). -/
def yieldsTrip (s : State) (c : Nat) : Bool :=
  match twinView s c with
  | some v => (s.chan c).twinShared && decide (v.other < c) && (s.chan v.other).twinShared && atTrip (s.chan v.other) &&
      decide (sitterTick s c = sitterTick s v.other)
  | none => false

/-- The breaker trip falls due (04 R102). -/
def breakerDue (s : State) (c : Nat) : Bool :=
  activeState (s.chan c).commanded && atTrip (s.chan c) && !yieldsTrip s c

/-- Sub-causes of a cone bend that hold now (05 R146): dose, SOA, warning time, and in Ramping starvation (03 R89). -/
def coneSubs (A : ChanSt) (head : BitVec 32) : Nat :=
  if activeState A.commanded then
    b2n (hdDose head) + 2 * b2n (hdSoa head) + 4 * b2n (hdWarnBend head) +
      8 * b2n (decide (A.commanded = .ramping) && decide (hdCone head < 4 * pFloor A))
  else 0

/-- The causes, in the bits of a TRIP request, that are due on a channel now (03 R91; 04 R111; 09 R236). -/
def dueCauses (s : State) (c : Nat) : Nat :=
  let A := s.chan c
  b2n (decide (coneSubs A (s.cone c).headSeen ≠ 0)) + 2 * b2n (breakerDue s c) + 4 * b2n (progressDue A) +
    8 * b2n (decide (A.commanded = .ramping) && decide (0 < A.rampTicks) && decide (400 * pDeadline A ≤ A.rampTicks)) +
    16 * b2n ((decide (A.commanded = .full) || decide (A.commanded = .good)) && decide (4 ≤ A.holdTicks))

/-- Trip a channel with every cause that is due, and `extra` (04 R111). -/
def tripDue (s : State) (c extra : Nat) : State :=
  sitterTrip s c (Nat.lor (dueCauses s c) extra) (coneSubs (s.chan c) (s.cone c).headSeen)

/-- Every charge of a ramp starts afresh (03 R84, R86, R87). `follow`: no firing schedule is run; `seg` 1: it enhances at once. -/
def rampStart (follow : Bool) (seg : Nat) (A : ChanSt) : ChanSt :=
  { commandTo .ramping A with followEnh := follow, seg := seg, segTicks := 0, winTicks := 0, winFails := 0, winShadow := false, rampTicks := 0, igMode := 0 }

/-- Gate mode and setpoint in QI of a Ramping channel (03 R75, R84, R92). -/
def rampSet (s : State) (c : Nat) (head : BitVec 32) : Nat × Int :=
  let A := s.chan c
  let p := setpoint A (min A.seg (pSegM1 A)) (hdCone head) (vdsQv s c A)
  if A.followEnh then (if A.seg = 0 then (0, 0) else (3, runSetpoint A (hdCone head)))
  else if segsDone A then (3, p)
  else if segType (segNow A) = 1 then (1, p) else (2, p)

/-- The progress window of a RAMP segment in this tick (03 R87, R88). A window that ends is judged in a step of its own. -/
def windowTick (shadow : Bool) (A : ChanSt) : ChanSt :=
  if A.segTicks = 0 then { A with winTicks := 1, winFails := 0, winStart := A.vWord, winShadow := shadow }
  else { A with winTicks := A.winTicks + 1, winShadow := A.winShadow || shadow }

/-- VEND of a RAMP segment is reached (03 R84): V_OUT ≥ VEND / 256 × V_GBUS. -/
def vendReached (s : State) (c vend : Nat) : Bool :=
  decide (vend * (tabGet ((0 : BitVec 16), false) s.gbus (c / 64)).1.toNat ≤ 3200 * (s.chan c).vWord.toNat)

/-- VEND of the last RAMP segment (04 R126). -/
def lastVend (A : ChanSt) : Nat :=
  ((List.range (pSegM1 A + 1)).map (pSeg A)).foldl (fun v w => if segType w = 1 then segVend w else v) 255

/-- The next segment starts in the next tick. -/
def nextSegment (A : ChanSt) : ChanSt := { A with seg := A.seg + 1, segTicks := 0, winTicks := 0, winFails := 0, winShadow := false, igMode := 0 }

/-- A RAMP segment of the firing schedule runs. -/
def rampSeg (A : ChanSt) : Bool := !A.followEnh && !segsDone A && decide (segType (segNow A) = 1)

/-- The counters of a tick of Ramping (03 R84, R86, R87). -/
def rampCount (shadow : Bool) (A : ChanSt) : ChanSt :=
  let A := if rampSeg A then windowTick shadow A else A
  { A with rampTicks := A.rampTicks + 1, segTicks := A.segTicks + 1 }

/-- The follower of R92 trips: the leader's trip request, the leader Tripped, or the leader still Ready while the follower is Ramping. -/
def followAborts (s : State) (c n : Nat) : Bool :=
  match twinView s c with
  | some v => (s.chan c).followEnh && decide ((s.chan c).seg = 0) && !twinSplit s c v &&
      ((twinOuts s v.other n).2 || decide ((s.chan v.other).obs = .tripped) ||
        (decide ((s.chan v.other).obs = .ready) && decide ((s.chan c).obs = .ramping)))
  | none => false

/-- The follower of R92 enhances from the first tick in which its port shows the leader Full. -/
def followEnhances (s : State) (c : Nat) : Bool :=
  match twinView s c with
  | some v => (s.chan c).followEnh && decide ((s.chan c).seg = 0) && !twinSplit s c v &&
      (decide ((s.chan v.other).obs = .full) || decide ((s.chan v.other).obs = .good))
  | none => false

/-- The breaker on the excess current of a Ramping tick (03 R90). -/
def rampBreak (s : State) (c : Nat) (head : BitVec 32) : State :=
  let A := s.chan c
  s.updChan c fun A' => breakerNext A' (inShadow s c) (riseOf A (curveOf s c) (excessQi A (rampSet s c head).2))

/-- One tick of a Ramping channel: setpoint, breaker on the excess current, segments, windows, the Full condition, cone bend (03 R75 to
R91). `req` is 2 in the tick that requests RAMP, else 0. Full is withheld while a trip is due in the tick (02 R50, 03 R91), and with `hold` in
the tick after a refusal. -/
def rampTick (s : State) (c n req : Nat) (head : BitVec 32) (hold : Bool) : State :=
  let s := if followEnhances s c then s.updChan c fun A => { A with seg := 1, igMode := 0 } else s
  let aborts := followAborts s c n
  let (g, p) := rampSet s c head
  let ramp := rampSeg (s.chan c)
  let s := (rampBreak s c head).updChan c (rampCount (inShadow s c))
  let A := s.chan c
  if aborts || decide (coneSubs A head ≠ 0) then tripDue s c (if aborts then 32 else 0)
  else if swGateFull A.stWord && vdsLow s c && !breakerDue s c && !progressDue A && decide (req = 0) && !hold then
    sitterOut (s.updChan c (commandTo .full)) c (cmdWord 3 3 (isetCode A p))
  else
    let s := if ramp && vendReached s c (segVend (segNow A)) && !progressDue A then s.updChan c nextSegment else s
    sitterOut s c (cmdWord req g (isetCode A p))

/-- The feed condition of R52: the hearth reports a selected feed in STEADY, LEAD or TAIL (08 R205, R206), and on a hearth of this device that feed's
spyhole presents INSIDE and resolved, with no confirmed loss standing. -/
def feedGood (s : State) (c : Nat) : Bool :=
  let w := tabGet (0 : BitVec 16) s.feedWord (c / 64)
  let G := s.group (c / 64)
  let y := s.spy (130 * (c / 64) + (match G.sel with | some .b => 129 | _ => 128))
  decide (fld w 14 2 ≠ 0) && (decide (fld w 11 3 = 1) || decide (fld w 11 3 = 3) || decide (fld w 11 3 = 6)) &&
    (decide (512 ≤ c) || (!G.standing && !y.starting && decide (y.st = .inside)))

/-- The start conditions of R52: feed and START_DELAY; the ramp allowance, by the observed states of the group's channels; the Cone's headroom at
Vds = V_GBUS for the first segment and I_FLOOR (03 R85). -/
def startFeedDelay (s : State) (c : Nat) : Bool := feedGood s c && decide (40 * pStartDelay (s.chan c) ≤ (s.chan c).readyTicks)

/-- The ramp allowance of a group, of this device or of the partner's Book (08 R203). -/
def rampAllowOf (s : State) (h : Nat) : Nat := if h < 8 then (s.hearth h).rampAllow else tabGet 4 s.books.allow (h - 8)

def startAllowed (s : State) (c : Nat) : Bool :=
  decide (((List.range 64).filter fun k => decide ((s.chan (64 * (c / 64) + k)).obs = .ramping)).length < rampAllowOf s (c / 64))

def startCone (s : State) (c : Nat) : Bool :=
  let A := s.chan c
  let v := gbusUv s c
  let ic := iConeAt A (s.cone c) (gbusQv s c)
  let w := pSeg A 0
  (s.cone c).init && decide (4 * pFloor A ≤ ic) && (decide (4 * segIlim w ≤ ic) || decide (3200000 * segPfold w ≤ ic * v))

/-- How a Ready channel that meets its start conditions ramps: none to wait, else whether it follows and where it begins (03 R92; 04 R124,
R126). -/
def startMode (s : State) (c n : Nat) : Option (Bool × Nat) :=
  match twinView s c with
  | none => some (false, 0)
  | some v =>
    let leads := decide (c < v.other)
    if twinSplit s c v then
      if leads then some (false, 0) else if vendReached s c (lastVend (s.chan c)) then some (true, 1) else none
    else if (s.chan v.other).obs = .good then some (true, 1)
    else if (s.chan c).startSeen && (twinOuts s v.other n).1 then some (!leads, 0)
    else none

/-- The channel drains as for I at or below the continuous point in every state but Ramping, Full and Good (04 R101). -/
def drainTick (s : State) (c : Nat) : State := s.updChan c fun A => breakerNext A (inShadow s c) none

/-- A twin that would start with the other waits for nothing but its own conditions (03 R92; 04 R126). -/
def twinReady (s : State) (c n : Nat) : Bool :=
  match twinView s c with
  | none => true
  | some v =>
    if twinSplit s c v then decide (c < v.other) || vendReached s c (lastVend (s.chan c))
    else decide ((s.chan v.other).obs = .good) || (twinOuts s v.other n).1

/-- One tick of a Ready channel (02 R52; 03 R85, R92; 05 R147). With `hold`, in the tick after a refusal, it asks for nothing. -/
def readyTick (s : State) (c n : Nat) (head : BitVec 32) (hold : Bool) : State :=
  let fd := startFeedDelay s c && startAllowed s c
  let co := startCone s c
  let s := s.updChan c fun A => { A with
    startOk := fd && co, coneWait := if fd && twinReady s c n && !co then A.coneWait + 1 else 0 }
  match (if fd && co && !hold then startMode s c n else none) with
  | some (f, g) => rampTick (s.updChan c (rampStart f g)) c n 2 head hold
  | none => sitterOut (drainTick s c) c (cmdWord 0 0 0)

/-- The under-voltage timer of one tick (07 R189). In the handover shadow it does not start (04 R105). -/
def uvTick (s : State) (c : Nat) : State :=
  let A := s.chan c
  if (decide (A.obs = .full) || decide (A.obs = .good)) && decide (swSpyV A.stWord = 1) then
    if A.uvRun || !inShadow s c then s.updChan c fun A => { A with uvRun := true, uvTicks := if A.uvRun then A.uvTicks + 1 else 0 } else s
  else if A.uvRun then clearError (s.updChan c fun A => { A with uvRun := false, uvTicks := 0 }) 0x20B (srcChan c)
  else s

/-- Whether a fault timer of R53 runs: breaker, under-voltage, pre-bend. -/
def timerRuns (A : ChanSt) (head : BitVec 32) : Bool := decide (0 < A.a) || A.uvRun || hdWarn head

/-- One tick of the power-good dwell (02 R54, R55): a tick counts in which no fault timer runs, none ran in the one before, and Vds is at
or below VDS_FULL. -/
def dwellTick (run low : Bool) (A : ChanSt) : ChanSt :=
  { A with dwell := if run || A.ran || !low then 0 else A.dwell + 1 }

/-- The breaker in a tick of Full or Good (04 R101). While the STATE frame still shows Ramping, the counters of the ramp go on, for the case that the
hearth refuses Full (03 R86, R87). -/
def fullBreak (s : State) (c : Nat) : State :=
  let A := s.chan c
  let s := s.updChan c fun A' => breakerNext A' (inShadow s c) (riseOf A (curveOf s c) (iQi A))
  if A.obs = .ramping then s.updChan c (rampCount (inShadow s c)) else s

/-- Whether the power-good dwell of Good is under early drop (02 R57). -/
def earlyDrop (A : ChanSt) : Bool := decide (A.commanded = .good) && pEarly A

/-- The counters of a tick of Full or Good (02 R54 to R58; 04 R114). `start`: a fault timer started in the tick. -/
def fullCount (s : State) (c : Nat) (head : BitVec 32) (start : Bool) : State :=
  let A := s.chan c
  let run := timerRuns A head
  let low := vdsLow s c
  s.updChan c fun A =>
    let A := { A with holdTicks := if swGateFull A.stWord then 0 else A.holdTicks + 1
                      decay := if A.commanded = .good then A.decay + 1 else A.decay }
    let A := if A.commanded = .full || (earlyDrop A && A.pgDrop && !start) then dwellTick run low A else { A with dwell := 0 }
    { A with pgDrop := A.pgDrop || (earlyDrop A && start) }

/-- A fault timer of R53 started in this tick. -/
def timerStarts (A : ChanSt) (head : BitVec 32) (uvBefore warnBefore : Bool) : Bool :=
  A.aStarted || (A.uvRun && !uvBefore) || (hdWarn head && !warnBefore)

/-- One tick of a Full or Good channel (02 R54 to R58; 04 R101, R114). -/
def fullTick (s : State) (c : Nat) (head : BitVec 32) (uvBefore warnBefore : Bool) : State :=
  let s := fullBreak s c
  let start := timerStarts (s.chan c) head uvBefore warnBefore
  let s := fullCount s c head start
  let A := s.chan c
  if coneSubs A head ≠ 0 then tripDue s c 0
  else sitterOut s c (cmdWord (if earlyDrop A && start then 11 else 0) 3 (runIset A))

/-- The request that the Sitter acts on (09 R237): RESET, OFF, ON, CONSENT, the first that R49 allows from the observed state; its bit,
request code and target. -/
def pickRequest (obs : ChState) (req : BitVec 4) : Option (Nat × Nat × ChState) :=
  let off := (requestTarget obs 7 true).isSome
  if bitOf req 3 && decide (obs ≠ .vacant) && decide (obs ≠ .held) then some (8, 9, .seated)
  else if bitOf req 1 && off then some (2, 7, .off)
  else if bitOf req 2 && decide (obs = .off) then some (4, 8, .seated)
  else if bitOf req 0 && decide (obs = .seated) then some (1, 1, .ready)
  else none

/-- Answer the CHAN commands that wait for the Sitter of a channel to read their request (17 R454). A CHAN.RESET performed is a commanded reset of
the channel (11 R288); one that came by the Works stands with mailbox 0. -/
def answerChan (s : State) (c : Nat) (req : BitVec 4) (acted : Nat) (obs : ChState) : State :=
  let f (m : Mbox) : Mbox := match m.acted with
    | some (c', b) => if c' = c ∧ req.toNat / b % 2 = 1 then
        { m with acted := none, answer := some (0, [BitVec.ofNat 8 (stCode obs), BitVec.ofNat 8 (b2n (decide (b = acted)))]) } else m
    | none => m
  let box := ((s.host.mboxes.find? fun p => p.2.acted = some (c, 8)).map (·.1)).getD 0
  let s := if acted = 8 then commandedReset s (srcChan c) 0x0203 box else s
  s.setHost { s.host with
      mboxes := s.host.mboxes.foldl (fun t p => tabSet {} t p.1 (f p.2)) s.host.mboxes
      fwd := s.host.fwd.foldl (fun t p => tabSet {} t p.1 (f p.2)) s.host.fwd }

/-- The Sitter reads its REQ port: it acts on one bit and discards the rest (09 R237). A channel reset also clears the Sitter's own timers
(02 R69); consent is given by the READY request (02 R51). -/
def readRequests (s : State) (c : Nat) : State :=
  let A := s.chan c
  let s := s.updChan c fun A => { A with req := 0 }
  match pickRequest A.obs A.req with
  | none => answerChan s c A.req 0 A.obs
  | some (bit, code, target) =>
    let s := s.updChan c (commandTo target)
    let s := if bit = 1 then s.updChan c fun A => { A with consented := true } else s
    let s := if bit = 8 then clearError (s.updChan c fun A =>
      { A with a := 0, uvRun := false, uvTicks := 0, retry := 0, hostOn := false, pgDrop := false }) 0x20B (srcChan c) else s
    let s := answerChan s c A.req bit A.obs
    let s := sitterOut s c (cmdWord code 0 0)
    if c < 512 ∧ bit = 8 then s.updChan c (commandTo (s.cell c).state) else s

/-- The trip register as the Sitter reads it (09 R233, TRIPREG). -/
def tripRegOf (s : State) (c : Nat) : BitVec 16 := if c < 512 then (s.cell c).tripReg else (s.chan c).tripReg

/-- A Tripped channel whose gate-off confirmation the STATE frame shows and whose retry is still to be decided (04 R113). -/
def retryDue (s : State) (c : Nat) : Bool :=
  let A := s.chan c
  decide (A.commanded = .tripped) && decide (A.obs = .tripped) && swGateOff A.stWord &&
    (decide (512 ≤ c) || (decide ((s.cell c).state = .tripped) && (s.cell c).confirmed && !(s.cell c).offPend))

/-- The bend bits of the headroom word as sub-causes, which the Cone records in every state (05 R146). -/
def bendBits (head : BitVec 32) : Nat := b2n (hdDose head) + 2 * b2n (hdSoa head) + 4 * b2n (hdWarnBend head)

/-- The bend check failed: a TRIP request with cause cone bend takes the place of the Sitter's word (09 R246). -/
def bendOverride (s : State) (c e sub : Nat) : State := sitterTrip (mismatch s c 2 e) c 1 sub

/-- The Cone's checks on the Sitter's latest command word (09 R245, R246): a bend bit of the headroom word that the Sitter read without a TRIP
request, and in Ramping an ISET above the code of I_CONE plus 1. `k` is the Cone's engine. -/
def coneChecks (s : State) (c k : Nat) : State :=
  let A := s.chan c
  let h := (s.cone c).headSeen
  let trip := decide (fld A.cmd 12 4 = 10)
  if (hdDose h || hdSoa h || hdWarnBend h) && !trip && activeState A.obs && activeState A.commanded then
    bendOverride s c k (Nat.lor (s.cone c).sub.toNat (bendBits h))
  else if decide (A.obs = .ramping) && decide (A.commanded = .ramping) && !trip && decide (isetCode A (16 * hdCone h) + 1 < fld A.cmd 0 10) then
    mismatch s c 1 k
  else s

/-- The DIGEST that the engine of a peer role latched in the tick before `n` fits its mirror slot of `len` words (09 R245). An engine that latched
no words or no check word of that tick is the check unit's to judge. -/
def digestOk (s : State) (p n len : Nat) : Bool :=
  let M := mirrorAt s p n
  let w := checkAt (s.engine p) n
  M.isEmpty || decide (fld w 24 8 ≠ (n - 1) % 256) || decide (fld w 0 24 = digestOf (tabRun 0 M 0 len))

/-- The checks of the two roles on each other in tick `n` of the Sitter on engine `e`, outside packed service (09 R245). A Cone that has no
model state yet writes no headroom word (05 R148; log entry 168). -/
def peerChecks (s : State) (c e n : Nat) : State :=
  match (s.chan c).cone with
  | none => s
  | some k =>
    if k = e then s
    else
      let s := coneChecks s c k
      let s := if (s.cone c).init && !hdFresh (headRead (s.cone c) n) then mismatch s c 3 e else s
      let s := if digestOk s k n 19 then s else mismatch s c 4 e
      if digestOk s e n 13 then s else mismatch s c 4 k

/-- The start of a Sitter's tick: the outputs of the last tick step back, the counters that run in every tick advance. -/
def sitterLatch (A : ChanSt) : ChanSt :=
  { A with startSeen := A.startOk, tripPrev := A.tripReq, startOk := false, tripReq := false
           skewTicks := if A.commanded = A.obs then 0 else A.skewTicks + 1
           goodTime := if A.obs = .good then A.goodTime + 250 else A.goodTime }

/-- The breaker accumulation of a tick in which the Sitter acts on a request (10 R280, block REQ). -/
def breakerNow (s : State) (c : Nat) (head : BitVec 32) : State :=
  let A := s.chan c
  if A.commanded = .ramping then rampBreak s c head
  else s.updChan c fun A' => breakerNext A' (inShadow s c) (if activeState A.commanded then riseOf A (curveOf s c) (iQi A) else none)

/-- The word of a tick without a request, by the commanded state (02, 03, 04): a request acts from the tick in which it is written (02 R54, 03 R84),
before the STATE frame shows it (log entry 167). With `hold`, in the tick after a refusal, no request is written, so that the next one is
judged afresh (02 R71). A trip that a replay decided is requested at the takeover tick (09 R251). -/
def stateWord (s : State) (c n : Nat) (head : BitVec 32) (hold uvBefore warnBefore : Bool) : State :=
  let A := s.chan c
  if A.replayDue ≠ 0 && activeState A.commanded then tripDue (breakerNow s c head) c A.replayDue
  else match A.commanded with
  | .ramping => rampTick s c n 0 head hold
  | .full | .good => fullTick s c head uvBefore warnBefore
  | .ready => readyTick s c n head hold
  | .tripped => if retryDue s c && !hold then gateOffDecision (drainTick s c) c (tripRegOf s c)
      else sitterOut (drainTick s c) c (if fld A.cmd 12 4 = 10 then A.cmd else cmdWord 0 0 0)
  | .held => drainTick s c
  | _ => sitterOut (drainTick s c) c (cmdWord 0 0 0)

/-- The word of this tick (09 R237). A request is read only in a tick without a trip, of the hearth or of the Sitter, and not in the tick after a
refusal. -/
def sitterWord (s : State) (c n : Nat) (head : BitVec 32) (uvBefore warnBefore : Bool) : State :=
  let A := s.chan c
  let hold := swRefused A.stWord && A.stFresh
  let t := stateWord s c n head hold uvBefore warnBefore
  if A.req = 0 || A.hearthTrip || hold then t
  else if (t.chan c).tripReq || decide (dueCauses t c ≠ 0) then t
  else match pickRequest A.obs A.req with
    | none => readRequests t c
    | some _ => readRequests (breakerNow s c head) c

/-- The Sitter's reading of the headroom word in its tick; the sub-causes that hold are recorded (05 R146; 09 R245). -/
def noteHead (s : State) (c : Nat) (head : BitVec 32) : State :=
  let subs := Nat.lor (coneSubs (s.chan c) head) (bendBits head)
  s.updCone c fun K => { K with headSeen := head, sub := if subs = 0 then K.sub else BitVec.ofNat 4 subs }

/-- One tick `n` of the Sitter role of channel `c` on engine `e`. -/
def sitterTickAt (s : State) (c e n : Nat) : State :=
  let A := s.chan c
  if A.prof.isEmpty then s
  else
    let head := headRead (s.cone c) n
    let s := peerChecks (s.updChan c sitterLatch) c e n
    let warnBefore := hdWarn (s.cone c).headSeen
    let s := noteHead s c head
    let s := uvTick (twinStep s c n) c
    let s := sitterWord s c n head A.uvRun warnBefore
    let ready := decide (A.commanded = .ready) || decide (A.obs = .ready)
    let cooling := decide (A.commanded = .cooling) || decide (A.obs = .cooling)
    s.updChan c fun A => { A with
      ran := timerRuns A head, stFresh := false, hearthTrip := false, replayDue := 0
      readyTicks := if ready then A.readyTicks + 1 else A.readyTicks, backoff := if cooling then A.backoff + 1 else A.backoff }

/-- One catch-up tick of the Sitter role (09 R250, R251; 10 R282): the breaker and the counters of the tick, on its inputs. No word is
written: a trip that falls due is kept for the takeover tick, and so is a PG_DROP request. -/
def catchUpSitter (s : State) (c : Nat) (head : BitVec 32) : State :=
  let A := s.chan c
  let s := uvTick s c
  let warnBefore := hdWarn (s.cone c).headSeen
  let s := match A.commanded with
    | .ramping => (rampBreak s c head).updChan c (rampCount (inShadow s c))
    | .full | .good =>
      let s := fullBreak s c
      let start := timerStarts (s.chan c) head A.uvRun warnBefore
      let s := fullCount s c head start
      if earlyDrop A && start then s.updChan c fun A => { A with resend := some (cmdWord 11 3 (runIset A)) } else s
    | _ => drainTick s c
  let due := dueCauses s c
  s.updChan c fun A => { A with
    ran := timerRuns A head, replayDue := Nat.lor A.replayDue due
    readyTicks := if A.commanded = .ready then A.readyTicks + 1 else A.readyTicks
    backoff := if A.commanded = .cooling then A.backoff + 1 else A.backoff }

/-- Whether the channel's Sitter runs the library schedule on an engine, so that the Sitter's timers of this model are its own. -/
def sitterRuns (s : State) (c : Nat) : Bool :=
  let H := s.hearth (hOf c)
  (s.chan c).sitter.isSome && !(s.chan c).prof.isEmpty && libSched (s.chan c) && !(decide (c < 512) && H.held && decide (H.holder = .cross))

/-- BREAKER_TRIP: A has reached 1 (04 R102). Of two twins that reach it together on the shared curve, the higher number yields and applies
its solo curve (04 R122). -/
def breakerTrip (c : Chan) (s : State) : State :=
  if !sitterRuns s c then s
  else if breakerDue s c then tripDue s c 0
  else if activeState (s.chan c).commanded && atTrip (s.chan c) && yieldsTrip s c then
    (match twinView s c with
     | some v => soloEvent (s.updChan c fun A => { A with twinShared := false, twinOk := 0, rose := false }) c v 1
     | none => s)
  else s

def execBreakerTrip (c : Chan) (s : State) : Host.Outcome State Fault Refusal := .next (breakerTrip c s)

/-- A trip of the Sitter, taken when its bit is among the causes due. -/
def tripIfDue (s : State) (c bit : Nat) : State :=
  if sitterRuns s c && decide (dueCauses s c / bit % 2 = 1) then tripDue s c 0 else s

/-- RAMP_DEADLINE: no Full condition by the end of the ramp deadline (03 R86). -/
def rampDeadline (c : Chan) (s : State) : State := tripIfDue s c 8

def execRampDeadline (c : Chan) (s : State) : Host.Outcome State Fault Refusal := .next (rampDeadline c s)

/-- GATE_HOLD_CHECK: the gate has been below VGS_FULL for 4 consecutive ticks in Full or Good (02 R58). -/
def gateHoldCheck (c : Chan) (s : State) : State := tripIfDue s c 16

def execGateHoldCheck (c : Chan) (s : State) : Host.Outcome State Fault Refusal := .next (gateHoldCheck c s)

/-- PROGRESS_WINDOW_END: a progress window of 4,000 ticks ends (03 R87, R88): it fails, passes or counts neither way; the fourth failure
trips the channel. -/
def progressWindowEnd (c : Chan) (s : State) : State :=
  let A := s.chan c
  if !(sitterRuns s c && decide (A.commanded = .ramping) && decide (4000 ≤ A.winTicks)) then s
  else if progressDue A then tripDue s c 0
  else s.updChan c fun A => { A with
    winTicks := 0, winStart := A.vWord, winShadow := false
    winFails := if A.winShadow then A.winFails else if windowFails A then A.winFails + 1 else 0 }

def execProgressWindowEnd (c : Chan) (s : State) : Host.Outcome State Fault Refusal := .next (progressWindowEnd c s)

/-- SOAK_DURATION_END: a SOAK segment ends after its DURATION (03 R84). -/
def soakDurationEnd (c : Chan) (s : State) : State :=
  let A := s.chan c
  if sitterRuns s c && decide (A.commanded = .ramping) && !A.followEnh && !segsDone A && decide (segType (segNow A) = 2) &&
      decide (40 * segDuration (segNow A) ≤ A.segTicks) then s.updChan c nextSegment
  else s

def execSoakDurationEnd (c : Chan) (s : State) : Host.Outcome State Fault Refusal := .next (soakDurationEnd c s)

/-- PG_DWELL_COMPLETE: PG_DWELL ticks of dwell have been counted (02 R54): Full becomes Good; under early drop PG is raised again (02 R57).
A trip that is due in the tick wins (02 R50). -/
def pgDwellComplete (c : Chan) (s : State) : State :=
  let A := s.chan c
  if !(sitterRuns s c && decide (0 < pDwell A) && decide (pDwell A ≤ A.dwell) && decide (dueCauses s c = 0)) then s
  else if A.commanded = .full then sitterCmd (s.updChan c (commandTo .good)) c (cmdWord 4 3 (runIset A))
  else if A.commanded = .good ∧ A.pgDrop then
    sitterCmd (s.updChan c fun A => { A with pgDrop := false, dwell := 0 }) c (cmdWord 12 3 (runIset A))
  else s

def execPgDwellComplete (c : Chan) (s : State) : Host.Outcome State Fault Refusal := .next (pgDwellComplete c s)

/-- BACKOFF_END: the back-off has elapsed since the entry to Cooling (04 R113). -/
def backoffEnd (c : Chan) (s : State) : State :=
  let A := s.chan c
  if sitterRuns s c && decide (A.commanded = .cooling) && decide (backoffTicks (profWord A 16) A.retry ≤ A.backoff) then
    sitterCmd (s.updChan c (commandTo .ready)) c (cmdWord 1 0 0)
  else s

def execBackoffEnd (c : Chan) (s : State) : Host.Outcome State Fault Refusal := .next (backoffEnd c s)

/-- DECAY_INTERVAL: a DECAY interval of uninterrupted Good ends; in the tick of a trip, of the Sitter or of the hearth, the
decrement is not applied (04 R114). -/
def decayInterval (c : Chan) (s : State) : State :=
  let A := s.chan c
  let trips := A.hearthTrip || decide (A.obs = .tripped) || (decide (c.val < 512) && trippedThisTick (s.cell c))
  if sitterRuns s c && decide (A.commanded = .good) && decide (0 < pDecay A) && decide (400000 * pDecay A ≤ A.decay) && decide (dueCauses s c = 0) &&
      !trips then
    s.updChan c fun A => { A with decay := 0, retry := A.retry - 1 }
  else s

def execDecayInterval (c : Chan) (s : State) : Host.Outcome State Fault Refusal := .next (decayInterval c s)

/-- STATE_SKEW: commanded and observed state have disagreed for more than 20 µs, and then every 20 µs (01 R36; 02 R71): the error, which merges while
it is present and is counted once in SKEWS (02 R74), and the command again, a KEEP word with its Damper fields first. -/
def stateSkew (c : Chan) (s : State) : State :=
  let A := s.chan c
  if (s.chan c).sitter.isSome && decide (A.commanded ≠ A.obs) && decide (80 < A.skewTicks) then
    let merged := errPresent s 0x201 (srcChan c)
    let s := raiseError s 0x201 (srcChan c) (chanDetail s c A.lastReq.toNat)
    let s := s.updChan c fun A => { A with skews := if merged then A.skews else satInc16 A.skews, skewTicks := 1, resend := some A.lastReq }
    sitterCmd s c (BitVec.ofNat 16 (fld A.lastReq 0 12))
  else s

def execStateSkew (c : Chan) (s : State) : Host.Outcome State Fault Refusal := .next (stateSkew c s)

/-- UV_TIME_REACHED: the under-voltage timer has run for UV_TIME (07 R189). -/
def uvTimeReached (c : Chan) (s : State) : State :=
  let A := s.chan c
  let t := yUvTime (pSpyV A)
  if sitterRuns s c && A.uvRun && decide (t ≠ 0) && decide (400 * t ≤ A.uvTicks) && !errPresent s 0x20B (srcChan c) then
    raiseError (sitterEvent s c 0x110C [(8, t)]) 0x20B (srcChan c) (chanDetail s c t)
  else s

def execUvTimeReached (c : Chan) (s : State) : Host.Outcome State Fault Refusal := .next (uvTimeReached c s)

/-- CONE_WAIT: the headroom alone has kept a Ready channel from Ramping for 1 s (05 R147); once until it next ramps. -/
def coneWaitEvent (c : Chan) (s : State) : State :=
  let A := s.chan c
  if sitterRuns s c && decide (A.commanded = .ready) && decide (4000000 ≤ A.coneWait) && !A.coneWaitDone then
    sitterEvent (s.updChan c fun A => { A with coneWaitDone := true }) c 0x1109
      [(16, iConeAt A (s.cone c) (gbusQv s c)), (16, pFloor A)]
  else s

def execConeWait (c : Chan) (s : State) : Host.Outcome State Fault Refusal := .next (coneWaitEvent c s)

/-- START_DELAY_ELAPSED: START_DELAY has passed since the entry to Ready, so the start conditions are judged (02 R52). -/
def startDelayElapsed (c : Chan) (s : State) : State :=
  let A := s.chan c
  if sitterRuns s c && decide (A.commanded = .ready) && decide (A.obs = .ready) && decide (40 * pStartDelay A ≤ A.readyTicks) &&
      decide (A.resend = none) && !(A.stFresh && swRefused A.stWord) && startFeedDelay s c && startAllowed s c && startCone s c then
    match startMode s c (sitterTick s c) with
    | some (f, g) => rampTick (s.updChan c (rampStart f g)) c (sitterTick s c) 2 (s.cone c).headSeen false
    | none => s.updChan c fun A => { A with startOk := true }
  else s

def execStartDelayElapsed (c : Chan) (s : State) : Host.Outcome State Fault Refusal := .next (startDelayElapsed c s)

end Sys2Proof.Machine
end

