-- ==== Sys2Proof/Machine/ClusterTick.lean ====
section
/-! DEFINITION. SAMPLE frames at the Crown, the cluster tick and the parameter bank swap (01 R17, R22, R30, R31; 09 R230 to R246, R258;
06 R160, R176). -/
namespace Sys2Proof.Machine
open Sys2Proof

/-- Whether this device's engines serve a channel. -/
def hosted (A : ChanSt) : Bool := !A.prof.isEmpty

/-- The tick in which a frame of hearth `h` that arrives now is presented (09 R230). -/
def presentTick (s : State) (h : Nat) : Nat := (s.cluster h).tick + 1

/-- The value of a housekeeping record at the Sitter and the Cone (06 R176): GBUS, TSNS. A record with SETTLE and no OVR is withheld. Every record of
GBUS reaches the Sitter's port, whatever its OWNER says (DESIGN CHOICE, log entry 169). -/
def hkUse (s : State) (h : Nat) (w : BitVec 64) : State :=
  let inp := fld w 57 7
  let ovr := bitOf w 48
  let v : BitVec 16 := w.extractLsb' 0 16
  if !ovr && bitOf w 47 then s
  else if inp = 64 then (s.putGbus h (v, ovr)).putGbusNew h true
  else if inp < 64 ∧ hosted (s.chan (64 * h + inp)) then
    s.updChan (64 * h + inp) fun A => { A with tsnsWord := v, tsnsOvr := ovr, tsnsFresh := true }
  else s

/-- A housekeeping record at its owners (06 R176, R177; 17 R462): the log of the entry, the Sitter and the Cone. -/
def hkArrive (s : State) (h : Nat) (w : BitVec 64) : State :=
  let e := 32 * h + fld w 52 5
  let r := tabGet ((0 : BitVec 64), (0 : BitVec 64), (0 : BitVec 32)) s.hkRecs e
  let at_ : BitVec 64 := BitVec.ofNat 64 (s.time.tai - fld w 31 14)
  hkUse (s.putHkRec e (w, at_, satInc r.2.2)) h w

/-- The clusters that serve a hearth (01 R17; 09 R254). -/
def clustersOf (s : State) (h : Nat) : List Nat := if h < 8 ∧ !s.boot.packed then [h, h + 8] else [h]

/-- A frame of hearth `h` enters the ingress history of the clusters that serve it, for their next tick (09 R227, R230). -/
def recordIngress (s : State) (h : Nat) (late : Bool) (blocks : List (BitVec 64)) (entries : List (BitVec 16)) : State :=
  forEach (clustersOf s h) (fun s n => s.updCluster n fun K => { K with
    ingress := { hearth := h, tick := K.tick + 1, late := late, blocks := blocks, entries := entries } ::
      K.ingress.filter fun x => decide (K.tick + 1 < x.tick + 8) }) s

/-- One channel's part of a SAMPLE frame: its samples when they complete in the frame's tick (06 R160). -/
def sampleChan (blocks : List (BitVec 64)) (ip vp k : Nat) (late : Bool) (A : ChanSt) : ChanSt :=
  let f := blocks.getD 11 0
  let i := k / 2
  let v := k / 8
  let A := { A with iFresh := decide (k % 2 = ip), vFresh := decide (k % 8 = vp), tsnsFresh := false, late := late }
  let A := if k % 2 = ip then
      { A with iWord := BitVec.ofNat 16 (fld (blocks.getD (1 + i / 4) 0) (16 * (i % 4)) 16), iOvr := bitOf f i } else A
  if k % 8 = vp then
    { A with vWord := BitVec.ofNat 16 (fld (blocks.getD (9 + v / 4) 0) (16 * (v % 4)) 16), vOvr := bitOf f (32 + v) } else A

/-- SAMPLE_FRAME: the samples of a hearth tick cross into the clusters that serve the hearth (01 R17, R22; 06 R160). -/
def sampleFrame (h : Hearth16) (blocks : List (BitVec 64)) (late : Bool) (s : State) : State :=
  let s := takeUp s h
  if s.boot.cracked then s
  else
    let d := blocks.getD 0 0
    let ip := fld d 5 1
    let vp := fld d 2 3
    let s := recordIngress s h late blocks []
    let s := forEach (List.range 64) (fun s k =>
      if hosted (s.chan (64 * h.val + k)) then s.updChan (64 * h.val + k) (sampleChan blocks ip vp k late) else s) s
    let s := ((s.putFrameShadow h (bitOf d 7)).putFrameTick h (presentTick s h)).putGbusNew h false
    if bitOf d 6 then hkArrive s h (blocks.getD 12 0) else s

def execSampleFrame (h : Hearth16) (_tick : BitVec 12) (blocks : List (BitVec 64)) (late : Bool) (s : State) :
    Host.Outcome State Fault Refusal :=
  .next (sampleFrame h blocks late s)

/-- Whether the latest SAMPLE frame of a channel's hearth is presented in tick `n`. -/
def frameNow (s : State) (c n : Nat) : Bool := decide (tabGet 0 s.frameTick (c / 64) = n)

/-- The FLAGS input word (09 R233). -/
def flagsWord (s : State) (c n : Nat) (E : Engine) : Nat :=
  let A := s.chan c
  let now := frameNow s c n
  let g := tabGet ((0 : BitVec 16), false) s.gbus (c / 64)
  b2n (now && A.iFresh) + 2 * b2n (now && A.vFresh) + 4 * b2n (now && tabGet false s.gbusNew (c / 64)) + 8 * b2n (now && A.tsnsFresh) +
    16 * b2n (inShadow s c) + 32 * b2n (now && A.late) + 64 * b2n A.iOvr + 128 * b2n A.vOvr + 256 * b2n g.2 + 512 * b2n A.tsnsOvr +
    1024 * E.active.val + 2048 * b2n E.packed + 4096 * b2n (E.packed && decide (n % 4 = 0))

/-- The TWIN_STATE input word (09 R233; 04 R118, R126). -/
def twinWord (s : State) (c n : Nat) : Nat × Nat :=
  match twinView s c with
  | none => (0, 0)
  | some v =>
    if twinSplit s c v then (0, 0)
    else
      let o := twinOuts s v.other n
      ((s.chan v.other).iWord.toNat, stCode (s.chan v.other).obs * 4096 + 4 * b2n o.1 + 2 + b2n o.2)

/-- The input port words of an engine for channel `c` in tick `n` (09 R233). -/
def portWords (s : State) (c e n : Nat) : Tab (BitVec 16) :=
  let A := s.chan c
  let E := s.engine e
  let h := (headRead (s.cone c) n).toNat
  let t := twinWord s c n
  let P := checkAt (s.engine (peerEngine e)) n
  let ws : List (BitVec 16) := [BitVec.ofNat 16 n, BitVec.ofNat 16 (flagsWord s c n E), A.iWord, A.vWord,
    (tabGet ((0 : BitVec 16), false) s.gbus (c / 64)).1, A.tsnsWord, A.stWord, tripRegOf s c, BitVec.ofNat 16 h, BitVec.ofNat 16 (h / 65536),
    BitVec.ofNat 16 t.1, BitVec.ofNat 16 t.2, A.req.setWidth 16, tabGet 0 s.feedWord (c / 64), P.extractLsb' 0 16,
    P.extractLsb' 16 16]
  tabPut 0 [] 0 ws

/-- Present the inputs of tick `n` to an engine (09 R230). The check word that stands there becomes the previous tick's. -/
def loadPorts (s : State) (c e n : Nat) : State :=
  let ins := portWords s c e n
  s.updEngine e fun E => { E with ins := ins, checkOld := checkOut E }

/-- One tick of the Cone role besides its update: the tick's power into the poles, the peak, and the age of the TSNS sample (05 R129,
R131, R137; 13 R339). -/
def conePower (s : State) (c n : Nat) : State :=
  let A := coneView s c
  let now := frameNow s c n
  let p := if now && A.iFresh then powerOf s c else (s.cone c).lastP
  s.updCone c fun K =>
    let K := { K with lastP := p, peak := max K.peak p, sampled := K.sampled || (now && A.iFresh)
                      tsnsNew := K.tsnsNew || (now && A.tsnsFresh)
                      tsnsAge := if pTsnsMode A = 0 ∨ (now && A.tsnsFresh) then 0 else min (K.tsnsAge + 1) 1048576 }
    if K.init then mapPoles K fun _ => poleTick p else K

/-- An event request leaves an engine for its channel's hearth (09 R238). -/
def sendRequest (s : State) (c : Nat) (q : EventReq) : State :=
  if c < 512 then (if obeys (s.hearth (hOf c)) .loc then numberRequest s (hOf c) q else s)
  else if !downOpen s c then s
  else sendEventReq s (c / 64) { q with source := BitVec.ofNat 16 (srcChan (c % 512)) }

/-- The commanded state that a command word asks for (09 R235). -/
def wordState (obs : ChState) (w : BitVec 16) : Option ChState :=
  if fld w 12 4 = 10 then some .tripped else requestTarget obs (fld w 12 4) true

/-- The REQ bit that a command word acts on (09 R237). -/
def wordBit (obs : ChState) (w : BitVec 16) : Nat :=
  match fld w 12 4 with
  | 9 => 8 | 7 => 2 | 8 => 4
  | 1 => if obs = .seated then 1 else 0
  | _ => 0

/-- The outputs of a custom schedule's Sitter at the end of a tick: command word, START_OK, requests read (09 R230, R232, R234, R237). Of a word that asks for
nothing, a command that is to be sent again takes the place (01 R36). -/
def latchCmd (s : State) (c e : Nat) : State :=
  let E := s.engine e
  let w : BitVec 16 := tabGet 0 E.outs 0x40
  let A := s.chan c
  let s := s.updChan c fun A => { A with startOk := bitOf (tabGet (0 : BitVec 16) E.outs 0x49) 0, tripReq := decide (fld w 12 4 = 10) }
  let s := if A.cmd ≠ w then (match wordState A.obs w with | some x => s.updChan c (commandTo x) | none => s) else s
  let s := if E.reqRead then answerChan (s.updChan c fun A => { A with req := 0 }) c A.req (wordBit A.obs w) A.obs else s
  sitterOut s c w

/-- The outputs of a custom schedule's Cone: the headroom word and the sub-cause mask (09 R234; 05 R141, R146). -/
def latchHead (s : State) (c e n : Nat) : State :=
  let E := s.engine e
  let s := if E.wrote.contains 0x48 then s.updCone c fun K => { K with sub := BitVec.ofNat 4 (fld (tabGet (0 : BitVec 16) E.outs 0x48) 0 4) } else s
  if E.wrote.contains 0x41 || E.wrote.contains 0x42 then
    s.updCone c fun K => { K with headOld := K.head, headTick := n
                                  head := (tabGet (0 : BitVec 16) E.outs 0x42) ++ (tabGet (0 : BitVec 16) E.outs 0x41) }
  else s

/-- The end of an engine's tick: mirror slot, check word, event requests (09 R230, R238, R243, R244). A single bad check word is a
corrected error; the second in a row is a failure of its own step. -/
def endTick (s : State) (c e n : Nat) : State :=
  let E := s.engine e
  let w := checkOut E
  let there := E.wrote.contains 0x46
  let good := there && decide (fld w 24 8 = n % 256)
  let s := latchSlot s e (carryWords E) good
  let s := s.updEngine e fun E => { E with
    ranTick := n, mirrorTick := if good then n else E.mirrorTick
    badChecks := if good then 0 else E.badChecks + 1, events := [], loopSitter := false, loopCone := false, catchUp := 0 }
  let s := if good then s else raiseError s 0x105 (srcEngine e) ((if there then w.toNat else 0) + 2 ^ 32 * (n % 2 ^ 32))
  E.events.foldl (fun s q => sendRequest s c q) s

/-- One tick of an engine that runs a custom schedule for channel `c` in one or both roles. The schedule makes its own checks on the peer role
(10 R274). -/
def customTick (s : State) (c e n : Nat) (sitter cone : Bool) : State :=
  let s := if sitter then
      (let h := headRead (s.cone c) n
       (s.updChan c sitterLatch).updCone c fun K => { K with headSeen := h }) else s
  let s := engineTick ⟨e % 1024, Nat.mod_lt _ (by decide)⟩ s
  if (s.engine e).failed then s
  else
    let s := endTick s c e n
    let s := if cone then latchHead s c e n else s
    let s := if sitter then latchCmd s c e else s
    s.updChan c fun A => { A with stFresh := false, hearthTrip := false }

/-- The end of the tick of an engine that runs the library schedule for channel `c` (09 R230). -/
def libTickEnd (s : State) (c e n : Nat) (sitter cone : Bool) : State :=
  let s := s.updEngine e (libLatch s c n sitter cone)
  let s := latchSlot s e (libCarry s c sitter cone).2 true
  s.updEngine e fun E => { E with ranTick := n, mirrorTick := n, badChecks := 0 }

/-- One tick of the library schedule for channel `c`: the Sitter on engine `st`, the Cone on engine `co`. -/
def libTick (s : State) (c t : Nat) (st co : Option Nat) : State :=
  let s := match st with | some e => libTickEnd (sitterTickAt s c e t) c e t true (decide (co = some e)) | none => s
  match co with
  | some k => if st = some k then s else libTickEnd s c k t false true
  | none => s

/-- One tick of the roles that a cluster hosts for channel `c`. -/
def roleTick (n t : Nat) (s : State) (c : Nat) : State :=
  let A := s.chan c
  let onCluster (x : Option Nat) : Option Nat := match x with | some e => if e / 64 = n ∧ !(s.engine e).failed then some e else none | none => none
  let st := onCluster A.sitter
  let co := onCluster A.cone
  let s := match st with | some e => loadPorts s c e t | none => s
  let s := match co with | some e => if st = some e then s else loadPorts s c e t | none => s
  let s := if co.isSome && !A.coneProf.isEmpty then conePower s c t else s
  if libSched A then libTick s c t st co
  else match st, co with
    | some a, some b => if a = b then customTick s c a t true true else customTick (customTick s c a t true false) c b t false true
    | some a, none => customTick s c a t true false
    | none, some b => customTick s c b t false true
    | none, none => s

/-- The channels of this device's engines, in ascending order. -/
def servedChans (s : State) : List Nat := (s.chans.filter fun p => hosted p.2).map (·.1)

/-- The engines stand still: from the entry to Banked to 24 µs into the wake (16 R435, R438). -/
def enginesStopped (s : State) : Bool :=
  s.boot.devState == 2 || s.boot.devState == 3 || (s.boot.devState == 4 && decide (s.host.wakeStage < 4))

/-- An engine's bank refers to a region of the schedule store, by its ENTRY or REPLAY (09 R258). -/
def bankRefers (first len : Nat) (B : Tab W24) : Bool :=
  let hit (a : Nat) : Bool := decide (first ≤ a) && decide (a < first + len)
  hit (fld (tabGet (0 : W24) B 0) 0 13) || hit (fld (tabGet (0 : W24) B 1) 0 13)

/-- Free the regions of a cluster that no bank refers to, but for those of the schedules loaded for a later commit (09 R258, 17 R459). -/
def freeRegions (s : State) (n : Nat) : State :=
  let keep (r : Region) : Bool :=
    (s.engines.any fun p => decide (p.1 / 64 = n) && (bankRefers r.first r.len p.2.bank0 || bankRefers r.first r.len p.2.bank1)) ||
      (s.books.loaded.any fun l => l.id == r.id && l.digest == r.digest)
  s.updCluster n fun K => { K with regions := K.regions.filter keep }

/-- One tick of an engine cluster (09 R230): the regions of the store that no bank refers to
are freed (R258), the input ports switch, every role that the cluster hosts runs, and its outputs are latched
and sent. A failed cluster has no ticks, and neither has a stopped one. -/
def clusterRuns (n : ClusterNo) (s : State) : State :=
  if (s.cluster n).failed || s.boot.cracked || enginesStopped s then s
  else
    let t := (s.cluster n).tick + 1
    let s := s.updCluster n fun K => { K with tick := t }
    let s := if (s.cluster n).regions.isEmpty then s else freeRegions s n
    let s := forEach (servedChans s) (roleTick n t) s
    if t % 16 = 0 ∧ n.val < 8 then fullCmd s n else s

/-- A channel at the swap of the cluster `n` of its Sitter role, of its Cone role, or both (01 R31; 05 R150): the profile that the commit wrote, and
with an empty one its roles end. A channel without an engine has its mapped clusters. -/
def swapProf (packed : Bool) (n c : Nat) (A : ChanSt) : ChanSt :=
  match A.profNext with
  | none => A
  | some p =>
    let A := if A.sitter.getD c / 64 = n then
        { A with prof := p, sitter := if p.isEmpty then none else A.sitter, takeover := if p.isEmpty then none else A.takeover } else A
    let A := if A.cone.getD (if packed || decide (512 ≤ c) then c else c + 512) / 64 = n then
        { A with coneProf := p, cone := if p.isEmpty then none else A.cone } else A
    if A.prof = p ∧ A.coneProf = p then { A with profNext := none } else A

/-- PARAMETER_BANK_SWAP: a requested swap takes effect at the tick edge (01 R31): the engines' banks, and the profiles that their roles read. A
Cone's model state carries over (05 R150). -/
def parameterBankSwap (n : ClusterNo) (s : State) : State :=
  if !(s.cluster n).swap || (s.cluster n).failed then s
  else
    let s := s.updCluster n fun K => { K with swap := false }
    let es := (s.engines.filter fun p => decide (p.1 / 64 = n.val)).map (·.1)
    let s := forEach es (fun s e => s.updEngine e fun E => { E with active := 1 - E.active }) s
    let cs := (s.chans.filter fun p => p.2.profNext.isSome).map (·.1)
    let s := forEach cs (fun s c => s.updChan c (swapProf s.boot.packed n c)) s
    freeRegions s n

def execParameterBankSwap (n : ClusterNo) (s : State) : Host.Outcome State Fault Refusal := .next (parameterBankSwap n s)

/-- The fixed command word of an unhosted channel, by its observed state (09 R252). -/
def unhostedWord (A : ChanSt) : BitVec 16 :=
  match A.obs with
  | .full | .good => cmdWord 0 3 (runIset A)
  | .ramping => tripWord 8 0
  | _ => cmdWord 0 0 0

/-- An unhosted channel: configured, with no engine and no takeover due (09 R252). -/
def unhosted (A : ChanSt) : Bool := hosted A && A.sitter.isNone && A.takeover.isNone

/-- What the entry of an adopted channel into a state counts and clears (02 R65, R69, R74; 04 R115): SEATS and the seat cycle at Seated from
Vacant, LOCKS at Locked. An own channel's are counted at its cell. -/
def countAdopted (x : ChState) (A : ChanSt) : ChanSt :=
  if A.obs = .vacant ∧ x = .seated then { A with seats := satInc A.seats, retry := 0, a := 0, uvRun := false, uvTicks := 0 }
  else if A.obs ≠ .locked ∧ x = .locked then { A with locks := satInc16 A.locks }
  else A

/-- One channel's entry of a STATE frame (02 R70; 09 R233, R252). The codes 0xB to 0xF name no state. -/
def stateEntryIn (s : State) (c : Nat) (w : BitVec 16) : State :=
  if !hosted (s.chan c) then s
  else match stOf (fld w 12 4) with
  | none => s
  | some x =>
    let adopted := decide (512 ≤ c) && downOpen s c
    let s := s.updChan c fun A => { (if adopted then countAdopted x A else A) with obs := x, stWord := w, stFresh := true }
    let s := adoptState s c
    if unhosted (s.chan c) then sitterCmd s c (unhostedWord (s.chan c)) else s

/-- A STATE frame has come on the lane in use (01 R24). -/
def seeState (s : State) (h : Nat) : State := s.updLink h fun L => { L with seen := true }

/-- What every STATE frame does at the Crown: the hearth-state block, the feed status word, and the 64 entries. -/
def stateFrameIn (s : State) (h : Nat) (entries : List (BitVec 16)) (hstate : BitVec 64) : State :=
  let s := scheduleFirst s 4 h (s.time.tai + 1000000)
  let s := recordIngress ((s.putHblock h hstate).putFeedWord h (hstate.extractLsb' 0 16)) h false [] entries
  forEach (List.range 64) (fun s k => match entries[k]? with
    | some w => stateEntryIn s (64 * h + k) w
    | none => s) s

end Sys2Proof.Machine
end

