-- ==== Sys2Proof/Machine/EngineRows.lean ====
section
/-! DEFINITION. Engine failure, takeover, re-hosting, recomputation, packing and unpacking (09 R244 to R257). -/
namespace Sys2Proof.Machine
open Sys2Proof

/-- CHECK_UNIT_FAILURE: two bad check words in two consecutive ticks fail the engine (09 R244). -/
def checkUnitFailure (e : EngineNo) (s : State) : State := if 2 ≤ (s.engine e).badChecks then failEngine s e 3 else s

def execCheckUnitFailure (e : EngineNo) (s : State) : Host.Outcome State Fault Refusal := .next (checkUnitFailure e s)

/-- Code of the cause of an engine failure (17 R464). -/
def failCode : EngineFailCause → Nat
  | .overrun => 1 | .doubleBit => 2 | .checkUnit => 3 | .recomputation => 4 | .cluster => 5

/-- ENGINE_FAILED: an engine fails (09 R248, R249). -/
def execEngineFailed (e : EngineNo) (cause : EngineFailCause) (s : State) : Host.Outcome State Fault Refusal :=
  .next (failEngine s e (failCode cause))

/-- The schedule loaded under an ID for the own or the partner's Book (09 R260). -/
def loadedFor (s : State) (partner : Bool) (id : Nat) : Option Loaded := s.books.loaded.find? fun l => l.id == id && l.partner == partner

/-- The region of a cluster that holds a form of a schedule of the own or the partner's Book (09 R229, R258). -/
def regionFor (s : State) (n : Nat) (partner : Bool) (id form : Nat) : Option Region :=
  match loadedFor s partner id with
  | none => none
  | some l => (s.cluster n).regions.find? fun r => r.id == id && r.form == form && r.digest == l.digest

/-- The descriptor that starts a form of a schedule on an engine of cluster `n` (10 R264). -/
def descFor (s : State) (n : Nat) (partner : Bool) (id kind : Nat) : List W24 :=
  if id = 1 then libDesc kind else match regionFor s n partner id kind with | some r => r.desc | none => []

/-- The words of a parameter bank with a descriptor in front (10 R264). -/
def bankWith (desc : List W24) (B : Tab W24) : Tab W24 := tabPut 0 B 0 desc

/-- The inactive bank of an engine, and an engine with another one. -/
def inactiveOf (E : Engine) : Tab W24 := if E.active = 0 then E.bank1 else E.bank0
def setInactive (E : Engine) (B : Tab W24) : Engine := if E.active = 0 then { E with bank1 := B } else { E with bank0 := B }

/-- An engine's own bank swap at a tick edge (01 R31; 10 R264): `B` is written to the inactive bank, which becomes active. While a swap of its
cluster waits, `P` then waits in the inactive bank. -/
def switchBank (waits : Bool) (B P : Tab W24) (E : Engine) : Engine :=
  let E := setInactive E B
  let E := { E with active := 1 - E.active }
  if waits then setInactive E P else E

/-- Engine `to_` starts a form of the schedule of channel `c` by a bank swap (09 R229; 10 R264): the parameter words of the engine that served the
channel with the form's descriptor, and the carry words of the roles. -/
def takeForm (s : State) (c from_ to_ kind : Nat) (words : List W24) : State :=
  let desc := descFor s (to_ / 64) (decide (512 ≤ c)) (pSched (s.chan c)) kind
  let F := s.engine from_
  let waits := (s.cluster (to_ / 64)).swap
  let next := bankWith desc (if (s.cluster (from_ / 64)).swap then inactiveOf F else bankOf F)
  if desc.isEmpty then s
  else s.updEngine to_ fun E =>
    let E := switchBank waits (if waits then bankWith desc (bankOf F) else next) next E
    { E with mem := tabPut 0 E.mem (carryBase E) words }

/-- The words of an engine's mirror slot: the latest, and those of the mirror tick (09 R227, R250). -/
def mirrorWords (s : State) (e : Nat) : List W24 := tabRun 0 (mirrorOf s e).words 0 (carryLen (s.engine e))
def mirrorGood (s : State) (e : Nat) : List W24 := tabRun 0 (mirrorOf s e).good 0 (carryLen (s.engine e))

/-- The Crown's record of a channel with the input words that an engine held. -/
def withWords (w : Tab (BitVec 16)) (A : ChanSt) : ChanSt :=
  let fl : BitVec 16 := tabGet 0 w 1
  let st : BitVec 16 := tabGet 0 w 6
  { A with iWord := tabGet 0 w 2, vWord := tabGet 0 w 3, tsnsWord := tabGet 0 w 5, stWord := st, iOvr := bitOf fl 6, vOvr := bitOf fl 7
           tsnsOvr := bitOf fl 9, obs := (stOf (fld st 12 4)).getD A.obs, iFresh := false, vFresh := false, tsnsFresh := false }

/-- A frame of the ingress history presented again to channel `c`. -/
def presentFrame (c : Nat) (s : State) (x : Ingress) : State :=
  let h := c / 64
  if x.blocks.isEmpty then
    s.updChan c fun A => let w := x.entries.getD (c % 64) 0
                         { A with stWord := w, obs := (stOf (fld w 12 4)).getD A.obs }
  else
    let d := x.blocks.getD 0 0
    let s := s.updChan c (sampleChan x.blocks (fld d 5 1) (fld d 2 3) (c % 64) x.late)
    let s := ((s.putFrameShadow h (bitOf d 7)).putFrameTick h x.tick).putGbusNew h false
    if bitOf d 6 then hkUse s h (x.blocks.getD 12 0) else s

/-- The inputs of channel `c` as they stood in tick `t` (09 R250, 10 R275): what the failed engine `e` held, brought up to the tick by the frames
that the ingress history of cluster `q` holds. -/
def pastState (s : State) (c e q t : Nat) : State :=
  let w := (s.engine e).ins
  let fl : BitVec 16 := tabGet 0 w 1
  let s := ((s.updChan c (withWords w)).putGbus (c / 64) (tabGet 0 w 4, bitOf fl 8)).putFrameShadow (c / 64) (bitOf fl 4)
  ((s.cluster q).ingress.reverse.filter fun x => decide (x.hearth = c / 64) && decide (x.tick ≤ t)).foldl (presentFrame c) s

/-- The inputs of channel `c` as `r` has them, in `s`. -/
def sameInputs (r s : State) (c : Nat) : State :=
  let A := r.chan c
  let h := c / 64
  let s := s.updChan c fun B => { B with
    iWord := A.iWord, vWord := A.vWord, stWord := A.stWord, iOvr := A.iOvr, vOvr := A.vOvr, tsnsWord := A.tsnsWord, tsnsOvr := A.tsnsOvr
    iFresh := A.iFresh, vFresh := A.vFresh, tsnsFresh := A.tsnsFresh, late := A.late, obs := A.obs }
  (((s.putGbus h (tabGet (0, false) r.gbus h)).putFrameShadow h (tabGet false r.frameShadow h)).putFrameTick h (tabGet 0 r.frameTick h)).putGbusNew h
    (tabGet false r.gbusNew h)

/-- One catch-up tick of the library roles (09 R250; 10 R275, R282): the Cone's power and the Sitter's breaker and counters advance on the inputs of
tick `t`; no word is written. -/
def replayTick (c e q : Nat) (sitter cone : Bool) (s : State) (t : Nat) : State :=
  let x := pastState s c e q t
  let x := if cone then conePower x c t else x
  let x := if sitter then catchUpSitter x c (headRead (x.cone c) t) else x
  sameInputs s x c

/-- The takeover of channel `c` by host `p` from engine `e` at the tick edge of `next`, with `k` catch-up ticks (09 R250). The lost role's carry
state comes from the mirror slot of the mirror tick. -/
def takeOver (s : State) (c e p next k : Nat) : State :=
  let A := s.chan c
  let st := A.sitter.isNone
  let co := A.cone.isNone
  let lost := mirrorGood s e
  let own := carryWords (s.engine p)
  let ticks := (List.range k).map fun i => next - k + i
  let past := (ticks.reverse.map fun t => portWords (pastState s c e (p / 64) t) c p t)
  let s := takeForm s c e p 2 (if st && co then lost else if st then lost ++ own else own ++ lost)
  let s := s.updChan c fun A => { A with sitter := some p, cone := some p, takeover := none }
  let s := s.updEngine p fun E => { E with packed := true, rehosting := true, hist := past }
  let s := scheduleEnd s 2 e (s.time.tai + 10250)
  let s := sitterEvent s c 0x110E [(16, e), (16, p), (4, k)]
  if libSched A then forEach ticks (replayTick c e (p / 64) st co) s
  else s.updEngine p fun E => { E with catchUp := k, loopSitter := st, loopCone := co }

/-- ENGINE_TAKEOVER: the host takes over at the first tick edge after the failure whose tick number is no multiple of 4 (09 R250). The
catch-up ticks are those since the mirror tick, at most 3. -/
def engineTakeover (c : Chan) (s : State) : State :=
  match (s.chan c).takeover with
  | none => s
  | some (e, p, m) =>
    let next := (s.cluster (p / 64)).tick + 1
    if (s.engine p).failed then unhost s c e
    else if next % 4 = 0 then s
    else takeOver s c e p next (min 3 (next - 1 - m))

def execEngineTakeover (c : Chan) (s : State) : Host.Outcome State Fault Refusal := .next (engineTakeover c s)

/-- The host of an unhosted channel, once one is free (09 R249, R252): an engine of its own mapping, else the lowest free engine of the cluster
whose engine served it in packed service. -/
def newHost (s : State) (c : Nat) : Option Nat :=
  let e := (s.chan c).lostEngine
  if idleEngine s c then some c
  else if !s.boot.packed && decide (c < 512) && idleEngine s (c + 512) then some (c + 512)
  else if (s.engine e).packed || s.boot.packed then lowestFree s (if (s.engine e).packed then e / 64 else c / 64)
  else none

/-- UNHOSTED_REHOST: an unhosted channel is re-hosted when a host engine is free (09 R252). Its roles go on from their carry state. -/
def unhostedRehost (c : Chan) (s : State) : State :=
  if !unhosted (s.chan c) then s
  else match newHost s c with
  | none => s
  | some p =>
    let e := (s.chan c).lostEngine
    let s := takeOver s c e p 0 0
    clearError s 0x20D (srcChan c)

def execUnhostedRehost (c : Chan) (s : State) : Host.Outcome State Fault Refusal := .next (unhostedRehost c s)

/-- RECOMPUTATION_COMPLETE: the firmware has recomputed the frozen tick (09 R247). An engine that differs is failed; when both match, the
mismatch is a corrected error. What the recomputation finds is an input: a sound engine of this model never differs from it. -/
def recomputationComplete (c : Chan) (verdict : Recompute) (s : State) : State :=
  let A := s.chan c
  if !A.frozen then s
  else
    let s := s.updChan c fun A => { A with frozen := false, mismatches := 0, mismDetail := 0, frozenTick := none }
    let s := clearError s 0x20C (srcChan c)
    let fail (s : State) (x : Option Nat) : State := match x with | some e => failEngine s e 4 | none => s
    match verdict with
    | .bothMatch => raiseError s 0x106 (srcChan c) A.mismDetail
    | .sitterDiffers => fail s A.sitter
    | .coneDiffers => fail s A.cone
    | .bothDiffer => fail (fail s A.sitter) A.cone

def execRecomputationComplete (c : Chan) (verdict : Recompute) (s : State) : Host.Outcome State Fault Refusal :=
  .next (recomputationComplete c verdict s)

/-- The engines of a cluster that fails (01 R33; 09 R253). -/
def clusterDown (s : State) (n : Nat) : State :=
  if (s.cluster n).failed then s
  else forEach (List.range 64) (fun s i => failEngine s (64 * n + i) 5) (s.updCluster n fun K => { K with failed := true })

/-- A cluster fails, with its error (01 R33; 09 R253). -/
def failCluster (s : State) (n cause mem : Nat) : State :=
  if (s.cluster n).failed then s else clusterDown (raiseError s 0x216 (srcCluster n) (cause + 2 ^ 32 * mem)) n

/-- CLUSTER_CLOCK_LOSS: PLL loss of lock, or a stopped tick acknowledgement; which of the two is a free value (01 R33). -/
def clusterClockLoss (n : ClusterNo) (s : State) : State :=
  if (s.cluster n).failed then s
  else
    let (v, s) := s.freshFree
    failCluster s n (v % 2 + 1) 0

def execClusterClockLoss (n : ClusterNo) (s : State) : Host.Outcome State Fault Refusal := .next (clusterClockLoss n s)

/-- One own channel at the packing edge (09 R254, R257): E(c) takes the Cone role too, with the carry state of the Cone's mirror slot. A channel on a
host keeps it. -/
def packChan (s : State) (c : Nat) : State :=
  let A := s.chan c
  if A.sitter = some c ∧ A.cone = some (c + 512) then
    let s := takeForm s c c c 2 (carryWords (s.engine c) ++ mirrorWords s (c + 512))
    let s := s.updChan c fun A => { A with cone := some c }
    let s := s.updEngine (c + 512) fun E => { E with ended := true, badChecks := 0 }
    s.updEngine c fun E => { E with packed := true }
  else s

/-- Packing takes effect for every own channel at one tick edge, of a tick number that is a multiple of 4 (09 R254). -/
def packNow (s : State) : State :=
  if s.boot.packReq && !s.boot.packed && decide (s.time.tick % 4 = 0) then
    let s := s.setBoot { s.boot with packReq := false, packed := true }
    forEach ((servedChans s).filter fun c => decide (c < 512)) packChan s
  else s

/-- The two roles of an own channel part from the packed form on engine `e`: the Sitter form on E(c), the Cone form on E(c + 512), each
with its part of the carry state in the engine's mirror slot (09 R256; 11 R305). -/
def splitRoles (s : State) (c e : Nat) : State :=
  let k := c + 512
  let all := mirrorWords s e
  let n := fld ((descFor s (c / 64) false (pSched (s.chan c)) 0).getD 2 0) 0 6
  let s := takeForm s c e k 1 (all.drop n)
  let s := takeForm s c e c 0 (all.take n)
  let s := s.updChan c fun A => { A with sitter := some c, cone := some k, takeover := none }
  let s := s.updEngine c fun E => { E with packed := false, rehosting := false }
  s.updEngine k fun E => { E with packed := false, rehosting := false }

/-- One own channel at the unpacking edge (09 R256, R257). A channel on a host engine stays on it. -/
def unpackChan (s : State) (c : Nat) : State :=
  let A := s.chan c
  if A.sitter = some c ∧ A.cone = some c ∧ !(s.engine c).rehosting ∧ idleEngine s (c + 512) then splitRoles s c c else s

/-- An own channel whose engine lies in a cluster back from its reset returns from its host (11 R305). -/
def returnChan (s : State) (n c : Nat) : State :=
  let A := s.chan c
  match A.sitter with
  | none => s
  | some e =>
    let free (x : Nat) : Bool := x == e || idleEngine s x
    if A.cone ≠ some e ∨ !(s.engine e).rehosting then s
    else if s.boot.packed then
      (if c / 64 = n ∧ e ≠ c ∧ idleEngine s c then
        let s := takeForm s c e c 2 (carryWords (s.engine e))
        let s := s.updChan c fun A => { A with sitter := some c, cone := some c }
        let s := s.updEngine e fun E => { E with ended := true, packed := true, rehosting := false }
        s.updEngine c fun E => { E with packed := true, rehosting := false }
       else s)
    else if (c / 64 = n ∨ (c + 512) / 64 = n) ∧ free c ∧ free (c + 512) then splitRoles s c e
    else s

/-- The channels that a cluster's reset brings back, at a tick number that is a multiple of 4; the reset's shadow ends 100 µs later
(11 R295, R305). -/
def returnChans (s : State) (n : Nat) : State :=
  let s := s.updCluster n fun K => { K with returning := false }
  let s := forEach ((servedChans s).filter fun c => decide (c < 512)) (fun s c => returnChan s n c) s
  scheduleEnd s 3 n (s.time.tai + 100000)

/-- CLUSTER_TICK (09 R230). -/
def clusterTick (n : ClusterNo) (s : State) : State :=
  let K := s.cluster n
  clusterRuns n (if K.returning && !K.failed && !s.boot.cracked && decide ((K.tick + 1) % 4 = 0) then returnChans s n else s)

def execClusterTick (n : ClusterNo) (s : State) : Host.Outcome State Fault Refusal := .next (clusterTick n s)

/-- No hearth of the partner is held by this device. -/
def noneAdopted (s : State) : Bool := s.pair.cps.all fun p => !p.2.held

/-- UNPACKING_EDGE: at a tick number that is a multiple of 4, after every adopted hearth has been released (09 R256). -/
def unpackingEdge (s : State) : State :=
  if s.boot.unpackReq && s.boot.packed && noneAdopted s && decide (s.time.tick % 4 = 0) then
    let s := s.setBoot { s.boot with unpackReq := false, packed := false }
    forEach ((servedChans s).filter fun c => decide (c < 512)) unpackChan s
  else s

def execUnpackingEdge (s : State) : Host.Outcome State Fault Refusal := .next (unpackingEdge s)

end Sys2Proof.Machine
end

