-- ==== Sys2Proof/Machine/Flash.lean ====
section
/-! DEFINITION. Fuses, the flash and its boot record, and the measurement slots (15 R389 to R393, R408, R409). -/
namespace Sys2Proof.Machine
open Sys2Proof

/-- Fuse fields (15 R389). -/
def fuse (s : State) (lo n : Nat) : Nat := fld s.boot.fuses lo n
def deviceId (s : State) : Nat := fuse s 0 64
def bookKeyHash (s : State) : BitVec 384 := BitVec.ofNat 384 (fuse s 640 384)
def rootHash (s : State) : BitVec 384 := BitVec.ofNat 384 (fuse s 256 384)
def bookSigned (s : State) : Bool := bitOf s.boot.fuses 72
def debugLock (s : State) : Bool := bitOf s.boot.fuses 73

/-- The number of blown bits in a thermometer-coded field. -/
def popBits : Nat → Nat → Nat
  | 0, _ => 0
  | n + 1, w => w % 2 + popBits n (w / 2)

/-- The rollback counter: the larger of the two copies (15 R390). -/
def rollback (s : State) : Nat := max (popBits 64 (fuse s 128 64)) (popBits 64 (fuse s 192 64))

/-- A thermometer code of `n` blown bits. -/
def thermometer (n : Nat) : Nat := 2 ^ min n 64 - 1

/-- The fuses with both rollback copies blown up to a count; a fuse is only ever blown (15 R390, R412). -/
def blowRollback (f : BitVec 2560) (n : Nat) : BitVec 2560 :=
  f ||| BitVec.ofNat 2560 (thermometer n * 2 ^ 128) ||| BitVec.ofNat 2560 (thermometer n * 2 ^ 192)

/-- The four CRC groups of the fuse block: first bit, length in bytes, and the bit of the CRC (15 R389). -/
def fuseGroups : List (Nat × Nat × Nat) := [(0, 12, 96), (256, 96, 1024), (1056, 144, 2208), (2240, 32, 2496)]

/-- The first CRC group that fails, none when all pass. An unblown block reads 0 throughout. -/
def fuseBad (f : BitVec 2560) : Option Nat :=
  (List.range 4).find? fun i => match fuseGroups[i]? with
    | some (lo, n, c) => decide ((crc32c (toLe n (fld f lo (8 * n)))).toNat ≠ fld f c 32)
    | none => false

/-- Read bytes of the flash (15 R392; log entry 9). -/
def flashRead (s : State) (a n : Nat) : List Byte := tabRun 0xFF s.boot.flash a n

/-- Write bytes of the flash: the region is erased and programmed. -/
def flashWrite (s : State) (a : Nat) (bs : List Byte) : State :=
  s.setFlash (tabPut 0xFF s.boot.flash a bs)

/-- Regions of the flash (15 R392). -/
def imageAt (b : Bool) : Nat := if b then 0x200000 else 0x100000
def bookAt (copy : Bool) : Nat := if copy then 0x400000 else 0x300000
def customAt : Nat := 0x500000

/-- The boot record (15 R393). A blank flash has no valid copy: every field is 0, and the next write goes to copy 0. -/
structure BootRec where
  copy : Bool := true
  seq : Nat := 0
  bootCount : Nat := 0
  active : Bool := false
  attA : Nat := 0
  attB : Nat := 0
  book : Bool := false
deriving DecidableEq, Repr

/-- One copy of the boot record, when its CRC passes. -/
def recCopy (s : State) (copy : Bool) : Option BootRec :=
  let bs := flashRead s (if copy then 0x10000 else 0) 32
  if leAt bs 28 4 = (crc32c (bs.take 28)).toNat then
    some { copy := copy, seq := leAt bs 0 8, bootCount := leAt bs 8 4, active := decide (leAt bs 16 1 = 1)
           attA := leAt bs 17 1, attB := leAt bs 18 1, book := decide (leAt bs 19 1 = 1) }
  else none

/-- The valid boot record: the copy whose CRC passes and whose RECORD_SEQ is higher. -/
def bootRec (s : State) : BootRec :=
  match recCopy s false, recCopy s true with
  | some a, some b => if a.seq < b.seq then b else a
  | some a, none => a
  | none, some b => b
  | none, none => {}

/-- The 32 bytes of a boot record. -/
def recForm (r : BootRec) : List Byte :=
  let body := toLe 8 r.seq ++ toLe 4 r.bootCount ++ toLe 4 0 ++ toLe 4 (b2n r.active + 256 * (r.attA + 256 * (r.attB + 256 * b2n r.book))) ++ toLe 8 0
  body ++ toLe 4 (crc32c body).toNat

/-- A write of the boot record: to the other copy, RECORD_SEQ raised by 1. -/
def writeRec (s : State) (f : BootRec → BootRec) : State :=
  let r := bootRec s
  let n := { f r with copy := !r.copy, seq := r.seq + 1 }
  flashWrite s (if n.copy then 0x10000 else 0) (recForm n)

/-- Extend a measurement slot, and log the extension while the log has room (15 R408, R409; kinds of 17). -/
def extendBytes (s : State) (slot kind : Nat) (value : List Byte) (logged : BitVec 384) : State :=
  s.measure slot (Config.sha384 (hashBytes (s.boot.slots.getD slot 0) ++ value)) (BitVec.ofNat 8 slot, BitVec.ofNat 8 kind, logged)

/-- Extend a measurement slot with a 48-byte value. -/
def extendSlot (s : State) (slot kind : Nat) (v : BitVec 384) : State := extendBytes s slot kind (hashBytes v) v

/-- The first informational cause of a boot is kept (15 R398). -/
def noteCause (s : State) (c : BitVec 8) : State := if s.boot.cause = 0 then s.setBoot { s.boot with cause := c } else s

/-- The boot status word (15 R398). -/
def bootWord (s : State) : Nat :=
  let B := s.boot
  B.stage.val * 2 ^ 29 + B.cause.toNat * 2 ^ 21 + b2n B.image * 2 ^ 20 + b2n B.fallback * 2 ^ 19 + b2n B.bookCopy * 2 ^ 18 +
    b2n B.bookEmpty * 2 ^ 17 + B.drawMs.toNat * 2 ^ 8

end Sys2Proof.Machine
end

