-- ==== Sys2Proof/Machine/TimeBase.lean ====
section
/-! DEFINITION. The device time base: states, corrections, 1PPS and 10 MHz inputs, steps; gaps and seals of the event log (12 R306 to R311,
R324 to R330, R507). -/
namespace Sys2Proof.Machine
open Sys2Proof

/-- Fields of the time word (12 R308). -/
def tPpsEn (w : BitVec 64) : Bool := bitOf w 63
def tF10mEn (w : BitVec 64) : Bool := bitOf w 62
def tWorks (w : BitVec 64) : Bool := bitOf w 60
def tPpsDelay (w : BitVec 64) : Nat := fld w 44 16
def tAuditNs (w : BitVec 64) : Nat := fld w 20 12 * 10000000

/-- The Crown runs: its rails are in range and RST_N is high. -/
def crownUp (s : State) : Bool := s.boot.rails && !s.boot.rstLow

/-- U_BASE of LOCAL in 1/80 ns: 4 ns with 10 MHz locked, else 10 ns (12 R307). -/
def localBase (T : TimeSt) : Nat := if tF10mEn T.word && !T.f10mLost then 320 else 800

/-- The time base enters a state with a base uncertainty and hop count; EV_TIME_STATE at a change of state (12 R307). -/
def setTimeState (s : State) (st : Fin 8) (u hops : Nat) : State :=
  let old := s.time.state
  let s := s.setTime { s.time with state := st, uBase := u, uAt := s.time.tai, hops := BitVec.ofNat 8 hops }
  if old = st then s else crownStamp s srcDevice 0x1002 [(8, old.val), (8, st.val), (32, uBaseField s), (8, hops)]

/-- U_BASE in 1/16 ns, rounded up, saturating below all ones; all ones in UNSET (12 R307, 14 R372). -/
def uBase16 (s : State) (bits : Nat) : Nat := if s.time.state = 0 then 2 ^ bits - 1 else min (ceilNat (uBaseNow s) 5) (2 ^ bits - 2)

/-- The device takes another time parent, or none; EV_WORKS_TIME_PARENT (14 R374). -/
def setParent (s : State) (p : Option (Fin 4)) (addr : BitVec 16) : State :=
  if s.time.parent = p ∧ s.time.parentAddr = addr then s
  else
    let old := s.time.parentAddr
    let s := s.setTime { s.time with parent := p, parentAddr := addr, locked := 0, wild := 0, newParent := true }
    crownStamp s srcWorks 0x1703 [(16, old.toNat), (16, addr.toNat), (8, s.time.hops.toNat), (16, uBase16 s 16)]

/-- The source of LOCAL or WORKS is lost, and no other is locked: HOLDOVER with U_BASE as at the loss (12 R307). -/
def toHoldover (s : State) : State := setTimeState s 4 (uBaseNow s) s.time.hops.toNat

/-- A correction of the time counter (12 R311): at most 1 µs is slewed; of a larger one the nearest multiple of 250 ns is stepped at a tick
boundary and the rest slewed. It replaces what an earlier correction has left. -/
def correct (s : State) (c : Int) : State :=
  if -1000 ≤ c ∧ c ≤ 1000 then s.setTime { s.time with slew := c, stepDue := 0 }
  else
    let k := nearDiv c 250 * 250
    s.setTime { s.time with slew := c - k, stepDue := k }

/-- A TIME.SET is applied (12 R307, R310): EV_TIME_SET with the counter value replaced, and FREE. -/
def applyTimeSet (s : State) (c : Int) (unc : Nat) : State :=
  let s := crownStamp s srcDevice 0x1003 [(64, s.time.tai), (32, unc)]
  let s := correct s c
  setTimeState s 1 (80 * unc) 0

/-- The multiple of 1 s nearest to a reading. -/
def nearSecond (x : Int) : Int := nearDiv x 1000000000 * 1000000000

/-- Clear the error time input lost once neither input is absent (12 R309). -/
def clearTimeInput (s : State) : State := if s.time.ppsLost || s.time.f10mLost then s else clearError s 0x21E srcDevice

/-- An accepted 1PPS edge whose TAI second lies at reading `x` (12 R309, R310, R507). -/
def ppsAccept (s : State) (x : Int) : State :=
  let T := s.time
  let s := s.setTime { T with phased := true, ppsLost := false, edges := T.edges + 1,
                                     lastPps := BitVec.ofInt 64 (nearSecond x) }
  let s := if T.ppsLost then clearTimeInput s else s
  match T.armed with
  | some (tai, unc) =>
    let s := applyTimeSet s (tai.toNat - x) unc.toNat
    s.setTime { s.time with armed := none, known := true, edges := 0, lastPps := tai }
  | none =>
    let s := correct s (nearSecond x - x)
    let known := T.known || decide (2 ≤ T.state.val)
    if known ∧ 3 ≤ s.time.edges ∧ T.state ≠ 2 then
      let s := s.setTime { s.time with known := true }
      setTimeState (setParent s none 0xFFFF) 2 (localBase s.time) 0
    else s

/-- PPS_EDGE: a 1PPS edge captured at a reading of the counter (12 R309). -/
def ppsEdge (atNs : BitVec 64) (s : State) : State :=
  if !(tPpsEn s.time.word && crownUp s) then s
  else
    let x : Int := (atNs.toNat : Int) - tPpsDelay s.time.word
    let d := x - nearSecond x
    if !s.time.phased || (decide (-1000 ≤ d) && decide (d ≤ 1000)) then ppsAccept s x
    else s.setTime { s.time with ignored := s.time.ignored + 1 }

def execPpsEdge (atNs : BitVec 64) (s : State) : Host.Outcome State Fault Refusal := .next (ppsEdge atNs s)

/-- PPS_ABSENT: no edge has been accepted for 3 s (12 R309). -/
def ppsAbsent (s : State) : State :=
  if tPpsEn s.time.word && crownUp s && !s.time.ppsLost && decide (s.time.lastPps.toNat + 3000000000 ≤ s.time.tai) then
    let s := s.setTime { s.time with ppsLost := true, phased := false, edges := 0 }
    let s := raiseError s 0x21E srcDevice 1
    if s.time.state = 2 then toHoldover s else s
  else s

def execPpsAbsent (s : State) : Host.Outcome State Fault Refusal := .next (ppsAbsent s)

/-- F10M_LOSS: no 10 MHz edge for 10 µs while F10M_EN is 1 (12 R309). -/
def f10mLoss (s : State) : State :=
  if tF10mEn s.time.word && crownUp s && !s.time.f10mLost then
    let s := s.setTime { s.time with f10mLost := true }
    let s := if s.time.state = 2 then setTimeState s 2 (localBase s.time) 0 else s
    raiseError s 0x21E srcDevice 2
  else s

def execF10mLoss (s : State) : Host.Outcome State Fault Refusal := .next (f10mLoss s)

/-- F10M_RETURN: the 10 MHz input is back. -/
def f10mReturn (s : State) : State :=
  if s.time.f10mLost then
    let s := s.setTime { s.time with f10mLost := false }
    let s := if s.time.state = 2 then setTimeState s 2 (localBase s.time) 0 else s
    clearTimeInput s
  else s

def execF10mReturn (s : State) : Host.Outcome State Fault Refusal := .next (f10mReturn s)

/-- TIME_STEP: the stepped part of a correction, at a tick boundary (12 R311). -/
def timeStep (s : State) : State :=
  let k := s.time.stepDue
  if k = 0 then s
  else
    let s := s.setTime { s.time with
      stepDue := 0, tai := ((s.time.tai : Int) + k).toNat, uAt := ((s.time.uAt : Int) + k).toNat }
    crownStamp s srcDevice 0x1004 [(64, (BitVec.ofInt 64 k).toNat), (32, s.time.tick % 2 ^ 32)]

def execTimeStep (s : State) : Host.Outcome State Fault Refusal := .next (timeStep s)

/-- Of the records of a source that wait for missing numbers, the one nearest to its last admitted number. -/
def firstWaiting (s : State) (src : Nat) : Option EventRec :=
  let last := tabGet 0 s.log.last src
  (s.log.waiting.filter fun r => r.source.toNat = src).foldl (fun b r => match b with
    | none => some r
    | some q => if seqDist last r.seq < seqDist last q.seq then some r else some q) none

/-- GAP_HOLD_TIMEOUT: 2 ms have passed for a record held back; the Crown writes an EV_GAP of cause 0x04 for the numbers still missing,
which carries the last number that it covers, and the held records follow (12 R324, R326). -/
def gapHoldTimeout (src : BitVec 16) (s : State) : State :=
  match firstWaiting s src.toNat with
  | none => s
  | some r =>
    let first := nextSeq (tabGet 0 s.log.last src.toNat)
    let n := seqDist (tabGet 0 s.log.last src.toNat) r.seq - 1
    let g := { crownRec s src.toNat 0x1001 (pay [(32, first.toNat), (32, n), (8, 4), (16, 0)]) 2 with seq := prevSeq r.seq }
    let s := admitRec s g
    releaseHeld (drainWaiting s.log.waiting.length s)

def execGapHoldTimeout (src : BitVec 16) (s : State) : Host.Outcome State Fault Refusal := .next (gapHoldTimeout src s)

/-- SHA-384 over the eight measurement slots in slot order (12 R330). -/
def measDigest (s : State) : BitVec 384 := Config.sha384 (s.boot.slots.flatMap hashBytes)

/-- Works address of the device, 0xFFFF when it is no member of a Works or EXCLUDED (14 R362, R370). -/
def worksAddr (s : State) : Nat := if bitOf s.works.word0 63 && !s.works.excluded then fld s.works.word0 52 11 else 0xFFFF

/-- AUDIT_SEAL: at a whole multiple of AUDIT_PERIOD of the time counter, EV_AUDIT_SEAL (12 R329). -/
def auditSeal (s : State) : State :=
  let p := tAuditNs s.time.word
  let ahead := if p = 0 then 0 else (p - s.time.tai % p) % p
  if s.boot.cracked || !s.log.running || decide (p = 0) || decide (250 ≤ ahead) ||
      s.log.sealsDue.any (fun d => d.rec_.time.toNat == s.time.tai + ahead) then s
  else
    let n := s.log.sealNo + 1
    let s := s.setLog { s.log with sealNo := n }
    let s := numberAdmit s { crownRec s srcDevice 0x1006 (pay [(32, n), (64, s.log.head + 1)]) 0 with
      time := BitVec.ofNat 64 (s.time.tai + ahead) }
    match s.log.recs with
    | [] => s
    | r :: _ => s.setLog { s.log with
        sealsDue := s.log.sealsDue ++
          [{ rec_ := r, num := n, index := s.log.head, chain := s.log.chain, first := s.log.lastSealIndex + 1, state := s.time.state.val }]
        lastSealIndex := s.log.head }

def execAuditSeal (s : State) : Host.Outcome State Fault Refusal := .next (auditSeal s)

/-- Bytes 0 to 191 of a seal block (12 R330). -/
def sealBody (s : State) (d : SealDue) : List Byte :=
  toLe 4 1 ++ toLe 4 0 ++ toLe 8 d.num ++ toLe 8 d.index ++ toLe 8 d.rec_.time.toNat ++ hashBytes d.chain ++ hashBytes s.log.prevDigest ++
    hashBytes (measDigest s) ++ toLe 2 (worksAddr s) ++ toLe 1 d.rec_.unc.toNat ++ toLe 1 d.state ++ toLe 4 0 ++ toLe 8 d.first

/-- Order of the P-384 group (15 R410; PRESUMED, log entry 10). -/
def p384Order : Nat := 0xffffffffffffffffffffffffffffffffffffffffffffffffc7634d81f4372ddf581a0db248b0a77aecec196accc52973

/-- The private scalar of the attestation key, from ATTEST_SECRET and DEVICE_ID in the fuses (15 R389, R410). -/
def attestSecret (s : State) : BitVec 384 :=
  let f := s.boot.fuses
  let x := Config.sha384 (hashBytes (f.extractLsb' 1056 384) ++ toLe 8 (fld f 0 64) ++ [1])
  BitVec.ofNat 384 (1 + x.toNat % (p384Order - 1))

/-- SEAL_SIGNED: the oldest seal record's block is formed and signed; the last 64 blocks are kept (12 R329, R330). -/
def sealSigned (s : State) : State :=
  match s.log.sealsDue with
  | [] => s
  | d :: rest =>
    if s.boot.cracked then s
    else
      let b := sealBody s d
      let g := Config.ecdsaSign (attestSecret s) (Config.sha384 b)
      let block := b ++ hashBytes g.1 ++ hashBytes g.2
      s.setLog { s.log with
          sealsDue := rest, seals := (d.num, block) :: s.log.seals.take 63, prevDigest := Config.sha384 block }

def execSealSigned (s : State) : Host.Outcome State Fault Refusal := .next (sealSigned s)

/-- A source identifier of an adopted hearth's record in this device's numbering (12 R318, R322; 01 R9). -/
def adoptSource (src : BitVec 16) : BitVec 16 :=
  let i := srcIdx src.toNat
  match srcType src.toNat with
  | 1 => src + 512
  | 2 => src + 128
  | 3 | 4 => src + 8
  | 6 => if i < 16 then src + 16 else src
  | _ => src

/-- What a record tells the Crown of an adopted channel: its trip register, of EV_TRIP and EV_STATE (09 R233, log entry 20), and a trip for TRIPS
while the hearth is held here (02 R74). -/
def noteTripReg (s : State) (r : EventRec) : State :=
  let c := srcIdx r.source.toNat
  if srcType r.source.toNat ≠ 1 ∨ c < 512 then s
  else if r.code = 0x1102 then s.updChan c fun A => { A with
    tripReg := r.payload.extractLsb' 0 16, trips := if (s.cp (c / 64 - 8)).held then satInc A.trips else A.trips }
  else if r.code = 0x1101 then s.updChan c fun A => { A with tripReg := r.payload.extractLsb' 16 16 }
  else s

/-- What a record tells the firmware of a feed group: a confirmed warning or the end of a handover, for the ledger (14 R380). -/
def noteFeed (s : State) (r : EventRec) : State :=
  if srcType r.source.toNat ≠ 4 then s
  else
    let h := srcIdx r.source.toNat
    let put (a i : Nat) : State := s.setWorks { s.works with announceDue := s.works.announceDue ++ [(h, a, i)] }
    if r.code = 0x1306 then put 0 (r.payload.toNat % 65536) else if r.code = 0x1304 then put 1 0 else s

/-- One record of an EVENT frame (12 R322 to R324; 11 R283, R285). -/
def takeRecord (h : Nat) (s : State) (r : EventRec) : State :=
  let r := if h < 8 then r else { r with source := adoptSource r.source }
  if !isNew s r.source.toNat r.seq || s.log.waiting.contains r then s
  else releaseHeld (collectRecord (noteFeed (noteTripReg (receiveRec s r) r) r) r)

/-- EVENT_FRAME: the records of a hearth in the order in which it numbered them. -/
def eventFrame (h : Hearth16) (records : List EventRec) (s : State) : State :=
  if crownUp s then records.foldl (takeRecord h.val) (takeUp s h) else s

def execEventFrame (h : Hearth16) (records : List EventRec) (s : State) : Host.Outcome State Fault Refusal :=
  .next (eventFrame h records s)

end Sys2Proof.Machine
end

