-- ==== Sys2Proof/Machine/WorksLinks.lean ====
section
/-! DEFINITION. The Works links: lane states, sending and acknowledging Zunak frames, routes, addresses, and what a lane's failure does
(14 R362 to R371, R386). -/
namespace Sys2Proof.Machine
open Sys2Proof

/-- The Crown runs and is not Cracked. -/
def alive (s : State) : Bool := crownUp s && !s.boot.cracked

/-- The Works lanes are served: in Draw and while Banked is being entered (15 R394; 14 R385). -/
def worksOn (s : State) : Bool := alive s && (s.boot.devState == 1 || s.boot.devState == 2)

/-- Fields of Works word 0 (14 R362). -/
def wEnable (s : State) : Bool := bitOf s.works.word0 63
def wAddr (s : State) : Nat := fld s.works.word0 52 11
def wLaneEn (s : State) (n : Nat) : Bool := wEnable s && bitOf s.works.word0 (48 + n)
def wId (s : State) : Nat := fld s.works.word0 16 32

/-- ASYM of a lane in 0.1 ns, signed (14 R362). -/
def wAsym (s : State) (n : Nat) : Int := (s.works.word1.extractLsb' (8 * n) 8 : BitVec 8).toInt

/-- Code of a lane state (14 R366). -/
def wlCode : WLaneState → Nat
  | .disabled => 0 | .training => 1 | .hello => 2 | .up => 3 | .dormant => 4 | .failed => 5 | .mismatch => 6

/-- A lane is UP. -/
def laneUp (s : State) (n : Nat) : Bool := decide ((s.wlane n).state = .up)

/-- The lanes that are UP, in ascending order. -/
def upLanes (s : State) : List Nat := (List.range 4).filter (laneUp s)

/-- Role of the device in the Works (14 R371). -/
def worksRole (s : State) : Nat := if !wEnable s then 0 else if s.works.excluded then 3 else if (upLanes s).isEmpty then 1 else 2

/-- Source of a Works lane's Crown end (12 R318). -/
def worksLaneSrc (n : Nat) : Nat := srcLaneC (25 + n)

/-- A lane changes state: EV_WORKS_LINK, and Works link failed, present from FAILED or MISMATCH until UP (14 R366, R387). -/
def setLaneState (s : State) (n : Nat) (st : WLaneState) : State :=
  let L := s.wlane n
  if L.state = st then s
  else
    let s := s.updWlane n fun L => { L with state := st }
    let s := crownStamp s (worksLaneSrc n) 0x1701 [(8, n), (8, wlCode L.state), (8, wlCode st), (16, L.neighbour.toNat)]
    if st = .up then clearError s 0x21C (worksLaneSrc n)
    else if (st = .failed ∨ st = .mismatch) ∧ !errPresent s 0x21C (worksLaneSrc n) then
      raiseError s 0x21C (worksLaneSrc n) (n + 2 ^ 32 * wlCode st + 2 ^ 64 * L.neighbour.toNat)
    else s

/-- A frame leaves on a lane with its next LSEQ, and is kept until an ACK covers it (14 R364, R367). -/
def transmit (s : State) (n : Nat) (f : WFrame) : State :=
  let q := (s.wlane n).lseqOut
  let s := s.updWlane n fun L => { L with lseqOut := q + 1, unacked := L.unacked ++ [{ f with lseq := q }] }
  s.emit (.frame (.works n) (worksFrame f.type.toNat f.dest.toNat f.src.toNat f.hops.toNat q f.payload))

/-- Put a frame behind the waiting ones of its class and of those served before it (14 R368). -/
def enqueue (f : WFrame) : List WFrame → List WFrame
  | [] => [f]
  | g :: r => if worksClass f.type.toNat < worksClass g.type.toNat then f :: g :: r else g :: enqueue f r

/-- A lane sends a frame, or keeps it waiting in its class while the retransmit buffer holds 64 frames (14 R367, R368; log entry 80). -/
def sendRaw (s : State) (n type dest src hops : Nat) (hopLocal : Bool) (payload : List (BitVec 64)) : State :=
  let f : WFrame := { lseq := 0, type := BitVec.ofNat 4 type, dest := BitVec.ofNat 11 dest, src := BitVec.ofNat 11 src, hops := BitVec.ofNat 5 hops
                      hopLocal := hopLocal, payload := payload }
  if (s.wlane n).unacked.length < 64 then transmit s n f else s.updWlane n fun L => { L with queued := enqueue f L.queued }

/-- The waiting frames for which the buffer has room leave, class 0 first (14 R368). -/
def drainQueue (s : State) (n : Nat) : State :=
  let L := s.wlane n
  let room := 64 - L.unacked.length
  forEach (L.queued.take room) (fun s f => transmit s n f) (s.updWlane n fun L => { L with queued := L.queued.drop room })

/-- A hop-local frame of this device, with its payload's fields. -/
def sendLocal (s : State) (n type : Nat) (payload : List (Nat × Nat)) : State := sendRaw s n type 0 (wAddr s) 0 true (payBlocks payload)

/-- A hop-local frame that takes no LSEQ and is not kept: IDLE and ACK (14 R366, R367; log entry 161). -/
def sendPlain (s : State) (n type : Nat) (payload : List (Nat × Nat)) : State :=
  s.emit (.frame (.works n) (worksFrame type 0 (wAddr s) 0 (s.wlane n).lseqOut (payBlocks payload)))

/-- Distance and next-hop lane of an address; this device's own address has distance 0 (14 R369). -/
def routeOf (s : State) (a : Nat) : Nat × Nat :=
  if a = wAddr s then (0, 0) else let r := tabGet ((31 : BitVec 5), (0 : BitVec 2)) s.works.routes a
                                  (r.1.toNat, r.2.toNat)

/-- An address can be reached. -/
def reachable (s : State) (a : Nat) : Bool := decide ((routeOf s a).1 ≤ 30)

/-- The number of other addresses that can be reached. -/
def reachCount (s : State) : Nat := (s.works.routes.filter fun r => r.2.1 ≠ 31).length

/-- A frame is discarded and counted on its lane (14 R367, R368). -/
def loseFrame (s : State) (lane : Nat) : State := s.updWlane lane fun L => { L with lost := satInc L.lost }

/-- The DORMANT lane whose neighbour, a Banked device, is the destination: frames for it alone still go there (14 R385; log entry 181). -/
def dormantLane (s : State) (dest : Nat) : Option Nat :=
  (List.range 4).find? fun n => decide ((s.wlane n).state = .dormant) && decide ((s.wlane n).neighbour.toNat = dest)

/-- Queue a routed frame on the lane that serves its destination; without a route it is discarded and counted on `lane` (14 R367 to R369). -/
def routeFrame (s : State) (lane type dest src hops : Nat) (payload : List (BitVec 64)) : State :=
  match dormantLane s dest with
  | some n => sendRaw s n type dest src hops false payload
  | none => if reachable s dest then sendRaw s (routeOf s dest).2 type dest src hops false payload else loseFrame s lane

/-- A frame that this device originates; an EXCLUDED device originates none (14 R370). -/
def originate (s : State) (type dest : Nat) (payload : List (Nat × Nat)) : State :=
  if s.works.excluded || !wEnable s then s else routeFrame s 0 type dest (wAddr s) 0 (payBlocks payload)

/-- A frame for another device is forwarded with HOPS raised by 1 (14 R368). -/
def forward (s : State) (lane type : Nat) (h : WorksHdr) (payload : List (Nat × Nat)) : State :=
  routeFrame s lane type h.dest.toNat h.src.toNat (h.hops.toNat + 1) (payBlocks payload)

/-- Whether a received frame is the lane's next, or a further entry of the LEDGER frame just accepted (14 R367). -/
def inOrder (s : State) (n : Nat) (lseq : BitVec 16) (cont : Bool) : Bool :=
  let q := (s.wlane n).lseqIn
  if cont then decide (lseq + 1 = q) else decide (lseq = q)

/-- Accept the lane's next frame, and acknowledge it (14 R367). -/
def acceptNext (s : State) (n : Nat) : State :=
  let q := (s.wlane n).lseqIn
  sendPlain (s.updWlane n fun L => { L with lseqIn := q + 1 }) n 8 [(16, q.toNat)]

/-- Take a frame that arrives in order on a lane that is UP; a duplicate or a frame beyond a missing one is not accepted. -/
def takeFrame (s : State) (n : Nat) (lseq : BitVec 16) (cont : Bool) (f : State → State) : State :=
  if worksOn s && laneUp s n && inOrder s n lseq cont then f (if cont then s else acceptNext s n) else s

/-- Take a routed frame: one that arrives with HOPS 30 is discarded and counted; else it acts here where it is for this device, and goes on
where it is not (14 R368, R369). -/
def takeRouted (s : State) (n : Nat) (h : WorksHdr) (here onward : State → State) : State :=
  takeFrame s n h.lseq h.cont fun s =>
    if 30 ≤ h.hops.toNat then (if h.cont then s else loseFrame s n)
    else if h.dest.toNat = wAddr s then here s else onward s

/-- What the lanes that are UP advertise for an address, plus one: the least, and its lowest lane (14 R369). -/
def bestRoute (s : State) (a : Nat) : BitVec 5 × BitVec 2 :=
  let c := (upLanes s).map fun n => ((tabGet (31 : BitVec 5) (s.wlane n).adv a).toNat + 1, n)
  match c.foldl (fun b x => match b with
      | none => some x
      | some y => if x.1 < y.1 then some x else some y) (none : Option (Nat × Nat)) with
  | none => (31, 0)
  | some (d, n) => if 30 < d then (31, 0) else (BitVec.ofNat 5 d, BitVec.ofNat 2 n)

/-- The addresses that some table names. -/
def namedAddrs (s : State) : List Nat :=
  ((upLanes s).flatMap fun n => (s.wlane n).adv.map (·.1)).foldl (fun l a => insertAsc a l) (s.works.routes.map (·.1))

/-- The routing table from the advertisements in force; a change is owed a ROUTE (14 R369). -/
def computeRoutes (s : State) : State :=
  let as := (namedAddrs s).filter fun a => a ≠ wAddr s
  let new := as.foldl (fun t a => tabSet ((31 : BitVec 5), (0 : BitVec 2)) t a (bestRoute s a)) []
  let changed := (as.filter fun a => decide (tabGet ((31 : BitVec 5), (0 : BitVec 2)) s.works.routes a ≠ bestRoute s a)).length
  s.setWorks { s.works with
      routes := new, routeDue := s.works.routeDue || decide (0 < changed), routeChanged := s.works.routeChanged + changed }

/-- The distance to an address that a lane is told: 31 where the next hop is that lane, and for an EXCLUDED device's own address (14 R369,
R370). -/
def advertised (s : State) (n a : Nat) : Nat :=
  if a = wAddr s then (if s.works.excluded then 31 else 0)
  else
    let r := tabGet ((31 : BitVec 5), (0 : BitVec 2)) s.works.routes a
    if r.2.toNat = n then 31 else r.1.toNat

/-- Send ROUTE on every UP lane: the distance to each address 0 to 2047 in 5 bits (14 R365, R369). -/
def sendRoutes (s : State) : State :=
  forEach (upLanes s) (fun s n => sendLocal s n 3 ((List.range 2048).map fun a => (5, advertised s n a)))
    (s.setWorks { s.works with routeDue := false })

/-- A HELLO of this device on a lane (14 R365). The format number of this part is 1 (log entry 23). -/
def sendHello (s : State) (n : Nat) (banked : Bool) : State :=
  let s := s.updWlane n fun L => { L with hellosOut := min 3 (L.hellosOut + 1) }
  sendLocal s n 2 [(16, 1), (16, wAddr s), (32, wId s), (64, fld s.boot.fuses 0 64), (8, n), (8, fld s.works.word1 (8 * n) 8), (1, b2n banked),
    (1, b2n s.works.excluded)]

/-- The unacknowledged frames of a lane that leaves UP: those that are not hop-local are queued again (14 R367). -/
def requeue (s : State) (n : Nat) : State :=
  let fs := ((s.wlane n).unacked ++ (s.wlane n).queued).filter fun f => !f.hopLocal
  let s := s.updWlane n fun L => { L with unacked := [], queued := [] }
  forEach fs (fun s f => routeFrame s n f.type.toNat f.dest.toNat f.src.toNat f.hops.toNat f.payload) s

/-- The time base after its parent's lane has left UP (14 R375, R386): HOLDOVER from WORKS, and no parent. -/
def loseParent (s : State) (n : Nat) : State :=
  if s.time.parent.map Fin.val = some n then
    let s := if s.time.state = 3 then toHoldover s else s
    setParent s none 0xFFFF
  else s

/-- A lane leaves UP: its advertisements go, its frames are queued again, its time parent is lost (14 R367, R369, R386). -/
def leaveUp (s : State) (n : Nat) (st : WLaneState) : State :=
  let was := laneUp s n
  let s := setLaneState s n st
  if was then
    let s := computeRoutes (s.updWlane n fun L => { L with adv := [], hellosIn := 0, hellosOut := 0 })
    loseParent (requeue s n) n
  else s

/-- Commit of the Works section, and Draw: each enabled lane trains, and any other is DISABLED (14 R366). EXCLUDED ends (14 R370). -/
def worksStart (s : State) : State :=
  let s := s.setWorks { s.works with excluded := false, routes := [], routeDue := wEnable s }
  forEach (List.range 4) (fun s n =>
    let s := leaveUp s n (if wLaneEn s n then .training else .disabled)
    s.updWlane n fun L => { L with hellosIn := 0, hellosOut := 0 }) s

/-- WORKS_BLOCK_LOCK: a training lane gains block lock (14 R366). -/
def worksBlockLock (n : WLane) (s : State) : State :=
  if worksOn s && decide ((s.wlane n).state = .training) then
    sendHello ((setLaneState s n .hello).updWlane n fun L => { L with hellosIn := 0, hellosOut := 0 }) n false
  else s

def execWorksBlockLock (n : WLane) (s : State) : Host.Outcome State Fault Refusal := .next (worksBlockLock n s)

/-- The lane is UP once three HELLOs have come and three have gone (14 R366). -/
def tryUp (s : State) (n : Nat) : State :=
  let L := s.wlane n
  if L.state = .hello ∧ 3 ≤ L.hellosIn ∧ 3 ≤ L.hellosOut then
    let s := setLaneState s n .up
    s.setWorks { s.works with routeDue := true }
  else s

/-- WORKS_HELLO_SEND: every 10 µs in HELLO (14 R366). -/
def worksHelloSend (n : WLane) (s : State) : State :=
  if worksOn s && decide ((s.wlane n).state = .hello) then tryUp (sendHello s n false) n else s

def execWorksHelloSend (n : WLane) (s : State) : Host.Outcome State Fault Refusal := .next (worksHelloSend n s)

/-- WORKS_IDLE_SEND: an IDLE frame when no other has been sent for 1 µs (14 R366). -/
def worksIdleSend (n : WLane) (s : State) : State :=
  if worksOn s && laneUp s n then sendPlain s n 0 [] else s

def execWorksIdleSend (n : WLane) (s : State) : Host.Outcome State Fault Refusal := .next (worksIdleSend n s)

/-- WORKS_LINK_FAILED: an UP lane loses block lock or gets no frame for 10 µs (14 R366, R386); ROUTE goes out on the other lanes. -/
def worksLinkFailed (n : WLane) (s : State) : State := if worksOn s && laneUp s n then sendRoutes (leaveUp s n .failed) else s

def execWorksLinkFailed (n : WLane) (s : State) : Host.Outcome State Fault Refusal := .next (worksLinkFailed n s)

/-- WORKS_LANE_RETRAIN: 1 ms after FAILED the lane trains again (14 R366). -/
def worksLaneRetrain (n : WLane) (s : State) : State :=
  if worksOn s && decide ((s.wlane n).state = .failed) then setLaneState s n .training else s

def execWorksLaneRetrain (n : WLane) (s : State) : Host.Outcome State Fault Refusal := .next (worksLaneRetrain n s)

/-- WORKS_LANE_UP_TIMEOUT: in TRAINING or HELLO, not UP 1 s after Draw or its last UP (14 R366). -/
def worksLaneUpTimeout (n : WLane) (s : State) : State :=
  if worksOn s && (decide ((s.wlane n).state = .training) || decide ((s.wlane n).state = .hello)) then setLaneState s n .failed else s

def execWorksLaneUpTimeout (n : WLane) (s : State) : Host.Outcome State Fault Refusal := .next (worksLaneUpTimeout n s)

/-- An address conflict (14 R370): the device with the higher identifier is EXCLUDED, and stamps EV_WORKS_CONFLICT; the other has kept. -/
def addressConflict (s : State) (ident : BitVec 64) : State :=
  let own := fld s.boot.fuses 0 64
  if s.works.excluded ∨ own = ident.toNat then s
  else if ident.toNat < own then
    let s := s.setWorks { s.works with excluded := true, routeDue := true }
    crownStamp s srcWorks 0x1704 [(16, wAddr s), (64, ident.toNat), (8, 1)]
  else s

/-- What a HELLO does to its lane (14 R366). -/
def helloLane (s : State) (n : Nat) (x : WorksHello) : State :=
  let L := s.wlane n
  let good := decide (x.format = 1) && decide (x.worksId.toNat = wId s)
  match L.state with
  | .disabled | .training | .failed => s
  | st =>
    let s := s.updWlane n fun L => { L with neighbour := x.addr, asymThere := x.asym }
    if !good then leaveUp s n .mismatch
    else if x.banked then (if st = .up then leaveUp s n .dormant else s.updWlane n fun L => { L with hellosIn := 0 })
    else
      let s := s.updWlane n fun L => { L with hellosIn := min 3 (L.hellosIn + 1) }
      match st with
      | .dormant | .mismatch => setLaneState (s.updWlane n fun L => { L with hellosOut := 0 }) n .hello
      | .hello => tryUp s n
      | _ => s

/-- WORKS_HELLO: a HELLO of the neighbour (14 R366, R370). -/
def worksHello (n : WLane) (x : WorksHello) (s : State) : State :=
  if !worksOn s then s
  else
    let s := helloLane (acceptNext s n) n x
    if x.addr.toNat = wAddr s then addressConflict s x.ident else s

def execWorksHello (n : WLane) (x : WorksHello) (s : State) : Host.Outcome State Fault Refusal := .next (worksHello n x s)

/-- A table of distances from the 2,048 values of a ROUTE. -/
def advTable : Nat → List (BitVec 5) → Tab (BitVec 5)
  | _, [] => []
  | a, d :: r => if d = 31 then advTable (a + 1) r else (a, d) :: advTable (a + 1) r

/-- ROUTE: a neighbour's distances (14 R369). -/
def routeIn (n : WLane) (lseq : BitVec 16) (dist : List (BitVec 5)) (s : State) : State :=
  takeFrame s n lseq false fun s => computeRoutes (s.updWlane n fun L => { L with adv := advTable 0 (dist.take 2048) })

def execRoute (n : WLane) (lseq : BitVec 16) (dist : List (BitVec 5)) (s : State) : Host.Outcome State Fault Refusal :=
  .next (routeIn n lseq dist s)

/-- ROUTE_PERIODIC: ROUTE on each UP lane, every 1 ms and after a change; EV_WORKS_ROUTE covers the changes since the last (14 R369, R387). -/
def routePeriodic (s : State) : State :=
  if !(worksOn s && wEnable s) then s
  else
    let s := sendRoutes s
    if s.works.routeChanged = 0 then s
    else
      let k := s.works.routeChanged
      crownStamp (s.setWorks { s.works with routeChanged := 0 }) srcWorks 0x1702 [(16, reachCount s), (16, k)]

def execRoutePeriodic (s : State) : Host.Outcome State Fault Refusal := .next (routePeriodic s)

/-- Distance between two counts; a count is newer when it lies ahead (14 R370). -/
def newerCount (old new : BitVec 32) : Bool := decide (old ≠ new) && decide ((new - old).toNat < 2 ^ 31)

/-- Payload of ADDR (14 R365). -/
def addrPayload (a ident count : Nat) : List (BitVec 64) := payBlocks [(16, a), (64, ident), (32, count)]

/-- The entry of the address table for an address and an identifier: the last count seen, and when (14 R370). -/
def addrEntry (s : State) (a : Nat) (ident : BitVec 64) : Option (BitVec 32 × Nat) :=
  (s.works.addrs.find? fun e => e.1 = a ∧ e.2.1 = ident).map (·.2.2)

/-- The address table with the count of an address and identifier, the latest first. -/
def noteAddr (s : State) (a : Nat) (ident : BitVec 64) (count : BitVec 32) : State :=
  s.setWorks { s.works with
    addrs := (a, ident, count, s.time.tai) :: s.works.addrs.filter fun e => ¬ (e.1 = a ∧ e.2.1 = ident) }

/-- ADDR: the address table, an address conflict, and the flood of a count that is newer (14 R370). A frame at 30 hops is discarded (14 R368). -/
def addrIn (n : WLane) (lseq a : BitVec 16) (ident : BitVec 64) (count : BitVec 32) (hops : Fin 32) (s : State) : State :=
  takeFrame s n lseq false fun s =>
    let newer := match addrEntry s a.toNat ident with
      | some e => newerCount e.1 count
      | none => true
    if 30 ≤ hops.val then loseFrame s n
    else
      let s := if a.toNat = wAddr s then addressConflict s ident else s
      if !newer then s
      else
        let s := noteAddr s a.toNat ident count
        forEach ((upLanes s).filter fun m => m ≠ n.val) (fun s m =>
        sendRaw s m 9 0 a.toNat (hops.val + 1) true (addrPayload a.toNat ident.toNat count.toNat)) s

def execAddr (n : WLane) (lseq a : BitVec 16) (ident : BitVec 64) (count : BitVec 32) (hops : Fin 32) (s : State) :
    Host.Outcome State Fault Refusal :=
  .next (addrIn n lseq a ident count hops s)

/-- ADDR_FLOOD: every 100 ms a member floods its ADDR frame, its count raised by 1 (14 R370). -/
def addrFlood (s : State) : State :=
  if worksOn s && wEnable s && !s.works.excluded then
    let c := s.works.addrCount + 1
    let s := s.setWorks { s.works with addrCount := c }
    forEach (upLanes s) (fun s m => sendRaw s m 9 0 (wAddr s) 0 true (addrPayload (wAddr s) (fld s.boot.fuses 0 64) c.toNat)) s
  else s

def execAddrFlood (s : State) : Host.Outcome State Fault Refusal := .next (addrFlood s)

/-- ZUNAK_ACK: it frees the frames up to the LSEQ it names, and waiting frames take their room (14 R367, R368). -/
def zunakAck (n : WLane) (lseq : BitVec 16) (s : State) : State :=
  if worksOn s then
    drainQueue (s.updWlane n fun L => { L with unacked := L.unacked.filter fun f => decide (2 ^ 15 ≤ (lseq - f.lseq).toNat) }) n
  else s

def execZunakAck (n : WLane) (lseq : BitVec 16) (s : State) : Host.Outcome State Fault Refusal := .next (zunakAck n lseq s)

/-- RETRANSMIT_TIMEOUT: what has gone unacknowledged for 20 µs is sent again, oldest first (14 R367), to a Banked neighbour too (14 R385). -/
def retransmitTimeout (n : WLane) (s : State) : State :=
  if worksOn s && (laneUp s n || decide ((s.wlane n).state = .dormant)) then
    forEach (s.wlane n).unacked (fun s f => s.emit (.frame (.works n)
      (worksFrame f.type.toNat f.dest.toNat f.src.toNat f.hops.toNat f.lseq f.payload))) s
  else s

def execRetransmitTimeout (n : WLane) (s : State) : Host.Outcome State Fault Refusal := .next (retransmitTimeout n s)

/-- ZUNAK_FRAME_DISCARD: a frame that is not accepted (14 R364, R365, R367 to R369). CRC, length and reserved types are corrected errors
of the lane, whose header words are free values; the others are counted on the lane, a duplicate is not. -/
def zunakFrameDiscard (n : WLane) (why : DiscardCause) (s : State) : State :=
  if !worksOn s then s
  else
    let err (s : State) (code cause : Nat) : State :=
      let (a, s) := s.freshFree
      let (b, s) := s.freshFree
      raiseError s code (worksLaneSrc n) (a % 2 ^ 32 + 2 ^ 32 * (b % 2 ^ 32) + 2 ^ 64 * cause)
    match why with
    | .crc => err s 0x102 1
    | .length => err s 0x102 2
    | .reservedType => err s 0x103 3
    | .class3 => err s 0x103 3
    | .duplicate => s
    | .hops30 | .noRoute => loseFrame s n

def execZunakFrameDiscard (n : WLane) (why : DiscardCause) (s : State) : Host.Outcome State Fault Refusal :=
  .next (zunakFrameDiscard n why s)

end Sys2Proof.Machine
end

