-- ==== Sys2Proof/Machine/BookApply.lean ====
section
/-! DEFINITION. Applying a Kiln Book: custom schedules into the stores, parameter banks, envelopes and hearth registers (15 R404 check 7,
R406, R407; 09 R229, R239, R258, R259; 10 R264, R272; 17 R460, R461). -/
namespace Sys2Proof.Machine
open Sys2Proof

/-- The status of a schedule that is rejected (09 R259, 10 R279, 17 R459). -/
def schedStatus : SchedErr → Nat
  | .budget => 0x401 | .port => 0x402 | .full => 0x403 | .encoding => 0x404 | .flow => 0x405 | .busy => 0x406 | .digest => 0x407
  | .incomplete => 0x305

/-- Read, hash and check a schedule object of the custom schedule region (17 R459, R460). -/
def loadObject (s : State) (off len : Nat) (digest : BitVec 384) : Except SchedErr (SchedObj × SchedCost) :=
  let bs := flashRead s (customAt + off) (min len 1048576)
  if Config.sha384 bs ≠ digest then .error .digest
  else match parseSched bs with
    | .error e => .error e
    | .ok o => match checkSched o with
      | .error e => .error e
      | .ok c => .ok (o, c)

/-- The words of a cluster's store that the library's forms fill, from word 0 (09 R229). -/
def libWordsEnd (n : Nat) : Nat := Config.libWords (if n < 8 then 0 else 1) + Config.libWords 2

/-- The first run of `len` free words at or above `a`, past the regions in use (09 R258). -/
def firstFit (len : Nat) : Nat → Nat → List Region → Option Nat
  | 0, _, _ => none
  | fuel + 1, a, rs =>
    if 8192 < a + len then none
    else match rs.find? fun r => decide (r.first < a + len) && decide (a < r.first + r.len) with
      | none => some a
      | some r => firstFit len fuel (r.first + r.len) rs

/-- An instruction word with the form's store address added to its TARGET field (17 R460). -/
def relocate (base : Nat) (w : BitVec 32) : BitVec 32 :=
  if 0x38 ≤ fld w 26 6 ∧ fld w 26 6 ≤ 0x3B then putFld w 0 13 (fld w 0 13 + base) else w

/-- The schedule descriptor of a form in a store (10 R264). -/
def descOf (f : Form) (kind base : Nat) : List W24 :=
  [BitVec.ofNat 24 (f.entry + base), BitVec.ofNat 24 (if kind = 2 then f.replay + base else 0),
   BitVec.ofNat 24 (f.carryBase % 512 * 2 ^ 15 + f.carryLen % 64), BitVec.ofNat 24 (f.coneSBase % 512 * 2 ^ 15 + f.conePBase % 256)]

/-- Write one form into a cluster's store; none when it lacks the free words. The newest region of an ID stands first. -/
def placeForm (s : State) (id : Nat) (digest : BitVec 384) (kind n : Nat) (f : Form) : Option State :=
  let K := s.cluster n
  match firstFit f.words.length (K.regions.length + 1) (libWordsEnd n) K.regions with
  | none => none
  | some a => some (s.updCluster n fun K => { K with
      store := tabPut 0 K.store a (f.words.map (relocate a))
      regions := { id := id, digest := digest, form := kind, first := a, len := f.words.length, desc := descOf f kind a } :: K.regions })

/-- Write forms into stores, in order. -/
def placeAll (id : Nat) (digest : BitVec 384) : List (Nat × Nat × Form) → State → Option State
  | [], s => some s
  | (kind, n, f) :: r, s => match placeForm s id digest kind n f with
    | none => none
    | some t => placeAll id digest r t

/-- The forms of a schedule for the clusters that run them (09 R229). -/
def formPlaces (o : SchedObj) : List (Nat × Nat × Form) :=
  match o.forms with
  | [a, b, c] => ((List.range 8).map fun n => (0, n, a)) ++ ((List.range 8).map fun n => (1, n + 8, b)) ++ ((List.range 16).map fun n => (2, n, c))
  | _ => []

/-- Load a checked schedule object under an ID (09 R258). -/
def placeSched (s : State) (id : Nat) (digest : BitVec 384) (o : SchedObj) : Option State := placeAll id digest (formPlaces o) s

/-- A schedule already loaded from the same object, for either Book (17 R459). -/
def isLoaded (s : State) (e : MapEntry) : Bool := s.books.loaded.any fun l => l.id == e.id && l.digest == e.digest

/-- Note a loaded schedule in place of the one of its ID and Book. -/
def noteAs (s : State) (l : Loaded) : State :=
  s.setBooks { s.books with loaded := (s.books.loaded.filter fun x => !(x.id == l.id && x.partner == l.partner)) ++ [l] }

/-- Note a schedule object that has been loaded for the own or the partner's Book. -/
def noteLoaded (s : State) (partner : Bool) (id off len : Nat) (digest : BitVec 384) (o : SchedObj) (c : SchedCost) : State :=
  noteAs s {
    id := id, partner := partner, off := off, len := len, digest := digest, words := o.forms.map fun f => f.words.length
    worst := [c.sitter, c.cone, c.packed], replay := c.replay, consts := o.consts }

/-- Check 7: every custom schedule that a configured channel names, by ascending channel, is loaded (15 R404). The two Books of a pair may give one
ID to different objects; one object serves both (09 R260). -/
def loadScheds (b : Book) (partner : Bool) : List Nat → State → Except BookErr State
  | [], s => .ok s
  | c :: r, s =>
    let id := pSched (profOnly (bookProf b c))
    match (bookMap b).find? fun e => e.id == id && id != 1 with
    | none => loadScheds b partner r s
    | some e => match s.books.loaded.find? fun l => l.id == e.id && l.digest == e.digest with
      | some l => loadScheds b partner r (if (loadedFor s partner id).map (·.digest) = some e.digest then s else noteAs s { l with partner := partner })
      | none => match loadObject s e.off e.len e.digest with
        | .error x => .error ⟨schedStatus x, some (2, c, 0)⟩
        | .ok (o, cost) => match placeSched s id e.digest o with
          | none => .error ⟨schedStatus .full, some (2, c, 0)⟩
          | some t => loadScheds b partner r (noteLoaded t partner id e.off e.len e.digest o cost)

/-! Parameter banks. -/

/-- The constants of the loaded schedule of an ID (17 R460). -/
def schedConsts (s : State) (partner : Bool) (id : Nat) : List W24 := match loadedFor s partner id with | none => [] | some l => l.consts

/-- The parameter bank of an engine of cluster `n` that runs a form for a channel of the own or the partner's Book. -/
def bankFor (s : State) (partner : Bool) (prof : List (BitVec 64)) (shared : List (Nat × Nat)) (kind n : Nat) : Tab W24 :=
  let A := profOnly prof
  let id := pSched A
  let ps := (List.range 124).map fun i => paramWord A shared (i + 4)
  tabPut 0 (tabPut 0 (tabPut 0 [] 0 (descFor s n partner id kind)) 4 ps) 0x80 (if id = 1 then [] else schedConsts s partner id)

/-- The shared points of a channel's enabled twin pair in a Book. -/
def sharedOf (b : Book) (c : Nat) : List (Nat × Nat) :=
  match (bookTwins b).find? fun q => let w := q.2.getD 0 0; bitOf w 45 && (decide (fld w 55 9 = c) || decide (fld w 46 9 = c)) with
  | some q => pointsOf (q.2.drop 1)
  | none => []

/-- Write the inactive banks of the engines that host a channel's roles. -/
def chanBanks (s : State) (c : Nat) (prof : List (BitVec 64)) (shared : List (Nat × Nat)) : State :=
  let put (s : State) (e kind : Nat) : State := s.updEngine e fun E => setInactive E (bankFor s (decide (512 ≤ c)) prof shared kind (e / 64))
  match (s.chan c).sitter, (s.chan c).cone with
  | some a, some k => if a = k then put s a 2 else put (put s a 0) k 1
  | some a, none => put s a 0
  | none, some k => put s k 1
  | none, none => s

/-- The roles of a newly configured own channel start on their engines (01 R16); a failed engine leaves the channel unhosted. -/
def startHosts (s : State) (c : Nat) : State :=
  let A := s.chan c
  if A.sitter.isSome || A.cone.isSome || A.takeover.isSome then s
  else if s.boot.packed then
    (if (s.engine c).failed then s else
      (s.updChan c fun A => { A with sitter := some c, cone := some c }).updEngine c fun E => { E with packed := true })
  else s.updChan c fun A => { A with
      sitter := if (s.engine c).failed then none else some c
      cone := if (s.engine (c + 512)).failed then none else some (c + 512), lostEngine := c }

/-- Every engine's inactive bank starts as a copy of its active one, and every cluster is asked to swap (01 R31). -/
def prepareSwap (s : State) : State :=
  let es := s.engines.map (·.1)
  let s := forEach es (fun s e => s.updEngine e fun E => setInactive E (bankOf E)) s
  forEach (List.range 16) (fun s n => s.updCluster n fun K => { K with swap := true }) s

/-! Hearth registers. -/

/-- A configured channel's enabled twin entry or slot. -/
def isTwin (b : Book) (c : Nat) : Bool := (twinNamed b).any fun q => q.2.1 == c || q.2.2 == c

/-- The envelope registers of a channel (09 R239; 04 R106, R108). -/
def envOf (b : Book) (c : Nat) : EnvImage :=
  let A := profOnly (bookProf b c)
  let r := pRshunt A
  let code (x : Nat) : Nat := min 1023 (x * r / 800)
  let top := ((List.range (pSegM1 A + 1)).map fun i => segIlim (pSeg A i)).foldl max 0
  let w := code top * 2 ^ 54 + (if pIlimRun A = 0 then 0x3FF else code (pIlimRun A)) * 2 ^ 44 + fld (profWord A 16) 52 8 * 2 ^ 36 +
    fld (profWord A 1) 24 8 * 2 ^ 28 + b2n (slotFor b c).isNone * 2 ^ 27 + 2 ^ 26 + b2n (isTwin b c) * 2 ^ 25
  { word := BitVec.ofNat 64 w
    points := (pPoints A).map fun p => (p.1 * r / 32, p.2)
    drainUs := drainUs (profWord A 11)
    edge := BitVec.ofNat 10 (((pPoints A).getD 0 (0, 0)).1 * r / 1000) }

/-- A spyhole word of a commit, which starts the spyhole (07 R186). -/
def putSpy (s : State) (h n : Nat) (w : BitVec 64) : State :=
  s.updSpy (130 * h + n) fun y => { y with nextWord := some w, restart := true }

/-- One own channel's hearth registers. A channel that a commit takes out of the Book is left Vacant, powered down, with no envelope;
a fixed or seated channel that it brings in enters Seated after the release (02 R40, R47; 06 R153). -/
def commitCell (b : Book) (s : State) (c : Nat) : State :=
  if (secOf b 2 c).isNone then
    (if (s.cell c).configured then
      s.updCell c fun C => { C with configured := false, state := .vacant, gate := .pullDown, pg := false, env := {}, envWait := none }
     else s)
  else
    let A := profOnly (bookProf b c)
    let new := !(s.cell c).configured
    let s := s.updCell c fun C => { C with
      tripWord := profWord A 11, lifeWord := profWord A 1, rshunt := pRshunt A, configured := true }
    let s := writeEnvelope s c (envOf b c)
    let s := putSpy (putSpy s (hOf c) (kOf c) (pSpyI A)) (hOf c) (64 + kOf c) (pSpyV A)
    if new && (s.hearth (hOf c)).released && !(s.hearth (hOf c)).saggar && seatedOrFixed s c && decide ((s.cell c).state = .vacant) then
      enterState s c .seated .hearth
    else s

/-- The registers of one own hearth, when this device holds its accepted claim (15 R395). -/
def commitHearth (b : Book) (s : State) (h : Nat) : State :=
  if !obeys (s.hearth h) .loc then s
  else
    let s := forEach (List.range 16) (fun s i =>
      let n := 16 * h + i
      if (s.slot n).word = bookSlot b n then s else writeSlotWord s n (bookSlot b n)) s
    let s := forEach (List.range 64) (fun s k => commitCell b s (64 * h + k)) s
    let s := writeConfig s h (.feedWords (bookFeed b h 0) (bookFeed b h 1))
    let s := putSpy (putSpy s h 128 (bookFeed b h 2)) h 129 (bookFeed b h 3)
    let es := (List.range 32).map fun i => (i, bookHkEntry b h i)
    let s := s.updHk h fun K =>
      if K.started then { K with control := bookHkControl b h, ntc := bookNtc b h, entriesNext := es }
      else { K with control := bookHkControl b h, ntc := bookNtc b h, started := true
                    entries := es.foldl (fun t e => tabSet entryReset t e.1 e.2) [] }
    forEach (List.range 16) (fun s i =>
      if (s.capture (16 * h + i)).binding = bookCapture b h i then s
      else s.updCapture (16 * h + i) fun C => { C with binding := bookCapture b h i }) s

/-- A 1PPS count starts again where the time word changes (12 R309). -/
def setTimeWord (s : State) (w : BitVec 64) : State :=
  if s.time.word = w then s else s.setTime { s.time with word := w, edges := 0, phased := false }

/-- The Crown's own registers: twin pairs, time, pair, Works and ledger words, the Book itself. -/
def commitCrown (b : Book) (s : State) : State :=
  let tw := (bookTwins b).foldl (fun t q => tabSet [] t q.1 (if bitOf (q.2.getD 0 0) 45 then q.2 else []))
    (s.books.twins.filter fun p => decide (256 ≤ p.1))
  let s := setTimeWord s (bookTime b)
  ((s.setBooks { s.books with twins := tw, own := b.bytes, digest := bookDigest b }).setPair { s.pair with word := bookPair b }).setWorks { s.works with
      word0 := bookWorks b 0, word1 := bookWorks b 1, facility := bookFacility b,
      ledger := (List.range 8).foldl (fun t h => tabSet 0xFFF0 t h ((bookFeed b h 4).setWidth 16)) s.works.ledger }

/-- The channels whose profile the commit changes get it at the bank swap (15 R407). -/
def commitChan (b : Book) (s : State) (c : Nat) : State :=
  let p := bookProf b c
  if p.isEmpty then (if (s.chan c).prof.isEmpty then s else s.updChan c fun A => { A with profNext := some [] })
  else
    let s := if (s.chan c).prof.isEmpty then startHosts s c else s
    let s := s.updChan c fun A => { A with profNext := some p }
    chanBanks s c p (sharedOf b c)

/-- Apply a Book that passed every check (15 R406, R407). -/
def applyBook (b : Book) (s : State) : State :=
  let s := prepareSwap s
  let s := forEach (List.range 512) (commitChan b) s
  let s := forEach (List.range 8) (commitHearth b) s
  commitCrown b s

/-- The signature and the generation of a Book, where BOOK_SIGNED asks for them (15 R401, R404). -/
def bookAuth (s : State) (b : Book) (minGen : Option Nat) : Option BookErr :=
  if bookSigned s && !(b.signed && sigOk b (bookKeyHash s)) then some ⟨0x302, some (255, 0, 0)⟩
  else if bookSigned s && (match minGen with | some g => decide (b.gen ≤ g) | none => false) then some ⟨0x302, none⟩
  else none

/-- Every check of a commit on the bytes of a Book: checks 1 to 7 (15 R404). The answer holds the state with its custom schedules loaded.
`minGen`: at a run-time commit with BOOK_SIGNED set, the GENERATION that it must exceed; `partner`: it is the partner's Book. -/
def checkBook (s : State) (bytes : List Byte) (minGen : Option Nat) (partner : Bool) : Except BookErr (Book × State) :=
  match parseBook bytes with
  | .error e => .error e
  | .ok b => match bookAuth s b minGen with
    | some e => .error e
    | none => match bookChecks b with
      | some e => .error e
      | none => match loadScheds b partner (bookChans b) s with
        | .error e => .error e
        | .ok t => .ok (b, t)

/-- The bytes of a Book copy in the flash, as far as its header says; a header that fails is read alone (15 R392, R401). -/
def readBook (s : State) (copy : Bool) : List Byte :=
  let h := flashRead s (bookAt copy) 32
  if headerOk h then flashRead s (bookAt copy) (leAt h 8 4) else h

end Sys2Proof.Machine
end

