-- ==== Sys2Proof/Machine/Carry.lean ====
section
/-! DEFINITION. Carry states and checkpoints: what a controller hands to another (13 R339 to R343; 05 R149; 17 R461). -/
namespace Sys2Proof.Machine
open Sys2Proof

/-- A Cone integrated over a time at one power, rounded up; that power stands as the last until samples arrive (05 R149; 13 R352). -/
def advanceCone (A : ChanSt) (ns peak : Nat) (K : ConeSt) : ConeSt :=
  let K := mapPoles K fun i P =>
    let e := expNeg ns (1000 * pTau A i)
    { P with theta := sat24 (ceilDiv (P.theta * e) fpOne + ((ceilNat (pRth A i * peak * (fpOne - e)) (20000 * fpOne) : Nat) : Int)) }
  { K with lastP := peak }

/-- The carry words of the two roles of a channel: the library's, or the carry regions of the engines that run a custom schedule. In packed
service the Sitter's part comes first, as long as the Sitter form's region. -/
def carryOf (s : State) (c : Nat) : List Nat × List Nat :=
  let A := s.chan c
  if libSched A then (sitterCarry A, coneCarry (s.cone c))
  else
    let words (e : Option Nat) : List Nat := match e with | some e => (carryWords (s.engine e)).map (·.toNat) | none => []
    if A.sitter = A.cone then
      let all := words A.sitter
      let n := match regionFor s 0 (decide (512 ≤ c)) (pSched A) 0 with | some r => fld (r.desc.getD 2 0) 0 6 | none => all.length
      (all.take n, all.drop n)
    else (words A.sitter, words A.cone)

/-- Carry words as 32 words of 3 bytes. -/
def carryBytes (w : List Nat) : List Byte := (List.range 32).flatMap fun i => toLe 3 (w.getD i 0)

/-- The last sequence number admitted of a source, 0 for none. -/
def lastSeq (s : State) (src : Nat) : Nat := (tabGet (0 : BitVec 32) s.log.last src).toNat

/-- A channel record of a checkpoint (13 R341). -/
def cpRecord (s : State) (c : Nat) : List Byte :=
  let A := s.chan c
  if !hosted A then toLe 1 (c % 64) ++ List.replicate 255 0
  else
    let w := carryOf s c
    toLe 1 (c % 64 + 128) ++ toLe 1 (stCode A.commanded + 16 * b2n A.consented + 32 * b2n A.allocated) ++ toLe 1 w.1.length ++
      toLe 1 w.2.length ++ toLe 4 (lastSeq s (srcChan c)) ++ toLe 4 (min (s.cone c).peak 0xFFFFFF) ++ toLe 4 0 ++ carryBytes w.1 ++
      carryBytes w.2 ++ toLe 4 A.seats.toNat ++ toLe 4 A.trips.toNat ++ toLe 2 A.locks.toNat ++ toLe 2 A.skews.toNat ++
      toLe 8 A.goodTime.toNat ++ toLe 28 0

/-- A checkpoint of hearth `h`, 0 to 15 in the Crown's numbering (13 R340). -/
def checkpointOf (s : State) (h kind : Nat) (seq : BitVec 32) : List Byte :=
  let digest := if h < 8 then s.books.digest else s.books.partnerDigest
  let conf := packBits ((List.range 64).map fun k => hosted (s.chan (64 * h + k)))
  let lanes := if h < 8 then [srcLaneH (2 * h), srcLaneH (2 * h + 1), srcLaneH (32 + h)] else [srcLaneH (2 * h), srcLaneH (2 * h + 1), srcLaneH (32 + h - 8)]
  let head := toLe 2 1 ++ toLe 1 (h % 8) ++ toLe 1 kind ++ toLe 4 0 ++ toLe 8 s.time.tick ++ toLe 8 s.time.tai ++ toLe 4 seq.toNat ++
    toLe 4 (fld (tabGet (0 : BitVec 64) s.hblocks h) 32 32) ++ toLe 8 conf ++ toLe 4 (lastSeq s (srcHearth h)) ++ toLe 4 (lastSeq s (srcGroup h)) ++
    lanes.flatMap (fun x => toLe 4 (lastSeq s x)) ++ toLe 20 0 ++ hashBytes digest ++
    (List.range 16).flatMap (fun i => toLe 4 (lastSeq s (srcSlot (16 * h + i))))
  let body := head ++ (List.range 64).flatMap fun k => cpRecord s (64 * h + k)
  body ++ toLe 4 (crc32c body).toNat

/-- The peak registers of a hearth's Cones are cleared by its checkpoint (13 R339). -/
def clearPeaks (s : State) (h : Nat) : State :=
  forEach ((List.range 64).filter fun k => hosted (s.chan (64 * h + k))) (fun s k => s.updCone (64 * h + k) fun K => { K with peak := 0 }) s

/-- The parts of a checkpoint on the pair lane: at most 2,032 bytes each (13 R335). -/
def cpParts : Nat → List Byte → List (List Byte)
  | 0, _ => []
  | n + 1, bs => if bs.isEmpty then [] else bs.take 2032 :: cpParts n (bs.drop 2032)

/-- Fields of a checkpoint header. -/
def cpKind (bs : List Byte) : Nat := leAt bs 3 1
def cpTime (bs : List Byte) : Nat := leAt bs 16 8
def cpSeqOf (bs : List Byte) : BitVec 32 := BitVec.ofNat 32 (leAt bs 24 4)
def cpClaim (bs : List Byte) : BitVec 32 := BitVec.ofNat 32 (leAt bs 28 4)
def cpDigest (bs : List Byte) : BitVec 384 := hashOfBytes (sliceBytes bs 80 48)

/-- The record of local channel `k` in a checkpoint, when it marks the channel configured. -/
def cpChan (bs : List Byte) (k : Nat) : Option (List Byte) :=
  let r := sliceBytes bs (192 + 256 * k) 256
  if leAt bs (32 + k / 8) 1 / 2 ^ (k % 8) % 2 = 1 ∧ leAt r 0 1 / 128 = 1 then some r else none

/-- Carry words of a record. -/
def recCarry (r : List Byte) (off n : Nat) : List Nat := wordsLe 3 r off (min n 32)

/-- A channel taken up from a checkpoint record (13 R343), with its profile in place, and its Cone advanced over `ns` at PEAK_POWER;
its first update counts its time from now (05 R149). -/
def restoreChan (s : State) (c : Nat) (r : List Byte) (ns : Nat) : State :=
  let sw := recCarry r 16 (leAt r 2 1)
  let cw := recCarry r 112 (leAt r 3 1)
  let mode := leAt r 1 1
  let s := s.updChan c fun A =>
    let A := if libSched A then loadSitter sw A else A
    { A with
      commanded := (stOf (bitsOf mode 0 4)).getD .vacant, consented := decide (bitsOf mode 4 1 = 1), allocated := decide (bitsOf mode 5 1 = 1)
      seats := BitVec.ofNat 32 (leAt r 208 4), trips := BitVec.ofNat 32 (leAt r 212 4), locks := BitVec.ofNat 16 (leAt r 216 2)
      skews := BitVec.ofNat 16 (leAt r 218 2), goodTime := BitVec.ofNat 64 (leAt r 220 8), igMode := 0 }
  let A := s.chan c
  if libSched A then s.updCone c fun _ => { advanceCone A ns (leAt r 8 3) (loadCone cw) with
      lastTick := (match A.cone with | some e => clusterTickOf s e | none => 0) }
  else
    let put (s : State) (e : Option Nat) (w : List Nat) : State := match e with
      | some e => s.updEngine e fun E => { E with mem := tabPut 0 E.mem (carryBase E) (w.map (BitVec.ofNat 24)) }
      | none => s
    if A.sitter = A.cone then put s A.sitter (sw ++ cw) else put (put s A.sitter sw) A.cone cw

/-- A channel taken up without a checkpoint record: A at the hearth's F at acceptance, no Cone model state, counters at 0 (04 R107; 05 R148;
13 R343). -/
def restoreBare (s : State) (c : Nat) : State :=
  let s := s.updChan c fun A => { A with
    a := 0, retry := 0, seats := 0, trips := 0, locks := 0, skews := 0, goodTime := 0, consented := false, allocated := false, igMode := 0 }
  s.updCone c fun _ => {}

/-- The sequence numbers of a checkpoint become the bases of its sources (12 R324, R325; 13 R343). The cross-out lane of an adopted hearth
has no number of its own (12 R318 gives 32 + j alone), so its base is not taken. -/
def restoreSeqs (s : State) (h : Nat) (bs : List Byte) : State :=
  let lanes := [srcLaneH (2 * h), srcLaneH (2 * h + 1)] ++ (if h < 8 then [srcLaneH (32 + h)] else [])
  let l := [(srcHearth h, leAt bs 40 4), (srcGroup h, leAt bs 44 4)] ++ ((List.range lanes.length).map fun i => (lanes.getD i 0, leAt bs (48 + 4 * i) 4)) ++
    ((List.range 16).map fun i => (srcSlot (16 * h + i), leAt bs (128 + 4 * i) 4)) ++
    ((List.range 64).filterMap fun k => (cpChan bs k).map fun r => (srcChan (64 * h + k), leAt r 4 4))
  forEach (l.filter fun p => decide (p.2 ≠ 0)) (fun s p => (s.setLog { s.log with
    last := tabSet 0 s.log.last p.1 (BitVec.ofNat 32 p.2), seen := insertAsc p.1 s.log.seen })) s

end Sys2Proof.Machine
end

