-- ==== Sys2Proof/Machine/Ledger.lean ====
section
/-! DEFINITION. The feed ledger: allocations, the keeper's operations, consent, announcements (02 R51; 14 R376 to R382). Currents are in
1/16 A. -/
namespace Sys2Proof.Machine
open Sys2Proof

/-- A facility feed entry (14 R376); CAPACITY in 0.5 A. -/
structure Fac where
  id : Nat
  cap : Nat
  keeper : Nat
  keeper2 : Nat
deriving DecidableEq, Repr

/-- An entry word, none when unused. -/
def facOf (w : BitVec 64) : Option Fac :=
  if fld w 48 16 = 0 then none
  else some { id := fld w 48 16, cap := fld w 32 16, keeper := fld w 21 11, keeper2 := fld w 10 11 }

/-- The facility feed of a hearth's feed (1 A, 2 B), none when it is not ledgered (14 R376). -/
def facFeed (s : State) (h feed : Nat) : Option Fac :=
  let m := tabGet (0xFFF0 : BitVec 16) s.works.ledger h
  let e := if feed = 1 then fld m 10 6 else fld m 4 6
  if feed = 0 ∨ 3 ≤ feed ∨ e = 0x3F then none
  else ((if h < 8 then s.works.facility else s.works.facilityP)[e]?).bind facOf

/-- SEL and PHASE of a hearth's feed status word as the Crown sees it (08 R205). -/
def fwSel (s : State) (h : Nat) : Nat := fld (tabGet (0 : BitVec 16) s.feedWord h) 14 2
def fwPhase (s : State) (h : Nat) : Nat := fld (tabGet (0 : BitVec 16) s.feedWord h) 11 3
def fwShadow (s : State) (h : Nat) : Bool := bitOf (tabGet (0 : BitVec 16) s.feedWord h) 9

/-- A group counts as having a selected feed (08 R206). -/
def feedChosen (s : State) (h : Nat) : Bool :=
  fwSel s h != 0 && !([phaseCode .idle, phaseCode .gap, phaseCode .recharge, phaseCode .none].contains (fwPhase s h))

/-- The allocation of a channel: P0 of its shared curve when twinned, else of its solo curve (14 R377). -/
def chanAlloc (s : State) (c : Nat) : Nat :=
  2 * (((match twinView s c with | some v => v.points | none => pPoints (s.chan c)).getD 0 (0, 0)).1)

/-- The total allocation of a hearth. -/
def hearthAlloc (s : State) (h : Nat) : Nat :=
  (((List.range 64).map fun k => 64 * h + k).map fun c => if (s.chan c).allocated then chanAlloc s c else 0).sum

/-- The keeper that a request on a feed goes to: KEEPER2 while KEEPER has been unreachable for 1 ms (14 R377). -/
def askKeeper (s : State) (f : Fac) : Nat := if s.works.useStandby.contains (BitVec.ofNat 16 f.id) then f.keeper2 else f.keeper

/-- The feed entry under which this device is keeper or standby keeper of a feed, member of a Works or not (14 R376). -/
def keptFeed (s : State) (id : Nat) : Option Fac :=
  (s.works.facility.filterMap facOf).find? fun f => f.id == id && (f.keeper == wAddr s || f.keeper2 == wAddr s)

/-- The allocation total of an origin's hearth on a feed, and the feed's commitment (14 R379). -/
def totalOf (s : State) (id : BitVec 16) (o : BitVec 11) (h : BitVec 4) : Nat :=
  ((s.works.totals.find? fun t => t.1 == id && t.2.1 == o && t.2.2.1 == h).map fun t => t.2.2.2).getD 0
def commitment (s : State) (id : BitVec 16) : Nat :=
  ((s.works.totals.filter fun t => t.1 == id).map fun t => t.2.2.2).sum +
    ((s.works.holds.filter fun x => x.feedId == id).map fun x => x.amount).sum

/-- Set an allocation total; a total of 0 is not kept. -/
def setTotal (s : State) (id : BitVec 16) (o : BitVec 11) (h : BitVec 4) (v : Nat) : State :=
  let rest := s.works.totals.filter fun t => !(t.1 == id && t.2.1 == o && t.2.2.1 == h)
  s.setWorks { s.works with totals := if v = 0 then rest else rest ++ [(id, o, h, v)] }

/-- The fields of a LEDGER entry from bit 0 (14 R378). -/
def entryFlds (op : Nat) (e : LedgerEntry) : List (Nat × Nat) :=
  [(8, 0), (4, e.reason.toNat), (16, e.tag.toNat), (16, e.capacity.toNat), (20, e.amount.toNat), (3, 0), (16, e.ident.toNat), (6, e.loc.toNat),
   (4, e.hearth.toNat), (11, e.origin.toNat), (16, e.feedId.toNat), (8, op)]

/-- EV_CONSENT_WAIT, once for a stay in Seated (02 R51): reason 0 feed, 1 ledger, 2 no CHAN.ON. -/
def consentWait (s : State) (c reason : Nat) : State :=
  if (s.chan c).waitStamped then s
  else sitterEvent (s.updChan c fun A => { A with waitStamped := true }) c 0x1104 [(8, reason)]

/-- Consent given: the firmware posts CONSENT at the channel's REQ port (02 R51, 09 R237). -/
def giveConsent (s : State) (c : Nat) : State :=
  s.updChan c fun A => { A with allocated := true, allocTag := none, req := A.req ||| 1 }

/-- The channel whose request carries a tag. -/
def tagChan (s : State) (tag : BitVec 16) : Option Nat := (s.chans.find? fun p => p.2.allocTag == some tag).map (·.1)

/-- GRANT at its requester: the ledger check passes (14 R377). -/
def takeGrant (s : State) (tag : BitVec 16) : State :=
  match tagChan s tag with
  | none => s
  | some c =>
    let s := s.setWorks { s.works with charged := tabSet 0 s.works.charged (c / 64) (fwSel s (c / 64)) }
    if (s.chan c).obs = .seated then giveConsent s c else s.updChan c fun A => { A with allocated := true, allocTag := none }

/-- REFUSE, or no answer: the ledger check fails (14 R377). -/
def takeRefuse (s : State) (tag : BitVec 16) : State :=
  match tagChan s tag with
  | none => s
  | some c => consentWait (s.updChan c fun A => { A with allocTag := none }) c 1

/-- FREED: a ledger change of the groups that the feed serves (14 R379; 02 R51); each waiting channel's evaluation is a step of its own. -/
def takeFreed (s : State) : State := s

/-- An answer to an origin; to this device itself it acts at once. -/
def answerTo (s : State) (dest op : Nat) (e : LedgerEntry) : State :=
  if dest = wAddr s then (match op with | 2 => takeGrant s e.tag | 3 => takeRefuse s e.tag | _ => takeFreed s)
  else originate s 4 dest (entryFlds op e)

/-- FREED to the origins refused on a feed in the last 1 s, at a fall of its commitment (14 R379). -/
def freedOn (s : State) (id : BitVec 16) (before : Nat) : State :=
  if before ≤ commitment s id then s
  else
    let go := s.works.refusedOrg.filter fun r => r.1 == id && decide (s.time.tai ≤ r.2.2 + 1000000000)
    forEach go (fun s r => answerTo s r.2.1.toNat 0xA
      { feedId := id, origin := BitVec.ofNat 11 (wAddr s), hearth := 0, loc := 0x3F, ident := 0, amount := 0, capacity := 0, tag := 0, reason := 0 }) s

/-- EV_LEDGER_OVER when an operation that is never refused raises a commitment above CAPACITY (14 R381). -/
def overCheck (s : State) (f : Fac) (before : Nat) : State :=
  let now := commitment s (BitVec.ofNat 16 f.id)
  if before ≤ 8 * f.cap ∧ 8 * f.cap < now then crownStamp s srcWorks 0x1705 [(16, f.id), (32, now), (16, f.cap)] else s

/-- ALLOC_REQ at a keeper (14 R379). -/
def keeperAlloc (s : State) (src : Nat) (e : LedgerEntry) : State :=
  let refuse (s : State) (why : Nat) : State :=
    let s := s.setWorks { s.works with refusedOrg :=
      (s.works.refusedOrg.filter fun r => !(r.1 == e.feedId && r.2.1.toNat == src)) ++ [(e.feedId, BitVec.ofNat 11 src, s.time.tai)] }
    answerTo s src 3 { e with reason := BitVec.ofNat 4 why }
  match keptFeed s e.feedId.toNat with
  | none => refuse s 3
  | some f =>
    if e.capacity.toNat ≠ f.cap then
      refuse (crownStamp s srcWorks 0x1707 [(16, f.id), (16, e.origin.toNat), (16, e.capacity.toNat)]) 2
    else if commitment s e.feedId + e.amount.toNat ≤ 8 * f.cap then
      answerTo (setTotal s e.feedId e.origin e.hearth (totalOf s e.feedId e.origin e.hearth + e.amount.toNat)) src 2 e
    else refuse s 1

/-- RELEASE at a keeper (14 R379). -/
def keeperRelease (s : State) (e : LedgerEntry) : State :=
  let b := commitment s e.feedId
  freedOn (setTotal s e.feedId e.origin e.hearth (totalOf s e.feedId e.origin e.hearth - e.amount.toNat)) e.feedId b

/-- A hold of an announcement. -/
def isHold (e : LedgerEntry) (x : Hold) : Bool := x.feedId == e.feedId && x.origin == e.origin && x.hearth == e.hearth && x.ident == e.ident

/-- ANNOUNCE at the incoming feed's keeper; one that follows its own retraction within 1 ms is discarded (14 R379, R381). -/
def keeperAnnounce (s : State) (e : LedgerEntry) : State :=
  let gone := s.works.retracts.any fun r => r.1 == e.feedId && r.2.1 == e.origin && r.2.2.1 == e.hearth && r.2.2.2.1 == e.ident &&
    decide (s.time.tai ≤ r.2.2.2.2 + 1000000)
  match keptFeed s e.feedId.toNat with
  | none => s
  | some f =>
    if gone then s
    else
      let b := commitment s e.feedId
      let x : Hold := { feedId := e.feedId, origin := e.origin, hearth := e.hearth, ident := e.ident, amount := e.amount.toNat }
      overCheck (s.setWorks { s.works with holds := (s.works.holds.filter fun y => !isHold e y) ++ [x] }) f b

/-- CONFIRM (14 R379, R381): at the keeper of the feed it names the hold becomes allocation, lapsed or not; on every other feed kept here
the amount is taken from the same origin's hearth (log entry 24). -/
def keeperConfirm (s : State) (e : LedgerEntry) : State :=
  let s := match keptFeed s e.feedId.toNat with
    | none => s
    | some f =>
      let b := commitment s e.feedId
      let s := s.setWorks { s.works with holds := s.works.holds.filter fun y => !isHold e y }
      overCheck (setTotal s e.feedId e.origin e.hearth (totalOf s e.feedId e.origin e.hearth + e.amount.toNat)) f b
  let others := (s.works.totals.filter fun t => t.1 != e.feedId && t.2.1 == e.origin && t.2.2.1 == e.hearth).map (·.1)
  forEach others (fun s id =>
    let b := commitment s id
    freedOn (setTotal s id e.origin e.hearth (totalOf s id e.origin e.hearth - e.amount.toNat)) id b) s

/-- RETRACT at the incoming feed's keeper, kept for 1 ms (14 R379, R381). -/
def keeperRetract (s : State) (e : LedgerEntry) : State :=
  let b := commitment s e.feedId
  let s := s.setWorks { s.works with
    holds := s.works.holds.filter fun y => !isHold e y
    retracts := (s.works.retracts.filter fun r => decide (s.time.tai ≤ r.2.2.2.2 + 1000000)) ++
      [(e.feedId, e.origin, e.hearth, e.ident, s.time.tai)] }
  freedOn s e.feedId b

/-- MOVE: every allocation of (ORIGIN, HEARTH) goes to (SRC, HEARTH xor 8) (14 R379, R382). -/
def keeperMove (s : State) (src : Nat) (e : LedgerEntry) : State :=
  let mine := s.works.totals.filter fun t => t.2.1 == e.origin && t.2.2.1 == e.hearth
  forEach mine (fun s t =>
    let to_ : BitVec 11 := BitVec.ofNat 11 src
    let h2 := e.hearth ^^^ 8
    let v := totalOf s t.1 to_ h2 + t.2.2.2
    setTotal (setTotal s t.1 e.origin e.hearth 0) t.1 to_ h2 v) s

/-- STANDING: it replaces the total (14 R379). -/
def keeperStanding (s : State) (e : LedgerEntry) : State :=
  let b := commitment s e.feedId
  if (keptFeed s e.feedId.toNat).isNone then s
  else freedOn (setTotal s e.feedId e.origin e.hearth e.amount.toNat) e.feedId b

/-- An operation at its keeper, by its code. -/
def keeperOp (s : State) (op src : Nat) (e : LedgerEntry) : State :=
  match op with
  | 1 => keeperAlloc s src e
  | 2 => takeGrant s e.tag
  | 3 => takeRefuse s e.tag
  | 4 => keeperRelease s e
  | 5 => keeperAnnounce s e
  | 6 => keeperConfirm s e
  | 7 => keeperRetract s e
  | 8 => keeperMove s src e
  | 9 => keeperStanding s e
  | _ => takeFreed s

/-- An operation of this device to a keeper; it acts at once where this device is that keeper. -/
def ledgerSend (s : State) (dest op : Nat) (e : LedgerEntry) : State :=
  if dest = wAddr s then keeperOp s op (wAddr s) e else originate s 4 dest (entryFlds op e)

/-- A LEDGER entry that a lane brings: acted on here, or forwarded (14 R368, R379). -/
def ledgerIn (n : WLane) (h : WorksHdr) (op : Nat) (e : LedgerEntry) (s : State) : State :=
  takeRouted s n h (fun s => keeperOp s op h.src.toNat e) fun s => forward s n 4 h (entryFlds op e)

def execAllocReq (n : WLane) (h : WorksHdr) (e : LedgerEntry) (s : State) : Host.Outcome State Fault Refusal := .next (ledgerIn n h 1 e s)
def execGrant (n : WLane) (h : WorksHdr) (e : LedgerEntry) (s : State) : Host.Outcome State Fault Refusal := .next (ledgerIn n h 2 e s)
def execRefuse (n : WLane) (h : WorksHdr) (e : LedgerEntry) (s : State) : Host.Outcome State Fault Refusal := .next (ledgerIn n h 3 e s)
def execLedgerRelease (n : WLane) (h : WorksHdr) (e : LedgerEntry) (s : State) : Host.Outcome State Fault Refusal := .next (ledgerIn n h 4 e s)
def execAnnounce (n : WLane) (h : WorksHdr) (e : LedgerEntry) (s : State) : Host.Outcome State Fault Refusal := .next (ledgerIn n h 5 e s)
def execConfirm (n : WLane) (h : WorksHdr) (e : LedgerEntry) (s : State) : Host.Outcome State Fault Refusal := .next (ledgerIn n h 6 e s)
def execRetract (n : WLane) (h : WorksHdr) (e : LedgerEntry) (s : State) : Host.Outcome State Fault Refusal := .next (ledgerIn n h 7 e s)
def execMove (n : WLane) (h : WorksHdr) (e : LedgerEntry) (s : State) : Host.Outcome State Fault Refusal := .next (ledgerIn n h 8 e s)
def execStanding (n : WLane) (h : WorksHdr) (e : LedgerEntry) (s : State) : Host.Outcome State Fault Refusal := .next (ledgerIn n h 9 e s)
def execFreed (n : WLane) (h : WorksHdr) (e : LedgerEntry) (s : State) : Host.Outcome State Fault Refusal := .next (ledgerIn n h 10 e s)

/-- An entry of this device about a hearth of its own numbering. -/
def ownEntry (s : State) (f : Fac) (h loc amount : Nat) : LedgerEntry :=
  { feedId := BitVec.ofNat 16 f.id, origin := BitVec.ofNat 11 (wAddr s), hearth := BitVec.ofNat 4 h, loc := BitVec.ofNat 6 loc, ident := 0
    amount := BitVec.ofNat 20 amount, capacity := BitVec.ofNat 16 f.cap, tag := 0, reason := 0 }

/-- The ledger check of a channel's consent (14 R377, R386): at once where the feed is not ledgered or the allocation is held; else
ALLOC_REQ, or a wait for the ledger while no lane is UP and this device is not the keeper. -/
def ledgerCheck (s : State) (c : Nat) : State :=
  let h := c / 64
  match facFeed s h (fwSel s h) with
  | none => giveConsent (s.setWorks { s.works with charged := tabSet 0 s.works.charged h (fwSel s h) }) c
  | some f =>
    if (s.chan c).allocated then giveConsent s c
    else if askKeeper s f ≠ wAddr s ∧ (upLanes s).isEmpty then consentWait s c 1
    else
      let tag := s.works.nextReq
      let s := s.setWorks { s.works with nextReq := tag + 1 }
      let s := s.updChan c fun A => { A with allocTag := some tag }
      ledgerSend s (askKeeper s f) 1 { ownEntry s f h (c % 64) (chanAlloc s c) with tag := tag }

/-- CONSENT_EVALUATION: the firmware evaluates a Seated channel (02 R51). -/
def consentEvaluation (c : Chan) (s : State) : State :=
  let A := s.chan c
  if !(alive s && s.boot.devState == 1 && served s c && decide (A.obs = .seated)) || A.consented || bitOf A.req 0 || A.allocTag.isSome then s
  else if pConsent A = 1 ∧ !A.hostOn then consentWait s c 2
  else if !feedChosen s (c / 64) then consentWait s c 0
  else ledgerCheck s c

def execConsentEvaluation (c : Chan) (s : State) : Host.Outcome State Fault Refusal := .next (consentEvaluation c s)

/-- ALLOC_NO_ANSWER: no answer within 2 ms (14 R377). -/
def execAllocNoAnswer (tag : BitVec 16) (s : State) : Host.Outcome State Fault Refusal := .next (takeRefuse s tag)

/-- The release of a channel's allocation at its entry to Locked, Off or Vacant (14 R377; 02 R52). -/
def releaseAlloc (s : State) (c : Nat) : State :=
  let A := s.chan c
  let ended := match A.obs with | .locked | .off | .vacant => true | _ => false
  if !(A.allocated && ended) then s
  else
    let s := s.updChan c fun A => { A with allocated := false }
    match facFeed s (c / 64) (tabGet 0 s.works.charged (c / 64)) with
    | none => s
    | some f => ledgerSend s (askKeeper s f) 4 (ownEntry s f (c / 64) (c % 64) (chanAlloc s c))

/-- STANDING_SEND: every 10 ms, to both keepers, the total of each hearth on each of its ledgered feeds (14 R377). -/
def standingSend (s : State) : State :=
  if !(alive s && (s.boot.devState == 1 || s.boot.devState == 2)) then s
  else forEach (List.range 16) (fun s h => forEach [1, 2] (fun s feed =>
    match facFeed s h feed with
    | none => s
    | some f =>
      let e := ownEntry s f h 0x3F (if tabGet 0 s.works.charged h = feed then hearthAlloc s h else 0)
      ledgerSend (ledgerSend s f.keeper 9 e) f.keeper2 9 e) s) s

def execStandingSend (s : State) : Host.Outcome State Fault Refusal := .next (standingSend s)

/-- KEEPER_UNREACHABLE: KEEPER has been unreachable for 1 ms, so requests go to KEEPER2, until KEEPER can be reached again (14 R377). -/
def keeperUnreachable (id : BitVec 16) (s : State) : State :=
  match ((s.works.facility ++ s.works.facilityP).filterMap facOf).find? fun f => f.id == id.toNat with
  | none => s
  | some f =>
    let rest := s.works.useStandby.filter (· ≠ id)
    s.setWorks { s.works with useStandby := if reachable s f.keeper then rest else rest ++ [id] }

def execKeeperUnreachable (id : BitVec 16) (s : State) : Host.Outcome State Fault Refusal := .next (keeperUnreachable id s)

/-- Close a group's open announcement with an operation to the incoming feed's keeper, or to both keepers (14 R380). -/
def closeAnnounce (s : State) (h op : Nat) : State :=
  let from_ := tabGet 0 s.works.charged h
  let ident := tabGet (0 : BitVec 16) s.works.announced h - 1
  if tabGet (0 : BitVec 16) s.works.announced h = 0 then s
  else
    let s := s.setWorks { s.works with announced := tabSet 0 s.works.announced h 0 }
    match facFeed s h (3 - from_) with
    | none => s
    | some f =>
      let e := { ownEntry s f h 0x3F (hearthAlloc s h) with ident := ident }
      let s := ledgerSend s (askKeeper s f) op e
      match op, facFeed s h from_ with
      | 6, some g => if askKeeper s g = askKeeper s f then s else ledgerSend s (askKeeper s g) op e
      | _, _ => s

/-- One thing the firmware is to tell the ledger of a group's handover (14 R380): 0 announces a confirmed warning, 1 closes at
EV_FEED_SETTLED. -/
def announceAct (h : Nat) (s : State) (a : Nat × Nat × Nat) : State :=
  let from_ := tabGet 0 s.works.charged h
  if from_ = 0 then s
  else if a.2.1 = 0 then
    let s := closeAnnounce s h 7
    if !fwShadow s h || fwPhase s h == phaseCode .none then s
    else match facFeed s h (3 - from_) with
      | none => s
      | some f =>
        let s := s.setWorks { s.works with announced := tabSet 0 s.works.announced h (BitVec.ofNat 16 (a.2.2 + 1)) }
        ledgerSend s (askKeeper s f) 5 { ownEntry s f h 0x3F (hearthAlloc s h) with ident := BitVec.ofNat 16 a.2.2 }
  else if fwSel s h = 3 - from_ then
    let s := match facFeed s h (3 - from_), facFeed s h from_ with
      | none, some g => ledgerSend s (askKeeper s g) 4 (ownEntry s g h 0x3F (hearthAlloc s h))
      | _, _ => closeAnnounce s h 6
    s.setWorks { s.works with charged := tabSet 0 s.works.charged h (3 - from_) }
  else closeAnnounce s h 7

/-- LEDGER_ANNOUNCE_SEND: the firmware announces, confirms or retracts a handover of a group; a group in NONE retracts (14 R380). -/
def ledgerAnnounceSend (h : Hearth) (s : State) : State :=
  if !(alive s) then s
  else
    let due := s.works.announceDue.filter fun a => a.1 == h.val
    let s := s.setWorks { s.works with announceDue := s.works.announceDue.filter fun a => a.1 != h.val }
    let s := due.foldl (announceAct h) s
    if fwPhase s h == phaseCode .none then closeAnnounce s h 7 else s

def execLedgerAnnounceSend (h : Hearth) (s : State) : Host.Outcome State Fault Refusal := .next (ledgerAnnounceSend h s)

/-- LEDGER_HOLD_LAPSE: a hold neither confirmed nor retracted lapses after 1 ms (14 R381). -/
def ledgerHoldLapse (id : BitVec 16) (o : BitVec 11) (h : BitVec 4) (ident : BitVec 16) (s : State) : State :=
  let is_ (x : Hold) : Bool := x.feedId == id && x.origin == o && x.hearth == h && x.ident == ident
  if !s.works.holds.any is_ then s
  else
    let b := commitment s id
    let s := s.setWorks { s.works with holds := s.works.holds.filter fun x => !is_ x }
    freedOn (crownStamp s srcWorks 0x1706 [(16, id.toNat), (16, o.toNat), (8, h.toNat), (16, ident.toNat)]) id b

def execLedgerHoldLapse (id : BitVec 16) (o : BitVec 11) (h : BitVec 4) (ident : BitVec 16) (s : State) : Host.Outcome State Fault Refusal :=
  .next (ledgerHoldLapse id o h ident s)

end Sys2Proof.Machine
end

