-- ==== Sys2Proof/Machine/Mailbox.lean ====
section
/-! DEFINITION. Mailboxes: locks, doorbells, the start and the checks of a Pelavazil command, its answer and its end
(16 R418 to R423; 17 R441 to R447). -/
namespace Sys2Proof.Machine
open Sys2Proof

/-- The mailbox of a command's source; the forwarded queue of an origin counts as one (17 R446). -/
def srcBox (s : State) : CmdSrc → Mbox
  | .mbox m => s.mbox m
  | .fwd o => s.fwdBox o.toNat

/-- The state with it changed. -/
def updBox (s : State) (src : CmdSrc) (f : Mbox → Mbox) : State :=
  match src with
  | .mbox m => s.updMbox m f
  | .fwd o => s.updFwdBox o.toNat f

/-- Fields of the request header (16 R421). -/
def reqOp (m : Mbox) : Nat := leAt m.copy 0 2
def reqLen (m : Mbox) : Nat := leAt m.copy 2 2
def reqFlags (m : Mbox) : Nat := leAt m.copy 4 2
def reqDma (m : Mbox) : Bool := decide (reqFlags m % 2 = 1)

/-- The request body, without the DMA_OUT fields that open it (16 R422). -/
def reqBody (m : Mbox) : List Byte := m.copy.drop (if reqDma m then 20 else 8)

/-- Bytes of a body from its fields in order, each given by its width in bits and its value (17 R442). -/
def bodyOf (l : List (Nat × Nat)) : List Byte := toLe (((l.map (·.1)).sum + 7) / 8) (payNat l)

/-- A source executes the command of an opcode with a given body, and it has no answer yet; in Cracked nothing executes (11 R300). -/
def cmdIs (s : State) (src : CmdSrc) (op : Nat) (body : List Byte) : Bool :=
  let m := srcBox s src
  m.running && !s.boot.cracked && m.answer.isNone && m.acted.isNone && decide (reqOp m = op) && decide (reqBody m = body)

/-- The response header (16 R421). -/
def respHeader (op len status seq time : Nat) : List Byte := toLe 2 op ++ toLe 2 len ++ toLe 2 status ++ toLe 2 seq ++ toLe 8 time

/-- A RESPONSE reaches the command that waits for it (14 R383, R384): WORKS.SEND completes with the inner response, whose header is formed
here, and WORKS.SUBSCRIBE with the origin's acknowledgement, from which the subscription runs. -/
def answerSend (s : State) (tag : BitVec 32) (status : Nat) (bytes : List Byte) : State :=
  match s.works.sends.find? fun p => p.1 == tag with
  | none => s
  | some (t, src) =>
    let s := s.setWorks { s.works with sends := s.works.sends.erase (t, src) }
    let m := srcBox s src
    let b := reqBody m
    if reqOp m = 0x0E03 then
      let s := if status = 0 then s.setWorks { s.works with
        subsIn := tabSet 0 s.works.subsIn (leAt b 0 2) (max 1 (leAt b 4 8) + 1) } else s
      updBox s src fun m => { m with answer := some (BitVec.ofNat 16 status, []) }
    else
      updBox s src fun m => { m with
        answer := some (0, respHeader (leAt b 4 2) bytes.length status m.seq.toNat s.time.tai ++ bytes) }

/-- A command that was executed asks for a device reset behind its response (17 R449; 15 R412). -/
def asksReset (m : Mbox) (st : Nat) : Bool :=
  decide (st = 0) && (reqOp m == 0x0103 || (reqOp m == 0x1003 && decide (leAt (reqBody m) 0 1 % 2 = 1)))

/-- Send the RESPONSE of a forwarded command that has its answer, and end it (14 R383). -/
def flushFwd (s : State) (o : Nat) : State :=
  let m := s.fwdBox o
  match m.answer with
  | none => s
  | some (st0, body0) =>
    let short := decide (2032 < body0.length)
    let st := if short then 0x102 else st0.toNat
    let body := if short then [] else body0
    match s.works.fwdQ.find? fun q => q.1.toNat == o && q.2.2.2 == m.arrival with
    | none => s.updFwdBox o fun m => { m with running := false, answer := none }
    | some q =>
      let s := (s.setWorks { s.works with fwdQ := s.works.fwdQ.erase q, fwdTag := tabSet 0 s.works.fwdTag o (q.2.1.toNat + 1) }).setBoot { s.boot with resetDue := s.boot.resetDue || asksReset m st }
      let s := s.updFwdBox o fun m => { m with running := false, answer := none, phase := 2 }
      if o = wAddr s then answerSend s q.2.1 st body else originate s 6 o ((32, q.2.1.toNat) :: (16, st) :: byteFlds body)

/-- A command has its status and response body. A forwarded one is answered at once. -/
def setAnswer (s : State) (src : CmdSrc) (st : Nat) (body : List Byte) : State :=
  let s := updBox s src fun m => { m with answer := some (BitVec.ofNat 16 st, body), acted := none }
  match src with
  | .mbox _ => s
  | .fwd o => flushFwd s o.toNat

/-- A response body fits: 2,032 bytes in the mailbox, or the host's buffer (16 R422). -/
def bodyFits (m : Mbox) (n : Nat) : Bool := if reqDma m then decide (n ≤ leAt m.copy 16 4) else decide (n ≤ 2032)

/-- Run the command of a source, given as its effect, status and response body. A command whose response body does not fit is answered with
ST_MBOX_SHORT and has no effect (16 R422; 17 R443). -/
def runCmd (s : State) (src : CmdSrc) (op : Nat) (body : List Byte) (f : State → State × Nat × List Byte) : State :=
  if cmdIs s src op body then
    let r := f s
    setAnswer (if bodyFits (srcBox s src) r.2.2.length then r.1 else s) src r.2.1 r.2.2
  else s

/-- Run the command of a source whose answer may come in a later step. -/
def runLater (s : State) (src : CmdSrc) (op : Nat) (body : List Byte) (f : State → State) : State := if cmdIs s src op body then f s else s

/-- LOCK code of a port (16 R418). -/
def portLock : HostPort → BitVec 2
  | .pcie => 1 | .spi => 2

/-- The host island serves the registers and mailboxes: from the end of Bisque, unless Bisque has stalled (15 R397, R398). -/
def hostUp (s : State) : Bool := crownUp s && (s.boot.stage == 2 || s.boot.stage == 3 || s.boot.stage == 5)

/-- An access of a port reaches BAR0: PCIe does not in host lost or in D3hot (16 R415). -/
def portOpen (s : State) : HostPort → Bool
  | .pcie => hostUp s && !s.host.hostLost && !s.host.d3
  | .spi => hostUp s

/-- MBOX_LOCK_WRITE (16 R419). -/
def lockWrite (port : HostPort) (m : MboxNo) (value : BitVec 2) (s : State) : State :=
  let M := s.mbox m
  if !portOpen s port then s
  else if value = portLock port ∧ M.lock = 0 then s.updMbox m fun M => { M with lock := value }
  else if value = 0 ∧ M.lock = portLock port ∧ M.phase ≠ 1 then s.updMbox m fun M => { M with lock := 0 }
  else s

def execMboxLockWrite (port : HostPort) (m : MboxNo) (value : BitVec 2) (s : State) : Host.Outcome State Fault Refusal :=
  .next (lockWrite port m value s)

/-- The interrupt of a mailbox that reaches DONE, by the port that holds it (16 R427, R430). -/
def doneSignal (s : State) (m : MboxNo) : State :=
  let s := s.setHost { s.host with mboxDone := s.host.mboxDone ||| BitVec.ofNat 16 (2 ^ m.val) }
  if (s.mbox m).lock = 1 then msix s (16 + m.val) else if (s.mbox m).lock = 2 then spiIrq s m else s

/-- A command ends: RESPONSE, DONE_SEQ, PHASE DONE, MBOX_DONE and the interrupt (16 R420 to R422). In host lost the lock of a mailbox that
PCIe holds is released (16 R415). -/
def endCommand (s : State) (m : MboxNo) (st : Nat) (body : List Byte) : State :=
  let M := s.mbox m
  let dma := reqDma M && decide (M.lock = 1)
  let size := leAt M.copy 16 4
  let sent := if dma then body.take size else if 2032 < body.length then [] else body
  let st := if sent.length < body.length then 0x102 else st
  let head := respHeader (reqOp M) sent.length st M.seq.toNat s.time.tai
  let s := if dma && !sent.isEmpty && !s.host.hostLost && !s.host.d3 then s.emit (.dma (leAt M.copy 8 8) sent) else s
  let s := s.updMbox m fun M => { M with
    response := if dma then head else head ++ sent, doneSeq := M.seq, phase := 2, overrun := false, running := false
    answer := none, acted := none }
  let s := doneSignal s m
  let s := s.setBoot { s.boot with resetDue := s.boot.resetDue || asksReset M st }
  if s.host.hostLost && decide (M.lock = 1) then s.updMbox m fun M => { M with lock := 0 } else s

/-- COMMAND_DONE: the answer of a mailbox's command is written (16 R420); in Cracked every command is answered with ST_DEV_CRACKED (11 R300). -/
def commandDone (m : MboxNo) (s : State) : State :=
  if s.boot.cracked ∧ ((s.mbox m).phase = 1 ∨ (s.mbox m).phase = 3) then endCommand s m 4 []
  else match (s.mbox m).answer with
    | some (st, body) => endCommand s m st.toNat body
    | none => s

def execCommandDone (m : MboxNo) (s : State) : Host.Outcome State Fault Refusal := .next (commandDone m s)

/-- MBOX_DOORBELL: the port that holds the mailbox writes its request and the doorbell (16 R420, R423; 15 R397; 16 R435, R437). -/
def doorbell (port : HostPort) (m : MboxNo) (length seq : BitVec 16) (request : List Byte) (s : State) : State :=
  let M := s.mbox m
  if !portOpen s port || decide (M.lock ≠ portLock port) then s
  else
    let s := s.updMbox m fun M => { M with request := tabPut 0 M.request 0 (request.take 1984) }
    if M.phase = 1 ∨ M.phase = 3 then s.updMbox m fun M => { M with overrun := true }
    else
      let n := s.host.arrivals
      let s := s.setHost { s.host with arrivals := n + 1 }
      let serve := s.boot.devState == 1 || (s.boot.stage == 5 && m == 0)
      let s := s.updMbox m fun M => { M with
        phase := if serve then 1 else 3, length := length, seq := seq, arrival := n, running := false, answer := none, acted := none
        copy := tabRun 0 M.request 0 (min length.toNat 1984) }
      if s.boot.cracked then endCommand s m 4 []
      else requestWake s (match port with | .pcie => 0 | .spi => 1) 0

def execMboxDoorbell (port : HostPort) (m : MboxNo) (length seq : BitVec 16) (request : List Byte) (s : State) :
    Host.Outcome State Fault Refusal := .next (doorbell port m length seq request s)

/-! The forms of the commands. -/

/-- What a body field may hold (17 R442, R443). -/
inductive FieldRule where
  | any
  | upTo (n : Nat)
  | span (a b : Nat)
  | part
  | res
  | flags (n : Nat)
  | low (n : Nat)
deriving DecidableEq, Repr

/-- Forms by opcode: the fields in order, and whether data follows (17 R449 to R469). -/
def devForms : List (Nat × List (Nat × FieldRule) × Bool) :=
  [(0x0101, [(8, .part)], false), (0x0102, [], false), (0x0103, [(32, .any), (8, .flags 1)], false), (0x0104, [], false),
   (0x0201, [(16, .upTo 1023)], false), (0x0202, [(16, .upTo 1023)], false), (0x0203, [(16, .upTo 1023)], false),
   (0x0204, [(16, .upTo 1023)], false), (0x0301, [(8, .any)], false), (0x0401, [(8, .upTo 15)], false),
   (0x0402, [(8, .upTo 15), (8, .upTo 2)], false), (0x0403, [(8, .upTo 15), (8, .span 1 2)], false),
   (0x0404, [(8, .upTo 15), (8, .upTo 1)], false), (0x0501, [(16, .upTo 511)], false)]

def schedForms : List (Nat × List (Nat × FieldRule) × Bool) :=
  [(0x0601, [(32, .any)], true), (0x0602, [(8, .any), (32, .any), (32, .any), (384, .any)], false),
   (0x0603, [(8, .any), (32, .any), (32, .any), (384, .any)], false), (0x0604, [(8, .any)], false),
   (0x0701, [(16, .upTo 1023)], false), (0x0801, [(8, .upTo 15)], false),
   (0x0802, [(8, .upTo 15), (8, .upTo 31), (48, .res), (64, .low 13)], false), (0x0803, [(8, .upTo 15), (8, .upTo 31)], false),
   (0x0804, [(8, .upTo 15)], false), (0x0901, [(8, .upTo 15), (8, .upTo 129), (48, .res), (64, .low 23)], false),
   (0x0902, [(8, .upTo 15), (8, .upTo 15)], false), (0x0903, [(8, .upTo 15), (8, .upTo 129)], false)]

def faultForms : List (Nat × List (Nat × FieldRule) × Bool) :=
  [(0x0A01, [], false), (0x0A02, [(64, .any)], false), (0x0A03, [(16, .any), (8, .span 1 31), (8, .upTo 2)], false),
   (0x0A04, [(16, .any)], false), (0x0A05, [(16, .any), (8, .flags 1)], false), (0x0A06, [(8, .flags 1)], false),
   (0x0A07, [(16, .any)], false), (0x0B01, [(64, .any), (32, .any)], false), (0x0B02, [], false),
   (0x0C01, [(8, .flags 1), (8, .upTo 2), (16, .upTo 244)], true), (0x0C02, [(32, .any)], false), (0x0C03, [], false)]

def partForms : List (Nat × List (Nat × FieldRule) × Bool) :=
  [(0x0D01, [], false), (0x0D02, [], false), (0x0D03, [(8, .any)], false), (0x0D04, [], false), (0x0E01, [], false),
   (0x0E02, [(16, .upTo 2047), (16, .res)], true), (0x0E03, [(16, .upTo 2047), (16, .res), (64, .any)], false),
   (0x0E04, [(16, .upTo 2047)], false), (0x0E05, [(16, .any)], false)]

def bookForms : List (Nat × List (Nat × FieldRule) × Bool) :=
  [(0x0F01, [(32, .any), (8, .flags 1), (24, .res)], true), (0x0F02, [(32, .any)], false),
   (0x0F03, [(8, .upTo 1), (24, .res), (32, .any), (16, .any)], false), (0x0F04, [], false), (0x1001, [(32, .any)], true),
   (0x1002, [], false), (0x1003, [(8, .flags 2)], false), (0x1004, [(8, .flags 2)], false), (0x1005, [], false), (0x1101, [], false),
   (0x1102, [(384, .any)], false), (0x1103, [(384, .any)], false), (0x1104, [(16, .any), (8, .span 1 40)], false)]

/-- The form of an opcode, none for one that the manual does not list (17 R441). -/
def cmdForm (op : Nat) : Option (List (Nat × FieldRule) × Bool) :=
  ((devForms ++ schedForms ++ faultForms ++ partForms ++ bookForms).find? fun f => f.1 == op).map (·.2)

/-- A field is in its range (17 R443, check 5). -/
def fieldInRange (r : FieldRule) (v : Nat) : Bool :=
  match r with
  | .upTo n => decide (v ≤ n)
  | .span a b => decide (a ≤ v) && decide (v ≤ b)
  | .part => decide (v ≤ 6) || decide (v = 0xFF)
  | .any | .res | .flags _ | .low _ => true

/-- A field's Reserved bits are 0 (17 R443, check 6; 01 R12): FW.RATCHET names bit 1 alone of its FLAGS, and a housekeeping entry and a
spyhole word keep their lowest bits Reserved (06 R168; 07 R182). -/
def fieldClean (op : Nat) (r : FieldRule) (v : Nat) : Bool :=
  match r with
  | .res => decide (v = 0)
  | .low n => decide (v % 2 ^ n = 0)
  | .flags n => decide (v < 2 ^ n) && (op != 0x1004 || decide (v % 2 = 0))
  | _ => true

/-- The fields of a body, each with its rule. -/
def bodyFields : List (Nat × FieldRule) → List Byte → List (FieldRule × Nat)
  | [], _ => []
  | (w, r) :: fs, bs => (r, leAt bs 0 (w / 8)) :: bodyFields fs (bs.drop (w / 8))

/-- Check 5 of a body: its length, and its fields' ranges (17 R442). EVT.RESUME carries COUNT entries of 8 bytes. -/
def bodyArgs (op : Nat) (form : List (Nat × FieldRule) × Bool) (body : List Byte) : Bool :=
  let fixed := (form.1.map fun f => f.1 / 8).sum
  let lenOk := if op = 0x0C01 then body.length == 4 + 8 * leAt body 2 2
    else if form.2 then decide (fixed ≤ body.length) else decide (body.length = fixed)
  lenOk && (bodyFields form.1 body).all fun p => fieldInRange p.1 p.2

/-- Check 6: the Reserved bits of the header and of the body (17 R443). -/
def cmdClean (op : Nat) (form : List (Nat × FieldRule) × Bool) (m : Mbox) : Bool :=
  decide (reqFlags m < 2) && decide (leAt m.copy 6 2 = 0) && ((bodyFields form.1 (reqBody m)).all fun p => fieldClean op p.1 p.2) &&
    (op != 0x0C01 || (List.range (leAt (reqBody m) 2 2)).all fun i => leAt (reqBody m) (4 + 8 * i + 2) 2 == 0)

/-- The commands that a Glaze stall serves (15 R397, 17 R469). -/
def stallOps : List Nat := [0x0103, 0x1001, 0x1002, 0x1003]

/-- Checks 1 to 7 of a command, as the first status that applies (17 R443). -/
def startStatus (s : State) (src : CmdSrc) (m : Mbox) : Option Nat :=
  let op := reqOp m
  let (fwd, spi) := match src with | .fwd _ => (true, false) | .mbox _ => (false, decide (m.lock = 2))
  if s.boot.cracked then some 4
  else if s.boot.stage = 5 ∧ !(stallOps.contains op) then some 5
  else if m.length.toNat ≠ reqLen m + 8 ∨ 1984 < m.length.toNat then some 0x101
  else match cmdForm op with
    | none => some 1
    | some form =>
      if fwd && !bitOf s.works.word1 (64 - op / 256) then some 0x801
      else if !(bodyArgs op form (reqBody m)) || (reqDma m && (decide (m.copy.length < 20) || decide (leAt m.copy 8 8 % 8 ≠ 0))) then some 3
      else if !(cmdClean op form m) then some 2
      else if reqDma m && (fwd || spi) then some 0x103
      else none

/-- The commands that write flash (15 R407, 17 R446). -/
def flashOps : List Nat := [0x0601, 0x0F02, 0x1001, 0x1003]

/-- The commands that wait or run: opcode, arrival order, and whether each runs. -/
def outstanding (s : State) : List (Nat × Nat × Bool) :=
  ((s.host.mboxes.filter fun p => decide (p.2.phase = 1) || decide (p.2.phase = 3)).map fun p => (reqOp p.2, p.2.arrival, p.2.running)) ++
  (s.works.fwdQ.map fun q => (leAt q.2.2.1 0 2, q.2.2.2, (s.fwdBox q.1.toNat).running && decide ((s.fwdBox q.1.toNat).arrival = q.2.2.2)))

/-- A command may start beside the outstanding ones: DEV.FENCE orders all, the commands that write flash run in arrival order, and SPY.SET,
HKC.SET and FEED.WARN wait for a BOOK.COMMIT that runs (17 R446, R448). -/
def mayStart (s : State) (op arrival : Nat) : Bool :=
  (outstanding s).all fun o =>
    (decide (arrival ≤ o.2.1) || (decide (op ≠ 0x0102) && decide (o.1 ≠ 0x0102) && !(flashOps.contains op && flashOps.contains o.1))) &&
    !([0x0901, 0x0802, 0x0404].contains op && o.1 == 0x0F02 && o.2.2)

/-- The forwarded command of an origin that is next in tag order (14 R383). -/
def nextFwd (s : State) (o : BitVec 11) : Option (BitVec 11 × BitVec 32 × List Byte × Nat) :=
  let t := tabGet 0 s.works.fwdTag o.toNat
  s.works.fwdQ.find? fun q => q.1 == o && (t == 0 || q.2.1 == BitVec.ofNat 32 t)

/-- Start the command in a source's box: the checks answer it, or it runs (17 R443, R447). -/
def beginCmd (s : State) (src : CmdSrc) : State :=
  let s := updBox s src fun m => { m with running := true }
  match startStatus s src (srcBox s src) with
  | some st => setAnswer s src st []
  | none => s

/-- COMMAND_START: a queued command becomes first in its mailbox and starts (17 R447), in Draw, or in mailbox 0 in a Glaze stall. -/
def commandStart (src : CmdSrc) (s : State) : State :=
  if !hostUp s || s.boot.cracked then s
  else match src with
    | .mbox m =>
      let M := s.mbox m
      if decide (M.phase = 1) && !M.running && (s.boot.devState == 1 || (s.boot.stage == 5 && m == 0)) && mayStart s (reqOp M) M.arrival then
        beginCmd s src
      else s
    | .fwd o =>
      match nextFwd s o with
      | none => s
      | some q =>
        if (s.fwdBox o.toNat).running || !(s.boot.devState == 1) || !mayStart s (leAt q.2.2.1 0 2) q.2.2.2 then s
        else
          let s := s.updFwdBox o.toNat fun m => { m with
            copy := q.2.2.1, length := BitVec.ofNat 16 q.2.2.1.length, arrival := q.2.2.2, phase := 1 }
          beginCmd s src

def execCommandStart (src : CmdSrc) (s : State) : Host.Outcome State Fault Refusal := .next (commandStart src s)

/-- The held doorbells execute, in arrival order (16 R423, R437). -/
def releaseDoorbells (s : State) : State :=
  forEach (List.range 16) (fun s m => if (s.mbox m).phase = 3 then s.updMbox m fun M => { M with phase := 1 } else s) s

/-- A hearth of the device's numbering 0 to 15 is held under this device's accepted claim, by its latest hearth-state block (17 R445). -/
def hearthOurs (s : State) (h : Nat) : Bool :=
  if h < 8 then
    let H := s.hearth h
    H.held && decide (H.holder = .loc) && !H.admitting
  else
    let b := tabGet (0 : BitVec 64) s.hblocks h
    (s.cp (h - 8)).held && bitOf b 31 && bitOf b 30 && !bitOf b 29

/-- The channel has an observed state other than Absent: it is configured (02 R40). -/
def chanThere (s : State) (c : Nat) : Bool := !(s.chan c).prof.isEmpty

/-- The observed state of a channel as every interface reports it: 0xF for an Absent one (02 R40). -/
def obsCode (s : State) (c : Nat) : Nat := if chanThere s c then stCode (s.chan c).obs else 0xF

/-- Check 8 for a command that acts on a hearth (17 R443, R445). -/
def onHearth (s : State) (h : Nat) (f : State → State × Nat × List Byte) : State × Nat × List Byte :=
  if hearthOurs s h then f s else (s, 0x204, [])

/-- Check 8 for a command that acts on a channel. -/
def onChan (s : State) (c : Nat) (f : State → State × Nat × List Byte) : State × Nat × List Byte :=
  onHearth s (c / 64) fun s => if chanThere s c then f s else (s, 0x201, [])

end Sys2Proof.Machine
end

