-- ==== Sys2Proof/Machine/Forward.lean ====
section
/-! DEFINITION. Commands and events between devices of the Works, and the WORKS commands (14 R383 to R386; 17 R467). -/
namespace Sys2Proof.Machine
open Sys2Proof

/-- A forwarded command joins the queue of its origin, unless its tag has been executed or waits already (14 R383). -/
def queueFwd (s : State) (o : BitVec 11) (tag : BitVec 32) (bytes : List Byte) : State :=
  let t := tabGet 0 s.works.fwdTag o.toNat
  let done := t != 0 && decide ((BitVec.ofNat 32 (t + 0xFFFFFFFF) - tag).toNat < 2 ^ 31)
  if done || s.works.fwdQ.any (fun q => q.1 == o && q.2.1 == tag) then s
  else (s.setWorks { s.works with fwdQ := s.works.fwdQ ++ [(o, tag, bytes, s.host.arrivals)] }).setHost { s.host with arrivals := s.host.arrivals + 1 }

/-- COMMAND_FRAME: a forwarded command for this device joins its queue, any other goes on (14 R368, R383). In Banked it is a wake cause,
and the copy that is resent later is discarded by its tag (14 R385). -/
def commandFrame (n : WLane) (h : WorksHdr) (tag : BitVec 32) (bytes : List Byte) (s : State) : State :=
  if alive s && (s.boot.devState == 3 || s.boot.devState == 4) then
    if decide (h.dest.toNat = wAddr s) && decide (h.hops.toNat < 30) && wLaneEn s n && !s.works.excluded then requestWake (queueFwd s h.src tag bytes) 6 0 else s
  else takeRouted s n h (fun s => queueFwd s h.src tag bytes) fun s => forward s n 5 h ((32, tag.toNat) :: byteFlds bytes)

def execCommandFrame (n : WLane) (h : WorksHdr) (tag : BitVec 32) (bytes : List Byte) (s : State) : Host.Outcome State Fault Refusal :=
  .next (commandFrame n h tag bytes s)

/-- The waiting command of an origin with the tag that follows its last one most closely. -/
def closestFwd (last : Nat) (l : List (BitVec 11 × BitVec 32 × List Byte × Nat)) : Option (BitVec 32) :=
  l.foldl (fun best q => match best with
    | none => some q.2.1
    | some b => if (q.2.1 - BitVec.ofNat 32 last).toNat < (b - BitVec.ofNat 32 last).toNat then some q.2.1 else some b) none

/-- FORWARD_TAG_WAIT: the missing tag of an origin has been awaited for 1 ms; the device goes on without it (14 R383). -/
def forwardTagWait (o : BitVec 11) (s : State) : State :=
  if (nextFwd s o).isSome || (s.fwdBox o.toNat).running then s
  else match closestFwd (tabGet 0 s.works.fwdTag o.toNat) (s.works.fwdQ.filter fun q => q.1 == o) with
    | none => s
    | some tag => s.setWorks { s.works with
        fwdTag := tabSet 0 s.works.fwdTag o.toNat (if tag = 0 then 2 ^ 32 else tag.toNat) }

def execForwardTagWait (o : BitVec 11) (s : State) : Host.Outcome State Fault Refusal := .next (forwardTagWait o s)

/-- RESPONSE_FRAME (14 R383). -/
def responseFrame (n : WLane) (h : WorksHdr) (tag : BitVec 32) (status : BitVec 16) (bytes : List Byte) (s : State) : State :=
  takeRouted s n h (fun s => answerSend s tag status.toNat bytes) fun s =>
    forward s n 6 h ((32, tag.toNat) :: (16, status.toNat) :: byteFlds bytes)

def execResponseFrame (n : WLane) (h : WorksHdr) (tag : BitVec 32) (status : BitVec 16) (bytes : List Byte) (s : State) :
    Host.Outcome State Fault Refusal := .next (responseFrame n h tag status bytes s)

/-- WORKS_SEND_TIMEOUT: no RESPONSE within 10 ms (14 R383). -/
def worksSendTimeout (tag : BitVec 32) (s : State) : State :=
  match s.works.sends.find? fun p => p.1 == tag with
  | none => s
  | some (t, src) => setAnswer (s.setWorks { s.works with sends := s.works.sends.erase (t, src) }) src 0x803 []

def execWorksSendTimeout (tag : BitVec 32) (s : State) : Host.Outcome State Fault Refusal := .next (worksSendTimeout tag s)

/-- Records of a subscription: those from the expected index on are delivered, with the origin's address; a frame that starts beyond it
stamps EV_WORKS_EVT_GAP (14 R384, R387). -/
def takeEvents (o first : Nat) (recs : List EventRec) (s : State) : State :=
  match tabGet 0 s.works.subsIn o with
  | 0 => s
  | n + 1 =>
    let s := if n < first then crownStamp s srcWorks 0x1708 [(16, o), (64, n), (32, first - n)] else s
    let new := ((List.range recs.length).zip recs).filterMap fun p => if n ≤ first + p.1 then some (BitVec.ofNat 16 o, first + p.1, p.2) else none
    s.setWorks { s.works with
        fwdRecs := s.works.fwdRecs ++ new, subsIn := tabSet 0 s.works.subsIn o (max n (first + recs.length) + 1) }

/-- WORKS_EVENT_FRAME (14 R384). -/
def worksEventFrame (n : WLane) (h : WorksHdr) (first : BitVec 64) (recs : List EventRec) (s : State) : State :=
  takeRouted s n h (takeEvents h.src.toNat first.toNat (recs.take 60)) fun s =>
    forward s n 7 h ((64, first.toNat) :: byteFlds (recs.flatMap recBytes))

def execWorksEventFrame (n : WLane) (h : WorksHdr) (first : BitVec 64) (recs : List EventRec) (s : State) :
    Host.Outcome State Fault Refusal := .next (worksEventFrame n h first recs s)

/-- SUBSCRIPTION_UNREACHABLE: an origin, or a subscriber, has been unreachable for 1 s; the subscription ends (14 R384). -/
def subscriptionUnreachable (a : BitVec 11) (s : State) : State :=
  if reachable s a.toNat then s
  else s.setWorks { s.works with subsIn := tabSet 0 s.works.subsIn a.toNat 0, subsOut := tabSet 0 s.works.subsOut a.toNat 0 }

def execSubscriptionUnreachable (a : BitVec 11) (s : State) : Host.Outcome State Fault Refusal := .next (subscriptionUnreachable a s)

/-- The record of the own log at an index, while it is held (12 R327). -/
def recAt (s : State) (i : Nat) : Option EventRec := if 1 ≤ i ∧ i ≤ s.log.head then s.log.recs[s.log.head - i]? else none

/-- The oldest log index held; with an empty log, the next one (16 R431). -/
def logTail (s : State) : Nat := s.log.head + 1 - s.log.recs.length

/-- One EVENT frame, of up to 60 records in log order, to a subscriber (14 R384). -/
def sendEvents (s : State) (p : Nat × Nat) : State :=
  let first := max (p.2 - 1) (logTail s)
  let recs := (List.range 60).filterMap fun i => recAt s (first + i)
  if recs.isEmpty || !reachable s p.1 then s
  else
    let s := originate s 7 p.1 ((64, first) :: byteFlds (recs.flatMap recBytes))
    s.setWorks { s.works with subsOut := tabSet 0 s.works.subsOut p.1 (first + recs.length + 1) }

/-- The records that subscribers still lack are sent at each tick of the time island. -/
def serveSubscribers (s : State) : State := if worksOn s then forEach s.works.subsOut sendEvents s else s

/-- A command of this device to another: a COMMAND frame with the next tag; to its own address it joins the queue here (14 R383). -/
def sendCommand (s : State) (dest : Nat) (bytes : List Byte) : State :=
  let tag := s.works.nextTag
  let s := s.setWorks { s.works with nextTag := tag + 1 }
  if dest = wAddr s then queueFwd s (BitVec.ofNat 11 dest) tag bytes else originate s 5 dest ((32, tag.toNat) :: byteFlds bytes)

/-- A command to another device whose RESPONSE `src` awaits; without a membership or a route it is answered at once (17 R467). -/
def askDevice (s : State) (src : CmdSrc) (dest : Nat) (bytes : List Byte) : State :=
  if !wEnable s || s.works.excluded then setAnswer s src 0x804 []
  else if !reachable s dest then setAnswer s src 0x802 []
  else sendCommand (s.setWorks { s.works with sends := s.works.sends ++ [(s.works.nextTag, src)] }) dest bytes

/-- WORKS.SEND (17 R467). -/
def worksSend (src : CmdSrc) (dest : BitVec 16) (inner : List Byte) (s : State) : State :=
  if cmdIs s src 0x0E02 (bodyOf [(16, dest.toNat), (16, 0)] ++ inner) then
    if leAt inner 0 2 = 0x0E02 then setAnswer s src 3 [] else askDevice s src dest.toNat inner
  else s

def execWorksSend (src : CmdSrc) (dest : BitVec 16) (inner : List Byte) (s : State) : Host.Outcome State Fault Refusal :=
  .next (worksSend src dest inner s)

/-- WORKS.SUBSCRIBE (14 R384, 17 R467): at this device it is asked of the origin; as a forwarded command that names this device as the
origin it starts the subscription of its sender (log entry 25). -/
def worksSubscribe (src : CmdSrc) (origin : BitVec 16) (fromIdx : BitVec 64) (s : State) : State :=
  let body := bodyOf [(16, origin.toNat), (16, 0), (64, fromIdx.toNat)]
  if !cmdIs s src 0x0E03 body then s
  else match src with
    | .fwd o =>
      if origin.toNat = wAddr s then
        setAnswer (s.setWorks { s.works with subsOut := tabSet 0 s.works.subsOut o.toNat (max 1 fromIdx.toNat + 1) }) src 0 []
      else askDevice s src origin.toNat (bodyOf [(16, 0x0E03), (16, 12), (32, 0)] ++ body)
    | .mbox _ => askDevice s src origin.toNat (bodyOf [(16, 0x0E03), (16, 12), (32, 0)] ++ body)

def execWorksSubscribe (src : CmdSrc) (origin : BitVec 16) (fromIdx : BitVec 64) (s : State) : Host.Outcome State Fault Refusal :=
  .next (worksSubscribe src origin fromIdx s)

/-- WORKS.UNSUBSCRIBE: the subscription ends here, and the origin is told by the same command (17 R467). -/
def worksUnsubscribe (src : CmdSrc) (origin : BitVec 16) (s : State) : State :=
  let body := bodyOf [(16, origin.toNat)]
  runCmd s src 0x0E04 body fun s =>
    match src with
    | .fwd o =>
      if origin.toNat = wAddr s then
        (if tabGet 0 s.works.subsOut o.toNat = 0 then (s, 3, [])
         else ((s.setWorks { s.works with subsOut := tabSet 0 s.works.subsOut o.toNat 0 }), 0, []))
      else (s, 3, [])
    | .mbox _ =>
      if tabGet 0 s.works.subsIn origin.toNat = 0 then (s, 3, [])
      else
        let s := s.setWorks { s.works with subsIn := tabSet 0 s.works.subsIn origin.toNat 0 }
        (sendCommand s origin.toNat (bodyOf [(16, 0x0E04), (16, 2), (32, 0)] ++ body), 0, [])

def execWorksUnsubscribe (src : CmdSrc) (origin : BitVec 16) (s : State) : Host.Outcome State Fault Refusal :=
  .next (worksUnsubscribe src origin s)

/-- WORKS.STATUS (17 R467). -/
def worksStatus (src : CmdSrc) (s : State) : State :=
  runCmd s src 0x0E01 [] fun s =>
    (s, 0, bodyOf ([(8, worksRole s)] ++ ((List.range 4).map fun n => (8, wlCode (s.wlane n).state)) ++
      ((List.range 4).map fun n => (16, (s.wlane n).neighbour.toNat)) ++
      [(16, reachCount s), (16, s.time.parentAddr.toNat), (8, min 255 s.works.subsIn.length)]))

def execWorksStatus (src : CmdSrc) (s : State) : Host.Outcome State Fault Refusal := .next (worksStatus src s)

/-- WORKS.LEDGER (17 R467): of a feed that this device keeps as KEEPER or as standby. -/
def worksLedger (src : CmdSrc) (feedId : BitVec 16) (s : State) : State :=
  runCmd s src 0x0E05 (bodyOf [(16, feedId.toNat)]) fun s =>
    match keptFeed s feedId.toNat with
    | none => (s, 3, [])
    | some f =>
      (s, 0, bodyOf [(8, if f.keeper = wAddr s then 1 else 2), (16, f.cap), (32, commitment s feedId),
        (16, (s.works.holds.filter fun x => x.feedId == feedId).length),
        (16, ((s.works.totals.filter fun x => x.1 == feedId).map fun x => x.2.1).eraseDups.length)])

def execWorksLedger (src : CmdSrc) (feedId : BitVec 16) (s : State) : Host.Outcome State Fault Refusal :=
  .next (worksLedger src feedId s)

end Sys2Proof.Machine
end

