-- ==== Sys2Proof/Machine/Rails.lean ====
section
/-! DEFINITION. A hearth's power and its sampled operation (01 R34, R510; 04 R108; 07 R195 to R197; 08 R225; 18 R489, R490). -/
namespace Sys2Proof.Machine
open Sys2Proof

/-- ALWAYS_ON_POWER: the first power of a hearth's always-on domain: gates low, Saggar hold with no holder, EV_HEARTH_POWER (01 R510,
12 R321). -/
def alwaysOnPower (h : Hearth) (s : State) : State :=
  if (s.hearth h).alwaysOn then s
  else
    let s := s.updHearth h fun H => { H with alwaysOn := true, saggar := true, held := false, admitting := false, claim := 0 }
    let s := forEach (List.range 16) (fun s i => s.updSlot (16 * h.val + i) fun S => restartDebounce S (s.hearth h).tai) s
    stampNow s h (srcHearth h) 0x1401 [(8, 0)]

def execAlwaysOnPower (h : Hearth) (s : State) : Host.Outcome State Fault Refusal := .next (alwaysOnPower h s)

/-- The housekeeping sequencer stops where its power goes; the next trigger starts a pass at entry 0 (06 R153). -/
def stopHk (s : State) (h : Nat) : State :=
  s.updHk h fun K => { K with
    running := false, pending := false, entry := 0, inputPos := 0, diode := 0, diodeSettle := false, urgRun := none, urgPend := []
    urgWait := [], startDue := 0, record := none }

/-- LOGIC_RAILS_ABSENT: the hearth runs on keep-alive: Saggar hold, with the converters stopped (01 R34, 06 R153, 18 R490). -/
def logicRailsAbsent (h : Hearth) (s : State) : State :=
  let H := s.hearth h
  if H.logic then
    let s := dropFilters (stopHk (s.updHearth h fun H => { H with logic := false }) h) h
    if H.alwaysOn && !H.saggar then enterSaggar s h else s
  else s

def execLogicRailsAbsent (h : Hearth) (s : State) : Host.Outcome State Fault Refusal := .next (logicRailsAbsent h s)

/-- LOGIC_RAILS_PRESENT: the rails are present again, unless Banked keeps them switched off (18 R490, 16 R435). -/
def logicRailsPresent (h : Hearth) (s : State) : State :=
  if (s.hearth h).banked then s else s.updHearth h fun H => { H with logic := true }

def execLogicRailsPresent (h : Hearth) (s : State) : Host.Outcome State Fault Refusal := .next (logicRailsPresent h s)

/-- Whether entry to a state has its WAKE bit set (07 R182). -/
def wakesOn (w : BitVec 64) (x : SpyState) : Bool :=
  match x with | .above => bitOf w 34 | .below => bitOf w 33 | .inside => bitOf w 32 | .unresolved => false

/-- One spyhole at a compare moment, `off` ns into the tick: R184 with the compared value for the filtered input (07 R195, R196). A matching entry
in Banked wakes the device (07 R197). -/
def sampledCompare (h off : Nat) (s : State) (p : Nat × Zone) : State :=
  let k := 130 * h + p.1
  let y := s.spy k
  if !(yOn y.word) then s
  else
    let z := zoneIn y.word p.2
    let t := if y.starting then startState z else spyJudged y z
    let s := s.updSpy k fun y => { placeSpy y z with filter := none, starting := false, band := if y.starting then z else (placeSpy y z).band }
    if t = y.st ∨ t = .unresolved then
      (match spyFeed p.1 with
       | some f => if (s.group h).sel = some f ∧ t = .inside ∧ !(s.group h).pulling then retractWarns s h off else s
       | none => s)
    else
      let s := changeSpy (crossWarning s h p.1 y.st t off) h p.1 t (hearthNow s h off) true off
      if (s.hearth h).banked && wakesOn y.word t then requestWake s 2 h else s

/-- F of a channel at the fallback compare of a sampled tick of 31.25 µs, in 2^-46 of a trip, rounded against the channel (04 R108). -/
def sampledFallback (above : Bool) (C : Cell) : Cell :=
  let t7 := ((C.env.points.getLast?).map (·.2)).getD 1
  { C with f := if above then C.f + ceilNat (2 ^ 44 * 125) t7 else C.f - 2 ^ 44 * 125 / max 1 C.env.drainUs }

/-- SAMPLED_TICK: a compare moment of a hearth without logic rails or in Banked (07 R195). The fallback compare is made outside Banked
for each configured channel (04 R108); an excursion found at an earlier moment that still stands is confirmed (08 R225). -/
def sampledTick (h : Hearth) (zones : List Zone) (above : BitVec 64) (off : Fin 250) (s : State) : State :=
  let H := s.hearth h
  if !H.alwaysOn || continuous H then s
  else
    let stood := inExcursion s h
    let s := forEach ((List.range 130).zip zones) (sampledCompare h.val off) s
    let s := if stood && inExcursion s h then confirmLoss h s else s
    if H.banked || (s.group h).shadow then s
    else forEach (List.range 64) (fun s k =>
      if (s.cell (64 * h.val + k)).configured then s.updCell (64 * h.val + k) (sampledFallback (bitOf above k)) else s) s

def execSampledTick (h : Hearth) (zones : List Zone) (above : BitVec 64) (off : Fin 250) (s : State) : Host.Outcome State Fault Refusal :=
  .next (sampledTick h zones above off s)

end Sys2Proof.Machine
end

