-- ==== Sys2Proof/Machine/Reset.lean ====
section
/-! DEFINITION. The device reset (11 R302 to R304; 12 R321; 18 R486). -/
namespace Sys2Proof.Machine
open Sys2Proof

/-- The Crown at a device reset (11 R303): every Crown state is cleared but the fuses, the flash and what its images are good for, the crash sector and the address pins
sampled at power-on, and boot restarts at Bisque. The JTAG port is reset by its own means (18 R487). -/
def crownReset (s : State) : State :=
  { s with
    chans := [], cones := [], engines := [], clusters := [], gbus := [], feedWord := [], hblocks := [], frameShadow := [], frameTick := []
    gbusNew := [], hkRecs := [], passes := [], links := []
    boot := { rails := s.boot.rails, rstLow := s.boot.rstLow, fuses := s.boot.fuses, flash := s.boot.flash, badA := s.boot.badA, badB := s.boot.badB }
    books := {}, time := {}, log := {}, pair := {}, works := {}, host := {}
    coll := { crash := s.coll.crash, crashUnread := s.coll.crashUnread }
    pmb := { addr := s.pmb.addr } }

/-- A hearth that the device reset resets holds every gate low until Draw (11 R304): its release flag is cleared, and its converters and
its housekeeping sequencer stop until the next commit starts them (06 R153). A hearth held under an accepted claim of the partner is kept.
The hearths' power of Banked is switched on again. -/
def resetOwnHearth (s : State) (h : Nat) : State :=
  let H := s.hearth h
  if !H.alwaysOn then s
  else
    let s := if H.banked then s.updHearth h fun H => { H with banked := false, logic := true } else s
    if H.held && decide (H.holder = .cross) && !H.admitting then s
    else
      let s := s.updHearth h fun H => { H with released := false }
      let s := hearthReset s h
      let s := (stopHk s h).updHk h fun K => { K with started := false }
      forEach (List.range 64) (fun s k => s.updCell (64 * h + k) fun C => { C with configured := false }) s

/-- Whether a device reset resets an own hearth: not while the partner holds it under an accepted claim (11 R304). -/
def takesDeviceReset (H : HearthSt) : Bool := H.alwaysOn && !(H.held && decide (H.holder = .cross) && !H.admitting)

/-- The shadow of a hearth reset that a device reset makes (11 R295). No shard started it, so what it merges is counted nowhere (log entry 180). -/
def resetShadow (h : Nat) : Shadow :=
  { code := 4, shard := 0xFFFF, source := BitVec.ofNat 16 (srcHearth h), opened := 0, closed := none, ends := none, chans := [], index := h }

/-- A device reset (11 R302 to R304). The count of debounced seats starts again (17 R458), and the Crown forgets the housekeeping words that it sent
to partner hearths. -/
def deviceReset (s : State) : State :=
  let hs := (List.range 8).filter fun h => takesDeviceReset (s.hearth h)
  let s := forEach (s.slots.map (·.1)) (fun s n => s.updSlot n fun S => { S with seats := 0 }) s
  let s := forEach (List.range 8) (fun s j => s.updHk (8 + j) fun _ => {}) s
  let s := crownReset (forEach (List.range 8) resetOwnHearth s)
  s.setColl { s.coll with shadows := hs.map resetShadow }

/-- RST_N_LOW: a low of 500 ns or more resets the device; a shorter one has no effect (18 R486). -/
def rstNLow (ns : Nat) (s : State) : State :=
  if ns < 500 then s
  else
    let s := deviceReset s
    s.setBoot { s.boot with rstLow := true }

def execRstNLow (ns : Nat) (s : State) : Host.Outcome State Fault Refusal := .next (rstNLow ns s)

/-- BAR0_RESET_WRITE: a write of 0x0000_A55A to RESET, in any stage; PCIe does not reach BAR0 in host lost or D3hot (16 R415, R417;
15 R397). -/
def bar0ResetWrite (port : HostPort) (value : BitVec 32) (s : State) : State :=
  let reached := match port with | .pcie => !s.host.hostLost && !s.host.d3 | .spi => true
  if crownUp s && reached && decide (value = 0xA55A#32) then deviceReset s else s

def execBar0ResetWrite (port : HostPort) (value : BitVec 32) (s : State) : Host.Outcome State Fault Refusal :=
  .next (bar0ResetWrite port value s)

end Sys2Proof.Machine
end

