-- ==== Sys2Proof/Machine/Pair.lean ====
section
/-! DEFINITION. The pair: its word, its states, the frames of the pair lane, heartbeats, HELLO and the partner Book (13 R332 to R338). -/
namespace Sys2Proof.Machine
open Sys2Proof

/-- Fields of the pair word (13 R333). -/
def pairEnable (s : State) : Bool := bitOf s.pair.word 63
def pairAddr (s : State) : Nat := fld s.pair.word 51 11
def pairAdopts (s : State) (j : Nat) : Bool := bitOf s.pair.word (43 + j)
def pairReturnAuto (s : State) : Bool := bitOf s.pair.word 42
def pairReturnTicks (s : State) : Nat := fld s.pair.word 34 8 * 400000
def pairAutoReset (s : State) : Bool := bitOf s.pair.word 33
def pairResetTicks (s : State) : Nat := fld s.pair.word 25 8 * 400000

/-- The pair is served: configured, with the device in Draw, in Banked or on its way between them (13 R333, R338). -/
def pairOn (s : State) : Bool := alive s && pairEnable s && decide (1 ≤ s.boot.devState.val) && decide (s.boot.devState.val ≤ 4)

/-- The firmware runs: in Draw, in Entering Banked, and in a wake from 10 µs on (16 R435, R438). -/
def firmwareRuns (s : State) : Bool :=
  s.boot.devState == 1 || s.boot.devState == 2 || (s.boot.devState == 4 && decide (1 ≤ s.host.wakeStage))

/-- The pair enters a state; EV_PAIR_STATE at a change (13 R334, R361). -/
def setPairState (s : State) (x : Fin 8) : State :=
  let old := s.pair.state
  if old = x then s
  else crownStamp (s.setPair { s.pair with state := x }) srcPartner 0x1601 [(8, old.val), (8, x.val)]

/-- A frame on the pair lane (13 R335): the Hearth field, and the payload's fields. -/
def sendPair (s : State) (type hearth : Nat) (payload : List (Nat × Nat)) : State :=
  (s.emit (.frame .pair (linkFrame type hearth 0 s.pair.tx s.time.tick (payBlocks payload)))).setPair { s.pair with tx := s.pair.tx + 1 }

/-- Send a checkpoint in CHECKPOINT frames: part, count, bytes (13 R335, R339). -/
def sendCheckpoint (s : State) (j : Nat) (bytes : List Byte) : State :=
  let ps := cpParts 9 bytes
  forEach (List.range ps.length) (fun s i => sendPair s 2 j ([(8, i), (8, ps.length), (48, 0)] ++ byteFlds (ps.getD i []))) s

/-- NOTICE for a hearth j: its code and a claim number (13 R335). -/
def sendNotice (s : State) (j code claim : Nat) : State := sendPair s 5 j [(8, code), (32, claim)]

/-- HELLO of the pair lane, of format 1 (13 R335; log entry 23). -/
def sendPairHello (s : State) : State :=
  sendPair s 3 0 ([(16, 1), (8, pairSide s), (16, wAddr s), (16, pairAddr s), (64, deviceId s)] ++ byteFlds (hashBytes s.books.digest))

/-- The committed Book in BOOK frames of up to 2,036 bytes (13 R334, R335). -/
def sendBook (s : State) : State :=
  forEach (List.range (ceilNat s.books.own.length 2036)) (fun s i =>
    sendPair s 4 0 ((32, 2036 * i) :: byteFlds ((s.books.own.drop (2036 * i)).take 2036))) s

/-- HELLO, and the Book behind it. -/
def greet (s : State) : State :=
  let s := sendBook (sendPairHello s)
  s.setPair { s.pair with greeted := true }

/-- The pair at Draw, and after a commit (13 R334): NONE while not enabled; else SEEKING from NONE, and HELLO. -/
def pairStart (s : State) : State :=
  if !pairEnable s then setPairState s 0
  else greet (if s.pair.state = 0 then setPairState s 1 else s)

/-- The source of the pair's errors. -/
def hbLost : Nat := 0x21A
def partnerIsolated : Nat := 0x21B

/-- The lane path counts as silent, or is not judged while the partner is Banked (13 R338). -/
def laneOut (s : State) : Bool := !s.pair.laneLive || s.pair.banked

/-- Both heartbeat paths are silent (13 R337, R338). -/
def bothSilent (s : State) : Bool := laneOut s && !s.pair.pulseLive

/-- The own hearths that the partner holds, by their latest hearth-state blocks (17 R467, LENT). -/
def isLent (s : State) (j : Nat) : Bool :=
  let b := tabGet (0 : BitVec 64) s.hblocks j
  bitOf b 31 && bitOf b 30
def lentMask (s : State) : Nat := packBits ((List.range 8).map (isLent s))

/-- The partner's hearths held under this device's claim. -/
def adoptedMask (s : State) : Nat := packBits ((List.range 8).map fun j => (s.cp j).held)

/-- The own hearths held under this device's claim, by their latest blocks. -/
def ownMask (s : State) : Nat := packBits ((List.range 8).map fun j => bitOf (tabGet (0 : BitVec 64) s.hblocks j) 31 && !isLent s j)

/-- PAIRED is reached from SEEKING, from MISMATCH once HELLO frames agree, and from ISOLATED once a path is live (13 R334, R355): the partner's
Book is held and checked, and so is a complete checkpoint of every hearth in ADOPT, and of every own hearth that the partner holds (R356). -/
def tryPaired (s : State) : State :=
  let from_ := s.pair.state = 1 ∨ s.pair.state = 2 ∨ (s.pair.state = 6 ∧ !bothSilent s)
  if pairOn s && decide from_ && s.pair.agreed && !s.books.partner.isEmpty && decide (s.books.partnerDigest = s.pair.partnerDigest) &&
      ((List.range 8).all fun j => (!pairAdopts s j || (s.cp j).have_) && (!isLent s j || (tabGet {} s.pair.lent j).have_)) then
    setPairState s 3
  else s

/-- HEARTBEAT_EMIT: one heartbeat on each path at ticks that are a multiple of 8 (13 R336). HEARTBEAT frames stop with Banked and start
again 30 µs into the wake; the pulses go on (13 R338; 16 R438). -/
def heartbeatEmit (s : State) : State :=
  if !(alive s) || s.boot.devState.val = 0 || 4 < s.boot.devState.val || decide (s.time.tick % 8 ≠ 0) then s
  else
    let s := if s.boot.devState = 1 ∨ (s.boot.devState = 4 ∧ 5 ≤ s.host.wakeStage) then
        (let n := s.pair.hbCount
         let s := sendPair s 1 0 [(32, n.toNat), (8, s.boot.devState.val), (8, s.pair.state.val), (8, ownMask s), (8, adoptedMask s)]
         (s.setPair { s.pair with hbCount := n + 1 }))
      else s
    s.emit .pulse

def execHeartbeatEmit (s : State) : Host.Outcome State Fault Refusal := .next (heartbeatEmit s)

/-- A heartbeat has come on a path, 0 the lane and 1 the pulses: a path whose silence was reported is restored (13 R337), and partner
isolated ends (R355). -/
def pathLive (s : State) (path : Nat) (was : Bool) : State :=
  let s := if was || !(errPresent s hbLost srcPartner || decide (4 ≤ s.pair.state.val)) then s
    else crownStamp s srcPartner 0x1602 [(8, path), (8, 0)]
  let s := if s.pair.laneLive && s.pair.pulseLive then clearError s hbLost srcPartner else s
  if s.pair.state = 6 then tryPaired (clearError s partnerIsolated srcPartner) else s

/-- HEARTBEAT_FRAME (13 R337): the partner's pair state shows its return to PAIRED, on which an adopter enters RETURNING (R334). -/
def heartbeatFrame (count : BitVec 32) (pstate : BitVec 8) (s : State) : State :=
  if !pairOn s then s
  else
    let was := s.pair.laneLive
    let back := decide (pstate = 3) && decide (s.pair.partnerState ≠ 3)
    let s := s.setPair { s.pair with
      laneLive := true, laneTick := s.time.tick, lastNs := s.time.tai, hbSeen := count, told := false, partnerState := pstate }
    let s := pathLive s 0 was
    if back && decide (s.pair.state = 5) && !noneAdopted s then
      setPairState (s.setPair { s.pair with returnSince := s.time.tick }) 7
    else s

def execHeartbeatFrame (count : BitVec 32) (_dstate pstate _own _partner : BitVec 8) (s : State) : Host.Outcome State Fault Refusal :=
  .next (heartbeatFrame count pstate s)

/-- HEARTBEAT_PULSE: a rising edge followed by a high level of 100 ns to 400 ns is a heartbeat; any other is none (13 R337). -/
def heartbeatPulse (widthNs : Nat) (s : State) : State :=
  if !pairOn s || decide (widthNs < 100) || decide (400 < widthNs) then s
  else
    let was := s.pair.pulseLive
    pathLive (s.setPair { s.pair with pulseLive := true, pulseTick := s.time.tick, lastNs := s.time.tai, told := false }) 1 was

def execHeartbeatPulse (widthNs : Nat) (s : State) : Host.Outcome State Fault Refusal := .next (heartbeatPulse widthNs s)

/-- HEARTBEAT_PATH_SILENT: 16 µs, 64 ticks, without a heartbeat on a path (13 R337). With the other path live it is heartbeat path lost. A
path that has had no heartbeat yet counts once the other one is live. -/
def heartbeatPathSilent (path : HbPath) (s : State) : State :=
  let due (live other : Bool) (t : Nat) : Bool :=
    pairOn s && decide (t + 64 ≤ s.time.tick) && (live || (other && !errPresent s hbLost srcPartner))
  let one (s : State) (p : Nat) : State :=
    if bothSilent s then s else raiseError (crownStamp s srcPartner 0x1602 [(8, p), (8, 1)]) hbLost srcPartner p
  match path with
  | .lane =>
    if due s.pair.laneLive s.pair.pulseLive s.pair.laneTick && !s.pair.banked then one (s.setPair { s.pair with laneLive := false }) 0 else s
  | .pulse => if due s.pair.pulseLive (!laneOut s) s.pair.pulseTick then one (s.setPair { s.pair with pulseLive := false }) 1 else s

def execHeartbeatPathSilent (path : HbPath) (s : State) : Host.Outcome State Fault Refusal := .next (heartbeatPathSilent path s)

/-- A HELLO does not fit this device (13 R334). -/
def helloBad (s : State) (x : PairHello) : Bool :=
  decide (x.side.toNat = pairSide s) || decide (x.addr.toNat ≠ pairAddr s) || decide (x.partnerAddr.toNat ≠ wAddr s)

/-- PAIR_HELLO (13 R334): MISMATCH, or SEEKING for a Book that is not held; a partner PAIRED on an earlier Book stays so. News is answered with
HELLO and the Book. -/
def pairHello (x : PairHello) (s : State) : State :=
  if !(pairOn s && firmwareRuns s) then s
  else if helloBad s x then
    let s := s.setPair { s.pair with agreed := false }
    if s.pair.state.val ≤ 3 ∨ s.pair.state = 6 then setPairState s 2 else s
  else
    let news := !s.pair.greeted || !s.pair.agreed || decide (x.bookDigest ≠ s.pair.partnerDigest) || decide (x.ident ≠ s.pair.partnerId)
    let s := s.setPair { s.pair with agreed := true, partnerId := x.ident, partnerDigest := x.bookDigest }
    let s := if decide (s.pair.state.val ≤ 2) && decide (x.bookDigest ≠ s.books.partnerDigest) then setPairState s 1 else s
    tryPaired (if news then greet s else s)

def execPairHello (x : PairHello) (s : State) : Host.Outcome State Fault Refusal := .next (pairHello x s)

/-- The partner Book passed: it is kept, its twin pairs, facility feeds and ledger maps with it, and it is measured (13 R334; 04 R117;
14 R376; 15 R408). -/
def keepPartnerBook (b : Book) (bytes : List Byte) (s : State) : State :=
  let d := bookDigest b
  let tw := (bookTwins b).foldl (fun t q => tabSet [] t (256 + q.1) (if bitOf (q.2.getD 0 0) 45 then q.2 else []))
    (s.books.twins.filter fun p => decide (p.1 < 256))
  let s := (s.setBooks { s.books with
      partner := bytes, partnerDigest := d, twins := tw
      allow := (List.range 8).foldl (fun t j => tabSet 4 t j (fld (bookFeed b j 1) 57 7)) [] }).setWorks { s.works with
      facilityP := bookFacility b,
      ledger := (List.range 8).foldl (fun t j => tabSet 0xFFF0 t (8 + j) ((bookFeed b j 4).setWidth 16)) s.works.ledger }
  extendSlot s 6 8 d

/-- The whole partner Book has arrived: the digest of its HELLO, and the commit checks (13 R334). A Book that fails is a mismatch, but not
for a pair that stays on an earlier Book. -/
def judgePartnerBook (bytes : List Byte) (s : State) : State :=
  let bad (s : State) : State := if s.pair.state.val ≤ 2 then setPairState s 2 else s
  match checkBook s bytes none true with
  | .error _ => bad s
  | .ok (b, t) => if bookDigest b ≠ s.pair.partnerDigest then bad s else tryPaired (keepPartnerBook b bytes t)

/-- BOOK_FRAME: the partner's Book arrives in order (13 R334, R335). -/
def bookFrame (offset : BitVec 32) (bytes : List Byte) (s : State) : State :=
  let n := if offset = 0 then 0 else s.books.incomingLen
  if !(pairOn s && firmwareRuns s && s.pair.agreed) || decide (offset.toNat ≠ n) || decide (1048576 < n + bytes.length) then s
  else
    let t := tabPut 0 (if offset = 0 then [] else s.books.incoming) n (bytes.take 2036)
    let len := n + (bytes.take 2036).length
    let s := s.setBooks { s.books with incoming := t, incomingLen := len }
    let want := leAt (tabRun 0 t 0 32) 8 4
    if len < 32 ∨ len < want then s
    else
      let all := tabRun 0 t 0 (max 32 want)
      judgePartnerBook all (s.setBooks { s.books with incoming := [], incomingLen := 0 })

def execBookFrame (offset : BitVec 32) (bytes : List Byte) (s : State) : Host.Outcome State Fault Refusal := .next (bookFrame offset bytes s)

/-- NOTICE_BANKED: from now on the pair lane is not judged (13 R338). -/
def noticeBanked (s : State) : State := if pairOn s then s.setPair { s.pair with banked := true } else s

def execNoticeBanked (s : State) : Host.Outcome State Fault Refusal := .next (noticeBanked s)

/-- NOTICE_AWAKE: the pair lane is judged again, from now (13 R338). -/
def noticeAwake (s : State) : State :=
  if pairOn s && s.pair.banked then s.setPair { s.pair with banked := false, laneTick := s.time.tick } else s

def execNoticeAwake (s : State) : Host.Outcome State Fault Refusal := .next (noticeAwake s)

end Sys2Proof.Machine
end

