-- ==== Sys2Proof/Machine/Adopt.lean ====
section
/-! DEFINITION. Adoption, checkpoints, hand-back and transfer (13 R339 to R343, R352 to R360). -/
namespace Sys2Proof.Machine
open Sys2Proof

/-- The numbers 0 to 7 of a mask's bits. -/
def maskBits (m : BitVec 8) : List Nat := (List.range 8).filter (bitOf m)

/-- The mask with one bit set, and with it cleared. -/
def maskSet (m : BitVec 8) (j : Nat) : BitVec 8 := m ||| BitVec.ofNat 8 (2 ^ j)
def maskClr (m : BitVec 8) (j : Nat) : BitVec 8 := m &&& ~~~(BitVec.ofNat 8 (2 ^ j))

/-! Loading and claiming a partner hearth. -/

/-- The partner Book held, parsed. -/
def partnerBook (s : State) : Option Book := match parseBook s.books.partner with | .ok b => some b | .error _ => none

/-- The engine for an adopted channel: its own, or the lowest free engine of its cluster (09 R249, R257). -/
def adoptEngine (s : State) (c : Nat) : Option Nat := if idleEngine s c then some c else lowestFree s (c / 64)

/-- The partner's profile of one channel of its hearth `j`, presented as Held (13 R352, step 4); a channel that its Book leaves out is Absent. -/
def presentChan (b : Book) (j : Nat) (s : State) (k : Nat) : State :=
  let c := 512 + 64 * j + k
  let p := bookProf b (64 * j + k)
  if p.isEmpty then (if hosted (s.chan c) then s.updChan c fun _ => {} else s)
  else s.updChan c fun _ => { prof := p, coneProf := p, obs := .held, stWord := 0xA000 }

/-- One adopted channel `c` is taken up (13 R343, R352 steps 2 to 4): its engine and, by a bank swap of that engine, its parameter bank; the carry
states of the checkpoint, the Cone advanced at PEAK_POWER; and the packed form starts. -/
def loadChan (b : Book) (j : Nat) (s : State) (k : Nat) : State :=
  let c := 512 + 64 * j + k
  let p := (s.chan c).prof
  if p.isEmpty then s
  else
    let cp := s.cp j
    let e := adoptEngine s c
    let s := s.updChan c fun A => { A with sitter := e, cone := e }
    let s := match e with
      | some e =>
        let B := bankFor s true p (sharedOf b (64 * j + k)) 2 (e / 64)
        s.updEngine e fun E =>
          { switchBank (s.cluster (e / 64)).swap B B { E with regs := [], mem := [], badChecks := 0 } with packed := true, rehosting := decide (e ≠ c) }
      | none => unhost s c c
    match (if cp.have_ then cpChan cp.bytes k else none) with
    | some r => restoreChan s c r (s.time.tai - cpTime cp.bytes)
    | none => restoreBare s c

/-- All channels of a partner hearth are taken up, with the bases of its sources (13 R343). No change of its registers has been sent yet. -/
def loadHearth (s : State) (j : Nat) : State :=
  match partnerBook s with
  | none => s
  | some b =>
    let s := s.updHk (8 + j) fun _ => {}
    let s := forEach (List.range 130) (fun s n => s.updSpy (130 * (8 + j) + n) fun _ => {}) s
    let s := forEach (List.range 64) (presentChan b j) s
    let s := forEach (List.range 64) (loadChan b j) s
    let cp := s.cp j
    let s := if cp.have_ then restoreSeqs s (8 + j) cp.bytes else s
    s.setPair { s.pair with cpSeq := tabSet 0 s.pair.cpSeq (8 + j) (maxWord (tabGet 0 s.pair.cpSeq (8 + j)) cp.cpSeq) }

/-- The number with which this device claims a partner hearth (13 R343, R344). -/
def adoptNumber (s : State) (j : Nat) : BitVec 32 :=
  let cp := s.cp j
  nextClaim (maxWord (if cp.have_ then cpClaim cp.bytes else 0) (BitVec.ofNat 32 (fld cp.block 32 32))) (pairSide s)

/-- CLAIM on cross-in lane Yj, with this device's Works address (13 R352, step 5). -/
def claimPartner (s : State) (j : Nat) : State :=
  let num := adoptNumber s j
  let s := sendDown s (8 + j) 3 (payBlocks [(32, num.toNat), (32, wAddr s)])
  s.updCp j fun C => { C with claiming := true, claimAt := s.time.tick, claim := num, accepted := false }

/-- Take a partner hearth up and claim it. -/
def adoptHearth (s : State) (j : Nat) : State := claimPartner (loadHearth s j) j

/-- The channels of a partner hearth leave this device's service. -/
def dropHearth (s : State) (j : Nat) : State :=
  forEach (List.range 64) (fun s k =>
    let c := 512 + 64 * j + k
    if !hosted (s.chan c) then s
    else
      let s := forEach ((s.chan c).sitter.toList) (fun s e => s.updEngine e fun E => { E with ended := true, packed := s.boot.packed && decide (e < 512) }) s
      (s.updChan c fun _ => {}).updCone c fun _ => {}) s

/-- The engines return to unpacked service (09 R256). -/
def unpack (s : State) : State := s.setBoot { s.boot with packReq := false, unpackReq := s.boot.packed }

/-- Whether any partner hearth is held, claimed or about to be. -/
def adopting (s : State) : Bool :=
  (s.pair.cps.any fun p => p.2.held || p.2.claiming) || decide (s.pair.adopting ≠ 0) || decide (s.pair.preparing ≠ 0) || decide (s.pair.prepared ≠ 0)

/-- The adoption has ended with no hearth: unpack; after SILENT the pair is ISOLATED, with its error while both paths stay silent (13 R352,
R354, R355). -/
def noHearth (s : State) : State :=
  let s := unpack s
  if s.pair.state ≠ 4 then s
  else
    let s := setPairState s 6
    if bothSilent s then raiseError s partnerIsolated srcPartner s.pair.refusedMask.toNat else tryPaired s

/-- The adoption of one hearth ends without admission (13 R352). -/
def endClaim (s : State) (j : Nat) : State :=
  let s := s.updCp j fun C => { C with claiming := false }
  let s := dropHearth (s.setPair { s.pair with refusedMask := maskSet s.pair.refusedMask j }) j
  if adopting s then s else noHearth s

/-- The hearth may be adopted (13 R352): in ADOPT, its lane trained, its block less than 8 µs, 32 ticks, old. -/
def mayAdopt (s : State) (j : Nat) : Bool :=
  pairAdopts s j && (s.cp j).laneY.trained && decide (s.time.tick < (s.cp j).blockAt + 32) && !(s.cp j).held && !(s.cp j).claiming

/-- Packing is requested, unless the engines are packed already (09 R254). -/
def requestPack (s : State) : State :=
  s.setBoot { s.boot with packReq := !s.boot.packed, unpackReq := false }

/-- Adoption of a list of partner hearths (13 R352): those that meet the conditions wait for packing, the others are refused. -/
def startAdoption (s : State) (js : List Nat) : State :=
  let go := js.filter (mayAdopt s)
  let no := js.filter fun j => !mayAdopt s j && !(s.cp j).held
  let s := s.setPair { s.pair with refusedMask := no.foldl maskSet 0 }
  if go.isEmpty then (if adopting s then s else noHearth s)
  else if s.boot.packed then go.foldl adoptHearth (s.setBoot { s.boot with unpackReq := false })
  else requestPack (s.setPair { s.pair with adopting := go.foldl maskSet s.pair.adopting })

/-- Adoption starts only from PAIRED, RETURNING and ISOLATED (13 R334). -/
def canAdopt (s : State) : Bool :=
  decide (s.pair.state = 3) || decide (s.pair.state = 7) || (decide (s.pair.state = 6) && !errPresent s partnerIsolated srcPartner)

/-- The end of a hand-back or transfer, with the status of the command that awaits it (13 R357; 17 R467). -/
def endHand (s : State) (st : Nat) : State :=
  let src := s.pair.handSrc
  let mask := s.pair.handed
  let s := s.setPair { s.pair with
    handing := none, handMask := 0, handSrc := none, returnDue := false, transfer := false, handed := 0, returnSince := s.time.tick }
  match src with
  | some src => setAnswer s src st (bodyOf [(8, mask.toNat)])
  | none => s

/-- Both paths are silent (13 R337, R352): EV_PARTNER_SILENT, and adoption of every hearth in ADOPT. A hand-back in progress ends (R358). -/
def goSilent (s : State) : State :=
  let s := crownStamp s srcPartner 0x1603 [(64, s.pair.lastNs), (32, s.pair.hbSeen.toNat)]
  let s := s.setPair { s.pair with greeted := false, partnerState := 0 }
  if !canAdopt s then s
  else
    let s := if s.pair.handing.isSome || s.pair.handSrc.isSome then endHand s 0x701 else s
    let s := s.setPair { s.pair with preparing := 0, prepared := 0 }
    startAdoption (setPairState s 4) ((List.range 8).filter (pairAdopts s))

/-- The firmware of a Banked device does not run before 10 µs into its wake (16 R438, R439). -/
def asleep (s : State) : Bool := !firmwareRuns s || s.boot.devState == 2

/-- PARTNER_SILENT: both heartbeat paths are silent (13 R337). In Banked it is wake cause 4, and the adoption starts in the wake (16 R437, R439). -/
def partnerSilent (s : State) : State :=
  if !(pairOn s) || s.pair.told || !bothSilent s then s
  else
    let s := s.setPair { s.pair with told := true }
    if asleep s then requestWake s 4 0 else goSilent s

def execPartnerSilent (s : State) : Host.Outcome State Fault Refusal := .next (partnerSilent s)

/-- Prepare a partner hearth that a transfer brings: its carry states are loaded, and NOTICE READY goes with the claim number (13 R357, R359). -/
def prepareHearth (s : State) (j : Nat) : State :=
  let s := loadHearth s j
  let s := s.setPair { s.pair with prepared := maskSet s.pair.prepared j }
  sendNotice s j 3 (adoptNumber s j).toNat

/-- PACKING_EDGE: packing takes effect (09 R254), and the partner hearths that waited for it are taken up (13 R352, R359). -/
def packingEdge (s : State) : State :=
  let t := packNow s
  if !t.boot.packed || s.boot.packed then t
  else
    let a := maskBits t.pair.adopting
    let p := maskBits t.pair.preparing
    let t := (t.setPair { t.pair with adopting := 0, preparing := 0 })
    p.foldl prepareHearth (a.foldl adoptHearth t)

def execPackingEdge (s : State) : Host.Outcome State Fault Refusal := .next (packingEdge s)

/-- ADOPTION_CLAIM_TIMEOUT: a claim was not admitted within 10 µs, 40 ticks (13 R352). -/
def adoptionClaimTimeout (j : Hearth) (s : State) : State :=
  if (s.cp j).claiming && decide ((s.cp j).claimAt + 40 ≤ s.time.tick) then endClaim s j else s

def execAdoptionClaimTimeout (j : Hearth) (s : State) : Host.Outcome State Fault Refusal := .next (adoptionClaimTimeout j s)

/-- MOVE to both keepers of each ledgered feed of a hearth: this device takes over the allocations of (ORIGIN, HEARTH) (14 R382). -/
def moveLedger (s : State) (h origin hearth : Nat) : State :=
  forEach [1, 2] (fun s feed => match facFeed s h feed with
    | none => s
    | some f =>
      let e := { ownEntry s f hearth 0x3F 0 with origin := BitVec.ofNat 11 origin }
      ledgerSend (ledgerSend s f.keeper 8 e) f.keeper2 8 e) s

/-! What a hearth-state block of a partner hearth tells (13 R345, R352 to R355). -/

/-- A claim of this device stands on the partner hearth, admitted or accepted, by its block. -/
def blockOurs (C : CpBuf) (b : BitVec 64) : Bool := bitOf b 31 && bitOf b 30 && decide (fld b 32 32 = C.claim.toNat)

/-- The claim on a partner hearth is admitted: EV_ADOPTED, ADOPTED, and the ledger's MOVE (13 R352, R361; 14 R382). -/
def admitted (s : State) (j : Nat) : State :=
  let C := s.cp j
  let s := s.updCp j fun C => { C with claiming := false, held := true }
  let age := if C.have_ then (s.time.tai - cpTime C.bytes) / 1000 else 0
  let s := crownStamp s srcPartner 0x1606 [(8, j), (32, C.cpSeq.toNat), (32, age), (32, C.claim.toNat)]
  let s := if s.pair.state = 7 ∨ s.pair.state = 5 then s
    else setPairState (s.setPair { s.pair with adoptedSince := s.time.tick, fresh := true }) 5
  moveLedger s (8 + j) (pairAddr s) j

/-- One adopted channel at the acceptance (13 R343, R349; 02 R68; 04 R107): a channel that left Held starts A at the larger of the
checkpoint's value and the hearth's F. How the Crown reads F is not given: it is a free value below 1. -/
def acceptAdopted (s : State) (c : Nat) : State :=
  let A := s.chan c
  if !hosted A ∨ A.obs = .held then s
  else
    let (v, s) := s.freshFree
    s.updChan c fun A => { A with
      a := max A.a (v % 2 ^ 46), commanded := A.obs, dwell := 0, decay := 0, cmd := 0
      consented := if A.obs = .seated ∨ A.obs = .vacant then false else A.consented
      waitStamped := if A.obs = .seated then false else A.waitStamped }

/-- The claim on a partner hearth is accepted: it is released by its new holder (13 R349; 15 R396). -/
def acceptedPartner (s : State) (j : Nat) : State :=
  let s := s.updCp j fun C => { C with accepted := true }
  let s := sendParam s (8 + j) 9 0 [1]
  forEach (List.range 64) (fun s k => acceptAdopted s (512 + 64 * j + k)) s

/-- A hearth-state block of H(8 + j) (13 R345): refusal, admission, acceptance, and in ISOLATED the first SAGGAR of a hearth in ADOPT (R355). -/
def partnerBlock (s : State) (j : Nat) (b : BitVec 64) : State :=
  let old := s.cp j
  let s := s.updCp j fun C => { C with block := b, blockAt := s.time.tick, laneY := { C.laneY with trained := true } }
  let C := s.cp j
  let s := if C.claiming && blockOurs C b then admitted s j else if C.claiming && bitOf b 24 then endClaim s j else s
  let s := if (s.cp j).held && !(s.cp j).accepted && blockOurs C b && !bitOf b 29 then acceptedPartner s j else s
  if pairOn s && decide (s.pair.state = 6) && bitOf b 28 && !bitOf old.block 28 && pairAdopts s j then
    startAdoption (setPairState s 4) [j]
  else s

/-! Hand-back and transfer (13 R356 to R359). -/

/-- The giver's hearth in the Crown's numbering: an adopted one in a hand-back, an own one in a transfer. -/
def handHearth (s : State) (j : Nat) : Nat := if s.pair.transfer then j else 8 + j

/-- The next hearth of the sequence, in ascending j; after the last the giver of a hand-back unpacks and is PAIRED (13 R357). -/
def nextHand (s : State) : State :=
  match maskBits s.pair.handMask with
  | j :: _ =>
    let s := s.updCp j fun C => { C with retries := 0 }
    s.setPair { s.pair with handing := some (Fin.ofNat 8 j), handMask := maskClr s.pair.handMask j, returnDue := true }
  | [] =>
    let s := if !s.pair.transfer && noneAdopted s then setPairState (unpack s) 3 else s
    endHand s 0

/-- Start the sequence for a mask of hearths. -/
def startHand (s : State) (mask : BitVec 8) (transfer : Bool) (src : Option CmdSrc) : State :=
  nextHand (s.setPair { s.pair with handMask := mask, transfer := transfer, handSrc := src, handed := 0 })

/-- One hearth has been handed over. -/
def handedOne (s : State) (j : Nat) : State :=
  nextHand (s.setPair { s.pair with handing := none, handed := maskSet s.pair.handed j })

/-- Take a checkpoint of hearth `h`, with the next CP_SEQ, and send it (13 R339, R340). -/
def takeCheckpoint (s : State) (h kind : Nat) : State :=
  let q := tabGet (0 : BitVec 32) s.pair.cpSeq h + 1
  let s := s.setPair { s.pair with cpSeq := tabSet 0 s.pair.cpSeq h q }
  clearPeaks (sendCheckpoint s (h % 8) (checkpointOf s h kind q)) h

/-- The return checkpoint falls due at the tick after the hand-over of its hearth starts (13 R357, step 1). -/
def takeReturn (s : State) : State :=
  match s.pair.returnDue, s.pair.handing with
  | true, some j => takeCheckpoint (s.setPair { s.pair with returnDue := false }) (handHearth s j) 1
  | _, _ => s

/-- CHECKPOINT_TICK: in the tick of number n mod 2,000 = 250 j, of own hearth j and of the partner's hearth j held here (13 R339, R356). -/
def checkpointTick (j : Hearth) (s : State) : State :=
  if !(pairOn s && s.pair.agreed && s.boot.devState == 1) || decide (s.time.tick % 2000 ≠ 250 * j.val) then s
  else
    let s := if hearthOurs s j then takeCheckpoint s j 0 else s
    if (s.cp j).held then takeCheckpoint s (8 + j) 0 else s

def execCheckpointTick (j : Hearth) (s : State) : Host.Outcome State Fault Refusal := .next (checkpointTick j s)

/-- A checkpoint that fails is dropped; EV_CHECKPOINT_MISS (13 R342, R361). A return checkpoint of an own hearth, or one of a transfer, is
asked for again by NOTICE READY with claim number 0, up to three times (R357; log entry 26). -/
def missCheckpoint (s : State) (j : Nat) (bs : List Byte) (reason : Nat) : State :=
  let s := crownStamp s srcPartner 0x1608 [(8, j), (32, (cpSeqOf bs).toNat), (8, reason)]
  if bs.length < 192 ∨ cpKind bs ≠ 1 then s
  else
    let L : CpBuf := tabGet {} s.pair.lent j
    let s := s.setPair { s.pair with lent := tabSet {} s.pair.lent j { L with retries := L.retries + 1 } }
    let s := sendNotice s j 3 0
    if 3 ≤ L.retries ∧ s.pair.handSrc.isSome ∧ s.pair.handing.isNone then endHand s 0x702 else s

/-- The return checkpoint of an own hearth has passed: its carry states are loaded, and NOTICE READY goes with the claim number (13 R357,
step 2). -/
def readyOwn (s : State) (j : Nat) (bs : List Byte) : State :=
  let s := forEach (List.range 64) (fun s k =>
    if !hosted (s.chan (64 * j + k)) then s
    else match cpChan bs k with
      | some r => restoreChan s (64 * j + k) r (s.time.tai - cpTime bs)
      | none => restoreBare s (64 * j + k)) s
  let s := restoreSeqs s j bs
  let s := s.setPair { s.pair with cpSeq := tabSet 0 s.pair.cpSeq j (cpSeqOf bs) }
  sendNotice s j 3 (nextClaim (maxWord (cpClaim bs) (BitVec.ofNat 32 (fld (tabGet (0 : BitVec 64) s.hblocks j) 32 32))) (pairSide s)).toNat

/-- A checkpoint that passes: of an own hearth, by its Book digest, or of a partner hearth (13 R342, R356, R357). -/
def passCheckpoint (s : State) (j : Nat) (bs : List Byte) (own : Bool) : State :=
  if own then
    let L : CpBuf := tabGet {} s.pair.lent j
    let s := s.setPair { s.pair with lent := tabSet {} s.pair.lent j { L with
      cpSeq := cpSeqOf bs, have_ := true, bytes := bs, retries := if cpKind bs = 1 then 0 else L.retries } }
    if cpKind bs = 1 then readyOwn s j bs else tryPaired s
  else
    let s := s.updCp j fun C => { C with cpSeq := cpSeqOf bs, have_ := true, bytes := bs }
    if cpKind bs = 1 then
      (if s.boot.packed then prepareHearth s j
       else requestPack (s.setPair { s.pair with preparing := maskSet s.pair.preparing j }))
    else tryPaired s

/-- A whole checkpoint is judged (13 R342). -/
def judgeCheckpoint (s : State) (j : Nat) (bs : List Byte) : State :=
  let own := decide (cpDigest bs = s.books.digest) && !s.books.own.isEmpty
  let theirs := decide (cpDigest bs = s.books.partnerDigest) && !s.books.partner.isEmpty
  let C : CpBuf := if own then tabGet {} s.pair.lent j else s.cp j
  if decide (bs.length ≠ 16580) || decide (leAt bs 16576 4 ≠ (crc32c (bs.take 16576)).toNat) then missCheckpoint s j bs 2
  else if C.have_ && decide (cpSeqOf bs ≤ C.cpSeq) then missCheckpoint s j bs 3
  else if !own && !theirs then missCheckpoint s j bs 4
  else passCheckpoint s j bs own

/-- CHECKPOINT_FRAME: the parts arrive in order, and the last one completes the checkpoint (13 R342). -/
def checkpointFrame (j : Hearth) (part count : Nat) (bytes : List Byte) (s : State) : State :=
  if !(pairOn s && firmwareRuns s) then s
  else
    let C := s.cp j
    if part = 0 ∨ part = C.part ∧ C.part ≠ 255 then
      let bs := (if part = 0 then [] else C.next) ++ bytes.take 2032
      if part + 1 < count then s.updCp j fun C => { C with part := part + 1, next := bs }
      else judgeCheckpoint (s.updCp j fun C => { C with part := 0, next := [] }) j bs
    else if C.part = 255 then s
    else missCheckpoint (s.updCp j fun C => { C with part := 255, next := [] }) j C.next 0

def execCheckpointFrame (j : Hearth) (part count : Nat) (bytes : List Byte) (s : State) : Host.Outcome State Fault Refusal :=
  .next (checkpointFrame j part count bytes s)

/-- The giver releases its hearth (13 R357, step 3): RELEASE with the claim in force, and NOTICE RELEASED. -/
def giveHearth (s : State) (j : Nat) : State :=
  if s.pair.transfer then
    let num := (s.hearth j).claim
    sendNotice (releaseHearth (controlFrame s j .loc) j .loc num 0) j 4 num.toNat
  else
    let C := s.cp j
    let s := sendDown s (8 + j) 4 (payBlocks [(32, C.claim.toNat)])
    let s := dropHearth (s.updCp j fun C => { C with held := false, accepted := false }) j
    let s := sendNotice s j 4 C.claim.toNat
    crownStamp s srcPartner 0x1607 [(8, j), (32, (tabGet (0 : BitVec 32) s.pair.cpSeq (8 + j)).toNat), (32, C.claim.toNat)]

/-- The receiver of a return checkpoint asks for it again: at most three times; then the hand-over of that hearth fails (13 R357). -/
def retryReturn (s : State) (j : Nat) : State :=
  if 3 ≤ (s.cp j).retries then endHand s 0x702
  else
    let s := s.updCp j fun C => { C with retries := C.retries + 1 }
    s.setPair { s.pair with returnDue := true }

/-- NOTICE_READY (13 R357, step 3; 17 R468): claim number 0 asks for a hand-back, or for the return checkpoint again. -/
def noticeReady (j : Hearth) (claim : BitVec 32) (s : State) : State :=
  if !(pairOn s && firmwareRuns s) then s
  else if s.pair.handing = some j ∧ !s.pair.returnDue then
    if claim = 0 then retryReturn s j
    else
      let t := giveHearth s j
      if s.pair.transfer then t else handedOne t j
  else if s.pair.handing.isNone ∧ claim = 0 ∧ s.pair.state = 7 ∧ (s.cp j).held then
    startHand s (BitVec.ofNat 8 (adoptedMask s)) false none
  else s

def execNoticeReady (j : Hearth) (claim : BitVec 32) (s : State) : Host.Outcome State Fault Refusal := .next (noticeReady j claim s)

/-- NOTICE_RELEASED (13 R357, step 4; 14 R382): the new holder claims: the returning device on its local lane, the receiver of a transfer on
Yj. -/
def noticeReleased (j : Hearth) (s : State) : State :=
  if !(pairOn s && firmwareRuns s) then s
  else if bitOf s.pair.prepared j then
    claimPartner (s.setPair { s.pair with prepared := maskClr s.pair.prepared j }) j
  else moveLedger (claimOwn s j) j (pairAddr s) (8 + j.val)

def execNoticeReleased (j : Hearth) (_claim : BitVec 32) (s : State) : Host.Outcome State Fault Refusal := .next (noticeReleased j s)

/-- NOTICE_ADOPT_REQUEST: the partner asks for the adoption of a hearth in ADOPT (13 R359). In Banked it is wake cause 5 (16 R437, R439). -/
def noticeAdoptRequest (j : Hearth) (s : State) : State :=
  if !(pairOn s && pairAdopts s j && canAdopt s) then s
  else if asleep s then requestWake (s.setPair { s.pair with adopting := maskSet s.pair.adopting j }) 5 0
  else startAdoption s [j.val]

def execNoticeAdoptRequest (j : Hearth) (s : State) : Host.Outcome State Fault Refusal := .next (noticeAdoptRequest j s)

/-- PAIR_RESET_FRAME: a RESET frame that names this device starts the device reset, in hardware (11 R302; 13 R360). -/
def pairResetFrame (ident : BitVec 64) (s : State) : State :=
  if crownUp s && s.boot.stage != 4 && decide (ident.toNat = deviceId s) then deviceReset s else s

def execPairResetFrame (ident : BitVec 64) (s : State) : Host.Outcome State Fault Refusal := .next (pairResetFrame ident s)

/-- RETURN_DELAY_EXPIRY: RETURN_DELAY after RETURNING, with RETURN_AUTO (13 R356). -/
def returnDelayExpiry (s : State) : State :=
  if pairOn s && s.boot.devState == 1 && decide (s.pair.state = 7) && pairReturnAuto s && s.pair.handing.isNone &&
      decide (s.pair.returnSince + pairReturnTicks s ≤ s.time.tick) then
    startHand s (BitVec.ofNat 8 (adoptedMask s)) false none
  else s

def execReturnDelayExpiry (s : State) : Host.Outcome State Fault Refusal := .next (returnDelayExpiry s)

/-- Send RESET to the partner, for PART.RESET (cause 0) or AUTO_RESET (cause 1) (13 R360, R361). -/
def sendReset (s : State) (cause : Nat) : State := crownStamp (sendPair s 6 0 [(64, s.pair.partnerId.toNat)]) srcPartner 0x1609 [(8, cause)]

/-- RESET_DELAY_EXPIRY: RESET_DELAY after an adoption, with AUTO_RESET and both paths still silent (13 R360). -/
def resetDelayExpiry (s : State) : State :=
  if pairOn s && firmwareRuns s && decide (s.pair.state = 5) && pairAutoReset s && s.pair.fresh && bothSilent s &&
      decide (s.pair.adoptedSince + pairResetTicks s ≤ s.time.tick) then
    sendReset (s.setPair { s.pair with fresh := false }) 1
  else s

def execResetDelayExpiry (s : State) : Host.Outcome State Fault Refusal := .next (resetDelayExpiry s)

/-- OWN_HEARTH_SAGGAR_NOTICE: an own hearth in Saggar hold that the partner does not hold: NOTICE ADOPT_REQUEST (13 R359; 15 R398). A hearth
that a transfer has released asks for nothing. -/
def ownHearthSaggarNotice (h : Hearth) (s : State) : State :=
  let H := s.hearth h
  if pairOn s && s.boot.devState == 1 && H.alwaysOn && H.saggar && !(H.held && decide (H.holder = .cross)) &&
      !(s.pair.transfer && decide (s.pair.handing = some h)) then sendNotice s h 5 0
  else s

def execOwnHearthSaggarNotice (h : Hearth) (s : State) : Host.Outcome State Fault Refusal := .next (ownHearthSaggarNotice h s)

/-! STATE frames. -/

/-- An own hearth's block under this device's accepted claim. -/
def ownAccepted (b : BitVec 64) : Bool := bitOf b 31 && !bitOf b 30 && !bitOf b 29

/-- What the block of an own hearth tells the firmware: an acceptance seen newly in Draw, at which the hearth gets its configuration and its
release (15 R395, R396); a hand-back of the command that asked for it; and a transfer's end (13 R357, R359). -/
def ownBlock (s : State) (j : Nat) (old new : BitVec 64) : State :=
  let s := if ownAccepted new && !ownAccepted old && s.boot.stage == 3 && obeys (s.hearth j) .loc then
      (match parseBook s.books.own with
       | .ok b => releaseFlag (commitHearth b s j) j
       | .error _ => releaseFlag s j)
    else s
  let s := if ownAccepted new && bitOf old 30 && s.pair.handSrc.isSome && s.pair.handing.isNone then
      (let s := s.setPair { s.pair with handed := maskSet s.pair.handed j }
       if lentMask s = 0 then endHand s 0 else s)
    else s
  if s.pair.transfer && s.pair.handing.map Fin.val == some j && bitOf new 31 && bitOf new 30 && !bitOf new 29 then handedOne s j else s

/-- STATE_FRAME: observed states and the hearth-state block of a hearth (02 R70; 13 R345; 14 R377). -/
def stateFrame (h : Hearth16) (entries : List (BitVec 16)) (hstate : BitVec 64) (s : State) : State :=
  let s := seeState (takeUp s h) h
  if !alive s then s
  else
    let old := tabGet (0 : BitVec 64) s.hblocks h
    let s := forEach (List.range 64) (fun s k => releaseAlloc s (64 * h.val + k)) (stateFrameIn s h entries hstate)
    if h.val < 8 then ownBlock s h old hstate else partnerBlock s (h - 8) hstate

def execStateFrame (h : Hearth16) (entries : List (BitVec 16)) (hstate : BitVec 64) (s : State) : Host.Outcome State Fault Refusal :=
  .next (stateFrame h entries hstate s)

end Sys2Proof.Machine
end

