-- ==== Sys2Proof/Machine/Banked.lean ====
section
/-! DEFINITION. Banked: its entry, the stages of the wake, and the wake's end (16 R435 to R440). -/
namespace Sys2Proof.Machine
open Sys2Proof

/-- The commands that keep a device out of Banked while they run (16 R435): BOOK.COMMIT, FW.WRITE, SCHED.LOAD, PART.TRANSFER. -/
def bankOps : List Nat := [0x0F02, 0x1001, 0x0603, 0x0D03]

/-- Banked is refused (16 R435). -/
def bankBusy (s : State) : Bool :=
  (List.range 512).any (fun c => !(s.chan c).prof.isEmpty && decide ((s.chan c).obs ≠ .vacant) && decide ((s.chan c).obs ≠ .off)) ||
    !((List.range 8).all fun h => hearthOurs s h) ||
    s.pair.state == 4 || s.pair.state == 5 || s.pair.state == 7 ||
    s.pair.handing.isSome || s.pair.handSrc.isSome || (outstanding s).any fun o => o.2.2 && bankOps.contains o.1

/-- A hearth's lanes and logic rails are powered down (16 R435, step 4; 06 R153). -/
def bankHearth (s : State) (h : Nat) : State :=
  dropFilters (stopHk (s.updHearth h fun H => { H with
    banked := true, logic := false, lane0 := { H.lane0 with trained := false }, lane1 := { H.lane1 with trained := false } }) h) h

/-- Steps 1 to 4 of the entry to Banked (16 R435; 13 R338; 14 R385). -/
def enterBank (s : State) : State :=
  let s := s.setBoot { s.boot with devState := 2 }
  let s := if pairEnable s then sendNotice s 0 1 0 else s
  let s := forEach (upLanes s) (fun s n => sendHello s n true) s
  let s := forEach (List.range 8) (fun s h => releaseHearth (controlFrame s h .loc) h .loc (s.hearth h).claim 0) s
  forEach (List.range 8) bankHearth s

/-- DEV.BANK (16 R435; 17 R449). -/
def devBank (src : CmdSrc) (s : State) : State :=
  runCmd s src 0x0104 [] fun s =>
    if bankBusy s then (s, 8, [])
    else
      let s := enterBank s
      ((s.setHost { s.host with bankSrc := some src }), 0, [])

def execDevBank (src : CmdSrc) (s : State) : Host.Outcome State Fault Refusal := .next (devBank src s)

/-- The device becomes Banked, or starts its wake at once for a cause held meanwhile (16 R435 to R437). A time base in WORKS enters HOLDOVER. -/
def reachBank (s : State) : State :=
  let s := if s.time.state = 3 then toHoldover s else s
  let s := setParent s none 0xFFFF
  let s := (s.setBoot { s.boot with devState := 3 }).setHost { s.host with bankSrc := none, bankedAt := s.time.tick }
  if s.host.wakeHeld = 0 then s
  else (s.setBoot { s.boot with devState := 4 }).setHost { s.host with wakeCause := s.host.wakeHeld, wakeHeld := 0, wakeStage := 0, wakeTick := s.time.tick }

/-- BANKED_REACHED: at the end of the entry, once the DEV.BANK response is written (16 R435, step 5). -/
def bankedReached (s : State) : State :=
  match s.host.bankSrc with
  | some src => if s.boot.devState == 2 && !(srcBox s src).running then reachBank s else s
  | none => s

def execBankedReached (s : State) : Host.Outcome State Fault Refusal := .next (bankedReached s)

/-! The wake (16 R438, R439): what the firmware and the hardware do at each of its times. -/

/-- Each Cone decays at zero power over the Banked interval, rounded up; the adoption of causes 4 and 5 starts (16 R438, R439). -/
def wake1 (s : State) : State :=
  let ns := 250 * (s.time.tick - s.host.bankedAt)
  let s := forEach (servedChans s) (fun s c =>
    let A := s.chan c
    s.updCone c fun K => if K.init then advanceCone A ns 0 K else K) s
  let js := maskBits s.pair.adopting
  let s := s.setPair { s.pair with adopting := 0 }
  let s := if pairOn s && s.pair.told && bothSilent s && canAdopt s then goSilent s else s
  if pairOn s && canAdopt s && !js.isEmpty then startAdoption s js else s

/-- The hearths' logic rails are on and their lanes trained; converters restart (16 R438; 06 R153). -/
def wake2 (s : State) : State :=
  forEach (List.range 8) (fun s h => s.updHearth h fun H => { H with
    banked := false, logic := true, lane0 := { H.lane0 with trained := !H.lane0.failed }, lane1 := { H.lane1 with trained := !H.lane1.failed } }) s

/-- A CLAIM on each own hearth. -/
def wake3 (s : State) : State := forEach (List.range 8) claimOwn s

/-- The engines resume; their tick number is the time island's (12 R306). -/
def wake4 (s : State) : State :=
  let s := forEach (List.range 16) (fun s n => s.updCluster n fun K => if K.failed then K else { K with tick := s.time.tick }) s
  forEach (servedChans s) (fun s c => s.updCone c fun K => { K with lastTick := s.time.tick, headTick := s.time.tick }) s

/-- NOTICE AWAKE, and HELLO without BANKED on each DORMANT lane. -/
def wake5 (s : State) : State :=
  let s := if pairEnable s then sendNotice s 0 2 0 else s
  forEach ((List.range 4).filter fun n => decide ((s.wlane n).state = .dormant)) (fun s n => sendHello s n false) s

/-- Whether the stage of the wake that lies `t` ticks after its start is due. -/
def wakeDue (s : State) (t : Nat) : Bool := s.boot.devState == 4 && decide (s.host.wakeTick + t ≤ s.time.tick)

/-- One more stage of the wake is carried out. -/
def nextStage (s : State) : State := s.setHost { s.host with wakeStage := s.host.wakeStage + 1 }

/-- Carry out the next stage of the wake when it is due: at 10, 18, 20, 24 and 30 us (16 R438). -/
def wakeStep (s : State) : State :=
  match s.host.wakeStage with
  | 0 => if wakeDue s 40 then wake1 (nextStage s) else s
  | 1 => if wakeDue s 72 then wake2 (nextStage s) else s
  | 2 => if wakeDue s 80 then wake3 (nextStage s) else s
  | 3 => if wakeDue s 96 then wake4 (nextStage s) else s
  | 4 => if wakeDue s 120 then wake5 (nextStage s) else s
  | _ => s

/-- Carry out every stage that is due. -/
def wakeAdvance (s : State) : State := wakeStep (wakeStep (wakeStep (wakeStep (wakeStep s))))

/-- A DEV.BANK that arrived while the device was Entering Banked or Banked is answered with ST_BANK_BUSY (16 R440). -/
def lateBank (s : State) (m : Nat) : State :=
  let M := s.mbox m
  if decide (M.phase = 3) && decide (reqOp M = 0x0104) then
    let m' : MboxNo := Fin.ofNat 16 m
    let s := beginCmd (s.updMbox m fun M => { M with phase := 1 }) (.mbox m')
    if (s.mbox m).answer.isNone then setAnswer s (.mbox m') 8 [] else s
  else s

/-- WAKE_COMPLETE: exactly 40 µs after the wake's start (16 R438): DEV_STATE Draw, vector 2, SPI bit 17, and the held doorbells execute. -/
def wakeComplete (s : State) : State :=
  if s.boot.devState == 4 && decide (s.host.wakeTick + 160 ≤ s.time.tick) then
    let s := wakeAdvance s
    let s := s.setBoot { s.boot with devState := 1 }
    let s := spiIrq (msix s 2) 17
    releaseDoorbells (forEach (List.range 16) lateBank s)
  else s

def execWakeComplete (s : State) : Host.Outcome State Fault Refusal := .next (wakeComplete s)

end Sys2Proof.Machine
end

