-- ==== Sys2Proof/Machine/FaultRows.lean ====
section
/-! DEFINITION. Errors at the collector, fatal errors and the crash copy, shadows and event windows (11 R283 to R301). -/
namespace Sys2Proof.Machine
open Sys2Proof

/-- The error codes of 11 R288. -/
def errCode (code : Nat) : Bool :=
  (0x100 ≤ code && code ≤ 0x106) || (0x201 ≤ code && code ≤ 0x220) || (0x301 ≤ code && code ≤ 0x30B)

/-- Uncertainty of a detection time: the base uncertainty plus 8 ns (11 R283). -/
def errUnc (s : State) : Nat := if s.time.state = 0 then 255 else uBaseNs s + 8

/-- ERROR_DETECTED: an error pin or a hearth's error record reaches the collector, with its detection time (11 R284). `clears`: its
condition has gone by then (11 R292). An engine or a cluster whose pin reports its own failure is failed (09 R228, R248, R253): an
uncorrectable error in an engine's memories, in a schedule store, a mirror memory or an ingress history. -/
def errorDetected (code src : BitVec 16) (atNs : BitVec 64) (detail : BitVec 96) (clears : Bool) (s : State) : State :=
  if !(errCode code.toNat && crownUp s) then s
  else
    let s := takeError s { code := code.toNat, src := src.toNat, atNs := atNs.toNat, unc := errUnc s, barrier := (barrierOf s src.toNat).2,
                           detail := detail.toNat }
    let i := srcIdx src.toNat
    let s := if code = 0x215 ∧ srcType src.toNat = 7 ∧ i < 1024 then engineDown s i
      else if code = 0x216 ∧ srcType src.toNat = 8 ∧ i < 16 then clusterDown s i else s
    if clears then clearErrorAt s code.toNat src.toNat atNs.toNat else s

def execErrorDetected (code src : BitVec 16) (atNs : BitVec 64) (detail : BitVec 96) (clears : Bool) (s : State) :
    Host.Outcome State Fault Refusal :=
  .next (errorDetected code src atNs detail clears s)

/-- ERROR_CLEARED: an error's condition has gone (11 R292, R293). -/
def execErrorCleared (code src : BitVec 16) (atNs : BitVec 64) (s : State) : Host.Outcome State Fault Refusal :=
  .next (clearErrorAt s code.toNat src.toNat atNs.toNat)

/-- Code and source of a fatal error (11 R288). -/
def fatalOf : FatalCode → Nat × Nat
  | .managementClock => (0x301, srcIsland 0)
  | .timeClock => (0x302, srcIsland 1)
  | .collectorClock => (0x303, srcIsland 2)
  | .lockstep => (0x304, srcIsland 0)
  | .managementMemory => (0x305, srcIsland 0)
  | .watchdog => (0x306, srcIsland 0)
  | .crossingCore i => (0x307, srcIsland i.val)
  | .overTemperature => (0x308, srcDevice)
  | .railFault => (0x309, srcDevice)
  | .fuseRead => (0x30A, srcIsland 4)
  | .collectorCheck => (0x30B, srcIsland 2)

/-- A fatal error while the Crown runs: Cracked (11 R300). -/
def fatal (s : State) (code src detail : Nat) : State := if crownUp s then raiseError s code src detail else s

/-- FATAL_ERROR (11 R300). -/
def execFatalError (code : FatalCode) (detail : BitVec 96) (s : State) : Host.Outcome State Fault Refusal :=
  .next (fatal s (fatalOf code).1 (fatalOf code).2 detail.toNat)

/-- A fatal error whose context words are free values: what was measured is not in the command. -/
def fatalFree (s : State) (code src : Nat) : State :=
  let (v, s) := s.freshFree
  fatal s code src (v % 2 ^ 64)

/-- WATCHDOG_EXPIRED: the firmware has not serviced its watchdog for 10 ms (11 R288); it is armed at Draw (15 R394). -/
def watchdogExpired (s : State) : State := if s.boot.watchdog && !s.boot.cracked then fatalFree s 0x306 (srcIsland 0) else s

def execWatchdogExpired (s : State) : Host.Outcome State Fault Refusal := .next (watchdogExpired s)

/-- CROWN_RAIL_FAULT: VCORE, VSD or VIO outside ±10 % for 10 µs (11 R288). -/
def execCrownRailFault (s : State) : Host.Outcome State Fault Refusal := .next (fatalFree s 0x309 srcDevice)

/-- CROWN_OVER_TEMPERATURE: the Crown die above 125 °C for 10 µs (11 R288). -/
def execCrownOverTemperature (s : State) : Host.Outcome State Fault Refusal := .next (fatalFree s 0x308 srcDevice)

/-- The last `n` elements of a list. -/
def lastN {α : Type} (n : Nat) (l : List α) : List α := l.drop (l.length - n)

/-- CRASH_SECTOR_COPY: the copy that Cracked owes; a copy still unread is kept (11 R301). -/
def crashSectorCopy (s : State) : State :=
  if !s.coll.copyDue then s
  else
    let s := s.setColl { s.coll with copyDue := false }
    match s.coll.fatalSh with
    | none => s
    | some f =>
      if s.coll.crashUnread then s
      else s.setColl { s.coll with
        crash := some (s.boot.bootCount, s.coll.fsw, f, lastN 15 (s.coll.shards.filter fun x => x.cls = 2)), crashUnread := true }

def execCrashSectorCopy (s : State) : Host.Outcome State Fault Refusal := .next (crashSectorCopy s)

/-- REACTION_SHADOW_END: the shadow of a reaction ends at its time (11 R295). What was detected inside it still merges (11 R296). -/
def reactionShadowEnd (idx : Nat) (s : State) : State :=
  match s.coll.shadows[idx]? with
  | none => s
  | some sh =>
    match sh.closed, sh.ends with
    | none, some t =>
      if t ≤ s.time.tai then s.setColl { s.coll with shadows := s.coll.shadows.set idx { sh with closed := some t } } else s
    | _, _ => s

def execReactionShadowEnd (idx : Nat) (s : State) : Host.Outcome State Fault Refusal := .next (reactionShadowEnd idx s)

/-- At the end of a window a shard whose PRESENT differs from what its last record stated places the record held back (11 R293). -/
def endWindow (s : State) (x : Shard) : State :=
  if x.cls ≠ 1 ∧ (x.faultInWin ∨ x.clearInWin) ∧ x.present ≠ x.shown then noteChange s x.id (!x.present) else s

/-- FAULT_EVENT_WINDOW_END: a whole millisecond of the time counter (11 R293). -/
def faultEventWindowEnd (s : State) : State :=
  let old := s.coll.shards
  let s := s.setColl { s.coll with shards := old.map fun x => { x with faultInWin := false, clearInWin := false } }
  old.foldl endWindow s

def execFaultEventWindowEnd (s : State) : Host.Outcome State Fault Refusal := .next (faultEventWindowEnd s)

end Sys2Proof.Machine
end

