-- ==== Sys2Proof/Machine/Boot.lean ====
section
/-! DEFINITION. Bisque, Glaze and Draw: the stages of a start-up (15 R388 to R400, R406, R408; 11 R302; 12 R328; 18 R486, R487). -/
namespace Sys2Proof.Machine
open Sys2Proof

/-- A change of STAGE: MSI-X vector 3 and SPI bit 18 (16 R427, R430). -/
def setStage (s : State) (st : Fin 8) : State :=
  if s.boot.stage = st then s else spiIrq (msix (s.setBoot { s.boot with stage := st }) 3) 18

/-- A stage that cannot complete stalls, with its cause (15 R397, R398). -/
def stall (s : State) (st : Fin 8) (cause : BitVec 8) : State := setStage (s.setBoot { s.boot with cause := cause }) st

/-- POWER_ON: the rise of the rails is a device reset; the PMB_ADDR pins are sampled (11 R302; 15 R388; 16 R432). Bisque starts once RST_N is
high. -/
def powerOn (strap : Fin 8) (s : State) : State :=
  let s := deviceReset s
  (s.setBoot { s.boot with rails := true }).setPmb { s.pmb with addr := strap }

def execPowerOn (strap : Fin 8) (s : State) : Host.Outcome State Fault Refusal := .next (powerOn strap s)

/-- RST_N_RELEASE: RST_N rises, and the test logic leaves EXTEST, CLAMP and HIGHZ (18 R487). -/
def rstNRelease (s : State) : State :=
  if !s.boot.rstLow then s
  else
    let ir := match s.jtag.ir with
      | .extest | .clamp | .highz => JtagIr.bypass
      | x => x
    (s.setBoot { s.boot with rstLow := false }).setJtag { s.jtag with ir := ir }

def execRstNRelease (s : State) : Host.Outcome State Fault Refusal := .next (rstNRelease s)

/-! Bisque. -/

/-- The first check of Bisque that fails, in the order of 15 R394, as its cause code (15 R398). -/
def bisqueCause (f : BitVec 2560) (io : BisqueIo) : Option (BitVec 8) :=
  if (fuseBad f).isSome then some 1
  else if !io.selfTest then some 3
  else if !io.pll then some 4
  else if io.trimOk ≠ 0xFF then some 2
  else none

/-- The fuses as sensed; the rollback bits that this device has blown stay blown (15 R389, R390). -/
def sensedFuses (s : State) (f : BitVec 2560) : BitVec 2560 := f ||| (s.boot.fuses &&& BitVec.ofNat 2560 ((2 ^ 128 - 1) * 2 ^ 128))

/-- Rollback alignment: the lower copy is blown up to the other, and memory corrected is counted on the fuse block (15 R390), with context
words of free value. -/
def alignRollback (s : State) : State :=
  if popBits 64 (fuse s 128 64) = popBits 64 (fuse s 192 64) then s
  else
    let (v, s) := (s.setFuses (blowRollback s.boot.fuses (rollback s))).freshFree
    raiseError s 0x101 (srcIsland 4) (v % 2 ^ 96)

/-- The hearth lanes that train in Bisque; the lowest that has trained is active (15 R394, 01 R18). -/
def trainLanes (lanes : BitVec 16) (s : State) : State :=
  forEach (List.range 8) (fun s h =>
    let a := bitOf lanes (2 * h)
    let b := bitOf lanes (2 * h + 1)
    s.updHearth h fun H => { H with
      lane0 := { trained := a, failed := false, attempts := 0 }, lane1 := { trained := b, failed := false, attempts := 0 }
      active := if !a && b then 1 else 0, failover := false }) s

/-- What measurement slot 0 is extended with: the boot ROM, fuse bits 95:0, the rollback counter and the trim arrays (15 R408). -/
def romDigest (s : State) (io : BisqueIo) : BitVec 384 :=
  Config.sha384 (io.rom ++ toLe 12 (fuse s 0 96) ++ toLe 2 (rollback s) ++ io.trims)

/-- Glaze starts: the flash answers its identification read, and the boot record is written with BOOT_COUNT raised by 1 (15 R394, R398). -/
def startGlaze (flashAnswers : Bool) (s : State) : State :=
  if !flashAnswers then stall s 5 7
  else
    let n := BitVec.ofNat 32 ((bootRec s).bootCount + 1)
    let s := writeRec s fun r => { r with bootCount := n.toNat }
    setStage (s.setBoot { s.boot with bootCount := n }) 2

/-- BISQUE_END: sensing, checks, training, measurement slot 0; then Glaze (15 R394). -/
def bisqueEnd (io : BisqueIo) (s : State) : State :=
  if !(crownUp s) || s.boot.cracked || decide (s.boot.stage ≠ 1) then s
  else
    let s := s.setFuses (sensedFuses s io.fuses)
    match bisqueCause s.boot.fuses io with
    | some c => stall s 4 c
    | none =>
      let s := trainLanes io.lanes (alignRollback s)
      startGlaze io.flashAnswers (extendSlot s 0 1 (romDigest s io))

def execBisqueEnd (io : BisqueIo) (s : State) : Host.Outcome State Fault Refusal := .next (bisqueEnd io s)

/-! Images. -/

/-- The header of an image, and its fields (15 R399). -/
def imgHead (s : State) (b : Bool) : List Byte := flashRead s (imageAt b) 256
def imgVersion (s : State) (b : Bool) : Nat := leAt (imgHead s b) 8 4
def imgSvn (s : State) (b : Bool) : Nat := leAt (imgHead s b) 6 2

/-- The body of an image, and the signing key of 96 bytes that KEY_INDEX names in the key block behind it. -/
def imgBody (s : State) (b : Bool) : List Byte := flashRead s (imageAt b + 256) (min (leAt (imgHead s b) 12 4) 1048576)
def imgKey (s : State) (b : Bool) : List Byte :=
  flashRead s (imageAt b + 256 + leAt (imgHead s b) 12 4 + 96 * leAt (imgHead s b) 2 2) 96

/-- An image passes the checks of 15 R399 but that of SVN. The image not running is unusable after a failed write (15 R412). -/
def imgGenuine (s : State) (b : Bool) : Bool :=
  let h := imgHead s b
  !(if b then s.boot.badB else s.boot.badA) && decide (leAt h 0 2 = 1) && decide (leAt h 12 4 ≤ 1048576 - 256) &&
    decide (hashBytes (Config.sha384 (imgBody s b)) = sliceBytes h 16 48) &&
    decide (Config.sha384 (imgKey s b) = rootHash s) &&
    Config.ecdsaVerify (imgKey s b) (Config.sha384 (h.take 64)) (hashOfBytes (sliceBytes h 64 48)) (hashOfBytes (sliceBytes h 112 48))

/-- An image is usable (15 R399). -/
def imgUsable (s : State) (b : Bool) : Bool := imgGenuine s b && decide (rollback s ≤ imgSvn s b)

/-- Attempt count of an image in the boot record. -/
def attempts (s : State) (b : Bool) : Nat := if b then (bootRec s).attB else (bootRec s).attA

/-- The image was tried in this boot. -/
def tried (s : State) (b : Bool) : Bool := if b then s.boot.triedB else s.boot.triedA

/-- An image may start: not yet tried, usable, and with fewer than 3 attempts unless the other is not usable (15 R399). -/
def mayStartImage (s : State) (b : Bool) : Bool :=
  !tried s b && imgUsable s b && (decide (attempts s b < 3) || !(imgUsable s !b))

/-- The image that the boot ROM starts: the one that ACTIVE names, then the other. -/
def chooseImage (s : State) : Option Bool :=
  let a := (bootRec s).active
  if mayStartImage s a then some a else if mayStartImage s !a then some !a else none

/-- The image last tried when none starts: the one that ACTIVE does not name, unless it was skipped for its attempts (15 R398, R399). -/
def lastTried (s : State) : Bool :=
  let a := (bootRec s).active
  if !tried s !a && imgUsable s !a && decide (3 ≤ attempts s !a) && imgUsable s a then a else !a

/-- The boot record with an image's attempt count replaced. -/
def setAttempts (s : State) (b : Bool) (f : Nat → Nat) : State :=
  writeRec s fun r => if b then { r with attB := f r.attB } else { r with attA := f r.attA }

/-- SIDE for the Glaze claims: from the pair section of the Book copy in force, when HEADER_CRC, DIR_CRC and the section's CRC pass
(15 R395). -/
def glazeSide (s : State) : Nat :=
  let at_ := bookAt (bootRec s).book
  let h := flashRead s at_ 32
  let n := leAt h 4 2
  let bs := h ++ flashRead s (at_ + 32) (16 * n)
  if leAt h 20 4 ≠ (crc32c (h.take 20)).toNat ∨ !(dirOk bs) then 0
  else match ((List.range n).map (dirEntry bs)).find? fun e => e.typ == 8 && e.inst == 0 with
    | none => 0
    | some e =>
      let w := flashRead s (at_ + e.off) (min e.len 1048576)
      if e.crc = (crc32c w).toNat ∧ 8 ≤ w.length then bitsOf (leAt w 0 8) 62 1 else 0

/-- The Glaze claim on an own hearth (15 R395): 0x13 for one with no trained lane, or refused for another reason than the partner's hold,
which is 0x14. -/
def glazeClaim (side : Nat) (s : State) (h : Nat) : State :=
  let H := s.hearth h
  if !(H.logic && (H.lane0.trained || H.lane1.trained)) then noteCause s 0x13
  else
    let num := nextClaim H.claim side
    match claimRefusal H .loc num with
    | some r => noteCause (judgeClaim (controlFrame s h .loc) h .loc num) (if r = 4 then 0x14 else 0x13)
    | none => judgeClaim (controlFrame s h .loc) h .loc num

/-- IMAGE_START: the boot ROM starts an image: its attempt count, the Glaze timer, slots 1 and 2; the firmware then claims the own hearths
(15 R395, R399, R400, R408). No image to start is a stall. What the log keeps of the header's extension is a free value. -/
def imageStart (s : State) : State :=
  if !(alive s) || decide (s.boot.stage ≠ 2) || s.boot.started then s
  else match chooseImage s with
    | none => stall (s.setBoot { s.boot with image := lastTried s }) 5 6
    | some b =>
      let fb := decide (b ≠ (bootRec s).active)
      let s := if fb then noteCause s 0x10 else s
      let s := setAttempts s b fun n => min 255 (n + 1)
      let s := s.setBoot { s.boot with
        image := b, fallback := fb, started := true, glazeTimer := true
        triedA := s.boot.triedA || !b, triedB := s.boot.triedB || b }
      let h := imgHead s b
      let s := extendSlot s 1 2 (hashOfBytes (sliceBytes h 16 48))
      let (f, s) := s.freshFree
      let s := extendBytes s 2 3 (h ++ toLe 1 (b2n b)) (BitVec.ofNat 384 f)
      forEach (List.range 8) (glazeClaim (glazeSide s)) s

def execImageStart (s : State) : Host.Outcome State Fault Refusal := .next (imageStart s)

/-- GLAZE_TIMER_EXPIRY: the management processor is reset and its frames stop; IMAGE_START then tries the other image (15 R400). -/
def glazeTimerExpiry (s : State) : State :=
  if alive s && decide (s.boot.stage = 2) && s.boot.glazeTimer && s.boot.started then
    s.setBoot { s.boot with started := false, glazeTimer := false }
  else s

def execGlazeTimerExpiry (s : State) : Host.Outcome State Fault Refusal := .next (glazeTimerExpiry s)

/-! The commit in Glaze. -/

/-- Commit a Book that passed every check in Glaze: applied, measured into slot 3, and its custom schedules into slot 4 in map order
(15 R406, R408). -/
def glazeApply (copy : Bool) (b : Book) (t : State) : State :=
  let t := applyBook b t
  let t := (t.setBoot { t.boot with bookCopy := copy, bookEmpty := false })
  let t := extendSlot t 3 4 (bookDigest b)
  forEach ((bookMap b).filter fun e => isLoaded t e) (fun t e => extendSlot t 4 5 e.digest) t

/-- The Book copy that Glaze commits, with the state it leaves: the one in force, the other with cause 0x11, or none with cause 0x12
(15 R406). -/
def glazeCommit (s : State) : State :=
  let c := (bootRec s).book
  match checkBook s (readBook s c) none false with
  | .ok (b, t) => glazeApply c b t
  | .error _ => match checkBook s (readBook s !c) none false with
    | .ok (b, t) =>
      let t := glazeApply (!c) b (noteCause t 0x11)
      writeRec t fun r => { r with book := !c }
    | .error _ => extendSlot (noteCause (s.setBoot { s.boot with bookEmpty := true }) 0x12) 3 4 0

/-- Chain genesis (12 R328): H_0 of the measurement digest, BOOT_COUNT and the device identifier; EV_CHAIN_START is the first record, and
the records met before it follow. -/
def chainGenesis (s : State) : State :=
  if s.log.running then s
  else
    let g := hashBytes (measDigest s) ++ toLe 4 s.boot.bootCount.toNat ++ toLe 8 (deviceId s) ++ toLe 4 0
    let early := s.log.early
    let s := s.setLog { s.log with chain := Config.sha384 g, running := true, early := [] }
    let s := crownStamp s srcDevice 0x1007 [(32, s.boot.bootCount.toNat)]
    forEach early admitRec s

/-- The offset of a current converter is measured (06 R159): one within ±400 µV, 25 codes, is subtracted from every later conversion; one beyond it
stays uncorrected and is converter calibration. -/
def measureOffset (s : State) (p : OwnChan × BitVec 14) : State :=
  let c := p.1.val
  if 25 < p.2.toInt.natAbs then
    let s := s.updCell c fun C => { C with offset := 0 }
    if (s.cell c).configured then raiseError s 0x208 (srcChan c) (chanDetail s c (p.2.signExtend 32).toNat) else s
  else s.updCell c fun C => { C with offset := p.2 }

/-- GLAZE_BOOK_COMMIT: the firmware commits a Kiln Book; the current-converter offsets are measured, one beyond its bound being converter
calibration; the chain starts (15 R394, R406; 06 R159; 12 R328). -/
def glazeBookCommit (io : GlazeIo) (s : State) : State :=
  if !(alive s) || decide (s.boot.stage ≠ 2) || !s.boot.started then s
  else
    let s := glazeCommit s
    let s := forEach io.offsets measureOffset (forEach (List.range 512) (fun s c => s.updCell c fun C => { C with offset := 0 }) s)
    chainGenesis s

def execGlazeBookCommit (io : GlazeIo) (s : State) : Host.Outcome State Fault Refusal := .next (glazeBookCommit io s)

/-! Draw. -/

/-- DRAW: every hearth whose claim is accepted is released; the image's attempts are 0 again, the watchdog is armed, and the heartbeats, the
pair and the Works lanes start; held doorbells execute (15 R394, R396, R400; 13 R334; 14 R366; 16 R423). -/
def draw (s : State) : State :=
  if !(alive s) || decide (s.boot.stage ≠ 2) || !(s.boot.started && s.log.running) then s
  else
    let s := forEach (List.range 8) (fun s h => if obeys (s.hearth h) .loc then releaseFlag s h else s) s
    let s := setAttempts s s.boot.image fun _ => 0
    let s := s.setBoot { s.boot with
      glazeTimer := false, watchdog := true, devState := 1, drawMs := BitVec.ofNat 8 (min 254 (s.time.tick / 4000)) }
    releaseDoorbells (pairStart (worksStart (setStage s 3)))

def execDraw (s : State) : Host.Outcome State Fault Refusal := .next (draw s)

/-- FUSE_RECHECK: every 1 s from Draw onwards, the CRC groups are checked again; a failure is fatal (15 R391; 17 R464). -/
def fuseRecheck (fuses : BitVec 2560) (s : State) : State :=
  if !(alive s) || decide (s.boot.stage ≠ 3) then s
  else match fuseBad fuses with
    | some i => fatal s 0x30A (srcIsland 4) (i + 1)
    | none => s

def execFuseRecheck (fuses : BitVec 2560) (s : State) : Host.Outcome State Fault Refusal := .next (fuseRecheck fuses s)

end Sys2Proof.Machine
end

