-- ==== Sys2Proof/Machine/HostRegs.lean ====
section
/-! DEFINITION. BAR0: reads and writes of its registers and mailboxes, and their effects (16 R415 to R420, R424, R427, R431; 11 R291). -/
namespace Sys2Proof.Machine
open Sys2Proof

/-- The 64 bytes of a shard, CRC included (11 R291). -/
def shardBytes (x : Shard) : List Byte :=
  let body := toLe 2 x.id.toNat ++ toLe 2 x.code.toNat ++ toLe 2 x.source.toNat ++
    toLe 2 (x.cls.toNat * 2 ^ 7 + b2n x.present * 2 ^ 9 + b2n x.latched * 2 ^ 10 + b2n x.shadowed * 2 ^ 11) ++ toLe 1 0 ++
    toLe 8 x.firstAt.toNat ++ toLe 8 x.clearedAt.toNat ++ toLe 4 x.occurrences.toNat ++ toLe 4 x.merged.toNat ++ toLe 4 x.barrier.toNat ++
    toLe 1 x.unc.toNat ++ toLe 1 x.reaction.toNat ++ toLe 1 0 ++ toLe 8 x.latestAt.toNat ++ toLe 12 x.detail.toNat
  body ++ toLe 4 (crc32c body).toNat

/-- A 64-byte entry of the ring or of the event window (16 R425). -/
def entryBytes (r : EventRec) (index origin flags : Nat) : List Byte :=
  recBytes r ++ toLe 8 index ++ toLe 2 origin ++ toLe 1 flags ++ List.replicate 21 0

/-- The event window's entry: all zero, so VALID 0, outside the indices held (16 R431). -/
def windowBytes (s : State) : List Byte :=
  match recAt s s.host.evtwIndex.toNat with
  | some r => entryBytes r s.host.evtwIndex.toNat 0xFFFF 1
  | none => List.replicate 64 0

/-- DEV_STATE, as BAR0 and DEV.SUMMARY show it: 5 while Cracked (16 R417). -/
def devStateField (s : State) : Nat := (if s.boot.cracked then 5 else s.boot.devState.val) + 16 * b2n s.boot.packed

/-- Ring size, the room in it, and FULL (16 R424). -/
def ringSize (s : State) : Nat := 2 ^ s.host.ringSize.toNat
def ringUsed (s : State) : Nat := (s.host.prod - s.host.cons).toNat
def ringFull (s : State) : Bool := decide (ringSize s ≤ ringUsed s)

/-- A 32-bit half of a 64-bit register. -/
def half (w : BitVec 64) (hi : Bool) : Nat := if hi then bitsOf w.toNat 32 32 else bitsOf w.toNat 0 32

/-- A word of the device registers (16 R417, R430). WO registers read 0. -/
def devWord (s : State) (off : Nat) : Nat :=
  if off = 0x00 then 0x0512A101
  else if off = 0x04 then bootWord s
  else if off = 0x08 then s.time.state.val * 2 ^ 20 + worksRole s * 2 ^ 16 + s.pair.state.val * 2 ^ 8 + devStateField s
  else if off = 0x10 then s.host.mboxDone.toNat
  else if off = 0x14 then s.host.wakeCause.toNat
  else if off = 0x18 ∨ off = 0x1C then half s.host.wakeTime (off == 0x1C)
  else if off = 0x20 ∨ off = 0x24 then half s.coll.fsw (off == 0x24)
  else if off = 0x28 then s.time.tai % 2 ^ 32
  else if off = 0x2C then s.host.nowHigh.toNat
  else if 0x40 ≤ off ∧ off < 0x80 then
    (match s.coll.fatalSh with | some x => if s.boot.cracked then leAt (shardBytes x) (off - 0x40) 4 else 0 | none => 0)
  else if off = 0x80 then s.host.irqStatus.toNat
  else if off = 0x84 then s.host.irqMask.toNat
  else 0

/-- A word of the event ring and event window registers (16 R424, R431). -/
def ringWord (s : State) (off : Nat) : Nat :=
  let H := s.host
  if off = 0x00 ∨ off = 0x04 then half H.ringBase (off == 0x04)
  else if off = 0x08 then b2n H.ringOn * 2 ^ 31 + H.ringSize.toNat
  else if off = 0x0C ∨ off = 0x10 then half H.ringWb (off == 0x10)
  else if off = 0x14 then H.prod.toNat
  else if off = 0x18 then H.cons.toNat
  else if off = 0x1C then H.coalTime.toNat * 2 ^ 16 + H.coalCount.toNat
  else if off = 0x20 then b2n H.dmaError * 4 + b2n H.stopped * 2 + b2n (ringFull s)
  else if off = 0x40 ∨ off = 0x44 then half H.evtwIndex (off == 0x44)
  else if off = 0x48 ∨ off = 0x4C then half (BitVec.ofNat 64 s.log.head) (off == 0x4C)
  else if off = 0x50 ∨ off = 0x54 then half (BitVec.ofNat 64 (if s.log.recs.isEmpty then 0 else logTail s)) (off == 0x54)
  else if 0x80 ≤ off ∧ off < 0xC0 then leAt (windowBytes s) (off - 0x80) 4
  else 0

/-- A word of a mailbox (16 R418). -/
def mboxWord (s : State) (m off : Nat) : Nat :=
  let M := s.mbox m
  if off = 0x000 then M.lock.toNat
  else if off = 0x008 then M.phase.toNat * 2 ^ 30 + b2n M.overrun * 2 ^ 29 + M.doneSeq.toNat
  else if 0x040 ≤ off ∧ off < 0x800 then ofLe (tabRun 0 M.request (off - 0x40) 4)
  else if 0x800 ≤ off then leAt M.response (off - 0x800) 4
  else 0

/-- The word of BAR0 at an aligned offset; Reserved space reads 0 (16 R416). -/
def readWord (s : State) (off : Nat) : Nat :=
  if off < 0x1000 then devWord s off
  else if off < 0x2000 then ringWord s (off - 0x1000)
  else if off < 0x2200 then (tabGet 0 s.host.msixTable ((off - 0x2000) / 4)).toNat
  else if off = 0x2800 then s.host.msixPba.toNat
  else if 0x10000 ≤ off ∧ off < 0x20000 then mboxWord s ((off - 0x10000) / 0x1000) (off % 0x1000)
  else 0

/-- What a read of a word does: WAKE_CAUSE is cleared, TIME_NOW latches its high word, the window's last word advances its index
(16 R417, R431). -/
def readEffect (s : State) (off : Nat) : State :=
  if off = 0x14 then s.setHost { s.host with wakeCause := 0 }
  else if off = 0x28 then s.setHost { s.host with nowHigh := BitVec.ofNat 32 (s.time.tai / 2 ^ 32) }
  else if off = 0x10BC then s.setHost { s.host with evtwIndex := s.host.evtwIndex + 1 }
  else s

/-- A read of one register by a port: its value goes out, and its effect follows. -/
def readReg (port : HostPort) (off : Nat) (s : State) : State :=
  if portOpen s port then readEffect (s.emit (.reply (toLe 4 (readWord s off)))) off else s

/-- WAKE_CAUSE_READ (16 R417). -/
def execWakeCauseRead (port : HostPort) (s : State) : Host.Outcome State Fault Refusal := .next (readReg port 0x14 s)

/-- TIME_NOW_READ (16 R417). -/
def execTimeNowRead (port : HostPort) (s : State) : Host.Outcome State Fault Refusal := .next (readReg port 0x28 s)

/-- EVTW_ENTRY_READ: a read of the window's entry; with its last byte the index advances (16 R431). -/
def evtwEntryRead (port : HostPort) (last : Bool) (s : State) : State :=
  if portOpen s port then
    let s := s.emit (.reply (if last then windowBytes s else (windowBytes s).take 60))
    if last then readEffect s 0x10BC else s
  else s

def execEvtwEntryRead (port : HostPort) (last : Bool) (s : State) : Host.Outcome State Fault Refusal := .next (evtwEntryRead port last s)

/-! Writes. -/

/-- A register half replaced. -/
def putHalf (w : BitVec 64) (hi : Bool) (v : BitVec 32) : BitVec 64 := if hi then putFld w 32 32 v.toNat else putFld w 0 32 v.toNat

/-- What the ring owes a source whose records from `first` on are wanted: the gap to the oldest record still held (17 R466). -/
def oweGap (s : State) (src : Nat) (first : BitVec 32) : List (Nat × BitVec 32 × BitVec 32) :=
  let older (q : BitVec 32) : Bool := decide (1 ≤ seqDist first q) && decide (seqDist first q ≤ 2 ^ 31)
  match (s.log.recs.filter fun r => decide (r.source.toNat = src)).getLast? with
  | some r => if r.seq ≠ 0 ∧ older r.seq then [(src, first, BitVec.ofNat 32 (seqDist first r.seq))] else []
  | none =>
    let last := tabGet 0 s.log.last src
    if s.log.seen.contains src && (decide (last = first) || older last) then [(src, first, BitVec.ofNat 32 (seqDist first last + 1))] else []

/-- The first record that the set wants of a source it does not name, under DEFAULT 0. -/
def dfltFirst (s : State) (src : Nat) : BitVec 32 :=
  match s.host.resumeSnap.find? fun e => e.source.toNat = src with
  | some e => e.first
  | none => tabGet 0 s.log.firsts src

/-- The gaps owed when a resume set comes into force (17 R466). -/
def resumeGaps (s : State) : List (Nat × BitVec 32 × BitVec 32) :=
  let named := s.host.resume.map fun e => e.source.toNat
  (s.host.resume.flatMap fun e => oweGap s e.source.toNat e.first) ++
    (if s.host.resumeDflt = 0 then (s.log.seen.filter fun x => !(named.contains x)).flatMap fun x => oweGap s x (dfltFirst s x) else [])

/-- ENABLE goes from 0 to 1 (16 R424, R426): a stopped ring runs again; a resume set given since comes into force, from the log's tail. -/
def startRing (s : State) : State :=
  let s := s.setHost { s.host with ringOn := true, stopped := false, coalSeen := 0 }
  if s.host.resumeNew then
    let s := s.setHost { s.host with resumeNew := false, resumeUse := true, nextRing := logTail s }
    s.setHost { s.host with ringGaps := resumeGaps s }
  else s

/-- A write of the word that holds ENABLE and SIZE_LOG2 (16 R424). -/
def writeEnable (value : BitVec 32) (s : State) : State :=
  let on := bitOf value 31
  if s.host.ringOn then (if on then s else (s.setHost { s.host with ringOn := false }))
  else
    let s := s.setHost { s.host with ringSize := BitVec.ofNat 5 value.toNat }
    if on then startRing s else s

/-- A write of CONS: forward only, and up to PROD (16 R426). -/
def writeCons (value : BitVec 32) (s : State) : State :=
  if (value - s.host.cons).toNat ≤ ringUsed s then s.setHost { s.host with cons := value } else s

/-- RING_ENABLE_WRITE (16 R426). -/
def execRingEnableWrite (port : HostPort) (value : BitVec 32) (s : State) : Host.Outcome State Fault Refusal :=
  .next (if portOpen s port then writeEnable value s else s)

/-- CONS_WRITE (16 R426). -/
def execConsWrite (port : HostPort) (value : BitVec 32) (s : State) : Host.Outcome State Fault Refusal :=
  .next (if portOpen s port then writeCons value s else s)

/-- A write of a ring or window register (16 R424, R431). -/
def writeRing (off : Nat) (v : BitVec 32) (s : State) : State :=
  let H := s.host
  let idle := !H.ringOn
  if off = 0x00 ∨ off = 0x04 then (if idle then s.setHost { H with ringBase := putHalf H.ringBase (off == 0x04) v } else s)
  else if off = 0x08 then writeEnable v s
  else if off = 0x0C ∨ off = 0x10 then (if idle then s.setHost { H with ringWb := putHalf H.ringWb (off == 0x10) v } else s)
  else if off = 0x18 then writeCons v s
  else if off = 0x1C then s.setHost { H with coalTime := v.extractLsb' 16 16, coalCount := v.extractLsb' 0 16 }
  else if off = 0x20 then s.setHost { H with dmaError := H.dmaError && !bitOf v 2 }
  else if off = 0x40 ∨ off = 0x44 then s.setHost { H with evtwIndex := putHalf H.evtwIndex (off == 0x44) v }
  else s

/-- A write of a word of the MSI-X table: the vector control word holds the mask bit, and unmasking a pending vector sends it (16 R416, R427;
log entry 11). -/
def writeMsix (off : Nat) (v : BitVec 32) (s : State) : State :=
  let n := off / 16
  let s := s.setHost { s.host with msixTable := tabSet 0 s.host.msixTable (off / 4) v }
  if off % 16 ≠ 12 then s
  else
    let bit := BitVec.ofNat 32 (2 ^ n)
    if bitOf v 0 then s.setHost { s.host with msixMask := s.host.msixMask ||| bit }
    else
      let pend := bitOf s.host.msixPba n
      let s := s.setHost { s.host with msixMask := s.host.msixMask &&& ~~~bit, msixPba := s.host.msixPba &&& ~~~bit }
      if pend then msix s n else s

/-- A write of a word of a mailbox (16 R418 to R420). -/
def writeMbox (port : HostPort) (m : MboxNo) (off : Nat) (v : BitVec 32) (s : State) : State :=
  if off = 0x000 then lockWrite port m (v.extractLsb' 0 2) s
  else if off = 0x004 then doorbell port m (v.extractLsb' 16 16) (v.extractLsb' 0 16) [] s
  else if 0x040 ≤ off ∧ off < 0x800 ∧ (s.mbox m).lock = portLock port then
    s.updMbox m fun M => { M with request := tabPut 0 M.request (off - 0x40) (toLe 4 v.toNat) }
  else s

/-- A write of the 32-bit word of BAR0 at an aligned offset; read-only and Reserved space ignores it (16 R416). RESET is served in any
stage. -/
def writeWord (port : HostPort) (off : Nat) (v : BitVec 32) (s : State) : State :=
  if off = 0x0C then bar0ResetWrite port v s
  else if !portOpen s port then s
  else if off = 0x10 then s.setHost { s.host with mboxDone := s.host.mboxDone &&& ~~~(v.extractLsb' 0 16) }
  else if off = 0x80 then s.setHost { s.host with irqStatus := s.host.irqStatus &&& ~~~(v.extractLsb' 0 21) }
  else if off = 0x84 then s.setHost { s.host with irqMask := v.extractLsb' 0 21 }
  else if 0x1000 ≤ off ∧ off < 0x2000 then writeRing (off - 0x1000) v s
  else if 0x2000 ≤ off ∧ off < 0x2200 then writeMsix (off - 0x2000) v s
  else if 0x10000 ≤ off ∧ off < 0x20000 then writeMbox port (Fin.ofNat 16 ((off - 0x10000) / 0x1000)) (off % 0x1000) v s
  else s

/-- REGISTER_WRITE: a 32-bit write; one that is not aligned is ignored (16 R416). SPI does not write inside the MSI-X regions. -/
def registerWrite (port : HostPort) (offset : BitVec 18) (value : BitVec 32) (s : State) : State :=
  let o := offset.toNat
  if o % 4 ≠ 0 ∨ (port = .spi ∧ 0x2000 ≤ o ∧ o < 0x3000) then s else writeWord port o value s

def execRegisterWrite (port : HostPort) (offset : BitVec 18) (value : BitVec 32) (s : State) : Host.Outcome State Fault Refusal :=
  .next (registerWrite port offset value s)

/-! The host's link. -/

/-- A command that runs in a mailbox held by PCIe and has its answer is completed, which releases the lock (16 R415). -/
def completeLost (s : State) (m : Nat) : State :=
  let M := s.mbox m
  if M.lock = 1 ∧ M.phase = 1 then (match M.answer with
    | some (st, body) => endCommand s (Fin.ofNat 16 m) st.toNat body
    | none => s)
  else s

/-- HOST_LOST: DL_Down, PERST_N low, or loss of the host clock (16 R415). -/
def hostLost (cause : Fin 3) (s : State) : State :=
  if s.host.hostLost || !(crownUp s) then s
  else
    let s := raiseError s 0x21D (srcIsland 3) (cause.val + 1)
    let s := s.setHost { s.host with hostLost := true, stopped := s.host.stopped || s.host.ringOn }
    forEach (List.range 16) completeLost s

def execHostLost (cause : Fin 3) (s : State) : Host.Outcome State Fault Refusal := .next (hostLost cause s)

/-- HOST_RETURN: the link is in L0 with MSE and BME set (16 R415). -/
def hostReturn (s : State) : State :=
  if s.host.hostLost then clearError (s.setHost { s.host with hostLost := false }) 0x21D (srcIsland 3) else s

def execHostReturn (s : State) : Host.Outcome State Fault Refusal := .next (hostReturn s)

/-- PCIE_POWER_STATE_CHANGE (16 R414, R415). -/
def execPciePowerStateChange (d3 : Bool) (s : State) : Host.Outcome State Fault Refusal :=
  .next (if s.host.hostLost || !(crownUp s) then s else (s.setHost { s.host with d3 := d3 }))

/-! The event ring. -/

/-- One entry is written to the ring. -/
def ringPut (s : State) (bytes : List Byte) : State :=
  let a := s.host.ringBase.toNat + 64 * (s.host.prod.toNat % ringSize s)
  let s := s.emit (.dma a bytes)
  s.setHost { s.host with prod := s.host.prod + 1, coalSeen := s.host.coalSeen + 1 }

/-- The EV_GAP of cause 0x03 that a source is owed (12 R326): its SEQ is the last number that it covers. -/
def gapRecord (s : State) (src : Nat) (first count : BitVec 32) : EventRec :=
  let end_ := first.toNat + count.toNat - 1
  let last := BitVec.ofNat 32 (if 2 ^ 32 ≤ end_ ∧ first ≠ 0 then end_ + 1 else end_)
  admitForm s { crownRec s src 0x1001 (pay [(32, first.toNat), (32, count.toNat), (8, 3), (16, 0)]) 2 with seq := last }

/-- The own record of an index goes to the ring when the set admits it, after the gap that its source is owed (16 R426; 17 R466). -/
def ringOwn (s : State) (p : Nat × EventRec) : State :=
  if ringFull s then s
  else if !(ringAdmits s p.1 p.2) then s.setHost { s.host with nextRing := p.1 + 1 }
  else
    let s := match s.host.ringGaps.find? fun g => g.1 == p.2.source.toNat with
      | some g =>
        let s := ringPut s (entryBytes (gapRecord s g.1 g.2.1 g.2.2) 0 0xFFFF 1)
        s.setHost { s.host with ringGaps := s.host.ringGaps.erase g }
      | none => s
    if ringFull s then s
    else
      let s := ringPut s (entryBytes p.2 p.1 0xFFFF 1)
      s.setHost { s.host with nextRing := p.1 + 1 }

/-- The oldest forwarded record goes to the ring. -/
def ringForwarded (s : State) (_ : Nat) : State :=
  match s.works.fwdRecs with
  | [] => s
  | (o, i, r) :: rest =>
    if ringFull s then s else ((ringPut s (entryBytes r i o.toNat 3)).setWorks { s.works with fwdRecs := rest })

/-- The own records not yet taken to the ring, with their indices. -/
def ringWaiting (s : State) : List (Nat × EventRec) :=
  let t := logTail s
  let n := max s.host.nextRing t
  ((List.range (s.log.head + 1 - n)).map (n + ·)).zip (s.log.recs.reverse.drop (n - t))

/-- The ring is served. -/
def ringRuns (s : State) : Bool :=
  hostUp s && !s.boot.cracked && s.host.ringOn && !s.host.stopped && !s.host.hostLost && !s.host.d3

/-- RING_DELIVERY: while there is room, the records waiting are written, PROD is written back, and vector 0 follows COAL_COUNT
(16 R426, R427). -/
def ringDelivery (s : State) : State :=
  if !(ringRuns s) then s
  else
    let p := s.host.prod
    let s := (ringWaiting s).foldl ringOwn s
    let s := forEach (List.range s.works.fwdRecs.length) ringForwarded s
    if s.host.prod = p then s
    else
      let s := s.emit (.dma s.host.ringWb.toNat (toLe 4 s.host.prod.toNat))
      if s.host.coalCount.toNat ≤ s.host.coalSeen then msix (s.setHost { s.host with coalSeen := 0 }) 0 else s

def execRingDelivery (s : State) : Host.Outcome State Fault Refusal := .next (ringDelivery s)

/-- COALESCE_TIMER: COAL_TIME after the first entry not yet signalled (16 R427). -/
def coalesceTimer (s : State) : State :=
  if ringRuns s && decide (0 < s.host.coalSeen) then msix (s.setHost { s.host with coalSeen := 0 }) 0 else s

def execCoalesceTimer (s : State) : Host.Outcome State Fault Refusal := .next (coalesceTimer s)

/-- RING_DMA_ERROR: a write to the ring or of PROD is not completed (16 R424, R427). -/
def ringDmaError (s : State) : State :=
  if ringRuns s then msix (s.setHost { s.host with dmaError := true, stopped := true, coalSeen := 0 }) 0 else s

def execRingDmaError (s : State) : Host.Outcome State Fault Refusal := .next (ringDmaError s)

end Sys2Proof.Machine
end

