-- ==== Sys2Proof/Machine/Pmbus.lean ====
section
/-! DEFINITION. The SPI target and the PMBus target (16 R428 to R434). -/
namespace Sys2Proof.Machine
open Sys2Proof

/-! SPI. -/

/-- An address is in BAR0 and outside the MSI-X regions (16 R429). -/
def spiReach (a : Nat) : Bool := decide (a < 2 ^ 18) && !(decide (0x2000 ≤ a) && decide (a < 0x3000))

/-- Set ERROR of the status byte. -/
def spiFail (s : State) : State := s.setHost { s.host with spiErr := true }

/-- The byte that SPI reads at an address. -/
def spiByte (s : State) (a : Nat) : Byte := if spiReach a then BitVec.ofNat 8 (bitsOf (readWord s (a / 4 * 4)) (8 * (a % 4)) 8) else 0

/-- What the read of one byte does: its register's effect, at the register's last byte for the event window and at its first byte read
otherwise (16 R417, R431). -/
def spiByteEffect (first : Nat) (s : State) (a : Nat) : State :=
  if !(spiReach a) then s
  else if a = 0x10BF then readEffect s 0x10BC
  else if a / 4 * 4 = 0x10BC then s
  else if a = first ∨ a % 4 = 0 then readEffect s (a / 4 * 4)
  else s

/-- A read of bytes from an address: all of one instant, but that each register's effect shows in the registers after it (16 R429). -/
def spiBytes (first : Nat) : Nat → Nat → State → List Byte × State
  | 0, _, s => ([], s)
  | n + 1, a, s =>
    let r := spiBytes first n (a + 1) (spiByteEffect first s a)
    (spiByte s a :: r.1, r.2)

/-- READ and QUAD READ (16 R428, R429). Before the end of Bisque the registers are not served, and what is read is a free value. -/
def spiRead (addr : BitVec 24) (len : Nat) (s : State) : State :=
  if !(crownUp s) then s
  else if !(hostUp s) then
    let (f, s) := s.freshFree
    s.emit (.reply (toLe len f))
  else
    let a := addr.toNat
    let r := spiBytes a len a s
    let s := r.2.emit (.reply r.1)
    if (List.range len).all fun i => spiReach (a + i) then s else spiFail s

def execSpiRead (addr : BitVec 24) (len : Nat) (s : State) : Host.Outcome State Fault Refusal := .next (spiRead addr len s)
def execSpiQuadRead (addr : BitVec 24) (len : Nat) (s : State) : Host.Outcome State Fault Refusal := .next (spiRead addr len s)

/-- The address lies in a mailbox's REQUEST, which takes byte writes (16 R416). -/
def inRequest (a : Nat) : Bool := decide (0x10000 ≤ a) && decide (a < 0x20000) && decide (0x40 ≤ a % 0x1000) && decide (a % 0x1000 < 0x800)

/-- A byte written to REQUEST by the port that holds the mailbox. -/
def writeReqByte (port : HostPort) (a : Nat) (b : Byte) (s : State) : State :=
  let m := (a - 0x10000) / 0x1000
  if portOpen s port && decide ((s.mbox m).lock = portLock port) then
    s.updMbox m fun M => { M with request := tabSet 0 M.request (a % 0x1000 - 0x40) b }
  else s

/-- The bytes of a WRITE from an address on: a register takes all four of its bytes in ascending order or none, and a partial write sets
ERROR; so does a write that reaches no register (16 R429). `n` bounds the walk by the bytes left. -/
def spiPut : Nat → Nat → List Byte → State → State
  | 0, _, _, s => s
  | n + 1, a, bs, s =>
    match bs with
    | [] => s
    | b :: rest =>
      if inRequest a then spiPut n (a + 1) rest (writeReqByte .spi a b s)
      else if a % 4 = 0 ∧ 4 ≤ bs.length ∧ spiReach a then
        spiPut n (a + 4) (bs.drop 4) (writeWord .spi a (BitVec.ofNat 32 (leAt bs 0 4)) s)
      else spiPut n (a + 1) rest (spiFail s)

/-- WRITE and QUAD WRITE (16 R428, R429). -/
def spiWrite (addr : BitVec 24) (bytes : List Byte) (s : State) : State :=
  if crownUp s then spiPut bytes.length addr.toNat bytes s else s

def execSpiWrite (addr : BitVec 24) (bytes : List Byte) (s : State) : Host.Outcome State Fault Refusal := .next (spiWrite addr bytes s)
def execSpiQuadWrite (addr : BitVec 24) (bytes : List Byte) (s : State) : Host.Outcome State Fault Refusal := .next (spiWrite addr bytes s)

/-- The status byte (16 R428): READY, IRQ_N asserted, Banked, Cracked, ERROR. -/
def spiStatus (s : State) : Nat :=
  packBits [hostUp s, !irqN s, s.boot.devState == 3, s.boot.cracked, s.host.spiErr]

/-- READ STATUS: the status byte; its read clears ERROR (16 R428). -/
def spiReadStatus (s : State) : State :=
  if crownUp s then
    let s := s.emit (.reply [BitVec.ofNat 8 (spiStatus s)])
    s.setHost { s.host with spiErr := false }
  else s

def execSpiReadStatus (s : State) : Host.Outcome State Fault Refusal := .next (spiReadStatus s)

/-- SPI_UNKNOWN_INSTRUCTION: ignored, and sets ERROR (16 R428). -/
def spiUnknown (code : Byte) (s : State) : State :=
  if crownUp s && !([0x03#8, 0x02#8, 0x6B#8, 0x32#8, 0x05#8].contains code) then spiFail s else s

def execSpiUnknownInstruction (code : Byte) (s : State) : Host.Outcome State Fault Refusal := .next (spiUnknown code s)

/-! PMBus: the status latches. -/

/-- The conducting feed's spyhole number of a group, none without a conducting feed. -/
def selSpy (s : State) (g : Nat) : Option Nat :=
  match (s.group g).sel with
  | some .a => some (130 * g + 128)
  | some .b => some (130 * g + 129)
  | none => none

/-- A configured own channel's observed state. -/
def chanIn (s : State) (c : Nat) (l : List ChState) : Bool := chanThere s c && l.contains (s.chan c).obs

/-- Live conditions of a page's STATUS_INPUT, STATUS_TEMPERATURE and STATUS_MFR_SPECIFIC (16 R434). OT_FAULT is an occurrence, latched at the
bend. -/
def inputLive (s : State) (p : Nat) : Nat :=
  if p = 0 then 0
  else
    let g := p - 1
    let above := match selSpy s g with | some y => (s.spy y).st == .above && yOn (s.spy y).word | none => false
    b2n above * 128 + b2n (!(s.group g).warns.isEmpty) * 32 + b2n ((s.group g).phase == .none) * 16
def tempLive (s : State) (p : Nat) : Nat :=
  if p = 0 then b2n (errPresent s 0x220 srcDevice) * 64
  else b2n ((List.range 64).any fun k => (s.cone (64 * (p - 1) + k)).preRun) * 64
def mfrLive (s : State) (p : Nat) : Nat :=
  if p = 0 then b2n s.boot.cracked * 128 + b2n (bitOf s.coll.fsw 61) * 64 + b2n (s.boot.devState == 3) * 32 + b2n s.boot.packed * 16
  else
    let H := s.hearth (p - 1)
    b2n H.saggar * 8 + b2n H.fault * 4 + b2n (H.held && decide (H.holder = .cross)) * 2

/-- Live conditions of STATUS_WORD's own bits 11, 6 and 3 on a group page (16 R434). -/
def groupWord (s : State) (g : Nat) : Nat :=
  let cs := (List.range 64).map (64 * g + ·)
  b2n (cs.any fun c => chanIn s c [.ramping, .full, .tripped, .cooling, .locked, .held]) * 2048 +
    b2n (!(cs.any fun c => chanIn s c [.good])) * 64 + b2n ((s.group g).phase == .none) * 8

/-- The same on any page. -/
def wordLive (s : State) (p : Nat) : Nat :=
  if p = 0 then
    b2n ((List.range 8).any fun g => groupWord s g / 2048 = 1) * 2048 +
      b2n (s.boot.devState == 3 || !((List.range 512).any fun c => chanIn s c [.good])) * 64
  else groupWord s (p - 1)

/-- Every condition that holds is latched on its page (16 R434). -/
def pmbWatch (s : State) : State :=
  let P := (List.range 9).foldl (fun (P : PmbSt) p => { P with
    word := tabSet 0 P.word p (tabGet 0 P.word p ||| BitVec.ofNat 16 (wordLive s p))
    input := tabSet 0 P.input p (tabGet 0 P.input p ||| BitVec.ofNat 8 (inputLive s p))
    temp := tabSet 0 P.temp p (tabGet 0 P.temp p ||| BitVec.ofNat 8 (tempLive s p))
    mfr := tabSet 0 P.mfr p (tabGet 0 P.mfr p ||| BitVec.ofNat 8 (mfrLive s p)) }) s.pmb
  s.setPmb P

/-- STATUS_WORD of a page from the latches (16 R434). -/
def statusWordOf (s : State) (p : Nat) : Nat :=
  let own := (tabGet 0 s.pmb.word p).toNat
  let input := decide (tabGet 0 s.pmb.input p ≠ 0)
  let mfr := decide (tabGet 0 s.pmb.mfr p ≠ 0)
  let temp := decide (tabGet 0 s.pmb.temp p ≠ 0)
  let other := mfr || bitOf (tabGet 0 s.pmb.word p) 11 || (input && !bitOf (tabGet 0 s.pmb.word p) 3)
  own + b2n input * 8192 + b2n mfr * 4096 + b2n temp * 4 + b2n (decide (s.pmb.cml ≠ 0)) * 2 + b2n other

/-- PMB_ALERT_N is low: a latched bit of some page is set (16 R434). -/
def pmbAlert (s : State) : Bool := decide (s.pmb.cml ≠ 0) || (List.range 9).any fun p => statusWordOf s p ≠ 0

/-! PMBus: transactions. -/

/-- One bit, and one byte, of SMBus PEC: CRC-8 of x^8 + x^2 + x + 1 (log entry 8). -/
def pecBit (c : Nat) : Nat := if 128 ≤ c then Nat.xor (c * 2 % 256) 7 else c * 2
def pecByte (c : Nat) (b : Byte) : Nat := pecBit (pecBit (pecBit (pecBit (pecBit (pecBit (pecBit (pecBit (Nat.xor c b.toNat))))))))
def pecOf (bs : List Byte) : Byte := BitVec.ofNat 8 (bs.foldl pecByte 0)

/-- The target's 7-bit address (16 R432). -/
def pmbAddress (s : State) : Nat := 0x58 + s.pmb.addr.val

/-- Set a bit of STATUS_CML. -/
def cmlSet (s : State) (b : Nat) : State := s.setPmb { s.pmb with cml := s.pmb.cml ||| BitVec.ofNat 8 (2 ^ b), reply := none }

/-- The bytes of a read, with PEC when the master clocks it. -/
def pmbReply (s : State) (code : Nat) (pec : Bool) (bs : List Byte) : State :=
  let a := pmbAddress s
  let all := [BitVec.ofNat 8 (2 * a), BitVec.ofNat 8 code, BitVec.ofNat 8 (2 * a + 1)] ++ bs
  s.setPmb { s.pmb with reply := some (if pec then bs ++ [pecOf all] else bs) }

/-- Pages that a command is given on. -/
inductive PmbPages where
  | dev | group | all
deriving DecidableEq, Repr

/-- The page in force is one of a command's pages. -/
def onPage (s : State) : PmbPages → Bool
  | .dev => s.pmb.page == 0
  | .group => decide (1 ≤ s.pmb.page.toNat) && decide (s.pmb.page.toNat ≤ 8)
  | .all => decide (s.pmb.page.toNat ≤ 8)

/-- A read-only command (16 R433): NACKed on a page that it is not given on; a write of it is NACKed at its first data byte. -/
def pmbRead (code : Nat) (pages : PmbPages) (acc : PmbAccess) (value : State → List Byte) (s : State) : State :=
  if !(crownUp s) then s
  else
    let s := pmbWatch s
    if !(onPage s pages) then cmlSet s 7
    else match acc.write with
      | some _ => cmlSet s 6
      | none => pmbReply s code acc.pec.isSome (value s)

/-- A block of bytes: its length, then the bytes. -/
def block (bs : List Byte) : List Byte := BitVec.ofNat 8 bs.length :: bs

/-- The page in force, as a number. -/
def pg (s : State) : Nat := s.pmb.page.toNat

/-- PAGE (16 R432). -/
def pmbPage (acc : PmbAccess) (s : State) : State :=
  if !(crownUp s) then s
  else
    let s := pmbWatch s
    match acc.write with
    | none => pmbReply s 0x00 acc.pec.isSome [s.pmb.page]
    | some [v] =>
      if acc.pec = some false then cmlSet s 5
      else if v.toNat ≤ 8 ∨ v = 0xFF then s.setPmb { s.pmb with page := v, reply := none }
      else cmlSet s 6
    | some _ => cmlSet s 6

def execPage (acc : PmbAccess) (s : State) : Host.Outcome State Fault Refusal := .next (pmbPage acc s)

/-- CLEAR_FAULTS: the latches of the page, or of all pages, are cleared; a condition that still holds sets its bit again at once (16 R433,
R434). -/
def clearFaults (acc : PmbAccess) (s : State) : State :=
  if !(crownUp s) then s
  else if acc.pec = some false then cmlSet (pmbWatch s) 5
  else
    let P := s.pmb
    let all := s.pmb.page == 0xFF
    let p := pg s
    pmbWatch (s.setPmb { P with
      cml := 0, reply := none
      word := if all then [] else tabSet 0 P.word p 0
      input := if all then [] else tabSet 0 P.input p 0
      temp := if all then [] else tabSet 0 P.temp p 0
      mfr := if all then [] else tabSet 0 P.mfr p 0 })

def execClearFaults (acc : PmbAccess) (s : State) : Host.Outcome State Fault Refusal := .next (clearFaults acc s)

def execCapability (acc : PmbAccess) (s : State) : Host.Outcome State Fault Refusal :=
  .next (pmbRead 0x19 .dev acc (fun _ => [0xB0]) s)
def execVoutMode (acc : PmbAccess) (s : State) : Host.Outcome State Fault Refusal :=
  .next (pmbRead 0x20 .group acc (fun _ => [0x17]) s)
def execStatusByte (acc : PmbAccess) (s : State) : Host.Outcome State Fault Refusal :=
  .next (pmbRead 0x78 .all acc (fun s => toLe 1 (statusWordOf s (pg s))) s)
def execStatusWord (acc : PmbAccess) (s : State) : Host.Outcome State Fault Refusal :=
  .next (pmbRead 0x79 .all acc (fun s => toLe 2 (statusWordOf s (pg s))) s)
def execStatusInput (acc : PmbAccess) (s : State) : Host.Outcome State Fault Refusal :=
  .next (pmbRead 0x7C .group acc (fun s => [tabGet 0 s.pmb.input (pg s)]) s)
def execStatusTemperature (acc : PmbAccess) (s : State) : Host.Outcome State Fault Refusal :=
  .next (pmbRead 0x7D .all acc (fun s => [tabGet 0 s.pmb.temp (pg s)]) s)
def execStatusCml (acc : PmbAccess) (s : State) : Host.Outcome State Fault Refusal :=
  .next (pmbRead 0x7E .all acc (fun s => [s.pmb.cml]) s)
def execStatusMfrSpecific (acc : PmbAccess) (s : State) : Host.Outcome State Fault Refusal :=
  .next (pmbRead 0x80 .all acc (fun s => [tabGet 0 s.pmb.mfr (pg s)]) s)

def execReadVin (acc : PmbAccess) (s : State) : Host.Outcome State Fault Refusal :=
  .next (pmbRead 0x88 .group acc (fun s => toLe 2 (tabGet 0 s.pmb.vin (pg s)).toNat) s)
def execReadIin (acc : PmbAccess) (s : State) : Host.Outcome State Fault Refusal :=
  .next (pmbRead 0x89 .group acc (fun s => toLe 2 (tabGet 0 s.pmb.iin (pg s)).toNat) s)
def execReadVout (acc : PmbAccess) (s : State) : Host.Outcome State Fault Refusal :=
  .next (pmbRead 0x8B .group acc (fun s => toLe 2 (tabGet 0 s.pmb.vout (pg s)).toNat) s)
def execReadTemperature1 (acc : PmbAccess) (s : State) : Host.Outcome State Fault Refusal :=
  .next (pmbRead 0x8D .all acc (fun s => toLe 2 (tabGet 0 s.pmb.temp1 (pg s)).toNat) s)
def execReadTemperature2 (acc : PmbAccess) (s : State) : Host.Outcome State Fault Refusal :=
  .next (pmbRead 0x8E .all acc (fun s => toLe 2 (tabGet 0 s.pmb.temp2 (pg s)).toNat) s)
def execReadPin (acc : PmbAccess) (s : State) : Host.Outcome State Fault Refusal :=
  .next (pmbRead 0x97 .all acc (fun s => toLe 2 (tabGet 0 s.pmb.pin (pg s)).toNat) s)
def execPmbusRevision (acc : PmbAccess) (s : State) : Host.Outcome State Fault Refusal :=
  .next (pmbRead 0x98 .dev acc (fun _ => [0x33]) s)

/-- "AELHEIP", "KL-512" and "A1" in ASCII. -/
def execMfrId (acc : PmbAccess) (s : State) : Host.Outcome State Fault Refusal :=
  .next (pmbRead 0x99 .dev acc (fun _ => block [0x41, 0x45, 0x4C, 0x48, 0x45, 0x49, 0x50]) s)
def execMfrModel (acc : PmbAccess) (s : State) : Host.Outcome State Fault Refusal :=
  .next (pmbRead 0x9A .dev acc (fun _ => block [0x4B, 0x4C, 0x2D, 0x35, 0x31, 0x32]) s)
def execMfrRevision (acc : PmbAccess) (s : State) : Host.Outcome State Fault Refusal :=
  .next (pmbRead 0x9B .dev acc (fun _ => block [0x41, 0x31]) s)
def execMfrSerial (acc : PmbAccess) (s : State) : Host.Outcome State Fault Refusal :=
  .next (pmbRead 0x9E .dev acc (fun s => block (toLe 8 (deviceId s))) s)

/-- Observed states, two to a byte, the even one in bits 3:0. -/
def statePairs (s : State) (c n : Nat) : List Byte :=
  (List.range n).map fun i => BitVec.ofNat 8 (obsCode s (c + 2 * i) + 16 * obsCode s (c + 2 * i + 1))

def execMfrChannelState (acc : PmbAccess) (s : State) : Host.Outcome State Fault Refusal :=
  .next (pmbRead 0xD0 .group acc (fun s => block (statePairs s (64 * (pg s - 1)) 32)) s)
def execMfrFsw (acc : PmbAccess) (s : State) : Host.Outcome State Fault Refusal :=
  .next (pmbRead 0xD1 .dev acc (fun s => block (toLe 8 s.coll.fsw.toNat)) s)
def execMfrBootStatus (acc : PmbAccess) (s : State) : Host.Outcome State Fault Refusal :=
  .next (pmbRead 0xD2 .dev acc (fun s => block (toLe 4 (bootWord s))) s)
def execMfrFeedStatus (acc : PmbAccess) (s : State) : Host.Outcome State Fault Refusal :=
  .next (pmbRead 0xD3 .group acc (fun s => toLe 2 (tabGet 0 s.feedWord (pg s - 1)).toNat) s)

/-- The command codes of 16 R433. -/
def pmbCodes : List Nat :=
  [0x00, 0x03, 0x19, 0x20, 0x78, 0x79, 0x7C, 0x7D, 0x7E, 0x80, 0x88, 0x89, 0x8B, 0x8D, 0x8E, 0x97, 0x98, 0x99, 0x9A, 0x9B, 0x9E, 0xD0, 0xD1,
   0xD2, 0xD3]

/-- PMBUS_UNSUPPORTED_COMMAND: a code outside the table is NACKed and sets STATUS_CML bit 7 (16 R433). -/
def pmbUnsupported (code : Byte) (s : State) : State :=
  if crownUp s && !(pmbCodes.contains code.toNat) then cmlSet (pmbWatch s) 7 else s

def execPmbusUnsupportedCommand (code : Byte) (_acc : PmbAccess) (s : State) : Host.Outcome State Fault Refusal :=
  .next (pmbUnsupported code s)

/-- SMBUS_ALERT_RESPONSE: the target answers with its address while PMB_ALERT_N is low (16 R432). -/
def alertResponse (s : State) : State :=
  if !(crownUp s) then s
  else
    let s := pmbWatch s
    s.setPmb { s.pmb with reply := if pmbAlert s then some [BitVec.ofNat 8 (2 * pmbAddress s)] else none }

def execSmbusAlertResponse (s : State) : Host.Outcome State Fault Refusal := .next (alertResponse s)

/-! PMBus: telemetry. -/

/-- The first exponent from −16 on for which the mantissa of n/d, rounded to nearest, fits −1,024 to 1,023; the LINEAR11 word (16 R433). -/
def lin11Go (n : Int) (d : Nat) : Nat → Nat → Nat
  | 0, _ => 15 * 2 ^ 11 + 1023
  | fuel + 1, k =>
    let m := if k ≤ 16 then nearDiv (n * 2 ^ (16 - k)) d else nearDiv n (d * 2 ^ (k - 16))
    if -1024 ≤ m ∧ m ≤ 1023 then ((k + 16) % 32) * 2 ^ 11 + (m % 2048).toNat else lin11Go n d fuel (k + 1)
def lin11 (n : Int) (d : Nat) : BitVec 16 := BitVec.ofNat 16 (lin11Go n (max 1 d) 32 0)

/-- The value of a LINEAR11 word in units of 2^-16. -/
def lin11Val (w : BitVec 16) : Int := (w.extractLsb' 0 11 : BitVec 11).toInt * 2 ^ ((fld w 11 5 + 16) % 32)

/-- One group page's READ_ values from its means (06 R163; 08 R203; 16 R433). The feed shunt converts the current. -/
def readGroup (s : State) (p : Nat) (v i b t : BitVec 16) (P : PmbSt) : PmbSt :=
  let vin := if (s.group (p - 1)).sel.isSome then lin11 (v.toNat * 16) 10000 else lin11 0 1
  let iin := lin11 (4 * i.toInt) (max 1 (fld (s.group (p - 1)).word1 44 13))
  { P with
    vin := tabSet 0 P.vin p vin
    iin := tabSet 0 P.iin p iin
    vout := tabSet 0 P.vout p (BitVec.ofNat 16 (min 65535 ((b.toNat * 16 * 512 + 5000) / 10000)))
    temp1 := tabSet 0 P.temp1 p (lin11 t.toInt 128)
    pin := tabSet 0 P.pin p (lin11 (lin11Val vin * lin11Val iin) (2 ^ 32)) }

/-- The dose of a channel, in 1/256 K; of one on a custom schedule, whose state words the manual does not place, a free value (log entry 1). -/
def doseSeen (s : State) (c : Nat) : Int :=
  if libSched (s.chan c) then (s.cone c).dose else (BitVec.ofNat 16 (Config.freeValue (s.free + c))).toInt

/-- The highest cone dose among configured channels of a list, in 1/256 K; 0 with none. -/
def maxDose (s : State) (cs : List Nat) : Int :=
  (((cs.filter (chanThere s)).map (doseSeen s)).foldl (fun (b : Option Int) d => match b with
    | none => some d
    | some x => some (max x d)) none).getD 0

/-- PMBUS_READ_UPDATE: the means of the latest whole millisecond (16 R433). In Banked and in Cracked the values stay. -/
def pmbUpdate (means : PmbMeans) (s : State) : State :=
  if !(alive s) || s.boot.devState == 3 then s
  else
    let P := ((List.range 8).zip means.groups).foldl (fun P q => readGroup s (q.1 + 1) q.2.1 q.2.2.1 q.2.2.2.1 q.2.2.2.2 P) s.pmb
    let P := (List.range 8).foldl (fun (P : PmbSt) g =>
      { P with temp2 := tabSet 0 P.temp2 (g + 1) (lin11 (maxDose s ((List.range 64).map (64 * g + ·))) 256) }) P
    let total := ((List.range 8).map fun g => lin11Val (tabGet 0 P.vin (g + 1)) * lin11Val (tabGet 0 P.iin (g + 1))).sum
    (s.setFree (s.free + 1024)).setPmb { P with
      temp1 := tabSet 0 P.temp1 0 (lin11 means.crown.toInt 128)
      temp2 := tabSet 0 P.temp2 0 (lin11 (maxDose s (List.range 512)) 256)
      pin := tabSet 0 P.pin 0 (lin11 total (2 ^ 32)) }

def execPmbusReadUpdate (means : PmbMeans) (s : State) : Host.Outcome State Fault Refusal := .next (pmbUpdate means s)

end Sys2Proof.Machine
end

