-- ==== Sys2Proof/Machine/CmdDev.lean ====
section
/-! DEFINITION. The DEV, CHAN, SLOT, FEED and TWIN commands, and CONE.STATUS (17 R445, R449 to R458, R462). -/
namespace Sys2Proof.Machine
open Sys2Proof

/-- STATE frames of the hearth reach the device (17 R445): it holds the hearth, or has its hearth-state block. -/
def hearthSeen (s : State) (h : Nat) : Bool := hearthOurs s h || decide (tabGet (0 : BitVec 64) s.hblocks h ≠ 0)

/-- Check 8 for a command that reads. -/
def readHearth (s : State) (h : Nat) (f : State → State × Nat × List Byte) : State × Nat × List Byte :=
  if hearthSeen s h then f s else (s, 0x204, [])

/-- Check 8 for a command that reads a channel. -/
def readChan (s : State) (c : Nat) (f : State → State × Nat × List Byte) : State × Nat × List Byte :=
  readHearth s (c / 64) fun s => if chanThere s c then f s else (s, 0x201, [])

/-- A signed number as a 32-bit word. -/
def word32 (x : Int) : Nat := (BitVec.ofInt 32 x).toNat

/-- What is left of a span that began at `since`, in ms rounded up. -/
def msLeft (since span now : Nat) : Nat := ceilNat (since + span - now) 1000000

/-! DEV. -/

/-- The source at an entry of the sequence table (17 R452). -/
def seqSource (e : Nat) : Nat :=
  if e = 0 then srcDevice
  else if e ≤ 1024 then srcChan (e - 1)
  else if e ≤ 1280 then srcSlot (e - 1025)
  else if e ≤ 1296 then srcHearth (e - 1281)
  else if e ≤ 1312 then srcGroup (e - 1297)
  else if e ≤ 1341 then srcLaneC (e - 1313)
  else if e ≤ 1381 then srcLaneH (e - 1342)
  else if e ≤ 2405 then srcEngine (e - 1382)
  else if e ≤ 2421 then srcCluster (e - 2406)
  else if e ≤ 2427 then srcIsland (e - 2422)
  else if e = 2428 then srcPartner else srcWorks

/-- The source of an entry has a record admitted: its seen bit. -/
def entrySeen (s : State) (e : Nat) : Bool := decide (e < 2430) && s.log.seen.contains (seqSource e)

/-- Part 0 of a snapshot, 640 bytes (17 R451). -/
def summary0 (s : State) : List Byte :=
  toLe 8 s.log.head ++ toLe 8 s.time.tai ++ toLe 8 (deviceId s) ++ toLe 4 (bootWord s) ++ toLe 4 (imgVersion s s.boot.image) ++
  toLe 2 (imgSvn s s.boot.image) ++ toLe 2 (rollback s) ++ toLe 4 s.boot.bootCount.toNat ++ toLe 8 s.coll.fsw.toNat ++
  toLe 2 (worksAddr s) ++ toLe 1 (worksRole s) ++ toLe 1 s.time.state.val ++ toLe 1 s.pair.state.val ++ toLe 1 (devStateField s) ++
  toLe 1 (adoptedMask s) ++ toLe 1 (lentMask s) ++ toLe 1 (b2n s.pair.laneLive + 2 * b2n s.pair.pulseLive) ++ toLe 1 0xA1 ++ toLe 2 0 ++
  toLe 4 s.boot.mcount.toNat ++ (List.range 8).flatMap (fun i => hashBytes (s.boot.slots.getD i 0)) ++
  (List.range 16).flatMap (fun h => toLe 8 (tabGet (0 : BitVec 64) s.hblocks h).toNat) ++ hashBytes s.books.digest ++ toLe 16 0

/-- Part 1, 816 bytes: the channel states, then the seen map (17 R452). -/
def summary1 (s : State) : List Byte := statePairs s 0 512 ++ toLe 304 (packBits ((List.range 2430).map (entrySeen s)))

/-- Parts 2 to 6, 9,920 bytes: the sequence table (17 R452). -/
def summarySeqs (s : State) : List Byte :=
  (List.range 2480).flatMap fun e => toLe 4 (if entrySeen s e then lastSeq s (seqSource e) else 0)

/-- Offset and length of a part in the snapshot. -/
def summaryPart (p : Nat) : Nat × Nat := if p = 0 then (0, 640) else if p = 1 then (640, 816) else (1456 + 1984 * (p - 2), 1984)

/-- DEV.SUMMARY (17 R450). -/
def devSummary (src : CmdSrc) (part : BitVec 8) (s : State) : State :=
  runCmd s src 0x0101 [part] fun s =>
    let p := part.toNat
    let m := srcBox s src
    if p = 0 ∨ p = 0xFF then
      if p = 0xFF ∧ !(reqDma m) then (s, 0x102, [])
      else
        let all := summary0 s ++ summary1 s ++ summarySeqs s
        (updBox s src fun m => { m with snapshot := all, snapIndex := s.log.head }, 0, if p = 0 then all.take 640 else all)
    else if m.snapshot.isEmpty then (s, 6, [])
    else (s, 0, sliceBytes m.snapshot (summaryPart p).1 (summaryPart p).2)

def execDevSummary (src : CmdSrc) (part : BitVec 8) (s : State) : Host.Outcome State Fault Refusal := .next (devSummary src part s)

/-- DEV.FENCE: it started once every earlier command was DONE (17 R446, R449). -/
def devFence (src : CmdSrc) (s : State) : State := runCmd s src 0x0102 [] fun s => (s, 0, bodyOf [(64, s.log.head)])

def execDevFence (src : CmdSrc) (s : State) : Host.Outcome State Fault Refusal := .next (devFence src s)

/-- The reset would discharge powered gates: a hearth that it resets (11 R304) has a channel in Ramping, Full, Good or Held. -/
def unprotected (s : State) : Bool :=
  (List.range 8).any fun h =>
    let H := s.hearth h
    !(H.held && decide (H.holder = .cross) && !H.admitting) &&
      (List.range 64).any fun k => chanIn s (64 * h + k) [.ramping, .full, .good, .held]

/-- DEV.RESET: the reset starts 10 µs after the response is written (17 R449). -/
def devReset (src : CmdSrc) (key : BitVec 32) (force : Bool) (s : State) : State :=
  runCmd s src 0x0103 (bodyOf [(32, key.toNat), (8, b2n force)]) fun s =>
    if key ≠ 0xA55A then (s, 3, []) else if !force && unprotected s then (s, 7, []) else (s, 0, [])

def execDevReset (src : CmdSrc) (key : BitVec 32) (force : Bool) (s : State) : Host.Outcome State Fault Refusal :=
  .next (devReset src key force s)

/-- DEV_RESET_DELAY_EXPIRY (17 R449): the reset of a DEV.RESET, or of an FW.ACTIVATE with RESET, that has been answered. -/
def devResetDelayExpiry (s : State) : State := if s.boot.resetDue then deviceReset s else s

def execDevResetDelayExpiry (s : State) : Host.Outcome State Fault Refusal := .next (devResetDelayExpiry s)

/-! CHAN. -/

/-- Post a request bit to the channel's REQ port; the command ends when the Sitter has read it (17 R454; 09 R237). -/
def postRequest (s : State) (src : CmdSrc) (c bit : Nat) : State :=
  let s := s.updChan c fun A => { A with req := A.req ||| BitVec.ofNat 4 bit }
  updBox s src fun m => { m with acted := some (c, bit) }

/-- A CHAN command that acts: check 8, then its own statuses and its effect by the observed state. -/
def chanCmd (src : CmdSrc) (op : Nat) (c : Nat) (f : ChState → State → State) (s : State) : State :=
  runLater s src op (bodyOf [(16, c)]) fun s =>
    if !hearthOurs s (c / 64) then setAnswer s src 0x204 []
    else if !chanThere s c then setAnswer s src 0x201 []
    else f (s.chan c).obs s

/-- Done at once, without a request to the Sitter: STATE, and ACTED 0. -/
def notActed (s : State) (src : CmdSrc) (x : ChState) : State := setAnswer s src 0 (bodyOf [(8, stCode x), (8, 0)])

/-- CHAN.ON: the host consent flag is set, and ON is posted in Off (17 R454, R455). -/
def chanOn (src : CmdSrc) (c : Chan) (s : State) : State :=
  chanCmd src 0x0201 c.val (fun x s =>
    if x = .locked then setAnswer s src 0x202 []
    else
      let s := s.updChan c.val fun A => { A with hostOn := true }
      if x = .off then postRequest s src c.val 4 else notActed s src x) s

def execChanOn (src : CmdSrc) (c : Chan) (s : State) : Host.Outcome State Fault Refusal := .next (chanOn src c s)

/-- CHAN.OFF: the host consent flag is cleared, and OFF is posted but in Vacant and Off (17 R454, R455). -/
def chanOff (src : CmdSrc) (c : Chan) (s : State) : State :=
  chanCmd src 0x0202 c.val (fun x s =>
    if x = .locked then setAnswer s src 0x202 []
    else if x = .held then setAnswer s src 0x203 []
    else
      let s := s.updChan c.val fun A => { A with hostOn := false }
      if x = .vacant ∨ x = .off then notActed s src x else postRequest s src c.val 2) s

def execChanOff (src : CmdSrc) (c : Chan) (s : State) : Host.Outcome State Fault Refusal := .next (chanOff src c s)

/-- CHAN.RESET (17 R454; 02 R69). -/
def chanReset (src : CmdSrc) (c : Chan) (s : State) : State :=
  chanCmd src 0x0203 c.val (fun x s =>
    if x = .vacant ∨ x = .held then setAnswer s src 0x203 [] else postRequest s src c.val 8) s

def execChanReset (src : CmdSrc) (c : Chan) (s : State) : Host.Outcome State Fault Refusal := .next (chanReset src c s)

/-- The envelope word of a channel in service: the hearth's, and for an adopted channel what the partner Book gives (09 R239). -/
def envelopeOf (s : State) (c : Nat) : Nat :=
  if c < 512 then (s.cell c).env.word.toNat
  else match partnerBook s with
    | some b => (envOf b (c - 512)).word.toNat
    | none => 0

/-- FLAGS of the channel block (17 R456). -/
def chanFlags (s : State) (c : Nat) (remote : Bool) : Nat :=
  let A := s.chan c
  let home := decide (A.sitter = some c) && (decide (A.cone = some c) || decide (A.cone = some (c + 512)))
  if remote then 1 + 128 * b2n (twinView s c).isSome
  else
    2 * b2n A.consented + 4 * b2n A.hostOn + 8 * b2n A.allocated + 16 * b2n (A.sitter.isSome && decide (A.sitter = A.cone)) +
      32 * b2n (A.sitter.isSome && !home) + 64 * b2n A.sitter.isNone + 128 * b2n (twinView s c).isSome

/-- The channel block, 64 bytes (17 R456). Of a remote channel the observed state and the log's SEQ are held, and the rest reads 0. What a
custom schedule keeps in words of its own, its breaker accumulator, is a free value `v`. -/
def chanBlock (s : State) (c v : Nat) : List Byte :=
  let A := s.chan c
  let last := lastSeq s (srcChan c)
  if !hearthOurs s (c / 64) then
    bodyOf [(16, c), (8, stCode A.obs), (8, chanFlags s c true), (384, 0), (32, last), (64, 0)]
  else
    bodyOf [(16, c), (8, stCode A.obs + 16 * stCode A.commanded), (8, chanFlags s c false), (16, (tripRegOf s c).toNat),
      (8, A.retry % 16 * 16 + (s.cone c).sub.toNat), (8, 0), (32, A.seats.toNat), (32, A.trips.toNat), (16, A.locks.toNat),
      (16, A.skews.toNat), (64, A.goodTime.toNat), (16, A.iWord.toNat), (16, A.vWord.toNat), (16, A.cmd.toNat),
      (16, A.sitter.getD 0xFFFF), (48, if libSched A then A.a % 2 ^ 48 else v % 2 ^ 48), (16, A.cone.getD 0xFFFF),
      (64, envelopeOf s c), (32, last), (64, 0)]

/-- The pole records of a custom schedule's Cone: θ_i and the terms of E_INT, in its engine's state memory (10 R272). -/
def customPole (s : State) (c i j : Nat) : Int :=
  match (s.chan c).cone with
  | some e => let E := s.engine e
              (memGet E (coneSBase E + 5 * i + j)).toInt
  | none => 0

/-- The Cone block, 64 bytes (17 R457); 0 for a remote channel. Of a channel on a custom schedule the headroom word, the sub-cause mask and the pole
records are known; the words that the schedule keeps where it likes, and its error flags, are a free value `v` (log entry 143). -/
def coneBlock (s : State) (c v : Nat) : List Byte :=
  let A := s.chan c
  let K := s.cone c
  let tail := bodyOf [(16, hdCone K.head), (16, K.divCount.toNat), (16, K.faultCount.toNat), (48, 0)]
  let free (i : Nat) : Nat × Nat := (32, v / 2 ^ (32 * i + 2) % 2 ^ 32)
  if !hearthOurs s (c / 64) then bodyOf [(16, c), (496, 0)]
  else if !libSched A then
    bodyOf [(16, c), (8, b2n (hdWarn K.head) + 2 * b2n (bitOf K.head 27) + v % 4 * 4 + 16 * K.sub.toNat), (8, 0), free 0, free 1, free 2,
      (32, word32 (customPole s c 0 0)), (32, word32 (customPole s c 1 0)), (32, word32 (customPole s c 2 0)), free 3,
      (32, word32 (customPole s c 0 4 + customPole s c 1 4 + customPole s c 2 4)), free 4, free 5, free 6, free 7] ++ tail
  else
    bodyOf [(16, c), (8, b2n K.preRun + 2 * b2n K.anchored + 4 * b2n K.tsnsFault + 8 * b2n K.diverged + 16 * K.sub.toNat), (8, 0),
      (32, word32 (K.tBase + thetaSum K)), (32, word32 K.dose), (32, word32 K.tBase), (32, word32 K.p1.theta), (32, word32 K.p2.theta),
      (32, word32 K.p3.theta), (32, word32 K.rErr), (32, word32 K.eInt), (32, word32 K.resid), (32, word32 K.hT), (32, word32 K.peakD),
      (32, if K.preRun then K.preTicks / 4 else 0)] ++ tail

/-- CHAN.STATUS: both blocks; PEAK_D is not cleared (17 R454). -/
def chanStatus (src : CmdSrc) (c : Chan) (s : State) : State :=
  runCmd s src 0x0204 (bodyOf [(16, c.val)]) fun s => readChan s c.val fun s =>
    let (v, s) := s.freshFree
    (s, 0, chanBlock s c.val v ++ coneBlock s c.val (v / 2 ^ 48))

def execChanStatus (src : CmdSrc) (c : Chan) (s : State) : Host.Outcome State Fault Refusal := .next (chanStatus src c s)

/-- CONE.STATUS: the Cone block; PEAK_D starts again from the present D (05 R152; 17 R462). -/
def coneStatus (src : CmdSrc) (c : Chan) (s : State) : State :=
  runCmd s src 0x0701 (bodyOf [(16, c.val)]) fun s => readChan s c.val fun s =>
    let (v, s) := s.freshFree
    let out := coneBlock s c.val v
    (if hearthOurs s (c.val / 64) then s.updCone c.val fun K => { K with peakD := if K.init then K.dose else 0 } else s, 0, out)

def execConeStatus (src : CmdSrc) (c : Chan) (s : State) : Host.Outcome State Fault Refusal := .next (coneStatus src c s)

/-! SLOT. -/

/-- The slot word of a slot source index: the own hearth's, or the partner Book's (17 R458). -/
def slotWordOf (s : State) (n : Nat) : BitVec 32 :=
  if n < 128 then (s.slot n).word
  else match partnerBook s with
    | some b => bookSlot b (n - 128)
    | none => 0x00080000

/-- SLOT.STATUS (17 R458). The inputs of a slot of an adopted hearth are that hearth's, in the partner's part: a free value `v`. -/
def slotBody (s : State) (n v : Nat) : List Byte :=
  let w := slotWordOf s n
  let S := s.slot n
  let remote := !hearthOurs s (n / 16)
  let row := if hasLed s n then S.ledRow else 0
  let conf := [(8, fld w 10 6), (8, fld w 7 3 + 1)]
  if remote then bodyOf ([(4, 0), (1, 1), (8, 0)] ++ conf ++ [(8, 0), (32, 0)])
  else if n < 128 then
    bodyOf ([(1, b2n S.pres), (1, b2n S.seat), (1, b2n S.present), (1, b2n S.seated), (1, 0),
      (8, if S.debouncing then msLeft S.since (fld w 16 8 * 1000000) (s.hearth (n / 16)).tai else 0)] ++ conf ++ [(8, row), (32, S.seats.toNat)])
  else bodyOf ([(4, v % 16), (1, 0), (8, v / 16 % 256)] ++ conf ++ [(8, v / 2 ^ 12 % 7), (32, v / 2 ^ 16 % 2 ^ 32)])

def slotStatus (src : CmdSrc) (slot : BitVec 8) (s : State) : State :=
  runCmd s src 0x0301 [slot] fun s => readHearth s (slot.toNat / 16) fun s =>
    if !(slotOn (slotWordOf s slot.toNat)) then (s, 3, [])
    else
      let (v, s) := s.freshFree
      (s, 0, slotBody s slot.toNat v)

def execSlotStatus (src : CmdSrc) (slot : BitVec 8) (s : State) : Host.Outcome State Fault Refusal := .next (slotStatus src slot s)

/-! FEED. -/

/-- The latest record of a housekeeping input of a hearth, by aperture time: its value; 0 with none (06 R177). -/
def latestInput (s : State) (h inp : Nat) : Nat :=
  (((List.range 32).map fun e => tabGet ((0 : BitVec 64), (0 : BitVec 64), (0 : BitVec 32)) s.hkRecs (32 * h + e)).foldl
    (fun (b : Nat × Nat) r => if r.2.2 ≠ 0 ∧ fld r.1 57 7 = inp ∧ b.1 ≤ r.2.1.toNat then (r.2.1.toNat, fld r.1 0 16) else b) (0, 0)).2

/-- FEED.STATUS (17 R458). The warning identifier, the spyholes and the dwell of an adopted group are its hearth's: a free value. -/
def feedBody (s : State) (h v : Nat) : List Byte :=
  let st := (tabGet (0 : BitVec 16) s.feedWord h).toNat
  let hk := [(16, latestInput s h 65), (16, latestInput s h 66), (16, latestInput s h 64), (16, latestInput s h 67)]
  let G := s.group h
  if !hearthOurs s h then bodyOf [(16, st), (16, 0), (64, 0), (16, 0), (32, 0)]
  else if h < 8 then
    let left := match G.returnSince with
      | some t => msLeft t (fld G.word0 39 8 * 10000000) (s.hearth h).tai
      | none => 0xFFFFFFFF
    bodyOf ([(16, st), (16, (G.nextId - 1).toNat)] ++ hk ++
      [(8, spyCode (presented (s.spy (feedSpy h .a)))), (8, spyCode (presented (s.spy (feedSpy h .b)))), (32, left)])
  else bodyOf ([(16, st), (16, v % 2 ^ 16)] ++ hk ++ [(8, v / 2 ^ 16 % 4), (8, v / 2 ^ 18 % 4), (32, v / 2 ^ 20 % 2 ^ 32)])

def feedStatusCmd (src : CmdSrc) (g : Hearth16) (s : State) : State :=
  runCmd s src 0x0401 (bodyOf [(8, g.val)]) fun s => readHearth s g.val fun s =>
    let (v, s) := s.freshFree
    (s, 0, feedBody s g.val v)

def execFeedStatus (src : CmdSrc) (g : Hearth16) (s : State) : Host.Outcome State Fault Refusal := .next (feedStatusCmd src g s)

/-- The feed word of a group: the own hearth's, or the partner Book's. -/
def feedWordOf (s : State) (h j : Nat) : BitVec 64 :=
  if h < 8 then (if j = 0 then (s.group h).word0 else (s.group h).word1)
  else match partnerBook s with
    | some b => bookFeed b (h - 8) j
    | none => 0

/-- The feed is eligible at acceptance (08 R210). Of an adopted group the wiring and the bars are known here, and whether its spyhole stands
INSIDE is its hearth's: a free value. -/
def feedEligible (s : State) (h : Nat) (f : Feed) : Bool × State :=
  if h < 8 then (eligible s h f, s)
  else
    let (v, s) := s.freshFree
    let w := feedWordOf s h 0
    let st := tabGet (0 : BitVec 16) s.feedWord h
    let ok := match f with
      | .a => bitOf w 60 && !bitOf st 8
      | .b => bitOf w 61 && !bitOf st 7
    (ok && decide (v % 2 = 1), s)

/-- Code of a FEED.SELECT target (17 R458). -/
def selCode : FeedSel → Nat
  | .auto => 0 | .a => 1 | .b => 2

/-- FEED.SELECT: passed to the hearth (17 R458; 08 R210, R220). -/
def feedSelectCmd (src : CmdSrc) (g : Hearth16) (target : FeedSel) (s : State) : State :=
  runCmd s src 0x0402 (bodyOf [(8, g.val), (8, selCode target)]) fun s => onHearth s g.val fun s =>
    let pass (s : State) : State × Nat × List Byte :=
      (if g.val < 8 then feedSelectWrite s g.val target else sendParam s g.val 10 0 [selCode target], 0, [])
    let judge (f : Feed) : State × Nat × List Byte :=
      let r := feedEligible s g.val f
      if r.1 then pass r.2 else (r.2, 0x205, [])
    match target with
    | .auto => pass s
    | .a => judge .a
    | .b => judge .b

def execFeedSelect (src : CmdSrc) (g : Hearth16) (target : FeedSel) (s : State) : Host.Outcome State Fault Refusal :=
  .next (feedSelectCmd src g target s)

/-- FEED.CLEAR (08 R223; 17 R458). The off-state comparator of an adopted group is its hearth's: a free value. -/
def feedClearCmd (src : CmdSrc) (g : Hearth16) (feed : Feed) (s : State) : State :=
  runCmd s src 0x0403 (bodyOf [(8, g.val), (8, feedCode feed)]) fun s => onHearth s g.val fun s =>
    let st := tabGet (0 : BitVec 16) s.feedWord g.val
    let G := s.group g.val
    if g.val < 8 then
      (if !barred G feed then (s, 0, [])
       else if !offLow s g.val feed then (s, 0x205, [])
       else (feedClearWrite s g.val feed, 0, []))
    else if !(match feed with | .a => bitOf st 8 | .b => bitOf st 7) then (s, 0, [])
    else
      let (v, s) := s.freshFree
      if v % 2 = 1 then (sendParam s g.val 11 0 [feedCode feed], 0, []) else (s, 0x205, [])

def execFeedClear (src : CmdSrc) (g : Hearth16) (feed : Feed) (s : State) : Host.Outcome State Fault Refusal :=
  .next (feedClearCmd src g feed s)

/-- FEED.WARN: drives a WARN_N ball in use 0b10 (08 R219; 17 R458). -/
def feedWarn (src : CmdSrc) (g : Hearth16) (low : Bool) (s : State) : State :=
  runCmd s src 0x0404 (bodyOf [(8, g.val), (8, b2n low)]) fun s => onHearth s g.val fun s =>
    if fld (feedWordOf s g.val 1) 34 2 ≠ 2 then (s, 0x206, [])
    else (if g.val < 8 then writeConfig s g.val (.warnOut low) else sendParam s g.val 12 0 [b2n low], 0, [])

def execFeedWarn (src : CmdSrc) (g : Hearth16) (low : Bool) (s : State) : Host.Outcome State Fault Refusal :=
  .next (feedWarn src g low s)

/-! TWIN. -/

/-- TWIN.STATUS (17 R458). A pair of the partner is read while its channels are adopted. -/
def twinStatus (src : CmdSrc) (pair : Fin 512) (s : State) : State :=
  runCmd s src 0x0501 (bodyOf [(16, pair.val)]) fun s =>
    let w := (tabGet [] s.books.twins pair.val).getD 0 0
    let o := if pair.val < 256 then 0 else 512
    let a := o + twChA w
    let b := o + twChB w
    if !twOn w || (decide (256 ≤ pair.val) && !(chanThere s a && chanThere s b)) then (s, 3, [])
    else
      let A := s.chan a
      let B := s.chan b
      (s, 0, bodyOf [(16, a), (16, b), (8, b2n (A.twinShared && B.twinShared)), (8, A.twinReason.toNat), (16, min A.twinOk B.twinOk),
        (8, b2n (errPresent s 0x205 (srcChan a)) + 2 * b2n (errPresent s 0x205 (srcChan b)))])

def execTwinStatus (src : CmdSrc) (pair : Fin 512) (s : State) : Host.Outcome State Fault Refusal := .next (twinStatus src pair s)

end Sys2Proof.Machine
end

