-- ==== Sys2Proof/Machine/CmdSched.lean ====
section
/-! DEFINITION. The SCHED, HKC and SPY commands (17 R459 to R462; 06 R168 to R180; 07 R183, R187, R194; 09 R258, R259). -/
namespace Sys2Proof.Machine
open Sys2Proof

/-! SCHED. -/

/-- The custom schedule region and the images are 1 MiB each (15 R392). -/
def inMiB (off len : Nat) : Bool := decide (off + len ≤ 1048576)

/-- A write to the flash that fails or does not read back: flash device, operation program (17 R464), and ST_FLASH. -/
def flashFailed (s : State) (addr : Nat) : State × Nat × List Byte := (raiseError s 0x21F srcDevice (3 + 2 ^ 32 * addr), 9, [])

/-- SCHED.WRITE (17 R459). -/
def schedWrite (src : CmdSrc) (offset : BitVec 32) (data : List Byte) (ok : Bool) (s : State) : State :=
  runCmd s src 0x0601 (bodyOf [(32, offset.toNat)] ++ data) fun s =>
    if !(inMiB offset.toNat data.length) then (s, 3, [])
    else if !ok then flashFailed s (customAt + offset.toNat)
    else (flashWrite s (customAt + offset.toNat) data, 0, [])

def execSchedWrite (src : CmdSrc) (offset : BitVec 32) (data : List Byte) (ok : Bool) (s : State) : Host.Outcome State Fault Refusal :=
  .next (schedWrite src offset data ok s)

/-- The body of SCHED.CHECK and SCHED.LOAD. -/
def schedArgs (id : BitVec 8) (offset length : BitVec 32) (digest : BitVec 384) : List Byte :=
  bodyOf [(8, id.toNat), (32, offset.toNat), (32, length.toNat)] ++ hashBytes digest

/-- WORST of the three forms, and REPLAY. -/
def costBody (c : SchedCost) : List Byte := bodyOf [(16, c.sitter), (16, c.cone), (16, c.packed), (16, c.replay)]

/-- The checks of SCHED.CHECK and SCHED.LOAD: DIGEST, then those of 09 R259 and 10 R279; with the state that the loading leaves. -/
def schedJudge (s : State) (id : BitVec 8) (offset length : BitVec 32) (digest : BitVec 384) : Except SchedErr (SchedCost × State) :=
  match loadObject s offset.toNat length.toNat digest with
  | .error e => .error e
  | .ok (o, c) => match placeSched s id.toNat digest o with
    | none => .error .full
    | some t => .ok (c, noteLoaded t false id.toNat offset.toNat length.toNat digest o c)

/-- SCHED.CHECK: no other effect (17 R459). ID 0 is no schedule's. -/
def schedCheck (src : CmdSrc) (id : BitVec 8) (offset length : BitVec 32) (digest : BitVec 384) (s : State) : State :=
  runCmd s src 0x0602 (schedArgs id offset length digest) fun s =>
    if id = 0 then (s, 3, [])
    else match schedJudge s id offset length digest with
      | .error e => (s, schedStatus e, [])
      | .ok r => (s, 0, costBody r.1)

def execSchedCheck (src : CmdSrc) (id : BitVec 8) (offset length : BitVec 32) (digest : BitVec 384) (s : State) :
    Host.Outcome State Fault Refusal := .next (schedCheck src id offset length digest s)

/-- The own configured channels that name a schedule. -/
def schedUsers (s : State) (id : Nat) : List Nat := (List.range 512).filter fun c => chanThere s c && decide (pSched (s.chan c) = id)

/-- A loaded schedule replaces that of its ID at one bank swap, for every channel that names it; one that no channel names waits for a
commit, and a region that no bank refers to is freed (09 R258; 17 R459). -/
def takeSched (s : State) (users : List Nat) : State :=
  if users.isEmpty then forEach (List.range 16) freeRegions s
  else forEach users (fun s c => chanBanks s c (s.chan c).prof (match twinView s c with | some v => v.points | none => [])) (prepareSwap s)

/-- SCHED.LOAD (17 R459): loaded, measured into slot 5. -/
def schedLoad (src : CmdSrc) (id : BitVec 8) (offset length : BitVec 32) (digest : BitVec 384) (s : State) : State :=
  runCmd s src 0x0603 (schedArgs id offset length digest) fun s =>
    if id = 0 ∨ id = 1 then (s, 3, [])
    else match schedJudge s id offset length digest with
      | .error e => (s, schedStatus e, [])
      | .ok r =>
        let users := schedUsers s id.toNat
        if users.all fun c => chanIn s c [.vacant, .seated, .off, .locked] then
          (extendSlot (takeSched r.2 users) 5 7 digest, 0, costBody r.1)
        else (s, schedStatus .busy, [])

def execSchedLoad (src : CmdSrc) (id : BitVec 8) (offset length : BitVec 32) (digest : BitVec 384) (s : State) :
    Host.Outcome State Fault Refusal := .next (schedLoad src id offset length digest s)

/-- SCHED.STATUS (17 R459). The library's store words are opaque (log entry 17), its digest a free value; its worst paths stand in 10 R282. -/
def schedStatusCmd (src : CmdSrc) (id : BitVec 8) (s : State) : State :=
  runCmd s src 0x0604 [id] fun s =>
    let n := (schedUsers s id.toNat).length
    let out (kind : Nat) (words worst : List Nat) (d : BitVec 384) : List Byte :=
      bodyOf ([(8, kind), (16, n)] ++ (words ++ worst).map fun x => (16, x)) ++ hashBytes d
    if id = 1 then
      let (v, s) := s.freshFree
      (s, 0, out 1 ([0, 1, 2].map Config.libWords) [98, 183, 229] (BitVec.ofNat 384 v))
    else match loadedFor s false id.toNat with
      | none => (s, 3, [])
      | some l => (s, 0, out 0x80 l.words l.worst l.digest)

def execSchedStatus (src : CmdSrc) (id : BitVec 8) (s : State) : Host.Outcome State Fault Refusal := .next (schedStatusCmd src id s)

/-! HKC. -/

/-- HKC.STATUS (17 R462; 06 R172): OVERRUN and the three counters start again. Those of an adopted hearth are that hearth's: a free value. -/
def hkcStatus (src : CmdSrc) (h : Hearth16) (s : State) : State :=
  runCmd s src 0x0801 (bodyOf [(8, h.val)]) fun s => readHearth s h.val fun s =>
    let K := s.hk h.val
    if !(hearthOurs s h.val) then (s, 0, bodyOf [(88, 0)])
    else if h.val < 8 then
      (s.updHk h.val fun K => { K with overrun := false, overruns := 0, aborts := 0, urgOver := 0 }, 0,
        bodyOf [(8, b2n K.overrun), (16, K.overruns.toNat), (16, K.aborts.toNat), (16, K.urgOver.toNat),
          (32, (tabGet (0 : BitVec 32) s.passes h.val).toNat)])
    else
      let (v, s) := s.freshFree
      (sendParam s h.val 13 0 [1], 0, bodyOf [(8, v % 2), (80, v / 2 % 2 ^ 80)])

def execHkcStatus (src : CmdSrc) (h : Hearth16) (s : State) : Host.Outcome State Fault Refusal := .next (hkcStatus src h s)

/-- The sequence entries of a hearth with the changes that await its next pass; of an adopted hearth the partner Book's with those sent. -/
def entriesOf (s : State) (h : Nat) : List (BitVec 64) :=
  let base : Tab (BitVec 64) := if h < 8 then (s.hk h).entries
    else match partnerBook s with
      | some b => ((List.range 32).map fun i => (i, bookHkEntry b (h - 8) i))
      | none => []
  (List.range 32).map fun i => (((s.hk h).entriesNext.filter fun p => p.1 == i).getLast?.map (·.2)).getD (tabGet entryReset base i)

/-- The sequence control word of a hearth. -/
def controlOf (s : State) (h : Nat) : BitVec 64 :=
  if h < 8 then (s.hk h).control
  else match partnerBook s with
    | some b => bookHkControl b (h - 8)
    | none => 0x0019000021C00000

/-- The status of a change of an entry (17 R462; 06 R179, R180): its ranges, its ownership, the timing of the sequence. -/
def hkcJudge (s : State) (h i : Nat) (w : BitVec 64) : Nat :=
  let es := entriesOf s h
  let ctl := controlOf s h
  let tsns (k : Nat) : Nat := if chanThere s (64 * h + k) then pTsnsMode (s.chan (64 * h + k)) else 0
  if hkEntryBad w || hkPlaceBad (fld ctl 31 5) i w then 3
  else if eOwner (es.getD i 0) ≠ 6 ∨ eOwner w ≠ 6 ∨ ownerBad w then 0x207
  else if hkTimingBad ctl (es.set i w) tsns then 0x306
  else 0

/-- HKC.SET: applied at the next pass (06 R180). -/
def hkcSet (src : CmdSrc) (h : Hearth16) (entry : Fin 32) (word : BitVec 64) (s : State) : State :=
  runCmd s src 0x0802 (bodyOf [(8, h.val), (8, entry.val), (48, 0), (64, word.toNat)]) fun s => onHearth s h.val fun s =>
    let st := hkcJudge s h.val entry.val word
    if st ≠ 0 then (s, st, [])
    else
      let s := writeConfig s h.val (.hkEntry entry word)
      (if h.val < 8 then s else sendParam s h.val 3 entry.val [word.toNat], 0, [])

def execHkcSet (src : CmdSrc) (h : Hearth16) (entry : Fin 32) (word : BitVec 64) (s : State) : Host.Outcome State Fault Refusal :=
  .next (hkcSet src h entry word s)

/-- HKC.READ: the latest record of an entry, its aperture time, and the count since the commit (17 R462). -/
def hkcRead (src : CmdSrc) (h : Hearth16) (entry : Fin 32) (s : State) : State :=
  runCmd s src 0x0803 (bodyOf [(8, h.val), (8, entry.val)]) fun s => readHearth s h.val fun s =>
    let r := tabGet ((0 : BitVec 64), (0 : BitVec 64), (0 : BitVec 32)) s.hkRecs (32 * h.val + entry.val)
    if eOwner ((entriesOf s h.val).getD entry.val 0) = 0 then (s, 3, [])
    else if !(hearthOurs s h.val) then (s, 0, bodyOf [(160, 0)])
    else (s, 0, bodyOf [(64, r.1.toNat), (64, r.2.1.toNat), (32, r.2.2.toNat)])

def execHkcRead (src : CmdSrc) (h : Hearth16) (entry : Fin 32) (s : State) : Host.Outcome State Fault Refusal :=
  .next (hkcRead src h entry s)

/-- HKC.TRIGGER: gate event 0x9 (17 R462; 06 R169). -/
def hkcTrigger (src : CmdSrc) (h : Hearth16) (s : State) : State :=
  runCmd s src 0x0804 (bodyOf [(8, h.val)]) fun s => onHearth s h.val fun s =>
    (if h.val < 8 then gateEvent s h.val 9 0 else sendParam s h.val 14 0 [1], 0, [])

def execHkcTrigger (src : CmdSrc) (h : Hearth16) (s : State) : Host.Outcome State Fault Refusal := .next (hkcTrigger src h s)

/-! SPY. -/

/-- The spyhole word of a hearth with the change that awaits its boundary; of an adopted hearth the partner's profile or Book, with what was
sent. -/
def spyWordOf (s : State) (h n : Nat) : BitVec 64 :=
  let y := s.spy (130 * h + n)
  let base := if h < 8 then y.word
    else if n < 64 then pSpyI (s.chan (64 * h + n))
    else if n < 128 then pSpyV (s.chan (64 * h + n - 64))
    else feedWordOf s h (n - 126)
  y.nextWord.getD base

/-- The binding of a capture slot. -/
def bindingOf (s : State) (h i : Nat) : BitVec 16 :=
  if h < 8 then (s.capture (16 * h + i)).binding
  else match partnerBook s with
    | some b => bookCapture b (h - 8) i
    | none => 0

/-- The status of a new spyhole word (17 R462; 07 R183): its ranges, a wired feed's spyhole; then what SPY.SET may not change, a bound
capture slot, a wired feed. -/
def spyJudge (s : State) (h n : Nat) (w : BitVec 64) : Nat :=
  let old := spyWordOf s h n
  let wired := decide (128 ≤ n) && bitOf (feedWordOf s h 0) (n - 68)
  if spyBad w (decide (64 ≤ n) && decide (n < 128)) then 0x303
  else if wired && (!yOn w || (decide (yLower w = 0) && decide (yUpper w = 0x3FF))) then 0x305
  else if fld w 32 5 ≠ fld old 32 5 ∨ yUvTime w ≠ yUvTime old then 3
  else if !yOn w && (List.range 16).any fun i => bitOf (bindingOf s h i) 4 && decide (fld (bindingOf s h i) 8 8 = n) then 0x304
  else 0

/-- SPY.SET: applied at the first hearth tick boundary (07 R187). -/
def spySet (src : CmdSrc) (h : Hearth16) (spy : SpyNo) (word : BitVec 64) (s : State) : State :=
  runCmd s src 0x0901 (bodyOf [(8, h.val), (8, spy.val), (48, 0), (64, word.toNat)]) fun s => onHearth s h.val fun s =>
    let st := spyJudge s h.val spy.val word
    if st ≠ 0 then (s, st, [])
    else
      let s := writeConfig s h.val (.spyWord spy word)
      (if h.val < 8 then s else sendParam s h.val 0 spy.val [word.toNat], 0, [])

def execSpySet (src : CmdSrc) (h : Hearth16) (spy : SpyNo) (word : BitVec 64) (s : State) : Host.Outcome State Fault Refusal :=
  .next (spySet src h spy word s)

/-- SPY.CAPTURE: the hearth takes the read at its next tick boundary and answers once the record is complete (07 R194). The record of an adopted
hearth is a free value. -/
def spyCapture (src : CmdSrc) (h : Hearth16) (slot : Fin 16) (s : State) : State :=
  runLater s src 0x0902 (bodyOf [(8, h.val), (8, slot.val)]) fun s =>
    if !hearthOurs s h.val then setAnswer s src 0x204 []
    else if !(bitOf (bindingOf s h.val slot.val) 4) then setAnswer s src 3 []
    else if !bodyFits (srcBox s src) 24 then setAnswer s src 0 (List.replicate 24 0)
    else if h.val < 8 then
      captureRead (updBox s src fun m => { m with acted := some (captureMark (16 * h.val + slot.val)) }) h.val slot.val (some src)
    else
      let (v, s) := s.freshFree
      setAnswer (sendParam s h.val 6 slot.val [1]) src 0 (toLe 24 (v / 2 ^ 26 * 2 ^ 26))

def execSpyCapture (src : CmdSrc) (h : Hearth16) (slot : Fin 16) (s : State) : Host.Outcome State Fault Refusal :=
  .next (spyCapture src h slot s)

/-- SPY.STATUS (17 R462): the fields as in force. The states of an adopted hearth's SPY_I and SPY_V come with its STATE frames; of its feed
spyholes they are a free value. -/
def spyStatus (src : CmdSrc) (h : Hearth16) (spy : SpyNo) (s : State) : State :=
  runCmd s src 0x0903 (bodyOf [(8, h.val), (8, spy.val)]) fun s => readHearth s h.val fun s =>
    let n := spy.val
    let y := s.spy (130 * h.val + n)
    let w := if h.val < 8 then y.word else spyWordOf s h.val n
    let rest := [(16, yLower w), (16, yUpper w), (8, fld w 40 4), (8, fld w 37 3)]
    if !(hearthOurs s h.val) then (s, 0, bodyOf [(64, 0)])
    else if h.val < 8 then
      (s, 0, bodyOf ([(8, if y.starting then 3 else spyCode y.st), (8, spyCode (presented y))] ++ rest))
    else if n < 128 then
      let e := (s.chan (64 * h.val + n % 64)).stWord
      let p := fld e (if n < 64 then 8 else 6) 2
      (s, 0, bodyOf ([(8, if bitOf e (if n < 64 then 5 else 4) then 3 else p), (8, p)] ++ rest))
    else
      let (v, s) := s.freshFree
      (s, 0, bodyOf ([(8, v % 4), (8, v / 4 % 3)] ++ rest))

def execSpyStatus (src : CmdSrc) (h : Hearth16) (spy : SpyNo) (s : State) : Host.Outcome State Fault Refusal :=
  .next (spyStatus src h spy s)

end Sys2Proof.Machine
end

