-- ==== Sys2Proof/Machine/CmdFault.lean ====
section
/-! DEFINITION. The FAULT, TIME and EVT commands (17 R463 to R466; 11 R286, R290 to R294, R301, R303, R305; 12 R310, R329). -/
namespace Sys2Proof.Machine
open Sys2Proof

/-! FAULT. -/

/-- Sum of all corrected counters, saturating. -/
def correctedSum (s : State) : Nat := min 0xFFFFFFFF ((s.coll.counts.map fun p => p.2.toNat).sum)

/-- FAULT.STATUS (17 R463). -/
def faultStatus (src : CmdSrc) (s : State) : State :=
  runCmd s src 0x0A01 [] fun s =>
    (s, 0, bodyOf [(64, s.coll.fsw.toNat), (32, correctedSum s), (32, s.coll.lost.toNat), (16, s.coll.shards.length), (16, s.coll.newest.toNat),
      (8, b2n s.coll.crashUnread)])

def execFaultStatus (src : CmdSrc) (s : State) : Host.Outcome State Fault Refusal := .next (faultStatus src s)

/-- The bits of the FSW to which an error that is still present maps (11 R289, R290). -/
def presentBits (s : State) : BitVec 64 := s.coll.shards.foldl (fun w x => if x.present then setBits w (fswBits x.code.toNat x.source.toNat) else w) 0

/-- FAULT.CLEAR: bits 61:3 of MASK are written as W1C; a bit whose error is present sets again (11 R290). -/
def faultClear (src : CmdSrc) (mask : BitVec 64) (s : State) : State :=
  runCmd s src 0x0A02 (bodyOf [(64, mask.toNat)]) fun s =>
    let m := mask &&& 0x3FFFFFFFFFFFFFF8#64
    let w := (s.coll.fsw &&& ~~~m) ||| (presentBits s &&& m)
    ((s.setColl { s.coll with fsw := w }), 0, bodyOf [(64, w.toNat)])

def execFaultClear (src : CmdSrc) (mask : BitVec 64) (s : State) : Host.Outcome State Fault Refusal := .next (faultClear src mask s)

/-- Insert a shard into a list ordered by distance of SHARD_ID from FIRST. -/
def insertShard (first : BitVec 16) (x : Shard) : List Shard → List Shard
  | [] => [x]
  | y :: r => if (x.id - first).toNat < (y.id - first).toNat then x :: y :: r else y :: insertShard first x r

/-- FAULT.READ: up to COUNT shards that match FILTER, in SHARD_ID order from FIRST, wrapping (17 R463). -/
def faultRead (src : CmdSrc) (first : BitVec 16) (count : Fin 32) (filter : Fin 3) (s : State) : State :=
  runCmd s src 0x0A03 (bodyOf [(16, first.toNat), (8, count.val), (8, filter.val)]) fun s =>
    let take (x : Shard) : Bool := match filter with | 0 => true | 1 => x.latched | 2 => x.present
    let l := (s.coll.shards.filter take).foldl (fun l x => insertShard first x l) []
    (s, 0, (l.take count.val).flatMap shardBytes)

def execFaultRead (src : CmdSrc) (first : BitVec 16) (count : Fin 32) (filter : Fin 3) (s : State) : Host.Outcome State Fault Refusal :=
  .next (faultRead src first count filter s)

/-- FAULT.ACK: LATCHED 0, which frees the shard's slot (11 R292). -/
def faultAck (src : CmdSrc) (shard : BitVec 16) (s : State) : State :=
  runCmd s src 0x0A04 (bodyOf [(16, shard.toNat)]) fun s =>
    match s.coll.shards.find? fun x => x.id == shard && x.latched with
    | none => (s, 3, [])
    | some x => if x.present then (s, 0x501, [])
      else ((s.setColl { s.coll with shards := s.coll.shards.filter fun y => y.id ≠ shard }), 0, [])

def execFaultAck (src : CmdSrc) (shard : BitVec 16) (s : State) : Host.Outcome State Fault Refusal := .next (faultAck src shard s)

/-- An engine after its cluster's reset: memories rewritten, check unit state and failed mark cleared, parameter banks kept (11 R303). -/
def freshEngine (E : Engine) : Engine := { bank0 := E.bank0, bank1 := E.bank1, active := E.active }

/-- A channel keeps its cluster from a reset: it is configured, and some role of it lies in the cluster, or has no engine and its home there
(11 R305). -/
def holdsCluster (s : State) (n c : Nat) : Bool :=
  let A := s.chan c
  let inN (r : Option Nat) (home : Nat) : Bool := match r with | some e => e / 64 == n | none => home / 64 == n
  hosted A && (inN A.sitter c || inN A.cone (if c < 512 && !s.boot.packed then c + 512 else c))

/-- The reset of a cluster (11 R303, R305). Its channels return at the next tick number that is a multiple of 4. -/
def resetCluster (s : State) (n : Nat) : State :=
  let es := (List.range 64).map (64 * n + ·)
  let s := forEach es (fun s e => if s.engine e = {} then s else s.updEngine e freshEngine) s
  let s := forEach es (fun s e => clearError s 0x215 (srcEngine e)) s
  let s := s.updCluster n fun K => { K with failed := false, tick := s.time.tick, returning := true }
  clearError s 0x216 (srcCluster n)

/-- FAULT.RESET of a cluster: the error that starts its reaction, then the reset. `mark` stamps that error. -/
def faultResetCluster (s : State) (mark : State → State) (n : Nat) : State × Nat × List Byte :=
  if 16 ≤ n then (s, 3, [])
  else if (s.chans.map (·.1)).any (holdsCluster s n) then (s, 0x502, [])
  else (resetCluster (mark s) n, 0, [])

/-- A channel of the hearth is Good or Full. -/
def carriesLoad (s : State) (h : Nat) : Bool := (List.range 64).any fun k => chanIn s (64 * h + k) [.good, .full]

/-- FAULT.RESET of a hearth: an own one takes the write of its reset register and is claimed again; to an adopted one it is sent with a new
claim (11 R303, R305). -/
def faultResetHearth (s : State) (mark : State → State) (h : Nat) (force : Bool) : State × Nat × List Byte :=
  let H := s.hearth h
  if 16 ≤ h then (s, 3, [])
  else if h < 8 then
    if H.held && decide (H.holder = .cross) then (s, 0x503, [])
    else if !(H.logic && takesReset H .loc) then (s, 0x204, [])
    else if !force && carriesLoad s h then (s, 0x502, [])
    else (claimOwn (hearthReset (controlFrame (mark s) h .loc) h) h, 0, [])
  else if !(hearthOurs s h) then (s, 0x204, [])
  else if !force && carriesLoad s h then (s, 0x502, [])
  else (claimPartner (sendParam (mark s) h 15 0 [1]) (h - 8), 0, [])

/-- FAULT.RESET of lane l of an own hearth link, at its Crown end 2h + l: its training ends, and it trains again (11 R303). -/
def faultResetLane (s : State) (mark : State → State) (i : Nat) : State × Nat × List Byte :=
  let h := i / 2
  let l : Fin 2 := if i % 2 = 0 then 0 else 1
  if 16 ≤ i then (s, 3, [])
  else if (s.hearth h).active = l then (s, 0x502, [])
  else ((mark s).updHearth h fun H => setLane H l { trained := false, failed := true, attempts := 0 }, 0, [])

/-- FAULT.RESET (17 R463): the reset, when it is performed, is counted on its target (11 R288). -/
def faultReset (src : CmdSrc) (source : BitVec 16) (force : Bool) (s : State) : State :=
  runCmd s src 0x0A05 (bodyOf [(16, source.toNat), (8, b2n force)]) fun s =>
    let i := srcIdx source.toNat
    let mark (s : State) : State := commandedReset s source.toNat 0x0A05 (match src with | .mbox m => m.val | .fwd _ => 0)
    match srcType source.toNat with
    | 3 => faultResetHearth s mark i force
    | 5 => faultResetLane s mark i
    | 8 => faultResetCluster s mark i
    | _ => (s, 3, [])

def execFaultReset (src : CmdSrc) (source : BitVec 16) (force : Bool) (s : State) : Host.Outcome State Fault Refusal :=
  .next (faultReset src source force s)

/-- The crash sector's copy while it is unread; all 0 once it is freed (17 R463). -/
def crashBody (s : State) : List Byte :=
  match s.coll.crashUnread, s.coll.crash with
  | true, some (n, w, f, cs) => sliceBytes (bodyOf [(8, 1), (32, n.toNat), (64, w.toNat)] ++ shardBytes f ++ cs.flatMap shardBytes) 0 1037
  | _, _ => List.replicate 1037 0

/-- FAULT.CRASH: MARK_READ frees the sector for the next copy (11 R301). -/
def faultCrash (src : CmdSrc) (mark : Bool) (s : State) : State :=
  runCmd s src 0x0A06 (bodyOf [(8, b2n mark)]) fun s =>
    ((s.setColl { s.coll with crashUnread := s.coll.crashUnread && !mark }), 0, crashBody s)

def execFaultCrash (src : CmdSrc) (mark : Bool) (s : State) : Host.Outcome State Fault Refusal := .next (faultCrash src mark s)

/-- FAULT.COUNT: up to 32 nonzero corrected counters of a source, by code (11 R286; 17 R463). -/
def faultCount (src : CmdSrc) (source : BitVec 16) (s : State) : State :=
  runCmd s src 0x0A07 (bodyOf [(16, source.toNat)]) fun s =>
    let l := (s.coll.counts.filter fun p => decide (p.1 / 65536 = source.toNat)).take 32
    (s, 0, l.flatMap fun p => toLe 2 (p.1 % 65536) ++ toLe 4 p.2.toNat)

def execFaultCount (src : CmdSrc) (source : BitVec 16) (s : State) : Host.Outcome State Fault Refusal := .next (faultCount src source s)

/-! TIME. -/

/-- TIME.SET (12 R310; 17 R465). -/
def timeSet (src : CmdSrc) (tai : BitVec 64) (unc : BitVec 32) (s : State) : State :=
  runCmd s src 0x0B01 (bodyOf [(64, tai.toNat), (32, unc.toNat)]) fun s =>
    if s.time.state = 2 ∨ s.time.state = 3 then (s, 0x601, [])
    else if tPpsEn s.time.word then ((s.setTime { s.time with armed := some (tai, unc) }), 0, [])
    else (applyTimeSet s ((tai.toNat : Int) - s.time.tai) unc.toNat, 0, [])

def execTimeSet (src : CmdSrc) (tai : BitVec 64) (unc : BitVec 32) (s : State) : Host.Outcome State Fault Refusal :=
  .next (timeSet src tai unc s)

/-- TIME.STATUS (17 R465). -/
def timeStatus (src : CmdSrc) (s : State) : State :=
  runCmd s src 0x0B02 [] fun s =>
    let T := s.time
    (s, 0, bodyOf [(8, T.state.val), (8, T.hops.toNat), (16, T.parentAddr.toNat), (32, uBase16 s 32), (64, T.lastPps.toNat),
      (32, T.ignored.toNat), (64, T.tick), (64, T.tai)])

def execTimeStatus (src : CmdSrc) (s : State) : Host.Outcome State Fault Refusal := .next (timeStatus src s)

/-! EVT. -/

/-- The body of EVT.RESUME. -/
def resumeArgs (fin : Bool) (dflt : Fin 3) (entries : List ResumeEntry) : List Byte :=
  bodyOf [(8, b2n fin), (8, dflt.val), (16, entries.length)] ++ entries.flatMap fun e => bodyOf [(16, e.source.toNat), (16, 0), (32, e.first.toNat)]

/-- Each source that a snapshot shows as seen, with the SEQ that follows its latest (17 R452, R466). -/
def snapEntries (snap : List Byte) : List ResumeEntry :=
  (List.range 2430).filterMap fun e =>
    if bitsOf (leAt snap (1152 + e / 8) 1) (e % 8) 1 = 1 then
      some { source := BitVec.ofNat 16 (seqSource e), first := nextSeq (BitVec.ofNat 32 (leAt snap (1456 + 4 * e) 4)) }
    else none

/-- A resume set with one more command's entries: a later entry for a source replaces an earlier one (17 R466). -/
def addResume (l es : List ResumeEntry) : List ResumeEntry := es.foldl (fun l e => l.filter (fun x => x.source ≠ e.source) ++ [e]) l

/-- EVT.RESUME (17 R465, R466). -/
def evtResume (src : CmdSrc) (fin : Bool) (dflt : Fin 3) (entries : List ResumeEntry) (s : State) : State :=
  runCmd s src 0x0C01 (resumeArgs fin dflt entries) fun s =>
    let m := srcBox s src
    let H := s.host
    if H.ringOn then (s, 0x603, [])
    else if dflt = 0 ∧ m.snapshot.isEmpty then (s, 6, [])
    else
      let from_ := match dflt with | 0 => m.snapIndex | 1 => 0 | 2 => s.log.head
      ((s.setHost { H with
        resume := addResume (if H.resumeFinal then [] else H.resume) entries, resumeFinal := fin, resumeDflt := dflt, resumeFrom := from_
        resumeNew := true, resumeSnap := if dflt = 0 then snapEntries m.snapshot else [] }), 0, [])

def execEvtResume (src : CmdSrc) (fin : Bool) (dflt : Fin 3) (entries : List ResumeEntry) (s : State) : Host.Outcome State Fault Refusal :=
  .next (evtResume src fin dflt entries s)

/-- EVT.AUDIT: a signed seal block, while one of the last 64 (12 R329; 17 R465). -/
def evtAudit (src : CmdSrc) (sealId : BitVec 32) (s : State) : State :=
  runCmd s src 0x0C02 (bodyOf [(32, sealId.toNat)]) fun s =>
    match s.log.seals.find? fun p => p.1 == sealId.toNat with
    | some p => (s, 0, p.2)
    | none => (s, 0x602, [])

def execEvtAudit (src : CmdSrc) (sealId : BitVec 32) (s : State) : Host.Outcome State Fault Refusal := .next (evtAudit src sealId s)

/-- EVT.STATUS (17 R465). -/
def evtStatus (src : CmdSrc) (s : State) : State :=
  runCmd s src 0x0C03 [] fun s =>
    (s, 0, bodyOf [(64, s.log.head), (64, if s.log.recs.isEmpty then 0 else logTail s), (64, s.host.nextRing), (64, s.host.ringDropped)])

def execEvtStatus (src : CmdSrc) (s : State) : Host.Outcome State Fault Refusal := .next (evtStatus src s)

end Sys2Proof.Machine
end

