-- ==== Sys2Proof/Machine/CmdPart.lean ====
section
/-! DEFINITION. The PART commands (17 R467, R468; 13 R356 to R360). -/
namespace Sys2Proof.Machine
open Sys2Proof

/-- Age in µs of the last complete checkpoint of a partner hearth; with none, a free value `v`. -/
def cpAge (s : State) (j v : Nat) : Nat :=
  if (s.cp j).have_ then min 0xFFFFFFFF ((s.time.tai - cpTime (s.cp j).bytes) / 1000) else bitsOf v (32 * j) 32

/-- PART.STATUS (17 R467). -/
def partStatus (src : CmdSrc) (s : State) : State :=
  runCmd s src 0x0D01 [] fun s =>
    let (v, s) := s.freshFree
    (s, 0, bodyOf ([(8, s.pair.state.val), (8, b2n s.pair.laneLive + 2 * b2n s.pair.pulseLive), (8, adoptedMask s), (8, lentMask s),
      (16, pairAddr s), (64, s.pair.partnerId.toNat)] ++ ((List.range 8).map fun j => (32, (s.cp j).cpSeq.toNat)) ++
      (List.range 8).map fun j => (32, cpAge s j v)))

def execPartStatus (src : CmdSrc) (s : State) : Host.Outcome State Fault Refusal := .next (partStatus src s)

/-- A hand-back or transfer is running. -/
def handRuns (s : State) : Bool := s.pair.handing.isSome || s.pair.handSrc.isSome

/-- PART.RETURN: on the adopter the hand-back starts; on the returning device the adopter is asked for it (17 R468; 13 R356). -/
def partReturn (src : CmdSrc) (s : State) : State :=
  runLater s src 0x0D02 [] fun s =>
    let adopter := decide (s.pair.state = 7)
    let lent := maskBits (BitVec.ofNat 8 (lentMask s))
    if !adopter && !(decide (s.pair.partnerState = 7) && !lent.isEmpty) then setAnswer s src 0x701 []
    else if handRuns s then setAnswer s src 0x703 []
    else if adopter then startHand s (BitVec.ofNat 8 (adoptedMask s)) false (some src)
    else sendNotice (s.setPair { s.pair with handSrc := some src, handed := 0 }) (lent.headD 0) 3 0

def execPartReturn (src : CmdSrc) (s : State) : Host.Outcome State Fault Refusal := .next (partReturn src s)

/-- PART.TRANSFER (13 R359; 17 R467). -/
def partTransfer (src : CmdSrc) (mask : BitVec 8) (s : State) : State :=
  runLater s src 0x0D03 [mask] fun s =>
    if !((maskBits mask).all (hearthOurs s)) then setAnswer s src 0x204 []
    else if mask = 0 then setAnswer s src 3 []
    else if s.pair.state ≠ 3 then setAnswer s src 0x701 []
    else if handRuns s then setAnswer s src 0x703 []
    else startHand s mask true (some src)

def execPartTransfer (src : CmdSrc) (mask : BitVec 8) (s : State) : Host.Outcome State Fault Refusal := .next (partTransfer src mask s)

/-- PART.RESET (13 R360; 17 R467). -/
def partReset (src : CmdSrc) (s : State) : State :=
  runCmd s src 0x0D04 [] fun s =>
    if s.pair.state = 0 then (s, 0x701, [])
    else if s.pair.laneLive || s.pair.pulseLive then (s, 0x704, [])
    else (sendReset s 0, 0, [])

def execPartReset (src : CmdSrc) (s : State) : Host.Outcome State Fault Refusal := .next (partReset src s)

end Sys2Proof.Machine
end

