-- ==== Sys2Proof/Machine/CmdBook.lean ====
section
/-! DEFINITION. The BOOK, FW and ATTEST commands (17 R469; 15 R399, R404 to R412). -/
namespace Sys2Proof.Machine
open Sys2Proof

/-! BOOK. -/

/-- BOOK.STAGE: data into the staging buffer, which NEW clears first (15 R407). -/
def bookStage (src : CmdSrc) (offset : BitVec 32) (fresh : Bool) (data : List Byte) (s : State) : State :=
  runCmd s src 0x0F01 (bodyOf [(32, offset.toNat), (8, b2n fresh), (24, 0)] ++ data) fun s =>
    if !(inMiB offset.toNat data.length) then (s, 3, [])
    else
      let old := if fresh then [] else s.books.staged
      let len := if fresh then 0 else s.books.stagedLen
      ((s.setBooks { s.books with
        staged := tabPut 0 old offset.toNat data, stagedLen := max len (offset.toNat + data.length) }), 0, [])

def execBookStage (src : CmdSrc) (offset : BitVec 32) (fresh : Bool) (data : List Byte) (s : State) : Host.Outcome State Fault Refusal :=
  .next (bookStage src offset fresh data s)

/-- The first bytes of the staging buffer. -/
def stagedBytes (s : State) (n : Nat) : List Byte := tabRun 0 s.books.staged 0 (min n 1048576)

/-- The bytes of a section, none when the Book does not have it. -/
def secRaw (b : Book) (t i : Nat) : Option (List Byte) := (secOf b t i).map (secBytes b.bytes)

/-- A channel is in a state in which a commit may change its section, or its group's (15 R407). -/
def mayChange (s : State) (c : Nat) : Bool := !(chanThere s c) || chanIn s c [.vacant, .seated, .off, .locked]

/-- A Book that holds nothing, in place of one not yet committed. -/
def noBook : Book := { bytes := [], gen := 0, signed := false, secs := [] }

/-- The Book in force, when one is committed. -/
def ownBook (s : State) : Option Book := match parseBook s.books.own with | .ok b => some b | .error _ => none

/-- BOOK.COMMIT is refused as busy (15 R407). -/
def commitBusy (s : State) (b : Book) : Bool :=
  let o := (ownBook s).getD noBook
  let diff (t i : Nat) : Bool := decide (secRaw o t i ≠ secRaw b t i)
  ((List.range 512).any fun c => diff 2 c && !(mayChange s c)) ||
    ((List.range 8).any fun h => (diff 4 h || diff 5 h || diff 6 h) && (List.range 64).any fun k => !(mayChange s (64 * h + k))) ||
    (diff 8 0 && (decide (s.pair.state = 4) || decide (s.pair.state = 5) || decide (s.pair.state = 7)))

/-- The response body of BOOK.COMMIT (17 R469). -/
def commitBody (p : Option Place) (d : BitVec 384) : List Byte :=
  let q := p.getD (0xFFFF, 0xFFFF, 0xFFFF)
  bodyOf [(16, q.1), (16, q.2.1), (16, q.2.2), (16, 0)] ++ hashBytes d

/-- Steps 2 to 4 of a run-time commit (15 R407): the other copy, the boot record, the Book applied and measured. The counts since the commit
start again; a changed Works section starts the lanes again (14 R366), and the pair greets its partner (13 R334). -/
def commitBook (s t : State) (b : Book) : State :=
  let copy := !(bootRec s).book
  let works := decide (secRaw ((ownBook s).getD noBook) 9 0 ≠ secRaw b 9 0)
  let t := writeRec (flashWrite t (bookAt copy) b.bytes) fun r => { r with book := copy }
  let t := applyBook b t
  let t := t.restartHk
  let t := extendSlot t 5 6 (bookDigest b)
  pairStart (if works then worksStart t else t)

/-- BOOK.COMMIT (15 R404, R407; 17 R469). The digest of a Book that fails check 1 is a free value. -/
def bookCommit (src : CmdSrc) (length : BitVec 32) (flashOk : Bool) (s : State) : State :=
  runCmd s src 0x0F02 (bodyOf [(32, length.toNat)]) fun s =>
    let bs := stagedBytes s length.toNat
    match checkBook s bs ((ownBook s).map Book.gen) false with
    | .error e => match parseBook bs with
      | .ok b => (s, e.status, commitBody e.place (bookDigest b))
      | .error _ =>
        let (v, s) := s.freshFree
        (s, e.status, commitBody e.place (BitVec.ofNat 384 v))
    | .ok (b, t) =>
      if !flashOk then (raiseError s 0x21F srcDevice (3 + 2 ^ 32 * bookAt (!(bootRec s).book)), 0x307, commitBody none (bookDigest b))
      else if commitBusy s b then (s, 0x308, commitBody none (bookDigest b))
      else (commitBook s t b, 0, commitBody none (bookDigest b))

def execBookCommit (src : CmdSrc) (length : BitVec 32) (flashOk : Bool) (s : State) : Host.Outcome State Fault Refusal :=
  .next (bookCommit src length flashOk s)

/-- BOOK.READ (17 R469). -/
def bookRead (src : CmdSrc) (copy : Fin 2) (offset : BitVec 32) (length : BitVec 16) (s : State) : State :=
  runCmd s src 0x0F03 (bodyOf [(8, copy.val), (24, 0), (32, offset.toNat), (16, length.toNat)]) fun s =>
    let bs := if copy = 0 then s.books.own else stagedBytes s s.books.stagedLen
    if bs.length < offset.toNat + length.toNat then (s, 3, []) else (s, 0, (bs.drop offset.toNat).take length.toNat)

def execBookRead (src : CmdSrc) (copy : Fin 2) (offset : BitVec 32) (length : BitVec 16) (s : State) :
    Host.Outcome State Fault Refusal := .next (bookRead src copy offset length s)

/-- BOOK.STATUS (17 R469). -/
def bookStatus (src : CmdSrc) (s : State) : State :=
  runCmd s src 0x0F04 [] fun s =>
    (s, 0, bodyOf [(8, b2n (bootRec s).book), (32, ((ownBook s).getD noBook).gen), (32, s.books.own.length), (32, s.books.stagedLen)] ++
      hashBytes s.books.digest)

def execBookStatus (src : CmdSrc) (s : State) : Host.Outcome State Fault Refusal := .next (bookStatus src s)

/-! FW. -/

/-- An image marked unusable by a failed write, or written again. -/
def markImage (s : State) (b bad : Bool) : State :=
  s.setBoot (if b then { s.boot with badB := bad, verified := false } else { s.boot with badA := bad, verified := false })

/-- FW.WRITE: into the image that is not running (15 R412). -/
def fwWrite (src : CmdSrc) (offset : BitVec 32) (data : List Byte) (ok : Bool) (s : State) : State :=
  runCmd s src 0x1001 (bodyOf [(32, offset.toNat)] ++ data) fun s =>
    let b := !s.boot.image
    let at_ := imageAt b + offset.toNat
    if !(inMiB offset.toNat data.length) then (s, 3, [])
    else if !ok then flashFailed (markImage s b true) at_
    else (markImage (flashWrite s at_ data) b false, 0, [])

def execFwWrite (src : CmdSrc) (offset : BitVec 32) (data : List Byte) (ok : Bool) (s : State) : Host.Outcome State Fault Refusal :=
  .next (fwWrite src offset data ok s)

/-- FW.VERIFY (15 R399, R412). -/
def fwVerify (src : CmdSrc) (s : State) : State :=
  runCmd s src 0x1002 [] fun s =>
    let b := !s.boot.image
    if !(imgGenuine s b) then (s, 0x901, [])
    else if imgSvn s b < rollback s then (s, 0x902, [])
    else ((s.setBoot { s.boot with verified := true }), 0, bodyOf [(32, imgVersion s b), (16, imgSvn s b)])

def execFwVerify (src : CmdSrc) (s : State) : Host.Outcome State Fault Refusal := .next (fwVerify src s)

/-- FW.ACTIVATE: ACTIVE names that image, with its attempt count 0; with RESET a device reset follows the response (15 R412). -/
def fwActivate (src : CmdSrc) (reset force : Bool) (s : State) : State :=
  runCmd s src 0x1003 (bodyOf [(1, b2n reset), (1, b2n force), (6, 0)]) fun s =>
    let b := !s.boot.image
    if !s.boot.verified then (s, 0x903, [])
    else if reset && !force && unprotected s then (s, 0x904, [])
    else (writeRec s fun r => if b then { r with active := true, attB := 0 } else { r with active := false, attA := 0 }, 0, [])

def execFwActivate (src : CmdSrc) (reset force : Bool) (s : State) : Host.Outcome State Fault Refusal :=
  .next (fwActivate src reset force s)

/-- FW.RATCHET: both rollback copies are blown up to the running image's SVN (15 R412). -/
def fwRatchet (src : CmdSrc) (force : Bool) (s : State) : State :=
  runCmd s src 0x1004 (bodyOf [(1, 0), (1, b2n force), (6, 0)]) fun s =>
    let n := imgSvn s s.boot.image
    if !force && imgUsable s (!s.boot.image) && decide (imgSvn s (!s.boot.image) < n) then (s, 0x902, [])
    else
      let s := s.setFuses (blowRollback s.boot.fuses n)
      (s, 0, bodyOf [(16, rollback s)])

def execFwRatchet (src : CmdSrc) (force : Bool) (s : State) : Host.Outcome State Fault Refusal := .next (fwRatchet src force s)

/-- FW.STATUS (17 R469). -/
def fwStatus (src : CmdSrc) (s : State) : State :=
  runCmd s src 0x1005 [] fun s =>
    (s, 0, bodyOf [(32, bootWord s), (8, b2n s.boot.image), (32, imgVersion s false), (32, imgVersion s true), (16, imgSvn s false),
      (16, imgSvn s true), (8, b2n (imgUsable s false) + 2 * b2n (imgUsable s true)), (8, attempts s false), (8, attempts s true),
      (8, b2n s.boot.verified)])

def execFwStatus (src : CmdSrc) (s : State) : Host.Outcome State Fault Refusal := .next (fwStatus src s)

/-! ATTEST. -/

/-- ATTEST.IDENTITY: DEVICE_ID, the public key, ENDORSE (15 R410; 17 R469). -/
def attestIdentity (src : CmdSrc) (s : State) : State :=
  runCmd s src 0x1101 [] fun s =>
    (s, 0, toLe 8 (deviceId s) ++ sliceBytes (Config.attestPublic (attestSecret s)) 0 96 ++ toLe 96 (fuse s 1440 768))

def execAttestIdentity (src : CmdSrc) (s : State) : Host.Outcome State Fault Refusal := .next (attestIdentity src s)

/-- Bytes 479:0 of an attestation report (15 R411). -/
def reportBody (s : State) (nonce : BitVec 384) : List Byte :=
  toLe 4 1 ++
    toLe 2 (b2n s.boot.fallback + 2 * b2n (bookSigned s) + 4 * b2n (debugLock s) + 8 * b2n s.boot.bookEmpty) ++ toLe 2 0 ++
    toLe 8 (deviceId s) ++ toLe 4 s.boot.bootCount.toNat ++ toLe 1 (b2n s.boot.image) ++ toLe 1 0 ++ toLe 1 s.time.state.val ++
    toLe 1 (min 255 (errUnc s)) ++ toLe 4 (imgVersion s s.boot.image) ++ toLe 2 (imgSvn s s.boot.image) ++ toLe 2 (rollback s) ++
    toLe 8 s.time.tai ++ toLe 2 (worksAddr s) ++ toLe 2 0 ++ toLe 4 s.boot.mcount.toNat ++ hashBytes nonce ++
    (List.range 8).flatMap fun i => hashBytes (s.boot.slots.getD i 0)

/-- ATTEST.REPORT (15 R411). -/
def attestReport (src : CmdSrc) (nonce : BitVec 384) (s : State) : State :=
  runCmd s src 0x1102 (hashBytes nonce) fun s =>
    let b := reportBody s nonce
    let g := Config.ecdsaSign (attestSecret s) (Config.sha384 b)
    (s, 0, b ++ hashBytes g.1 ++ hashBytes g.2)

def execAttestReport (src : CmdSrc) (nonce : BitVec 384) (s : State) : Host.Outcome State Fault Refusal :=
  .next (attestReport src nonce s)

/-- ATTEST.EXTEND: slot 7 (15 R408). -/
def attestExtend (src : CmdSrc) (value : BitVec 384) (s : State) : State :=
  runCmd s src 0x1103 (hashBytes value) fun s =>
    let s := extendSlot s 7 9 value
    (s, 0, hashBytes (s.boot.slots.getD 7 0))

def execAttestExtend (src : CmdSrc) (value : BitVec 384) (s : State) : Host.Outcome State Fault Refusal :=
  .next (attestExtend src value s)

/-- ATTEST.LOG: entries of the measurement log from FIRST on (15 R409; 17 R469). -/
def attestLog (src : CmdSrc) (first : BitVec 16) (count : Fin 41) (s : State) : State :=
  runCmd s src 0x1104 (bodyOf [(16, first.toNat), (8, count.val)]) fun s =>
    (s, 0, ((s.boot.mlog.drop first.toNat).take count.val).flatMap fun e => toLe 1 e.1.toNat ++ toLe 1 e.2.1.toNat ++ hashBytes e.2.2)

def execAttestLog (src : CmdSrc) (first : BitVec 16) (count : Fin 41) (s : State) : Host.Outcome State Fault Refusal :=
  .next (attestLog src first count s)

end Sys2Proof.Machine
end

