-- ==== Sys2Proof/Machine/Jtag.lean ====
section
/-! DEFINITION. The JTAG port (18 R487). -/
namespace Sys2Proof.Machine
open Sys2Proof

/-- The identification register (18 R487): version 1, part 0x0512, the manufacturer identity, and 1. -/
def idWord : BitVec 32 := BitVec.ofNat 32 (0x1 * 2 ^ 28 + 0x0512 * 2 ^ 12 + Config.makerId % 2048 * 2 + 1)

/-- IDCODE: the identification register is selected. -/
def jtagIdcode (s : State) : State := s.setJtag { s.jtag with ir := .idcode, shift := idWord }

def execIdcode (s : State) : Host.Outcome State Fault Refusal := .next (jtagIdcode s)

/-- SAMPLE/PRELOAD: the boundary register takes the levels of the Crown CMOS balls; nothing of the device changes. -/
def execSamplePreload (pins : BitVec 256) (s : State) : Host.Outcome State Fault Refusal :=
  .next (s.setJtag { s.jtag with ir := .samplePreload, bsr := pins })

/-- An instruction that takes effect only while RST_N is low; at any other time it acts as BYPASS. -/
def resetOnly (ir : JtagIr) (s : State) : State := s.setJtag { s.jtag with ir := if s.boot.rstLow then ir else .bypass }

def execExtest (s : State) : Host.Outcome State Fault Refusal := .next (resetOnly .extest s)
def execClamp (s : State) : Host.Outcome State Fault Refusal := .next (resetOnly .clamp s)
def execHighz (s : State) : Host.Outcome State Fault Refusal := .next (resetOnly .highz s)

/-- BYPASS: the bypass register of one bit lies between TDI and TDO. -/
def jtagBypass (tdi : Bool) (s : State) : State := s.setJtag { s.jtag with ir := .bypass, bypass := tdi }

def execBypass (tdi : Bool) (s : State) : Host.Outcome State Fault Refusal := .next (jtagBypass tdi s)

/-- AELHEIP_DEBUG: BYPASS when DEBUG_LOCK is 1; else a debug access of which nothing is given. -/
def execAelheipDebug (tdi : Bool) (s : State) : Host.Outcome State Fault Refusal :=
  if debugLock s then .next (jtagBypass tdi s) else .refused .debugNotGiven

/-- TEST_LOGIC_RESET: the test logic resets to IDCODE, as IEEE 1149.1 has it. -/
def execTestLogicReset (s : State) : Host.Outcome State Fault Refusal := .next (jtagIdcode s)

end Sys2Proof.Machine
end

