-- ==== Sys2Proof/Machine/TimeTick.lean ====
section
/-! DEFINITION. The tick of the time island (01 R30; 12 R306, R311). -/
namespace Sys2Proof.Machine
open Sys2Proof

/-- A slew adds or withholds one nanosecond in 40 ticks, which is 100 ppm (12 R311; log entry 27): the tick is as much shorter or longer, so that
it falls on the next multiple of 250 ns of the counter all the same (01 R30). -/
def slewStep (T : TimeSt) : Int := if T.tick % 40 ≠ 0 ∨ T.slew = 0 then 0 else if 0 < T.slew then 1 else -1

/-- The tick number rises by 1, and the time counter stands at the next multiple of 250 ns; what is still to be slewed shrinks (01 R30; 12 R306,
R311). -/
def advanceTime (T : TimeSt) : TimeSt :=
  let U : TimeSt := { T with tick := T.tick + 1 }
  { U with tai := T.tai + 250, slew := T.slew - slewStep U }

/-- This device holds the claim on hearth `h`: of an own one on its local port, of a partner's one on Yj (13 R346, R352). -/
def holdsHearth (s : State) (h : Nat) : Bool :=
  if h < 8 then (s.hearth h).held && decide ((s.hearth h).holder = .loc) else (s.cp (h - 8)).held

/-- The Crown sends on a lane to hearth `h`: an own hearth with logic power, or a trained cross-in lane (01 R18, R34). -/
def laneOpen (s : State) (h : Nat) : Bool := if h < 8 then (s.hearth h).logic else (s.cp (h - 8)).laneY.trained

/-- A frame that takes no number on the standby lane of an own hearth link (01 R18). -/
def downStandby (s : State) (h type : Nat) (payload : List (BitVec 64)) : State :=
  let o := otherLane (s.hearth h).active
  if h < 8 ∧ (laneOf (s.hearth h) o).trained then sendDownIdle s h type o.val payload else s

/-- The ACK of a tick: the highest sequence number received in order (01 R20, R21). -/
def sendAck (s : State) (h : Nat) : State := sendDownIdle s h 8 (downLane s h) (payBlocks [(32, ((s.link h).rx - 1).toNat)])

/-- The channels of the CMD frame of a tick: all 64 every 16 ticks, else those whose word changed (01 R21). -/
def cmdMask (s : State) (h : Nat) : BitVec 64 := if s.time.tick % 16 = 0 then BitVec.allOnes 64 else (s.link h).changed

/-- The frames of a tick to a hearth held under this device's claim (01 R18, R20, R21): TICK, which the standby lane carries too; CMD; ACK. -/
def sendControl (s : State) (h : Nat) : State :=
  let t := payBlocks [(64, s.time.tai), (64, s.time.tick)]
  let s := sendDown (downStandby s h 1 t) h 1 t
  let s := if cmdMask s h = 0 then s else (sendCmd s h (cmdMask s h)).updLink h fun L => { L with changed := 0 }
  downStandby (sendAck s h) h 0 []

/-- The ticks without a STATE frame at the Crown's end of the lane in use, while one is to come in every tick (01 R24; 13 R346). -/
def missState (s : State) (h : Nat) : State :=
  s.updLink h fun L => { L with seen := false, missed := if holdsHearth s h && !L.seen then min 3 (L.missed + 1) else 0 }

/-- The frames of a tick to hearth `h`. A controller that holds no claim sends IDLE only (13 R346); a Cracked Crown only ACK (01 R35). -/
def sendTick (s : State) (h : Nat) : State :=
  let s := missState s h
  if !laneOpen s h then s
  else if !holdsHearth s h then downStandby (sendDownIdle s h 0 (downLane s h) []) h 0 []
  else if s.boot.cracked then sendAck s h
  else sendControl s h

/-- The frames to the hearths in a tick. In Banked, and early in a wake, the lanes are off (16 R435, R438). -/
def sendTicks (s : State) : State :=
  if s.boot.devState == 3 || s.boot.devState == 4 && decide (s.host.wakeStage < 2) then s
  else forEach (List.range 16) sendTick s

/-- A corrected storm is present for the TAI second in which it arose (11 R287). -/
def endStorms (s : State) : State :=
  forEach (s.coll.shards.filter fun x => x.code.toNat = 0x219 ∧ x.present ∧ x.latestAt.toNat / 1000000000 < s.time.tai / 1000000000)
    (fun s x => clearError s 0x219 x.source.toNat) s

/-- Answers of forwarded commands go out (14 R383). -/
def flushAll (s : State) : State := forEach (s.host.fwd.map (·.1)) flushFwd s

/-- TIME_ISLAND_TICK: with the new tick go its TICK frames, the stages of a wake that are due, a return checkpoint that is due, the answers
and records that other devices await, and the PMBus latches (log entry 28). -/
def timeIslandTick (s : State) : State :=
  if !crownUp s then s
  else
    let s := sendTicks (s.setTime (advanceTime s.time))
    let s := endStorms (takeReturn (wakeAdvance s))
    let s := if s.boot.cracked then s else serveSubscribers (flushAll s)
    pmbWatch s

def execTimeIslandTick (s : State) : Host.Outcome State Fault Refusal := .next (timeIslandTick s)

end Sys2Proof.Machine
end

