-- ==== Sys2Proof/Machine/WorksTime.lean ====
section
/-! DEFINITION. Time across the Works: TIMESYNC frames, exchanges, the time parent and the time servo (14 R372 to R375). -/
namespace Sys2Proof.Machine
open Sys2Proof

/-- Payload of a TIMESYNC (14 R372). -/
def syncPayload (s : State) (L : WLaneSt) : List (Nat × Nat) :=
  [(16, L.syncNo.toNat), (64, L.txPrev.toNat), (64, L.rxTime.toNat), (16, L.rxSync.toNat), (8, s.time.state.val), (16, uBase16 s 16),
   (8, s.time.hops.toNat), (16, s.time.parentAddr.toNat)]

/-- TIMESYNC_SEND: a TIMESYNC leaves on an UP lane, every 62.5 µs, at a captured time (14 R372). The last 16 departures are kept. -/
def timesyncSend (lane : WLane) (depart : BitVec 64) (s : State) : State :=
  let n := lane.val
  if worksOn s && laneUp s n then
    let s := sendLocal s n 1 (syncPayload s (s.wlane n))
    s.updWlane n fun L => { L with
      deps := (L.syncNo, depart) :: L.deps.take 15
      txPrev := depart
      syncNo := L.syncNo + 1 }
  else s

def execTimesyncSend (lane : WLane) (depart : BitVec 64) (s : State) : Host.Outcome State Fault Refusal := .next (timesyncSend lane depart s)

/-- U_BASE a device holds below a parent, and the rank of a neighbour: what its TIMESYNC shows, plus 2.3 ns, in 1/80 ns (14 R374). -/
def rankOf (ts : TimeSync) : Nat := 5 * ts.uBase16.toNat + 184

/-- The neighbour of a lane is an eligible parent (14 R374). -/
def eligibleParent (s : State) (n : Nat) : Bool :=
  laneUp s n && match (s.wlane n).peer with
    | some ts => (ts.state == 2 || ts.state == 3) && decide (ts.hops.toNat ≤ 29) && decide (ts.parent.toNat ≠ wAddr s)
    | none => false

/-- What orders eligible parents: rank, hops, address, lane (14 R374). -/
def parentKey (s : State) (n : Nat) : List Nat :=
  match (s.wlane n).peer with
  | some ts => [rankOf ts, ts.hops.toNat, (s.wlane n).neighbour.toNat, n]
  | none => []

/-- Lists of numbers in lexical order. -/
def lexLt : List Nat → List Nat → Bool
  | a :: x, b :: y => decide (a < b) || (decide (a = b) && lexLt x y)
  | _, _ => false

/-- The eligible parent that comes first in that order. -/
def bestParent (s : State) : Option Nat :=
  ((List.range 4).filter (eligibleParent s)).foldl (fun b n => match b with
    | none => some n
    | some m => if lexLt (parentKey s n) (parentKey s m) then some n else some m) none

/-- Rank of a lane's neighbour. -/
def laneRank (s : State) (n : Nat) : Nat := (parentKey s n).getD 0 0

/-- Take a lane's neighbour as time parent; hops are the parent's plus 1 (14 R374). -/
def takeParent (s : State) (n : Nat) : State := setParent s (some (Fin.ofNat 4 n)) (s.wlane n).neighbour

/-- Choose the time parent at an exchange (14 R374, R375). A parent that has stopped being eligible ends WORKS in HOLDOVER, and the choice
waits for the next exchange. The present parent stays unless another ranks better by 2 ns. -/
def chooseParent (s : State) : State :=
  if !tWorks s.time.word || decide (s.time.state = 2) then
    let s := if s.time.state = 3 then toHoldover s else s
    setParent s none 0xFFFF
  else match s.time.parent with
    | some p =>
      if !eligibleParent s p.val then
        let was := decide (s.time.state = 3)
        let s := setParent (if was then toHoldover s else s) none 0xFFFF
        if was then s else match bestParent s with
          | some n => takeParent s n
          | none => s
      else match bestParent s with
        | some n => if laneRank s n + 160 ≤ laneRank s p.val then takeParent s n else s
        | none => s
    | none => match bestParent s with
      | some n => takeParent s n
      | none => s

/-- The neighbour's offset in 1/20 ns from the four times of an exchange, corrected for the board's asymmetry (14 R373). -/
def offset20 (s : State) (n : Nat) (t1 t2 t3 t4 : BitVec 64) : Int :=
  let a : Int := ((t2.toNat : Int) - t1.toNat) - ((t4.toNat : Int) - t3.toNat)
  10 * a - (wAsym s n - (s.wlane n).asymThere.toInt)

/-- The correction of one exchange (14 R375): the proportional-integral filter's gains are not given, so its output is a free value of at
most 1 µs either way; the first correction after a change of parent is the offset itself when that exceeds 1 µs, and is stepped. -/
def servo (s : State) (off : Int) : State :=
  let first := s.time.newParent
  let s := s.setTime { s.time with newParent := false }
  if first && (decide (off < -20000) || decide (20000 < off)) then correct s (nearDiv off 20)
  else
    let (f, s) := s.freshFree
    correct s ((f % 2001 : Nat) - (1000 : Int))

/-- What an exchange with the time parent does (14 R375). -/
def parentExchange (s : State) (ts : TimeSync) (off : Int) : State :=
  let near := decide (-80 ≤ off) && decide (off ≤ 80)
  let far := decide (off < -2000) || decide (2000 < off)
  let s := servo s off
  let s := s.setTime { s.time with
    locked := if near then s.time.locked + 1 else 0
    wild := if far then s.time.wild + 1 else 0 }
  if s.time.state = 3 then
    if 8 ≤ s.time.wild then
      let s := toHoldover s
      s.setTime { s.time with locked := 0, wild := 0 }
    else setTimeState s 3 (rankOf ts) (ts.hops.toNat + 1)
  else if 16 ≤ s.time.locked then
    let s := s.setTime { s.time with known := true }
    setTimeState s 3 (rankOf ts) (ts.hops.toNat + 1)
  else s

/-- TIMESYNC: a neighbour's TIMESYNC arrives at a captured time (14 R372 to R375). It completes the exchange of the departure here that it
names (t1, t2) and of its own previous TIMESYNC (t3, t4). -/
def timesync (lane : WLane) (ts : TimeSync) (arrive : BitVec 64) (s : State) : State :=
  let n := lane.val
  if !(worksOn s && laneUp s n) then s
  else
    let L := s.wlane n
    let off := match L.deps.find? (fun d => d.1 == ts.rxSyncNo) with
      | some d => if L.peer.isSome && decide (L.rxSync + 1 = ts.syncNo) then some (offset20 s n d.2 ts.rx ts.txPrev L.rxTime) else none
      | none => none
    let s := (acceptNext s n).updWlane n fun L => { L with peer := some ts, rxTime := arrive, rxSync := ts.syncNo }
    let s := chooseParent s
    match off with
    | some o => if s.time.parent.map Fin.val = some n then parentExchange s ts o else s
    | none => s

def execTimesync (lane : WLane) (ts : TimeSync) (arrive : BitVec 64) (s : State) : Host.Outcome State Fault Refusal :=
  .next (timesync lane ts arrive s)

end Sys2Proof.Machine
end

