-- ==== Sys2Proof/Machine/Dispatch.lean ====
section
/-! DEFINITION. What each command does: one arm per constructor of Instr. -/
namespace Sys2Proof.Machine
open Sys2Proof

def exec (i : Instr) (s : State) : Host.Outcome State Fault Refusal :=
  match i with
  | .powerOn strap => Sys2Proof.Machine.execPowerOn strap s
  | .rstNLow ns => Sys2Proof.Machine.execRstNLow ns s
  | .bar0ResetWrite port value => Sys2Proof.Machine.execBar0ResetWrite port value s
  | .alwaysOnPower h => Sys2Proof.Machine.execAlwaysOnPower h s
  | .logicRailsAbsent h => Sys2Proof.Machine.execLogicRailsAbsent h s
  | .logicRailsPresent h => Sys2Proof.Machine.execLogicRailsPresent h s
  | .bisqueEnd io => Sys2Proof.Machine.execBisqueEnd io s
  | .imageStart => Sys2Proof.Machine.execImageStart s
  | .glazeTimerExpiry => Sys2Proof.Machine.execGlazeTimerExpiry s
  | .glazeBookCommit io => Sys2Proof.Machine.execGlazeBookCommit io s
  | .draw => Sys2Proof.Machine.execDraw s
  | .fuseRecheck fuses => Sys2Proof.Machine.execFuseRecheck fuses s
  | .watchdogExpired => Sys2Proof.Machine.execWatchdogExpired s
  | .crownRailFault => Sys2Proof.Machine.execCrownRailFault s
  | .crownOverTemperature => Sys2Proof.Machine.execCrownOverTemperature s
  | .errorDetected code src atNs detail clears => Sys2Proof.Machine.execErrorDetected code src atNs detail clears s
  | .fatalError code detail => Sys2Proof.Machine.execFatalError code detail s
  | .crashSectorCopy => Sys2Proof.Machine.execCrashSectorCopy s
  | .hearthFaultDetected h failed detail => Sys2Proof.Machine.execHearthFaultDetected h failed detail s
  | .reactionShadowEnd idx => Sys2Proof.Machine.execReactionShadowEnd idx s
  | .faultEventWindowEnd => Sys2Proof.Machine.execFaultEventWindowEnd s
  | .laneFailed lane why => Sys2Proof.Machine.execLaneFailed lane why s
  | .laneFailoverComplete h => Sys2Proof.Machine.execLaneFailoverComplete h s
  | .laneResetAttempt lane => Sys2Proof.Machine.execLaneResetAttempt lane s
  | .laneRetrained lane => Sys2Proof.Machine.execLaneRetrained lane s
  | .saggarHoldEntry h => Sys2Proof.Machine.execSaggarHoldEntry h s
  | .hearthTick h io => Sys2Proof.Machine.execHearthTick h io s
  | .timeIslandTick => Sys2Proof.Machine.execTimeIslandTick s
  | .clusterTick n => Sys2Proof.Machine.execClusterTick n s
  | .parameterBankSwap n => Sys2Proof.Machine.execParameterBankSwap n s
  | .sampleFrame h tick blocks late => Sys2Proof.Machine.execSampleFrame h tick blocks late s
  | .stateFrame h entries hstate => Sys2Proof.Machine.execStateFrame h entries hstate s
  | .eventFrame h records => Sys2Proof.Machine.execEventFrame h records s
  | .gapHoldTimeout src => Sys2Proof.Machine.execGapHoldTimeout src s
  | .tickFrame h port lane tai tick => Sys2Proof.Machine.execTickFrame h port lane tai tick s
  | .ackFrame side h port seq => Sys2Proof.Machine.execAckFrame side h port seq s
  | .idleFrame side h port => Sys2Proof.Machine.execIdleFrame side h port s
  | .frameCrcFail side h port lane => Sys2Proof.Machine.execFrameCrcFail side h port lane s
  | .reservedFrameType side h port lane code => Sys2Proof.Machine.execReservedFrameType side h port lane code s
  | .cmdKeep h port k lo tick cont => Sys2Proof.Machine.execCmdKeep h port k lo tick cont s
  | .cmdReady h port k lo tick cont => Sys2Proof.Machine.execCmdReady h port k lo tick cont s
  | .cmdRamp h port k lo tick cont => Sys2Proof.Machine.execCmdRamp h port k lo tick cont s
  | .cmdFull h port k lo tick cont => Sys2Proof.Machine.execCmdFull h port k lo tick cont s
  | .cmdGood h port k lo tick cont => Sys2Proof.Machine.execCmdGood h port k lo tick cont s
  | .cmdCool h port k lo tick cont => Sys2Proof.Machine.execCmdCool h port k lo tick cont s
  | .cmdLock h port k lo tick cont => Sys2Proof.Machine.execCmdLock h port k lo tick cont s
  | .cmdOff h port k lo tick cont => Sys2Proof.Machine.execCmdOff h port k lo tick cont s
  | .cmdOn h port k lo tick cont => Sys2Proof.Machine.execCmdOn h port k lo tick cont s
  | .cmdReset h port k lo tick cont => Sys2Proof.Machine.execCmdReset h port k lo tick cont s
  | .cmdTrip h port k lo tick cont => Sys2Proof.Machine.execCmdTrip h port k lo tick cont s
  | .cmdPgDrop h port k lo tick cont => Sys2Proof.Machine.execCmdPgDrop h port k lo tick cont s
  | .cmdPgRaise h port k lo tick cont => Sys2Proof.Machine.execCmdPgRaise h port k lo tick cont s
  | .cmdReserved h port k code lo tick cont => Sys2Proof.Machine.execCmdReserved h port k code lo tick cont s
  | .paramEnvelopeWrite h port k env => Sys2Proof.Machine.execParamEnvelopeWrite h port k env s
  | .paramIgRegWrite h port k ig => Sys2Proof.Machine.execParamIgRegWrite h port k ig s
  | .paramEventRequest h port req => Sys2Proof.Machine.execParamEventRequest h port req s
  | .paramHearthReset h port => Sys2Proof.Machine.execParamHearthReset h port s
  | .paramConfigWrite h port item => Sys2Proof.Machine.execParamConfigWrite h port item s
  | .claimFrame h port num claimant => Sys2Proof.Machine.execClaimFrame h port num claimant s
  | .claimAcceptance h => Sys2Proof.Machine.execClaimAcceptance h s
  | .releaseFrame h port num lane => Sys2Proof.Machine.execReleaseFrame h port num lane s
  | .seatChange n pres seat off => Sys2Proof.Machine.execSeatChange n pres seat off s
  | .debounceComplete n off => Sys2Proof.Machine.execDebounceComplete n off s
  | .slotRemoval n => Sys2Proof.Machine.execSlotRemoval n s
  | .consentEvaluation c => Sys2Proof.Machine.execConsentEvaluation c s
  | .startDelayElapsed c => Sys2Proof.Machine.execStartDelayElapsed c s
  | .fastTrip c off => Sys2Proof.Machine.execFastTrip c off s
  | .gateOffConfirmation c off => Sys2Proof.Machine.execGateOffConfirmation c off s
  | .gateDischargeFailure c => Sys2Proof.Machine.execGateDischargeFailure c s
  | .passTransistorShort c => Sys2Proof.Machine.execPassTransistorShort c s
  | .rampDeadline c => Sys2Proof.Machine.execRampDeadline c s
  | .progressWindowEnd c => Sys2Proof.Machine.execProgressWindowEnd c s
  | .soakDurationEnd c => Sys2Proof.Machine.execSoakDurationEnd c s
  | .pgDwellComplete c => Sys2Proof.Machine.execPgDwellComplete c s
  | .gateHoldCheck c => Sys2Proof.Machine.execGateHoldCheck c s
  | .breakerTrip c => Sys2Proof.Machine.execBreakerTrip c s
  | .fallbackBreakerTrip c => Sys2Proof.Machine.execFallbackBreakerTrip c s
  | .backoffEnd c => Sys2Proof.Machine.execBackoffEnd c s
  | .decayInterval c => Sys2Proof.Machine.execDecayInterval c s
  | .stateSkew c => Sys2Proof.Machine.execStateSkew c s
  | .uvTimeReached c => Sys2Proof.Machine.execUvTimeReached c s
  | .twinReturn t => Sys2Proof.Machine.execTwinReturn t s
  | .twinOpen c => Sys2Proof.Machine.execTwinOpen c s
  | .coneUpdate c => Sys2Proof.Machine.execConeUpdate c s
  | .prebendWarnTime c => Sys2Proof.Machine.execPrebendWarnTime c s
  | .soaPersistence c => Sys2Proof.Machine.execSoaPersistence c s
  | .tsnsTimeout c => Sys2Proof.Machine.execTsnsTimeout c s
  | .tsnsFaultEnd c => Sys2Proof.Machine.execTsnsFaultEnd c s
  | .coneDivergence c => Sys2Proof.Machine.execConeDivergence c s
  | .coneWait c => Sys2Proof.Machine.execConeWait c s
  | .checkUnitFailure e => Sys2Proof.Machine.execCheckUnitFailure e s
  | .engineFailed e cause => Sys2Proof.Machine.execEngineFailed e cause s
  | .engineTakeover c => Sys2Proof.Machine.execEngineTakeover c s
  | .unhostedRehost c => Sys2Proof.Machine.execUnhostedRehost c s
  | .recomputationComplete c verdict => Sys2Proof.Machine.execRecomputationComplete c verdict s
  | .clusterClockLoss n => Sys2Proof.Machine.execClusterClockLoss n s
  | .packingEdge => Sys2Proof.Machine.execPackingEdge s
  | .unpackingEdge => Sys2Proof.Machine.execUnpackingEdge s
  | .opNop e => Sys2Proof.Machine.execOpNop e s
  | .opEnd e => Sys2Proof.Machine.execOpEnd e s
  | .opLdi e rd imm => Sys2Proof.Machine.execOpLdi e rd imm s
  | .opLui e rd imm => Sys2Proof.Machine.execOpLui e rd imm s
  | .opMov e rd ra => Sys2Proof.Machine.execOpMov e rd ra s
  | .opInu e rd port => Sys2Proof.Machine.execOpInu e rd port s
  | .opIns e rd port => Sys2Proof.Machine.execOpIns e rd port s
  | .opOut e port rs => Sys2Proof.Machine.execOpOut e port rs s
  | .opLdp e rd ra addr => Sys2Proof.Machine.execOpLdp e rd ra addr s
  | .opLds e rd ra addr => Sys2Proof.Machine.execOpLds e rd ra addr s
  | .opSts e rs ra addr => Sys2Proof.Machine.execOpSts e rs ra addr s
  | .opLdm e rd addr => Sys2Proof.Machine.execOpLdm e rd addr s
  | .opAdd e rd ra rb => Sys2Proof.Machine.execOpAdd e rd ra rb s
  | .opSub e rd ra rb => Sys2Proof.Machine.execOpSub e rd ra rb s
  | .opAdds e rd ra rb => Sys2Proof.Machine.execOpAdds e rd ra rb s
  | .opSubs e rd ra rb => Sys2Proof.Machine.execOpSubs e rd ra rb s
  | .opAddi e rd ra imm => Sys2Proof.Machine.execOpAddi e rd ra imm s
  | .opMin e rd ra rb => Sys2Proof.Machine.execOpMin e rd ra rb s
  | .opMax e rd ra rb => Sys2Proof.Machine.execOpMax e rd ra rb s
  | .opAbs e rd ra => Sys2Proof.Machine.execOpAbs e rd ra s
  | .opMul e rd ra rb shift rnd => Sys2Proof.Machine.execOpMul e rd ra rb shift rnd s
  | .opDiv e rd ra rb shift rnd => Sys2Proof.Machine.execOpDiv e rd ra rb shift rnd s
  | .opShl e rd ra sh => Sys2Proof.Machine.execOpShl e rd ra sh s
  | .opShr e rd ra sh => Sys2Proof.Machine.execOpShr e rd ra sh s
  | .opShru e rd ra sh => Sys2Proof.Machine.execOpShru e rd ra sh s
  | .opAnd e rd ra rb => Sys2Proof.Machine.execOpAnd e rd ra rb s
  | .opOr e rd ra rb => Sys2Proof.Machine.execOpOr e rd ra rb s
  | .opXor e rd ra rb => Sys2Proof.Machine.execOpXor e rd ra rb s
  | .opAndi e rd ra imm => Sys2Proof.Machine.execOpAndi e rd ra imm s
  | .opCmp e ra rb => Sys2Proof.Machine.execOpCmp e ra rb s
  | .opCmpi e ra imm => Sys2Proof.Machine.execOpCmpi e ra imm s
  | .opSel e rd ra rb cond => Sys2Proof.Machine.execOpSel e rd ra rb cond s
  | .opAddw e rd ra rb => Sys2Proof.Machine.execOpAddw e rd ra rb s
  | .opSubw e rd ra rb => Sys2Proof.Machine.execOpSubw e rd ra rb s
  | .opSubwz e rd ra rb => Sys2Proof.Machine.execOpSubwz e rd ra rb s
  | .opAccf e rd ra rb => Sys2Proof.Machine.execOpAccf e rd ra rb s
  | .opNarw e rd ra rb => Sys2Proof.Machine.execOpNarw e rd ra rb s
  | .opCmpw e ra rb => Sys2Proof.Machine.execOpCmpw e ra rb s
  | .opPwl e rd ra rb base mode => Sys2Proof.Machine.execOpPwl e rd ra rb base mode s
  | .opPacc e ra rb => Sys2Proof.Machine.execOpPacc e ra rb s
  | .opPole e ix => Sys2Proof.Machine.execOpPole e ix s
  | .opCheck e => Sys2Proof.Machine.execOpCheck e s
  | .opPeerchk e => Sys2Proof.Machine.execOpPeerchk e s
  | .opMism e code => Sys2Proof.Machine.execOpMism e code s
  | .opBr e cond target => Sys2Proof.Machine.execOpBr e cond target s
  | .opBbs e ra bit target => Sys2Proof.Machine.execOpBbs e ra bit target s
  | .opBbc e ra bit target => Sys2Proof.Machine.execOpBbc e ra bit target s
  | .opRloop e target => Sys2Proof.Machine.execOpRloop e target s
  | .reservedOpcode e word => Sys2Proof.Machine.execReservedOpcode e word s
  | .hkTimerTrigger h => Sys2Proof.Machine.execHkTimerTrigger h s
  | .hkStartEventTrigger h => Sys2Proof.Machine.execHkStartEventTrigger h s
  | .hkUrgentTrigger h entry past => Sys2Proof.Machine.execHkUrgentTrigger h entry past s
  | .hkConversionComplete h conv => Sys2Proof.Machine.execHkConversionComplete h conv s
  | .hkPassEnd h => Sys2Proof.Machine.execHkPassEnd h s
  | .spyholeCrossing h spy zone off => Sys2Proof.Machine.execSpyholeCrossing h spy zone off s
  | .spyholeFilterComplete h spy off => Sys2Proof.Machine.execSpyholeFilterComplete h spy off s
  | .spyholeStartCompare h spy zone off => Sys2Proof.Machine.execSpyholeStartCompare h spy zone off s
  | .sampledTick h zones above off => Sys2Proof.Machine.execSampledTick h zones above off s
  | .spyThrottleWindowEnd h => Sys2Proof.Machine.execSpyThrottleWindowEnd h s
  | .confirmExpiry h => Sys2Proof.Machine.execConfirmExpiry h s
  | .reverseCurrent h => Sys2Proof.Machine.execReverseCurrent h s
  | .pathDrop h => Sys2Proof.Machine.execPathDrop h s
  | .warnLeadEnd h => Sys2Proof.Machine.execWarnLeadEnd h s
  | .selectorBreak h off => Sys2Proof.Machine.execSelectorBreak h off s
  | .selectorDischargeTimeout h => Sys2Proof.Machine.execSelectorDischargeTimeout h s
  | .gapExpiry h off => Sys2Proof.Machine.execGapExpiry h off s
  | .feedFirstMake h off => Sys2Proof.Machine.execFeedFirstMake h off s
  | .feedMakeFromNone h off => Sys2Proof.Machine.execFeedMakeFromNone h off s
  | .rechargeEnd h off => Sys2Proof.Machine.execRechargeEnd h off s
  | .shadowEnd h off => Sys2Proof.Machine.execShadowEnd h off s
  | .rechargeOvertime h => Sys2Proof.Machine.execRechargeOvertime h s
  | .warningRelease h ident => Sys2Proof.Machine.execWarningRelease h ident s
  | .returnDwell h => Sys2Proof.Machine.execReturnDwell h s
  | .offStateShort h feed high volts => Sys2Proof.Machine.execOffStateShort h feed high volts s
  | .ppsEdge atNs => Sys2Proof.Machine.execPpsEdge atNs s
  | .ppsAbsent => Sys2Proof.Machine.execPpsAbsent s
  | .f10mLoss => Sys2Proof.Machine.execF10mLoss s
  | .timeStep => Sys2Proof.Machine.execTimeStep s
  | .auditSeal => Sys2Proof.Machine.execAuditSeal s
  | .sealSigned => Sys2Proof.Machine.execSealSigned s
  | .heartbeatEmit => Sys2Proof.Machine.execHeartbeatEmit s
  | .heartbeatFrame count dstate pstate own partner => Sys2Proof.Machine.execHeartbeatFrame count dstate pstate own partner s
  | .heartbeatPulse widthNs => Sys2Proof.Machine.execHeartbeatPulse widthNs s
  | .heartbeatPathSilent path => Sys2Proof.Machine.execHeartbeatPathSilent path s
  | .partnerSilent => Sys2Proof.Machine.execPartnerSilent s
  | .adoptionClaimTimeout j => Sys2Proof.Machine.execAdoptionClaimTimeout j s
  | .checkpointTick j => Sys2Proof.Machine.execCheckpointTick j s
  | .checkpointFrame j part count bytes => Sys2Proof.Machine.execCheckpointFrame j part count bytes s
  | .pairHello hello => Sys2Proof.Machine.execPairHello hello s
  | .bookFrame offset bytes => Sys2Proof.Machine.execBookFrame offset bytes s
  | .noticeBanked => Sys2Proof.Machine.execNoticeBanked s
  | .noticeAwake => Sys2Proof.Machine.execNoticeAwake s
  | .noticeReady j claim => Sys2Proof.Machine.execNoticeReady j claim s
  | .noticeReleased j claim => Sys2Proof.Machine.execNoticeReleased j claim s
  | .noticeAdoptRequest j => Sys2Proof.Machine.execNoticeAdoptRequest j s
  | .pairResetFrame ident => Sys2Proof.Machine.execPairResetFrame ident s
  | .returnDelayExpiry => Sys2Proof.Machine.execReturnDelayExpiry s
  | .resetDelayExpiry => Sys2Proof.Machine.execResetDelayExpiry s
  | .ownHearthSaggarNotice h => Sys2Proof.Machine.execOwnHearthSaggarNotice h s
  | .timesync lane ts arrive => Sys2Proof.Machine.execTimesync lane ts arrive s
  | .timesyncSend lane depart => Sys2Proof.Machine.execTimesyncSend lane depart s
  | .worksHello lane hello => Sys2Proof.Machine.execWorksHello lane hello s
  | .worksBlockLock lane => Sys2Proof.Machine.execWorksBlockLock lane s
  | .worksLinkFailed lane => Sys2Proof.Machine.execWorksLinkFailed lane s
  | .worksLaneRetrain lane => Sys2Proof.Machine.execWorksLaneRetrain lane s
  | .worksLaneUpTimeout lane => Sys2Proof.Machine.execWorksLaneUpTimeout lane s
  | .route lane lseq dist => Sys2Proof.Machine.execRoute lane lseq dist s
  | .routePeriodic => Sys2Proof.Machine.execRoutePeriodic s
  | .addr lane lseq addr ident count hops => Sys2Proof.Machine.execAddr lane lseq addr ident count hops s
  | .addrFlood => Sys2Proof.Machine.execAddrFlood s
  | .zunakAck lane lseq => Sys2Proof.Machine.execZunakAck lane lseq s
  | .retransmitTimeout lane => Sys2Proof.Machine.execRetransmitTimeout lane s
  | .zunakFrameDiscard lane why => Sys2Proof.Machine.execZunakFrameDiscard lane why s
  | .allocReq lane hdr entry => Sys2Proof.Machine.execAllocReq lane hdr entry s
  | .grant lane hdr entry => Sys2Proof.Machine.execGrant lane hdr entry s
  | .refuse lane hdr entry => Sys2Proof.Machine.execRefuse lane hdr entry s
  | .ledgerRelease lane hdr entry => Sys2Proof.Machine.execLedgerRelease lane hdr entry s
  | .announce lane hdr entry => Sys2Proof.Machine.execAnnounce lane hdr entry s
  | .confirm lane hdr entry => Sys2Proof.Machine.execConfirm lane hdr entry s
  | .retract lane hdr entry => Sys2Proof.Machine.execRetract lane hdr entry s
  | .move lane hdr entry => Sys2Proof.Machine.execMove lane hdr entry s
  | .standing lane hdr entry => Sys2Proof.Machine.execStanding lane hdr entry s
  | .freed lane hdr entry => Sys2Proof.Machine.execFreed lane hdr entry s
  | .ledgerAnnounceSend h => Sys2Proof.Machine.execLedgerAnnounceSend h s
  | .ledgerHoldLapse feedId origin hearth ident => Sys2Proof.Machine.execLedgerHoldLapse feedId origin hearth ident s
  | .allocNoAnswer tag => Sys2Proof.Machine.execAllocNoAnswer tag s
  | .standingSend => Sys2Proof.Machine.execStandingSend s
  | .keeperUnreachable feedId => Sys2Proof.Machine.execKeeperUnreachable feedId s
  | .commandFrame lane hdr tag bytes => Sys2Proof.Machine.execCommandFrame lane hdr tag bytes s
  | .forwardTagWait origin => Sys2Proof.Machine.execForwardTagWait origin s
  | .responseFrame lane hdr tag status bytes => Sys2Proof.Machine.execResponseFrame lane hdr tag status bytes s
  | .worksSendTimeout tag => Sys2Proof.Machine.execWorksSendTimeout tag s
  | .worksEventFrame lane hdr first records => Sys2Proof.Machine.execWorksEventFrame lane hdr first records s
  | .subscriptionUnreachable addr => Sys2Proof.Machine.execSubscriptionUnreachable addr s
  | .hostLost cause => Sys2Proof.Machine.execHostLost cause s
  | .hostReturn => Sys2Proof.Machine.execHostReturn s
  | .mboxLockWrite port m value => Sys2Proof.Machine.execMboxLockWrite port m value s
  | .mboxDoorbell port m length seq request => Sys2Proof.Machine.execMboxDoorbell port m length seq request s
  | .commandStart src => Sys2Proof.Machine.execCommandStart src s
  | .commandDone m => Sys2Proof.Machine.execCommandDone m s
  | .wakeCauseRead port => Sys2Proof.Machine.execWakeCauseRead port s
  | .timeNowRead port => Sys2Proof.Machine.execTimeNowRead port s
  | .ringEnableWrite port value => Sys2Proof.Machine.execRingEnableWrite port value s
  | .consWrite port value => Sys2Proof.Machine.execConsWrite port value s
  | .evtwEntryRead port last => Sys2Proof.Machine.execEvtwEntryRead port last s
  | .registerWrite port offset value => Sys2Proof.Machine.execRegisterWrite port offset value s
  | .ringDelivery => Sys2Proof.Machine.execRingDelivery s
  | .coalesceTimer => Sys2Proof.Machine.execCoalesceTimer s
  | .spiRead addr len => Sys2Proof.Machine.execSpiRead addr len s
  | .spiWrite addr bytes => Sys2Proof.Machine.execSpiWrite addr bytes s
  | .spiQuadRead addr len => Sys2Proof.Machine.execSpiQuadRead addr len s
  | .spiQuadWrite addr bytes => Sys2Proof.Machine.execSpiQuadWrite addr bytes s
  | .spiReadStatus => Sys2Proof.Machine.execSpiReadStatus s
  | .spiUnknownInstruction code => Sys2Proof.Machine.execSpiUnknownInstruction code s
  | .page acc => Sys2Proof.Machine.execPage acc s
  | .clearFaults acc => Sys2Proof.Machine.execClearFaults acc s
  | .capability acc => Sys2Proof.Machine.execCapability acc s
  | .voutMode acc => Sys2Proof.Machine.execVoutMode acc s
  | .statusByte acc => Sys2Proof.Machine.execStatusByte acc s
  | .statusWord acc => Sys2Proof.Machine.execStatusWord acc s
  | .statusInput acc => Sys2Proof.Machine.execStatusInput acc s
  | .statusTemperature acc => Sys2Proof.Machine.execStatusTemperature acc s
  | .statusCml acc => Sys2Proof.Machine.execStatusCml acc s
  | .statusMfrSpecific acc => Sys2Proof.Machine.execStatusMfrSpecific acc s
  | .readVin acc => Sys2Proof.Machine.execReadVin acc s
  | .readIin acc => Sys2Proof.Machine.execReadIin acc s
  | .readVout acc => Sys2Proof.Machine.execReadVout acc s
  | .readTemperature1 acc => Sys2Proof.Machine.execReadTemperature1 acc s
  | .readTemperature2 acc => Sys2Proof.Machine.execReadTemperature2 acc s
  | .readPin acc => Sys2Proof.Machine.execReadPin acc s
  | .pmbusRevision acc => Sys2Proof.Machine.execPmbusRevision acc s
  | .mfrId acc => Sys2Proof.Machine.execMfrId acc s
  | .mfrModel acc => Sys2Proof.Machine.execMfrModel acc s
  | .mfrRevision acc => Sys2Proof.Machine.execMfrRevision acc s
  | .mfrSerial acc => Sys2Proof.Machine.execMfrSerial acc s
  | .mfrChannelState acc => Sys2Proof.Machine.execMfrChannelState acc s
  | .mfrFsw acc => Sys2Proof.Machine.execMfrFsw acc s
  | .mfrBootStatus acc => Sys2Proof.Machine.execMfrBootStatus acc s
  | .mfrFeedStatus acc => Sys2Proof.Machine.execMfrFeedStatus acc s
  | .pmbusUnsupportedCommand code acc => Sys2Proof.Machine.execPmbusUnsupportedCommand code acc s
  | .smbusAlertResponse => Sys2Proof.Machine.execSmbusAlertResponse s
  | .pmbusReadUpdate means => Sys2Proof.Machine.execPmbusReadUpdate means s
  | .idcode => Sys2Proof.Machine.execIdcode s
  | .samplePreload pins => Sys2Proof.Machine.execSamplePreload pins s
  | .extest => Sys2Proof.Machine.execExtest s
  | .clamp => Sys2Proof.Machine.execClamp s
  | .highz => Sys2Proof.Machine.execHighz s
  | .bypass tdi => Sys2Proof.Machine.execBypass tdi s
  | .aelheipDebug tdi => Sys2Proof.Machine.execAelheipDebug tdi s
  | .testLogicReset => Sys2Proof.Machine.execTestLogicReset s
  | .bankedReached => Sys2Proof.Machine.execBankedReached s
  | .wakeCause cause h => Sys2Proof.Machine.execWakeCause cause h s
  | .wakeComplete => Sys2Proof.Machine.execWakeComplete s
  | .devSummary src part => Sys2Proof.Machine.execDevSummary src part s
  | .devFence src => Sys2Proof.Machine.execDevFence src s
  | .devReset src key force => Sys2Proof.Machine.execDevReset src key force s
  | .devBank src => Sys2Proof.Machine.execDevBank src s
  | .chanOn src c => Sys2Proof.Machine.execChanOn src c s
  | .chanOff src c => Sys2Proof.Machine.execChanOff src c s
  | .chanReset src c => Sys2Proof.Machine.execChanReset src c s
  | .chanStatus src c => Sys2Proof.Machine.execChanStatus src c s
  | .slotStatus src slot => Sys2Proof.Machine.execSlotStatus src slot s
  | .feedStatus src g => Sys2Proof.Machine.execFeedStatus src g s
  | .feedSelect src g target => Sys2Proof.Machine.execFeedSelect src g target s
  | .feedClear src g feed => Sys2Proof.Machine.execFeedClear src g feed s
  | .feedWarn src g low => Sys2Proof.Machine.execFeedWarn src g low s
  | .twinStatus src pair => Sys2Proof.Machine.execTwinStatus src pair s
  | .schedWrite src offset data ok => Sys2Proof.Machine.execSchedWrite src offset data ok s
  | .schedCheck src id offset length digest => Sys2Proof.Machine.execSchedCheck src id offset length digest s
  | .schedLoad src id offset length digest => Sys2Proof.Machine.execSchedLoad src id offset length digest s
  | .schedStatus src id => Sys2Proof.Machine.execSchedStatus src id s
  | .coneStatus src c => Sys2Proof.Machine.execConeStatus src c s
  | .hkcStatus src h => Sys2Proof.Machine.execHkcStatus src h s
  | .hkcSet src h entry word => Sys2Proof.Machine.execHkcSet src h entry word s
  | .hkcRead src h entry => Sys2Proof.Machine.execHkcRead src h entry s
  | .hkcTrigger src h => Sys2Proof.Machine.execHkcTrigger src h s
  | .spySet src h spy word => Sys2Proof.Machine.execSpySet src h spy word s
  | .spyCapture src h slot => Sys2Proof.Machine.execSpyCapture src h slot s
  | .spyStatus src h spy => Sys2Proof.Machine.execSpyStatus src h spy s
  | .faultStatus src => Sys2Proof.Machine.execFaultStatus src s
  | .faultClear src mask => Sys2Proof.Machine.execFaultClear src mask s
  | .faultRead src first count filter => Sys2Proof.Machine.execFaultRead src first count filter s
  | .faultAck src shard => Sys2Proof.Machine.execFaultAck src shard s
  | .faultReset src source force => Sys2Proof.Machine.execFaultReset src source force s
  | .faultCrash src mark => Sys2Proof.Machine.execFaultCrash src mark s
  | .faultCount src source => Sys2Proof.Machine.execFaultCount src source s
  | .timeSet src tai unc => Sys2Proof.Machine.execTimeSet src tai unc s
  | .timeStatus src => Sys2Proof.Machine.execTimeStatus src s
  | .evtResume src fin dflt entries => Sys2Proof.Machine.execEvtResume src fin dflt entries s
  | .evtAudit src sealId => Sys2Proof.Machine.execEvtAudit src sealId s
  | .evtStatus src => Sys2Proof.Machine.execEvtStatus src s
  | .partStatus src => Sys2Proof.Machine.execPartStatus src s
  | .partReturn src => Sys2Proof.Machine.execPartReturn src s
  | .partTransfer src mask => Sys2Proof.Machine.execPartTransfer src mask s
  | .partReset src => Sys2Proof.Machine.execPartReset src s
  | .worksStatus src => Sys2Proof.Machine.execWorksStatus src s
  | .worksSend src dest inner => Sys2Proof.Machine.execWorksSend src dest inner s
  | .worksSubscribe src origin fromIdx => Sys2Proof.Machine.execWorksSubscribe src origin fromIdx s
  | .worksUnsubscribe src origin => Sys2Proof.Machine.execWorksUnsubscribe src origin s
  | .worksLedger src feedId => Sys2Proof.Machine.execWorksLedger src feedId s
  | .bookStage src offset fresh data => Sys2Proof.Machine.execBookStage src offset fresh data s
  | .bookCommit src length flashOk => Sys2Proof.Machine.execBookCommit src length flashOk s
  | .bookRead src copy offset length => Sys2Proof.Machine.execBookRead src copy offset length s
  | .bookStatus src => Sys2Proof.Machine.execBookStatus src s
  | .fwWrite src offset data ok => Sys2Proof.Machine.execFwWrite src offset data ok s
  | .fwVerify src => Sys2Proof.Machine.execFwVerify src s
  | .fwActivate src reset force => Sys2Proof.Machine.execFwActivate src reset force s
  | .fwRatchet src force => Sys2Proof.Machine.execFwRatchet src force s
  | .fwStatus src => Sys2Proof.Machine.execFwStatus src s
  | .attestIdentity src => Sys2Proof.Machine.execAttestIdentity src s
  | .attestReport src nonce => Sys2Proof.Machine.execAttestReport src nonce s
  | .attestExtend src value => Sys2Proof.Machine.execAttestExtend src value s
  | .attestLog src first count => Sys2Proof.Machine.execAttestLog src first count s
  | .errorCleared code src atNs => Sys2Proof.Machine.execErrorCleared code src atNs s
  | .f10mReturn => Sys2Proof.Machine.execF10mReturn s
  | .ringDmaError => Sys2Proof.Machine.execRingDmaError s
  | .pciePowerStateChange d3 => Sys2Proof.Machine.execPciePowerStateChange d3 s
  | .rstNRelease => Sys2Proof.Machine.execRstNRelease s
  | .worksHelloSend lane => Sys2Proof.Machine.execWorksHelloSend lane s
  | .worksIdleSend lane => Sys2Proof.Machine.execWorksIdleSend lane s
  | .slotLedPhase n => Sys2Proof.Machine.execSlotLedPhase n s
  | .devResetDelayExpiry => Sys2Proof.Machine.execDevResetDelayExpiry s

end Sys2Proof.Machine
end

