-- ==== Sys2Proof/Safety.lean ====
section
/-! DEFINITION. What claims are stated in: the parts of the state, what a command leaves alone, and the form that every step keeps. -/
namespace Sys2Proof.Machine
open Sys2Proof

/-- The parts of the state that a command may change or leave alone: the fields of State, with the flash memory, the fuses and the
measurement slots and log apart from the rest of the boot state. -/
inductive Part where
  | cells | hearths | slots | spies | captures | groups | hks | chans | cones | engines | clusters | links | gbus | feedWord | hblocks
  | frameShadow | frameTick | gbusNew | hkRecs | passes | flash | fuses | measured | boot | books | time | log | coll | pair | works
  | host | pmb | jtag | out | free | pending
deriving DecidableEq, Repr

/-- The part of the state is the same in both states. -/
def Part.same (s t : State) : Part → Prop
  | .cells => t.cells = s.cells
  | .hearths => t.hearths = s.hearths
  | .slots => t.slots = s.slots
  | .spies => t.spies = s.spies
  | .captures => t.captures = s.captures
  | .groups => t.groups = s.groups
  | .hks => t.hks = s.hks
  | .chans => t.chans = s.chans
  | .cones => t.cones = s.cones
  | .engines => t.engines = s.engines
  | .clusters => t.clusters = s.clusters
  | .links => t.links = s.links
  | .gbus => t.gbus = s.gbus
  | .feedWord => t.feedWord = s.feedWord
  | .hblocks => t.hblocks = s.hblocks
  | .frameShadow => t.frameShadow = s.frameShadow
  | .frameTick => t.frameTick = s.frameTick
  | .gbusNew => t.gbusNew = s.gbusNew
  | .hkRecs => t.hkRecs = s.hkRecs
  | .passes => t.passes = s.passes
  | .flash => t.boot.flash = s.boot.flash
  | .fuses => t.boot.fuses = s.boot.fuses
  | .measured => t.boot.slots = s.boot.slots ∧ t.boot.mlog = s.boot.mlog ∧ t.boot.mcount = s.boot.mcount
  | .boot => { t.boot with flash := [], fuses := 0, slots := [], mlog := [], mcount := 0 } =
      { s.boot with flash := [], fuses := 0, slots := [], mlog := [], mcount := 0 }
  | .books => t.books = s.books
  | .time => t.time = s.time
  | .log => t.log = s.log
  | .coll => t.coll = s.coll
  | .pair => t.pair = s.pair
  | .works => t.works = s.works
  | .host => t.host = s.host
  | .pmb => t.pmb = s.pmb
  | .jtag => t.jtag = s.jtag
  | .out => t.out = s.out
  | .free => t.free = s.free
  | .pending => t.pending = s.pending

/-- `t` is `s` but for the parts of `w`. -/
def Agree (w : List Part) (s t : State) : Prop := ∀ p, p ∉ w → p.same s t

/-- What a command may change: the parts of the state that the rules of its effect name; every other part it leaves alone. -/
def touches : Instr → List Part
  | .powerOn .. | .rstNLow .. | .bar0ResetWrite .. | .pairResetFrame .. | .devResetDelayExpiry .. =>
    [.cells, .hearths, .slots, .spies, .captures, .groups, .hks, .chans, .cones, .engines, .clusters, .links, .gbus, .feedWord, .hblocks, .frameShadow, .frameTick, .gbusNew, .hkRecs, .passes, .measured, .boot, .books, .time, .log, .coll, .pair, .works, .host, .pmb]
  | .alwaysOnPower .. => [.hearths, .slots]
  | .logicRailsAbsent .. => [.cells, .hearths, .spies, .hks, .chans]
  | .logicRailsPresent .. | .ackFrame .. | .paramEventRequest .. => [.hearths]
  | .bisqueEnd .. => [.hearths, .flash, .fuses, .measured, .boot, .log, .coll, .host, .out, .free]
  | .imageStart .. => [.cells, .hearths, .hks, .chans, .flash, .measured, .boot, .host, .out, .free]
  | .glazeTimerExpiry .. => [.boot]
  | .glazeBookCommit .. =>
    [.cells, .hearths, .slots, .spies, .captures, .groups, .hks, .chans, .engines, .clusters, .flash, .measured, .boot, .books, .time, .log, .coll, .pair, .works, .host, .out]
  | .draw .. => [.cells, .hearths, .slots, .hks, .chans, .flash, .boot, .time, .log, .coll, .pair, .works, .host, .out]
  | .fuseRecheck .. | .fatalError .. | .twinOpen .. | .hostLost .. => [.boot, .log, .coll, .host, .out]
  | .watchdogExpired .. | .crownRailFault .. | .crownOverTemperature .. => [.boot, .log, .coll, .host, .out, .free]
  | .errorDetected .. => [.chans, .engines, .clusters, .boot, .log, .coll, .host, .out]
  | .crashSectorCopy .. | .reactionShadowEnd .. => [.coll]
  | .hearthFaultDetected .. | .saggarHoldEntry .. | .cmdKeep .. | .cmdReady .. | .cmdRamp .. | .cmdFull .. | .cmdGood .. | .cmdCool .. 
  | .cmdLock .. | .cmdOff .. | .cmdOn .. | .cmdReset .. | .cmdTrip .. | .cmdPgDrop .. | .cmdPgRaise .. | .cmdReserved .. | .claimFrame .. 
  | .claimAcceptance .. | .fastTrip .. | .passTransistorShort .. | .fallbackBreakerTrip .. => [.cells, .hearths, .hks, .chans]
  | .faultEventWindowEnd .. | .gapHoldTimeout .. | .hostReturn .. | .errorCleared .. => [.log, .coll, .host]
  | .laneFailed .. => [.hearths, .boot, .log, .coll, .pair, .host, .out]
  | .laneFailoverComplete .. | .startDelayElapsed .. | .rampDeadline .. | .progressWindowEnd .. | .pgDwellComplete .. | .gateHoldCheck .. 
  | .breakerTrip .. | .backoffEnd .. => [.cells, .hearths, .hks, .chans, .links, .out]
  | .laneResetAttempt .. => [.hearths, .pair]
  | .laneRetrained .. => [.hearths, .log, .coll, .pair, .host]
  | .hearthTick .. => [.cells, .hearths, .slots, .spies, .captures, .groups, .hks, .host, .pmb, .out]
  | .timeIslandTick .. =>
    [.cells, .hearths, .spies, .hks, .chans, .cones, .engines, .clusters, .links, .boot, .time, .log, .coll, .pair, .works, .host, .pmb, .out]
  | .clusterTick .. => [.cells, .hearths, .hks, .chans, .cones, .engines, .clusters, .links, .boot, .log, .coll, .host, .out, .free]
  | .parameterBankSwap .. => [.chans, .engines, .clusters]
  | .sampleFrame .. => [.chans, .clusters, .links, .gbus, .frameShadow, .frameTick, .gbusNew, .hkRecs]
  | .stateFrame .. =>
    [.cells, .hearths, .slots, .spies, .captures, .groups, .hks, .chans, .cones, .engines, .clusters, .links, .feedWord, .hblocks, .boot, .log, .coll, .pair, .works, .host, .out, .free]
  | .eventFrame .. => [.chans, .links, .boot, .log, .coll, .works, .host, .out]
  | .tickFrame .. | .spyThrottleWindowEnd .. => [.hearths, .spies]
  | .idleFrame .. => []
  | .frameCrcFail .. | .reservedFrameType .. => [.hearths, .boot, .log, .coll, .host, .out, .free]
  | .paramEnvelopeWrite .. | .paramIgRegWrite .. => [.cells, .hearths]
  | .paramHearthReset .. => [.cells, .hearths, .spies, .captures, .groups, .hks, .chans, .log, .coll, .host]
  | .paramConfigWrite .. => [.cells, .hearths, .slots, .spies, .captures, .groups, .hks, .chans, .log, .coll, .host]
  | .releaseFrame .. | .gateDischargeFailure .. => [.cells, .hearths, .hks, .chans, .free]
  | .seatChange .. | .slotLedPhase .. => [.slots]
  | .debounceComplete .. => [.cells, .hearths, .slots, .hks, .chans, .boot, .host]
  | .slotRemoval .. => [.cells, .hearths, .slots, .hks, .chans]
  | .consentEvaluation .. | .allocReq .. | .grant .. | .refuse .. | .ledgerRelease .. | .announce .. | .confirm .. | .retract .. | .move .. 
  | .standing .. | .freed .. | .ledgerAnnounceSend .. | .ledgerHoldLapse .. | .standingSend .. =>
    [.hearths, .chans, .links, .log, .works, .host, .out]
  | .gateOffConfirmation .. => [.cells, .hearths, .hks, .chans, .links, .log, .coll, .host, .out]
  | .soakDurationEnd .. | .decayInterval .. => [.chans]
  | .stateSkew .. => [.cells, .hearths, .hks, .chans, .links, .boot, .log, .coll, .host, .out]
  | .uvTimeReached .. => [.hearths, .links, .boot, .log, .coll, .host, .out]
  | .twinReturn .. | .coneWait .. | .allocNoAnswer .. => [.hearths, .chans, .links, .out]
  | .coneUpdate .. => [.hearths, .cones, .engines, .clusters, .links, .boot, .log, .coll, .host, .out]
  | .prebendWarnTime .. | .soaPersistence .. => [.cones]
  | .tsnsTimeout .. | .coneDivergence .. => [.cones, .boot, .log, .coll, .host, .out]
  | .tsnsFaultEnd .. => [.cones, .log, .coll, .host]
  | .checkUnitFailure .. | .engineFailed .. | .recomputationComplete .. | .opOut .. | .opLdp .. | .opLdm .. | .reservedOpcode .. =>
    [.chans, .engines, .boot, .log, .coll, .host, .out]
  | .engineTakeover .. =>
    [.hearths, .chans, .cones, .engines, .links, .gbus, .frameShadow, .frameTick, .gbusNew, .boot, .log, .coll, .host, .out]
  | .unhostedRehost .. => [.hearths, .chans, .cones, .engines, .links, .gbus, .frameShadow, .frameTick, .gbusNew, .log, .coll, .host, .out]
  | .clusterClockLoss .. => [.chans, .engines, .clusters, .boot, .log, .coll, .host, .out, .free]
  | .packingEdge .. | .noticeAdoptRequest .. => [.spies, .hks, .chans, .cones, .engines, .links, .boot, .log, .coll, .pair, .host, .out]
  | .unpackingEdge .. => [.chans, .engines, .boot]
  | .opNop .. | .opEnd .. | .opLdi .. | .opLui .. | .opMov .. | .opLds .. | .opSts .. | .opAdd .. | .opSub .. | .opAdds .. | .opSubs .. 
  | .opAddi .. | .opMin .. | .opMax .. | .opAbs .. | .opMul .. | .opDiv .. | .opShl .. | .opShr .. | .opShru .. | .opAnd .. | .opOr .. 
  | .opXor .. | .opAndi .. | .opCmp .. | .opCmpi .. | .opSel .. | .opAddw .. | .opSubw .. | .opSubwz .. | .opAccf .. | .opCmpw .. 
  | .opPwl .. | .opPacc .. | .opPole .. | .opCheck .. | .opPeerchk .. | .opBr .. | .opBbs .. | .opBbc .. | .opRloop .. => [.engines]
  | .opInu .. | .opIns .. => [.chans, .engines, .boot, .log, .coll, .host, .out, .free]
  | .opNarw .. => [.engines, .free]
  | .opMism .. => [.cells, .hearths, .hks, .chans, .engines, .links, .boot, .log, .coll, .host, .out]
  | .hkTimerTrigger .. | .hkStartEventTrigger .. | .hkUrgentTrigger .. => [.hks]
  | .hkConversionComplete .. => [.hearths, .hks, .log, .coll, .host, .free]
  | .hkPassEnd .. => [.hks, .passes]
  | .spyholeCrossing .. => [.hearths, .spies, .groups]
  | .spyholeFilterComplete .. | .spyholeStartCompare .. => [.hearths, .spies, .captures, .groups, .hks]
  | .sampledTick .. => [.cells, .hearths, .spies, .captures, .groups, .hks, .boot, .host]
  | .confirmExpiry .. | .reverseCurrent .. | .shadowEnd .. | .warningRelease .. | .returnDwell .. => [.hearths, .groups]
  | .pathDrop .. | .selectorDischargeTimeout .. | .rechargeOvertime .. => [.hearths, .groups, .free]
  | .warnLeadEnd .. => [.groups]
  | .selectorBreak .. => [.hearths, .groups, .hks, .log, .coll, .host]
  | .gapExpiry .. | .feedFirstMake .. | .feedMakeFromNone .. => [.hearths, .groups, .hks]
  | .rechargeEnd .. => [.hearths, .groups, .log, .coll, .host]
  | .offStateShort .. => [.hearths, .groups, .log, .coll, .host, .free]
  | .ppsEdge .. | .f10mReturn .. => [.time, .log, .coll, .host]
  | .ppsAbsent .. | .f10mLoss .. => [.boot, .time, .log, .coll, .host, .out]
  | .timeStep .. => [.time, .log, .host]
  | .auditSeal .. => [.log, .host]
  | .sealSigned .. => [.log]
  | .heartbeatEmit .. | .ownHearthSaggarNotice .. => [.pair, .out]
  | .heartbeatFrame .. | .heartbeatPulse .. => [.log, .coll, .pair, .host]
  | .heartbeatPathSilent .. => [.boot, .log, .coll, .pair, .host, .out]
  | .partnerSilent .. => [.spies, .hks, .chans, .cones, .engines, .links, .boot, .log, .coll, .pair, .works, .host, .out]
  | .adoptionClaimTimeout .. => [.chans, .cones, .engines, .boot, .log, .coll, .pair, .host, .out]
  | .checkpointTick .. => [.cones, .pair, .out]
  | .checkpointFrame .. => [.spies, .hks, .chans, .cones, .engines, .boot, .log, .coll, .pair, .works, .host, .out]
  | .pairHello .. | .resetDelayExpiry .. => [.log, .pair, .host, .out]
  | .bookFrame .. => [.clusters, .measured, .books, .log, .pair, .works, .host]
  | .noticeBanked .. | .noticeAwake .. => [.pair]
  | .noticeReady .. => [.cells, .hearths, .hks, .chans, .cones, .engines, .links, .boot, .log, .pair, .works, .host, .out, .free]
  | .noticeReleased .. => [.cells, .hearths, .hks, .chans, .links, .log, .pair, .works, .host, .out]
  | .returnDelayExpiry .. | .partReturn .. | .partTransfer .. | .partReset .. => [.boot, .log, .pair, .works, .host, .out]
  | .timesync .. => [.time, .log, .works, .host, .out, .free]
  | .timesyncSend .. | .route .. | .addrFlood .. | .zunakAck .. => [.works, .out]
  | .worksHello .. | .worksLinkFailed .. => [.boot, .time, .log, .coll, .works, .host, .out]
  | .worksBlockLock .. | .worksLaneRetrain .. | .worksLaneUpTimeout .. | .worksHelloSend .. => [.boot, .log, .coll, .works, .host, .out]
  | .routePeriodic .. | .addr .. | .worksEventFrame .. => [.log, .works, .host, .out]
  | .retransmitTimeout .. | .worksIdleSend .. => [.out]
  | .zunakFrameDiscard .. => [.boot, .log, .coll, .works, .host, .out, .free]
  | .keeperUnreachable .. | .forwardTagWait .. | .subscriptionUnreachable .. => [.works]
  | .commandFrame .. | .worksSendTimeout .. | .commandStart .. | .devSummary .. | .devFence .. | .devReset .. | .twinStatus .. 
  | .schedCheck .. | .hkcRead .. | .faultStatus .. | .faultRead .. | .faultCount .. | .timeStatus .. | .evtResume .. | .evtAudit .. 
  | .evtStatus .. | .worksStatus .. | .worksSend .. | .worksSubscribe .. | .worksUnsubscribe .. | .worksLedger .. | .bookRead .. 
  | .bookStatus .. | .fwVerify .. | .fwStatus .. | .attestIdentity .. | .attestReport .. | .attestLog .. => [.boot, .works, .host, .out]
  | .responseFrame .. | .ringDelivery .. => [.works, .host, .out]
  | .mboxLockWrite .. | .ringEnableWrite .. | .consWrite .. | .spiUnknownInstruction .. | .pciePowerStateChange .. => [.host]
  | .mboxDoorbell .. | .commandDone .. => [.boot, .host, .out]
  | .wakeCauseRead .. | .timeNowRead .. | .evtwEntryRead .. | .coalesceTimer .. | .spiReadStatus .. | .ringDmaError .. => [.host, .out]
  | .registerWrite .. | .spiWrite .. | .spiQuadWrite .. =>
    [.cells, .hearths, .slots, .spies, .captures, .groups, .hks, .chans, .cones, .engines, .clusters, .links, .gbus, .feedWord, .hblocks, .frameShadow, .frameTick, .gbusNew, .hkRecs, .passes, .measured, .boot, .books, .time, .log, .coll, .pair, .works, .host, .pmb, .out]
  | .spiRead .. | .spiQuadRead .. => [.host, .out, .free]
  | .page .. | .clearFaults .. | .capability .. | .voutMode .. | .statusByte .. | .statusWord .. | .statusInput .. | .statusTemperature .. 
  | .statusCml .. | .statusMfrSpecific .. | .readVin .. | .readIin .. | .readVout .. | .readTemperature1 .. | .readTemperature2 .. 
  | .readPin .. | .pmbusRevision .. | .mfrId .. | .mfrModel .. | .mfrRevision .. | .mfrSerial .. | .mfrChannelState .. | .mfrFsw .. 
  | .mfrBootStatus .. | .mfrFeedStatus .. | .pmbusUnsupportedCommand .. | .smbusAlertResponse .. => [.pmb]
  | .pmbusReadUpdate .. => [.pmb, .free]
  | .idcode .. | .samplePreload .. | .extest .. | .clamp .. | .highz .. | .bypass .. | .aelheipDebug .. | .testLogicReset .. => [.jtag]
  | .bankedReached .. => [.boot, .time, .log, .host]
  | .wakeCause .. => [.boot, .host]
  | .wakeComplete .. =>
    [.cells, .hearths, .spies, .hks, .chans, .cones, .engines, .clusters, .links, .boot, .log, .coll, .pair, .works, .host, .out]
  | .devBank .. => [.cells, .hearths, .spies, .hks, .chans, .boot, .pair, .works, .host, .out, .free]
  | .chanOn .. | .chanOff .. | .chanReset .. => [.chans, .boot, .works, .host, .out]
  | .chanStatus .. | .slotStatus .. | .feedStatus .. | .schedStatus .. | .spyStatus .. | .partStatus .. =>
    [.boot, .works, .host, .out, .free]
  | .feedSelect .. => [.hearths, .groups, .links, .boot, .works, .host, .out, .free]
  | .feedClear .. => [.hearths, .groups, .links, .boot, .log, .coll, .works, .host, .out, .free]
  | .feedWarn .. | .hkcSet .. | .spySet .. =>
    [.cells, .hearths, .slots, .spies, .captures, .groups, .hks, .chans, .links, .boot, .log, .coll, .works, .host, .out]
  | .schedWrite .. | .fwWrite .. => [.flash, .boot, .log, .coll, .works, .host, .out]
  | .schedLoad .. => [.engines, .clusters, .measured, .boot, .books, .works, .host, .out]
  | .coneStatus .. => [.cones, .boot, .works, .host, .out, .free]
  | .hkcStatus .. => [.hks, .links, .boot, .works, .host, .out, .free]
  | .hkcTrigger .. => [.hks, .links, .boot, .works, .host, .out]
  | .spyCapture .. => [.captures, .links, .boot, .works, .host, .out, .free]
  | .faultClear .. | .faultAck .. | .faultCrash .. => [.boot, .coll, .works, .host, .out]
  | .faultReset .. =>
    [.cells, .hearths, .spies, .captures, .groups, .hks, .chans, .engines, .clusters, .links, .boot, .log, .coll, .pair, .works, .host, .out]
  | .timeSet .. => [.boot, .time, .log, .works, .host, .out]
  | .bookStage .. => [.boot, .books, .works, .host, .out]
  | .bookCommit .. =>
    [.cells, .hearths, .slots, .spies, .captures, .groups, .hks, .chans, .engines, .clusters, .hkRecs, .passes, .flash, .measured, .boot, .books, .time, .log, .coll, .pair, .works, .host, .out, .free]
  | .fwActivate .. => [.flash, .boot, .works, .host, .out]
  | .fwRatchet .. => [.fuses, .boot, .works, .host, .out]
  | .attestExtend .. => [.measured, .boot, .works, .host, .out]
  | .rstNRelease .. => [.boot, .jtag]

/-- The form that every reachable state has: every table in its one canonical form, so that equal contents are equal data, the flash memory
among them; eight measurement slots and at most 512 logged extensions (15 R408, R409); at most 16,384 records in the event log (12 R327) and
64 seals kept (12 R329). -/
structure State.Wf (s : State) : Prop where
  cells : tabWf {} s.cells = true
  hearths : tabWf {} s.hearths = true
  slots : tabWf {} s.slots = true
  spies : tabWf {} s.spies = true
  captures : tabWf {} s.captures = true
  groups : tabWf {} s.groups = true
  hks : tabWf {} s.hks = true
  chans : tabWf {} s.chans = true
  cones : tabWf {} s.cones = true
  engines : tabWf {} s.engines = true
  clusters : tabWf {} s.clusters = true
  links : tabWf {} s.links = true
  gbus : tabWf (0, false) s.gbus = true
  feedWord : tabWf 0 s.feedWord = true
  hblocks : tabWf 0 s.hblocks = true
  frameShadow : tabWf false s.frameShadow = true
  frameTick : tabWf 0 s.frameTick = true
  gbusNew : tabWf false s.gbusNew = true
  hkRecs : tabWf (0, 0, 0) s.hkRecs = true
  passes : tabWf 0 s.passes = true
  flash : tabWf 0xFF s.boot.flash = true
  measureSlots : s.boot.slots.length = 8
  measureLog : s.boot.mlog.length ≤ 512
  records : s.log.recs.length ≤ 16384
  seals : s.log.seals.length ≤ 64

/-- `t` is `s` but for engine `e`. -/
def OnlyEngine (e : Nat) (s t : State) : Prop := Agree [.engines] s t ∧ ∀ j, j ≠ e → t.engine j = s.engine j

/-- The engine does not stand before the end of an RLOOP body, so the next address follows (10 R275). -/
def GoesOn (E : Engine) : Prop := ∀ first target left, E.loop = some (first, target, left) → E.pc + 1 ≠ target

/-- Engine `F` is engine `E` but for its registers, flags, address, slots spent and replay loop. -/
def EngineRest (E F : Engine) : Prop :=
  F = { E with regs := F.regs, z := F.z, n := F.n, c := F.c, v := F.v, pc := F.pc, slots := F.slots, loop := F.loop, catchUp := F.catchUp }

/-- Engine `F` goes on from `E` after `slots` slots with these flags: at the next address, and Z and N as an RLOOP body's end sets them
only there (10 R275). -/
def Onward (E F : Engine) (slots : Nat) (z n c v : Bool) : Prop :=
  EngineRest E F ∧ F.slots = E.slots + slots ∧ F.c = c ∧ F.v = v ∧
  (GoesOn E → F.pc = (E.pc + 1) % 8192 ∧ F.loop = E.loop ∧ F.catchUp = E.catchUp ∧ F.z = z ∧ F.n = n)

/-- The instruction completes on engine `e`: g[rd] gets `val` (g0 discards it), no other register changes, the flags become these, and nothing
else of the machine changes. -/
def WritesReg (i : Instr) (e : EngineNo) (rd : Reg) (val : W24) (slots : Nat) (z n c v : Bool) (s : State) : Prop :=
  ∃ t, exec i s = .next t ∧ OnlyEngine e s t ∧ Onward (s.engine e) (t.engine e) slots z n c v ∧
    regGet (t.engine e) rd = (if rd = 0 then 0 else val) ∧ ∀ r, r ≠ rd → regGet (t.engine e) r = regGet (s.engine e) r

/-- The instruction completes on engine `e` and changes flags only. -/
def WritesFlags (i : Instr) (e : EngineNo) (slots : Nat) (z n c v : Bool) (s : State) : Prop :=
  ∃ t, exec i s = .next t ∧ OnlyEngine e s t ∧ Onward (s.engine e) (t.engine e) slots z n c v ∧
    ∀ r, regGet (t.engine e) r = regGet (s.engine e) r

/-- The instruction completes on engine `e`: the pair gets `val`, no other register changes, the flags become these, and nothing else of
the machine changes. -/
def WritesPair (i : Instr) (e : EngineNo) (rd : Pair) (val : BitVec 48) (slots : Nat) (z n c v : Bool) (s : State) : Prop :=
  ∃ t, exec i s = .next t ∧ OnlyEngine e s t ∧ Onward (s.engine e) (t.engine e) slots z n c v ∧
    pairGet (t.engine e) rd = val ∧ ∀ r : Reg, r.val ≠ pairReg rd → r.val ≠ pairReg rd + 1 → regGet (t.engine e) r = regGet (s.engine e) r

/-- The instruction completes on engine `e` and goes on at `target` when `taken`, else at the next address; a taken branch costs 2 slots, one
not taken 1 (10 R261). No register, flag or memory changes. -/
def Branches (i : Instr) (e : EngineNo) (taken : Bool) (target : Nat) (s : State) : Prop :=
  ∃ t, exec i s = .next t ∧ OnlyEngine e s t ∧
    ((∀ f g l, (s.engine e).loop = some (f, g, l) → target ≠ g ∧ (s.engine e).pc + 1 ≠ g) →
      t.engine e = { s.engine e with pc := if taken then target else ((s.engine e).pc + 1) % 8192
                                     slots := (s.engine e).slots + if taken then 2 else 1 })

/-- `x` is the exact quotient `num / den` rounded by a mode (10 R266): to nearest with ties away from zero, up, or down. -/
def IsRounded (m : Rnd) (num : Int) (den : Nat) (x : Int) : Prop :=
  match m with
  | .up => num ≤ x * den ∧ (x - 1) * den < num
  | .down => x * den ≤ num ∧ num < (x + 1) * den
  | .near => 2 * (x * den - num).natAbs ≤ den ∧ (2 * (x * den - num).natAbs = den → num.natAbs < (x * den).natAbs)

/-- `w` is an integer saturated to 24 bits, and `o` says that it saturated (10 R266). -/
def IsSat (x : Int) (w : W24) (o : Bool) : Prop :=
  (x < -8388608 ∧ w = 0x800000#24 ∧ o = true) ∨ (8388607 < x ∧ w = 0x7FFFFF#24 ∧ o = true) ∨
  (-8388608 ≤ x ∧ x ≤ 8388607 ∧ w.toInt = x ∧ o = false)

/-- The sum of two words of the 24-bit datapath leaves its signed range. -/
def Overflows (x : Int) : Bool := decide (x < -8388608 ∨ 8388607 < x)

/-- The collector, with no shadow running, has latched every FSW bit of the error (11 R284, R289). -/
def FswLatched (s t : State) (code src : Nat) : Prop :=
  s.coll.shadows = [] → errClass code ≠ 3 → ∀ b ∈ fswBits code src, b < 64 → t.coll.fsw.getLsbD b = true

/-- The word that an engine reads at one of its 16 input words: the word of this tick, inside RLOOP that of the catch-up tick (09 R233, 10
R263, R275). -/
def IsInput (E : Engine) (p : Nat) (w : BitVec 16) : Prop :=
  (E.loop = none → w = tabGet 0 E.ins p) ∧
  (∀ first target n, E.loop = some (first, target, n + 1) → w = tabGet 0 (E.hist.getD n []) p)

/-- A UF24 in units of 2^-81: 0 for exponent 0, else (2^18 + M) x 2^(E-1) (10 R265). -/
def uf24Value (u : W24) : Nat := if u.toNat / 2 ^ 18 = 0 then 0 else (2 ^ 18 + u.toNat % 2 ^ 18) * 2 ^ (u.toNat / 2 ^ 18 - 1)

/-- Two Crown records differ at most in the counters and timers that a channel's cell moves: SEATS, LOCKS, TRIPS, the retry count, A and the
under-voltage timer (02 R69, R74). -/
def ChanKept (A B : ChanSt) : Prop :=
  B = { A with seats := B.seats, locks := B.locks, trips := B.trips, a := B.a, uvRun := B.uvRun, uvTicks := B.uvTicks, retry := B.retry }

/-- Two hearth records differ at most in the sequence numbers, the errors that last, and in records added to the outbox. -/
def HearthKept (A B : HearthSt) : Prop := B = { A with seqs := B.seqs, lasting := B.lasting, outbox := B.outbox } ∧ A.outbox <+: B.outbox

/-- `t` is `s` but for channel `c`'s cell, what of its Crown record a cell moves, and its hearth's event records and urgent triggers. -/
structure OnChan (c : Nat) (s t : State) : Prop where
  cells : ∀ j, j ≠ c → t.cell j = s.cell j
  chans : ∀ j, j ≠ c → t.chan j = s.chan j
  chan : ChanKept (s.chan c) (t.chan c)
  hearths : ∀ h, h ≠ hOf c → t.hearth h = s.hearth h
  hks : ∀ h, h ≠ hOf c → t.hk h = s.hk h
  hearth : HearthKept (s.hearth (hOf c)) (t.hearth (hOf c))

/-- The hearth is powered and acts on CMD and PARAM frames of the port: it holds the accepted claim there, and is neither in Saggar hold nor in
hearth fault (13 R349, 11 R299). -/
def Listens (s : State) (h : Nat) (p : Port) : Prop :=
  (s.hearth h).logic = true ∧ (s.hearth h).held = true ∧ (s.hearth h).holder = p ∧ (s.hearth h).admitting = false ∧
  (s.hearth h).saggar = false ∧ (s.hearth h).fault = false

/-- The hearth gave the channel's word up: REFUSED is set, and the cell is otherwise as it was (09 R240, R241). -/
def WordRefused (s t : State) (c : Nat) (w : BitVec 16) : Prop :=
  t.cell c = { s.cell c with kept := some w, refused := true, lastRefused := some w, refusals := (t.cell c).refusals }

/-- The event record that a hearth stamped last. -/
def lastStamp (s : State) (h : Nat) : Option EventRec := (s.hearth h).outbox.getLast?

/-- The command completes: exec answers a next state, of which `P` holds. -/
def Completes (i : Instr) (s : State) (P : State → Prop) : Prop := ∃ t, exec i s = .next t ∧ P t

/-- The Crown after a device reset (11 R303): all its state is cleared but the fuses, the flash, what its images are good for and the crash
sector; boot restarts at Bisque. The reaction shadows of the hearths that are reset run (11 R295). -/
structure CrownAtReset (s t : State) : Prop where
  channels : t.chans = [] ∧ t.cones = [] ∧ t.gbus = [] ∧ t.feedWord = [] ∧ t.hblocks = [] ∧ t.frameShadow = [] ∧ t.frameTick = [] ∧
    t.gbusNew = [] ∧ t.hkRecs = [] ∧ t.passes = [] ∧ t.links = []
  engines : t.engines = [] ∧ t.clusters = []
  units : t.books = {} ∧ t.time = {} ∧ t.log = {} ∧ t.pair = {} ∧ t.works = {} ∧ t.host = {} ∧ t.pmb = { addr := t.pmb.addr }
  coll : ∃ l, t.coll = { crash := s.coll.crash, crashUnread := s.coll.crashUnread, shadows := l } ∧ ∀ sh ∈ l, sh.code = 4 ∧ sh.index < 8 ∧
    (s.hearth sh.index).alwaysOn = true
  boot : t.boot = { rails := t.boot.rails, rstLow := t.boot.rstLow, fuses := s.boot.fuses, flash := s.boot.flash
                    badA := s.boot.badA, badB := s.boot.badB }

/-- An own hearth after a device reset (11 R304): one held under an accepted claim of the partner is kept; any other with power holds every
gate low, with no claim and its release flag cleared. -/
def HearthsAtReset (s t : State) : Prop :=
  ∀ h : Hearth, (s.hearth h).alwaysOn = true →
    let kept := (s.hearth h).held = true ∧ (s.hearth h).holder = .cross ∧ (s.hearth h).admitting = false
    (kept → (t.hearth h).held = true ∧ (t.hearth h).holder = .cross ∧ (t.hearth h).claim = (s.hearth h).claim ∧
      ∀ k : Local, t.cell (64 * h.val + k.val) = s.cell (64 * h.val + k.val)) ∧
    (¬ kept → (t.hearth h).released = false ∧ (t.hearth h).held = false ∧ (t.hearth h).claim = 0 ∧ (t.hearth h).saggar = true ∧
      (t.hearth h).fault = false ∧ ∀ k : Local, let D := t.cell (64 * h.val + k.val)
        gateLow D.gate = true ∧ D.pg = false ∧ D.tripReg = 0xF000 ∧ D.igReg = 1 ∧ D.configured = false)

/-- The device is in Cracked, by a fatal error of this code whose shard the crash copy will keep (11 R300). -/
def CrackedBy (t : State) (code : Nat) : Prop :=
  t.boot.cracked = true ∧ t.boot.devState = 5 ∧ t.coll.fsw.getLsbD 63 = true ∧ t.coll.fsw.getLsbD 62 = true ∧ t.coll.copyDue = true ∧
  ∃ x, t.coll.fatalSh = some x ∧ x.code.toNat = code ∧ x.cls = 3

/-- The collector keeps the shard numbered `id` in `t`. -/
def HasShard (t : State) (id : BitVec 16) (P : Shard → Prop) : Prop := ∃ x ∈ t.coll.shards, x.id = id ∧ P x

/-- A trip request of the Sitter with this bit of its causes (09 R236): the commanded state is Tripped, and at an own hearth that obeys this
device a new word trips the channel there. -/
def TripAsked (s t : State) (c bit : Nat) : Prop :=
  (t.chan c).commanded = .tripped ∧ (t.chan c).tripReq = true ∧ fld (t.chan c).cmd 12 4 = 10 ∧ (t.chan c).cmd.getLsbD bit = true ∧
  (c < 512 → Listens s (hOf c) .loc → (s.cell c).tickCauses = 0 → (s.cell c).kept ≠ some (t.chan c).cmd →
    (s.cell c).state = .ramping ∨ (s.cell c).state = .full ∨ (s.cell c).state = .good →
    (t.cell c).state = .tripped ∧ gateLow (t.cell c).gate = true ∧ (t.cell c).pg = false ∧ (t.cell c).tripReg.getLsbD (bit + 1) = true)

/-- The event record of an error that a hearth reported: code, source and the error's code in its payload (11 R283). -/
def ErrorStamped (t : State) (h src code : Nat) : Prop :=
  ∃ e ∈ (t.hearth h).outbox, e.code = 0x1501 ∧ e.source.toNat = src ∧ e.payload.toNat % 65536 = code

/-- A sequence trigger at a housekeeping sequencer (06 R172): it starts a pass, becomes the pending trigger, or is counted and dropped. -/
def SeqTriggered (K L : Hk) : Prop :=
  (K.running = false → L.running = true ∧ L.entriesNext = [] ∧ L.inputPos = 0 ∧ L.markFirst = false ∧ L.overruns = K.overruns) ∧
  (K.running = true → K.pending = false → L = { K with pending := true, overrun := true, startDue := L.startDue }) ∧
  (K.running = true → K.pending = true → L = { K with overruns := satInc16 K.overruns, startDue := L.startDue })

/-- The latest record of the event log, of a Crown source (12 R320, R327). -/
def Logged (t : State) (src code : Nat) : Prop := ∃ r, t.log.recs.head? = some r ∧ r.source.toNat = src ∧ r.code.toNat = code

/-- The event log admits records: the chain runs and the device is not in Cracked (12 R328, R331). -/
def Logging (s : State) : Prop := s.log.running = true ∧ s.boot.cracked = false

/-- `t` is `s` but for hearth `h`'s feed group, its event records and its housekeeping sequencer; and where the hearth has an error that lasts,
what the collector and the log make of its end. -/
structure OnGroup (h : Nat) (s t : State) : Prop where
  groups : ∀ j, j ≠ h → t.group j = s.group j
  hearths : ∀ j, j ≠ h → t.hearth j = s.hearth j
  hearth : HearthKept (s.hearth h) (t.hearth h)
  hks : ∀ j, j ≠ h → t.hk j = s.hk j
  rest : Agree [.groups, .hearths, .hks, .free, .log, .coll, .host] s t
  still : (s.hearth h).lasting = [] → Agree [.groups, .hearths, .hks, .free] s t

/-- What the part sends: `t` has sent this after everything of `s`. -/
def Sends (s t : State) (l : List Out) : Prop := t.out = s.out ++ l

/-- The latest record of the event log is this Crown record, where the log admits records (12 R320, R327, R328). -/
def Stamped (s t : State) (src code : Nat) (l : List (Nat × Nat)) : Prop :=
  Logging s → ∃ r, t.log.recs.head? = some r ∧ r.source.toNat = src ∧ r.code.toNat = code ∧ r.payload = pay l

/-- The frame that goes next on the pair lane, with the fields of its payload (13 R335). -/
def pairFrame (s : State) (type hearth : Nat) (payload : List (Nat × Nat)) : Out :=
  .frame .pair (linkFrame type hearth 0 s.pair.tx s.time.tick (payBlocks payload))

/-- The frame that the Crown sends next to hearth `h` (01 R19). -/
def downFrame (s : State) (h type : Nat) (payload : List (Nat × Nat)) : Out :=
  .frame (.down h) (linkFrame type (h % 8) (downLane s h) (s.link h).tx s.time.tick (payBlocks payload))

/-- A frame on lane `n` that takes no LSEQ: IDLE and ACK (14 R366, R367; log entry 161). -/
def plainFrame (s : State) (n type : Nat) (payload : List (Nat × Nat)) : Out :=
  .frame (.works n) (worksFrame type 0 (wAddr s) 0 (s.wlane n).lseqOut (payBlocks payload))

/-- The ACK of the frame that lane `n` accepts next (14 R367). -/
def ackOf (s : State) (n : WLane) : Out := plainFrame s n 8 [(16, (s.wlane n).lseqIn.toNat)]

/-- The frame that lane `n` sends with its next LSEQ: destination, source, hops and payload (14 R364). -/
def nextFrame (s : State) (n type dest src hops : Nat) (payload : List (Nat × Nat)) : Out :=
  .frame (.works n) (worksFrame type dest src hops (s.wlane n).lseqOut (payBlocks payload))

/-- A frame of the retransmit buffer as it goes out (14 R367). -/
def bufferedFrame (n : Nat) (f : WFrame) : Out :=
  .frame (.works n) (worksFrame f.type.toNat f.dest.toNat f.src.toNat f.hops.toNat f.lseq f.payload)

/-- Frames with the LSEQs from `q` on. -/
def numbered (q : BitVec 16) : List WFrame → List WFrame
  | [] => []
  | f :: r => { f with lseq := q } :: numbered (q + 1) r

/-- The retransmit buffer of lane `n`, of 64 frames, has room (14 R367). -/
def HasRoom (s : State) (n : Nat) : Prop := (s.wlane n).unacked.length < 64

/-- A frame that is a lane's next in order, or goes on with the LEDGER frame just accepted, is taken (14 R367). -/
def Arrives (s : State) (n : WLane) (lseq : BitVec 16) (cont : Bool) : Prop :=
  worksOn s = true ∧ (s.wlane n).state = .up ∧ (if cont then lseq + 1 = (s.wlane n).lseqIn else lseq = (s.wlane n).lseqIn)

/-- The lane's next frame was taken and acknowledged before anything else went out; an entry that continues a frame is not acknowledged again. -/
def Acked (s t : State) (n : WLane) (cont : Bool) : Prop :=
  if cont then (t.wlane n).lseqIn = (s.wlane n).lseqIn
  else (t.wlane n).lseqIn = (s.wlane n).lseqIn + 1 ∧ ∃ l, Sends s t (ackOf s n :: l)

/-- The lane that serves a destination: the DORMANT lane of a Banked neighbour, or the route's (14 R369, R385). -/
def servingLane (s : State) (dest : Nat) : Option Nat :=
  match dormantLane s dest with
  | some n => some n
  | none => if reachable s dest then some (routeOf s dest).2 else none

/-- A frame with HOPS 30 was discarded and counted; any other frame for another device went on along the route of its destination with HOPS
raised by 1, now or once the lane has room, or was discarded and counted on the lane it came by (14 R367, R368). -/
def Forwarded (s t : State) (n : WLane) (h : WorksHdr) (type : Nat) (payload : List (Nat × Nat)) : Prop :=
  let ack := if h.cont then [] else [ackOf s n]
  if 30 ≤ h.hops.toNat then Sends s t ack ∧ (t.wlane n).lost = if h.cont then (s.wlane n).lost else satInc (s.wlane n).lost
  else match servingLane s h.dest.toNat with
    | none => Sends s t ack ∧ (t.wlane n).lost = satInc (s.wlane n).lost
    | some m =>
      (HasRoom s m → Sends s t (ack ++ [nextFrame s m type h.dest.toNat h.src.toNat (h.hops.toNat + 1) payload])) ∧
      (¬ HasRoom s m → Sends s t ack ∧ (t.wlane m).queued.length = (s.wlane m).queued.length + 1)

/-- A command that its source runs with this opcode and request body: exec answers it with a status and a response body, and with its effect
`u` where the body fits (16 R420, R422; 17 R443). -/
def Runs (i : Instr) (src : CmdSrc) (op : Nat) (req : List Byte) (s u : State) (st : Nat) (body : List Byte) : Prop :=
  cmdIs s src op req = true → exec i s = .next (setAnswer (if bodyFits (srcBox s src) body.length then u else s) src st body)

/-- A command that its source runs takes effect, of which `P` holds, and is answered with status 0 and this body, where that fits. -/
def Acts (i : Instr) (src : CmdSrc) (op : Nat) (req : List Byte) (s : State) (body : List Byte) (P : State → Prop) : Prop :=
  cmdIs s src op req = true → bodyFits (srcBox s src) body.length = true → ∃ u, exec i s = .next (setAnswer u src 0 body) ∧ P u

/-- A hand-over starts with the lowest hearth of a mask (13 R357). -/
def HandStarts (s t : State) (mask : BitVec 8) (transfer : Bool) (src : CmdSrc) : Prop :=
  ∃ j : Hearth, t.pair.handing = some j ∧ mask.getLsbD j = true ∧ (∀ k : Hearth, k < j → mask.getLsbD k = false) ∧ t.pair.returnDue = true ∧
    t.pair.transfer = transfer ∧ t.pair.handSrc = some src ∧ t.pair.handMask = maskClr mask j ∧ t.pair.state = s.pair.state

end Sys2Proof.Machine
end

