-- ==== Sys2Proof/Certificates/Slice0/Obligations.lean ====
section
/-! DEFINITION. The statements for the provers. -/
open Sys2Proof Sys2Proof.Machine

/-- A step runs the command at the front of the queue on the state with the queue's rest. -/
def Obligations.StepRunsFront : Prop :=
  ∀ (c : Instr) (rest : List Instr) (s : State), step { s with pending := c :: rest } = exec c { s with pending := rest }

/-- No command stops the machine but AELHEIP_DEBUG, and that one only while the fuse DEBUG_LOCK (fuse bit 73, 15 R389) reads 0. -/
def Obligations.OnlyDebugStops : Prop :=
  (∀ (c : Instr) (s : State), (∀ b, c ≠ .aelheipDebug b) → ∃ t, exec c s = .next t) ∧
  ∀ (b : Bool) (s : State), ((∃ t, exec (.aelheipDebug b) s = .next t) ↔ debugLock s = true) ∧
    (debugLock s = false → exec (.aelheipDebug b) s = .refused .debugNotGiven)

/-- What a command leaves alone: when it completes, every part of the state outside the parts of `touches` is the same as before. -/
def Obligations.CommandFootprint : Prop := ∀ (c : Instr) (s t : State), exec c s = .next t → Agree (touches c) s t

/-- No command changes the queue of the commands that wait behind it; on an empty queue a step changes nothing (the model's choice, log entry
5). -/
def Obligations.QueueIsKept : Prop :=
  (∀ (c : Instr) (s t : State), exec c s = .next t → t.pending = s.pending) ∧ ∀ s : State, s.pending = [] → step s = .next s

/-- Every step keeps the form of the state: each table canonical, eight measurement slots, at most 512 logged extensions, at most 16,384 records
in the log and 64 seals. The model's own choices that it rests on: log entry 3. -/
def Obligations.StepKeepsForm : Prop := ∀ s t : State, s.Wf → step s = .next t → t.Wf

/-- The state right after reset has that form. The model's own choices that it rests on: log entry 3. -/
def Obligations.ResetHasForm : Prop := State.reset.Wf

/-- What the spec gives for reset: channels Vacant with PG low, no cause in the trip register and the gate pulled down; hearths in Saggar hold,
not held; UNSET time at tick 0; boot stage 1; Fault Status Word clear; counters, ring, mailboxes and measurement slots at their reset
values. The model's own choices that it rests on: log entry 2. -/
def Obligations.ResetValues : Prop :=
  let s := State.reset
  s.pending = [] ∧
  (∀ c : OwnChan, (s.cell c).state = .vacant ∧ (s.cell c).pg = false ∧ (s.cell c).tripReg = 0xF000 ∧ (s.cell c).iset = 0 ∧
    (s.cell c).igReg = 1 ∧ (s.cell c).kept = none) ∧
  (∀ h : Hearth, (s.hearth h).saggar = true ∧ (s.hearth h).held = false ∧ (s.hearth h).admitting = false ∧ (s.hearth h).claim = 0 ∧
    (s.hearth h).fault = false ∧ (s.hearth h).released = false ∧ (s.hearth h).rampAllow = 4) ∧
  (∀ c : Chan, (s.chan c).seats = 0 ∧ (s.chan c).trips = 0 ∧ (s.chan c).retry = 0 ∧ (s.chan c).locks = 0 ∧ (s.chan c).skews = 0 ∧
    (s.chan c).goodTime = 0 ∧ (s.cone c).anchored = false ∧ (s.cone c).head = 0) ∧
  (∀ g : Hearth, (s.group g).phase = .idle ∧ (s.group g).sel = none ∧ (s.group g).forced = false ∧ (s.group g).nextId = 0) ∧
  s.time.tick = 0 ∧ s.time.state = 0 ∧ s.boot.stage = 1 ∧ s.boot.drawMs = 0xFF ∧ s.boot.cracked = false ∧ s.boot.packed = false ∧
  s.boot.slots = List.replicate 8 0 ∧ s.coll.fsw = 0 ∧ s.coll.shards = [] ∧ s.coll.lost = 0 ∧ s.pair.state = 0 ∧
  (∀ m : MboxNo, (s.mbox m).lock = 0 ∧ (s.mbox m).phase = 0 ∧ (s.mbox m).doneSeq = 0 ∧ (s.mbox m).overrun = false) ∧
  s.host.ringOn = false ∧ s.host.ringSize = 0x0A ∧ s.host.coalTime = 0x64 ∧ s.host.coalCount = 0x10 ∧ s.host.prod = 0 ∧ s.host.cons = 0 ∧
  s.host.irqStatus = 0 ∧ s.host.irqMask = 0 ∧ s.host.mboxDone = 0

/-- LDI, LUI, MOV, SEL, NOP and END, from any state (10 R269). -/
def Obligations.EngineMoves : Prop :=
  ∀ (e : EngineNo) (rd ra rb : Reg) (imm : BitVec 16) (top : BitVec 8) (cond : Cond) (s : State),
    let E := s.engine e
    let a := regGet E ra
    WritesReg (.opLdi e rd imm) e rd (imm.signExtend 24) 1 E.z E.n E.c E.v s ∧
    WritesReg (.opLui e rd top) e rd (top ++ (regGet E rd).extractLsb' 0 16) 1 E.z E.n E.c E.v s ∧
    WritesReg (.opMov e rd ra) e rd a 1 (decide (a = 0)) a.msb E.c E.v s ∧
    WritesReg (.opSel e rd ra rb cond) e rd (if condHolds E cond then a else regGet E rb) 1 E.z E.n E.c E.v s ∧
    WritesFlags (.opNop e) e 1 E.z E.n E.c E.v s ∧
    ∃ t, exec (.opEnd e) s = .next t ∧ OnlyEngine e s t ∧ (t.engine e).ended = true ∧
      ∀ r, regGet (t.engine e) r = regGet E r

/-- ADD, SUB, ADDI, ADDS, SUBS, CMP and CMPI, from any state: results, the four flags, and nothing else (10 R266, R269). -/
def Obligations.EngineSums : Prop :=
  ∀ (e : EngineNo) (rd ra rb : Reg) (imm : BitVec 16) (s : State),
    let E := s.engine e
    let a := regGet E ra
    let b := regGet E rb
    let i : W24 := imm.signExtend 24
    let sum (i : Instr) (b : W24) := WritesReg i e rd (a + b) 1 (decide (a + b = 0)) (a + b).msb
      (decide (2 ^ 24 ≤ a.toNat + b.toNat)) (Overflows (a.toInt + b.toInt)) s
    let diff (b : W24) (p : Bool → Bool → Bool → Bool → Prop) :=
      p (decide (a = b)) (a - b).msb (decide (a.toNat < b.toNat)) (Overflows (a.toInt - b.toInt))
    let sat (i : Instr) (x : Int) := ∃ w o, IsSat x w o ∧ WritesReg i e rd w 1 (decide (w = 0)) w.msb E.c o s
    sum (.opAdd e rd ra rb) b ∧ sum (.opAddi e rd ra imm) i ∧
    diff b (fun z n c v => WritesReg (.opSub e rd ra rb) e rd (a - b) 1 z n c v s) ∧
    diff b (fun z n c v => WritesFlags (.opCmp e ra rb) e 1 z n c v s) ∧
    diff i (fun z n c v => WritesFlags (.opCmpi e ra imm) e 1 z n c v s) ∧
    sat (.opAdds e rd ra rb) (a.toInt + b.toInt) ∧ sat (.opSubs e rd ra rb) (a.toInt - b.toInt)

/-- AND, OR, XOR, ANDI, MIN, MAX, ABS, SHR and SHRU, from any state: results with Z and N; and SHL, whose V says that a bit unlike the sign was
lost (10 R269). The model's own choices that it rests on: log entry 30. -/
def Obligations.EngineLogic : Prop :=
  ∀ (e : EngineNo) (rd ra rb : Reg) (imm : BitVec 16) (sh : Fin 32) (sl : Fin 24) (s : State),
    let E := s.engine e
    let a := regGet E ra
    let b := regGet E rb
    let zn (i : Instr) (w : W24) := WritesReg i e rd w 1 (decide (w = 0)) w.msb E.c E.v s
    zn (.opAnd e rd ra rb) (a &&& b) ∧ zn (.opOr e rd ra rb) (a ||| b) ∧ zn (.opXor e rd ra rb) (a ^^^ b) ∧
    zn (.opAndi e rd ra imm) (a &&& imm.zeroExtend 24) ∧
    (∃ w, (w = a ∨ w = b) ∧ w.toInt ≤ a.toInt ∧ w.toInt ≤ b.toInt ∧ zn (.opMin e rd ra rb) w) ∧
    (∃ w, (w = a ∨ w = b) ∧ a.toInt ≤ w.toInt ∧ b.toInt ≤ w.toInt ∧ zn (.opMax e rd ra rb) w) ∧
    (∃ w o, IsSat (a.toInt.natAbs : Int) w o ∧ WritesReg (.opAbs e rd ra) e rd w 1 (decide (w = 0)) w.msb E.c o s) ∧
    zn (.opShr e rd ra sh) (BitVec.ofInt 24 (a.toInt / 2 ^ sh.val)) ∧
    zn (.opShru e rd ra sh) (BitVec.ofNat 24 (a.toNat / 2 ^ sh.val)) ∧
    (∃ w : W24, w = BitVec.ofNat 24 (a.toNat * 2 ^ sl.val) ∧
      WritesReg (.opShl e rd ra sl) e rd w 1 (decide (w = 0)) w.msb E.c
        (decide (∃ j, j < sl.val ∧ a.getLsbD (23 - j) ≠ a.msb)) s)

/-- MUL and DIV, from any state: the exact result rounded by the mode, saturated to 24 bits with V; a divisor of 0 or less saturates by the sign
of the dividend (10 R266, R269). -/
def Obligations.EngineProducts : Prop :=
  ∀ (e : EngineNo) (rd ra rb : Reg) (shift : Fin 32) (rnd : Rnd) (s : State),
    let E := s.engine e
    let a := (regGet E ra).toInt
    let b := (regGet E rb).toInt
    let done (i : Instr) (slots : Nat) (w : W24) (o : Bool) := WritesReg i e rd w slots (decide (w = 0)) w.msb E.c o s
    (∃ x w o, IsRounded rnd (a * b) (2 ^ shift.val) x ∧ IsSat x w o ∧ done (.opMul e rd ra rb shift rnd) 1 w o) ∧
    (0 < b → ∃ x w o, IsRounded rnd (a * 2 ^ shift.val) b.toNat x ∧ IsSat x w o ∧ done (.opDiv e rd ra rb shift rnd) 8 w o) ∧
    (b ≤ 0 → 0 ≤ a → done (.opDiv e rd ra rb shift rnd) 8 0x7FFFFF#24 true) ∧
    (b ≤ 0 → a < 0 → done (.opDiv e rd ra rb shift rnd) 8 0x800000#24 true)

/-- ADDW, SUBW, SUBWZ, ACCF, CMPW and NARW, from any state (10 R265, R269, R271). A shift of NARW outside -23 to 31 has no stated result: the
instruction completes with a free value (log entry 15). -/
def Obligations.EngineWide : Prop :=
  ∀ (e : EngineNo) (rd : Reg) (pd pa pb : Pair) (rb : Reg) (s : State),
    let E := s.engine e
    let a := pairGet E pa
    let b := pairGet E pb
    let r := regGet E rb
    (∃ w : BitVec 48, w = BitVec.ofInt 48 (a.toNat + r.toInt) ∧
      WritesPair (.opAddw e pd pa rb) e pd w 1 (decide (w = 0)) w.msb
        (decide (2 ^ 48 ≤ a.toNat + (r.toInt % 2 ^ 48).toNat)) E.v s) ∧
    WritesPair (.opSubw e pd pa pb) e pd (a - b) 1 (decide (a = b)) (a - b).msb (decide (a.toNat < b.toNat)) E.v s ∧
    WritesPair (.opSubwz e pd pa pb) e pd (BitVec.ofNat 48 (a.toNat - b.toNat)) 1 (decide (a.toNat ≤ b.toNat)) E.n E.c E.v s ∧
    WritesFlags (.opCmpw e pa pb) e 1 (decide (a = b)) E.n (decide (a.toNat < b.toNat)) E.v s ∧
    (∃ inc : Nat,
      (fld r 18 6 = 0 → inc = 0) ∧
      (fld r 18 6 ≠ 0 → (2 ^ 18 + fld r 0 18) * 2 ^ fld r 18 6 ≤ inc * 2 ^ 36 ∧
        inc * 2 ^ 36 < (2 ^ 18 + fld r 0 18) * 2 ^ fld r 18 6 + 2 ^ 36) ∧
      WritesPair (.opAccf e pd pa rb) e pd (BitVec.ofNat 48 (min (a.toNat + inc) (2 ^ 48 - 1))) 2
        (decide (a.toNat + inc = 0)) E.n E.c (decide (2 ^ 48 ≤ a.toNat + inc)) s) ∧
    (-23 ≤ r.toInt → r.toInt ≤ 31 → ∃ x w o,
      IsRounded .up (a.toInt * 2 ^ (-r.toInt).toNat) (2 ^ r.toInt.toNat) x ∧ IsSat x w o ∧
      WritesReg (.opNarw e rd pa rb) e rd w 1 (decide (w = 0)) w.msb E.c o s) ∧
    (¬ (-23 ≤ r.toInt ∧ r.toInt ≤ 31) → ∃ t, exec (.opNarw e rd pa rb) s = .next t ∧ Agree [.engines, .free] s t ∧
      (∀ j, j ≠ e.val → t.engine j = s.engine j) ∧ ∀ q, q ≠ rd → regGet (t.engine e) q = regGet E q)

/-- LDP, LDS, STS and LDM, from any state: the parameter bank at (ADDR + g[RA]) mod 256, state memory at (ADDR + g[RA]) mod 512, and the peer
role's mirror slot at ADDR, as it stood at the end of the tick before this one; a store changes that one word of memory and no register (10
R263, R269). An absolute LDP address of 256 or more and an LDM address of 32 or more are fields that the checker rejects: the engine fails
(10 R277, R279). -/
def Obligations.EngineMemory : Prop :=
  ∀ (e : EngineNo) (rd ra : Reg) (addr : Fin 512) (s : State),
    let E := s.engine e
    let k := addr.val + (regGet E ra).toNat
    let zn (i : Instr) (w : W24) := WritesReg i e rd w 1 (decide (w = 0)) w.msb E.c E.v s
    let n := (s.cluster (e.val / 64)).tick
    let p := if e.val < 512 then e.val + 512 else e.val - 512
    let fails (i : Instr) := ∃ t, exec i s = .next t ∧ (t.engine e).failed = true ∧ ∀ j, j ≠ e.val → t.engine j = s.engine j
    (¬ (ra = 0 ∧ 256 ≤ addr.val) → zn (.opLdp e rd ra addr) (tabGet 0 (if E.active = 0 then E.bank0 else E.bank1) (k % 256))) ∧
    (ra = 0 → 256 ≤ addr.val → fails (.opLdp e rd ra addr)) ∧
    zn (.opLds e rd ra addr) (tabGet 0 E.mem (k % 512)) ∧
    (addr.val < 32 → (s.engine p).ranTick < n → zn (.opLdm e rd addr) (tabGet 0 (mirrorOf s p).words addr)) ∧
    (addr.val < 32 → n ≤ (s.engine p).ranTick → zn (.opLdm e rd addr) (tabGet 0 (mirrorOf s p).old addr)) ∧
    (32 ≤ addr.val → fails (.opLdm e rd addr)) ∧
    ∃ t, exec (.opSts e rd ra addr) s = .next t ∧ OnlyEngine e s t ∧
      (∀ a, tabGet 0 (t.engine e).mem a = if a = k % 512 then regGet E rd else tabGet 0 E.mem a) ∧
      Onward { E with mem := (t.engine e).mem } (t.engine e) 1 E.z E.n E.c E.v ∧
      ∀ r, regGet (t.engine e) r = regGet E r

/-- INU and INS zero- and sign-extend the port's word, from any state; a read of REQ (0x0C) outside a replay marks the request read (09 R237);
the reserved words 0x10 to 0x3F are fields that the checker rejects, and the engine fails (10 R277, R279); a port number of 0x40 or more
names no input word and gives a free value (log entry 14). -/
def Obligations.EngineInputs : Prop :=
  ∀ (e : EngineNo) (rd : Reg) (p : Fin 128) (s : State),
    let E := s.engine e
    let reads (i : Instr) (f : BitVec 16 → W24) := ∃ (w : BitVec 16) (t : State), exec i s = .next t ∧
      Agree [.engines, .free] s t ∧ (∀ j, j ≠ e.val → t.engine j = s.engine j) ∧
      (p.val < 16 → IsInput E p w ∧ t.free = s.free) ∧
      (p.val ≠ 0x0C → (t.engine e).reqRead = E.reqRead) ∧
      (p.val = 0x0C → E.loop = none → (t.engine e).reqRead = true) ∧
      regGet (t.engine e) rd = (if rd = 0 then 0 else f w) ∧
      (∀ r, r ≠ rd → regGet (t.engine e) r = regGet E r) ∧
      Onward { E with reqRead := (t.engine e).reqRead } (t.engine e) 1 (decide (f w = 0)) (f w).msb E.c E.v
    let fails (i : Instr) := ∃ t, exec i s = .next t ∧ (t.engine e).failed = true ∧ ∀ j, j ≠ e.val → t.engine j = s.engine j
    let reserved := 16 ≤ p.val ∧ p.val < 64
    (¬ reserved → reads (.opInu e rd p) (·.zeroExtend 24) ∧ reads (.opIns e rd p) (·.signExtend 24)) ∧
    (reserved → fails (.opInu e rd p) ∧ fails (.opIns e rd p))

/-- OUT (10 R269, R276; 09 R234, R238): outside a replay words 0x40 to 0x45, 0x48 and 0x49 latch the register's low half; a nonzero EVT_CODE
(0x43) queues a request, or counts it as dropped when four wait; inside a replay other words keep their values; words 0x4A to 0x5F are
ignored; any other port number is a field that the checker rejects, and the engine fails (10 R277). The model's own choices that it rests
on: log entries 36, 37. -/
def Obligations.EngineOutputs : Prop :=
  ∀ (e : EngineNo) (p : Fin 128) (rs : Reg) (s : State),
    let E := s.engine e
    let v : BitVec 16 := (regGet E rs).extractLsb' 0 16
    let field := (0x40 ≤ p.val ∧ p.val ≤ 0x45) ∨ p.val = 0x48 ∨ p.val = 0x49
    ∃ t, exec (.opOut e p rs) s = .next t ∧
      (field → E.loop = none → ∀ q, tabGet 0 (t.engine e).outs q = if q = p.val then v else tabGet 0 E.outs q) ∧
      (field → ∀ f g n, E.loop = some (f, g, n + 1) → (t.engine e).outs = E.outs) ∧
      (p.val = 0x43 → v ≠ 0 → E.events.length < 4 → ∃ q, (t.engine e).events = E.events ++ [q] ∧ q.code = v) ∧
      (p.val = 0x43 → v ≠ 0 → 4 ≤ E.events.length → (t.engine e).events = E.events ∧ (t.engine e).dropped = E.dropped + 1) ∧
      (¬ (p.val = 0x43 ∧ v ≠ 0) → (t.engine e).events = E.events) ∧
      (0x4A ≤ p.val → p.val ≤ 0x5F → (t.engine e).outs = E.outs) ∧
      (field ∨ 0x4A ≤ p.val ∧ p.val ≤ 0x5F → OnlyEngine e s t ∧ ∀ r, regGet (t.engine e) r = regGet E r) ∧
      (¬ field → ¬ (0x4A ≤ p.val ∧ p.val ≤ 0x5F) → (t.engine e).failed = true)

/-- PWL, from any state (10 R265, R270): below the table and above it the end point's y; between two points, the x values rising there, the
rounded interpolation in the linear modes, and in the UF24 mode the least UF24 not below the exact interpolation. -/
def Obligations.EnginePwl : Prop :=
  ∀ (e : EngineNo) (rd ra rb : Reg) (base : BitVec 8) (rnd : Rnd) (s : State),
    let E := s.engine e
    let par (j : Nat) : W24 := parGet E (base.toNat + (regGet E rb).toNat % 256 + j)
    let x := (regGet E ra).toInt
    let xs (j : Nat) := (par (2 * j)).toInt
    let ys (j : Nat) := (par (2 * j + 1)).toInt
    let us (j : Nat) : Int := uf24Value (par (2 * j + 1))
    let done (m : PwlMode) (w : W24) (n v : Bool) := WritesReg (.opPwl e rd ra rb base m) e rd w 4 E.z n E.c v s
    (∀ m, x ≤ xs 0 → done m (par 1) true false) ∧
    (∀ m, xs 0 < x → xs 7 < x → done m (par 15) false true) ∧
    ∀ k, k < 7 → xs 0 < x → x ≤ xs 7 → xs k < x → x ≤ xs (k + 1) → (∀ j, j < k → xs (j + 1) < x) →
      (∃ q w, IsRounded rnd (ys k * (xs (k + 1) - xs k) + (ys (k + 1) - ys k) * (x - xs k)) (xs (k + 1) - xs k).toNat q ∧
        w.toInt = q ∧ done (.lin rnd) w false false) ∧
      ∃ w, done .uf24 w false false ∧
        us k * (xs (k + 1) - xs k) + (us (k + 1) - us k) * (x - xs k) ≤ (uf24Value w : Int) * (xs (k + 1) - xs k) ∧
        ∀ u : W24, us k * (xs (k + 1) - xs k) + (us (k + 1) - us k) * (x - xs k) ≤ (uf24Value u : Int) * (xs (k + 1) - xs k) →
          uf24Value w ≤ uf24Value u

/-- PACC adds ceil(P / 64) to each pole's running energy and raises its running maximum, P being the larger register in Full and Good, else
g[RA], and 0 when negative; nothing else of the memory changes (10 R272). Stated where the three records do not run past the memory's end. -/
def Obligations.EnginePower : Prop :=
  ∀ (e : EngineNo) (ra rb : Reg) (s : State),
    let E := s.engine e
    let a := (regGet E ra).toInt
    let b := (regGet E rb).toInt
    let st := (inWord E 6).toNat / 4096
    let p := (if st = 4 ∨ st = 5 then max a b else a).toNat
    let base := (parGet E 3).toNat / 2 ^ 15
    base + 15 ≤ 512 →
    ∃ t, exec (.opPacc e ra rb) s = .next t ∧ OnlyEngine e s t ∧
      Onward { E with mem := (t.engine e).mem } (t.engine e) 2 E.z E.n E.c E.v ∧
      (∀ r, regGet (t.engine e) r = regGet E r) ∧
      (∀ i : Fin 3, let F := t.engine e
        mem48 F (base + 5 * i + 1) = mem48 E (base + 5 * i + 1) + BitVec.ofNat 48 ((p + 63) / 64) ∧
        (memGet F (base + 5 * i + 3)).toNat % 2 ^ 23 = max ((memGet E (base + 5 * i + 3)).toNat % 2 ^ 23) p ∧
        (memGet F (base + 5 * i + 3)).msb = (memGet E (base + 5 * i + 3)).msb) ∧
      ∀ w, w < 512 → (∀ i : Fin 3, w ≠ base + 5 * i + 1 ∧ w ≠ base + 5 * i + 2 ∧ w ≠ base + 5 * i + 3) →
        tabGet 0 (t.engine e).mem w = tabGet 0 E.mem w

/-- POLE, from any state: not due, it sets Z in 3 slots and writes nothing; due, it takes 10 slots, clears the energy and the running maximum,
marks the service, and writes theta and the integration term, each rounded up and saturated (10 R273). The model's own choices that it rests
on: log entry 71. -/
def Obligations.EnginePole : Prop :=
  ∀ (e : EngineNo) (i : Fin 3) (s : State),
    let E := s.engine e
    let r := (parGet E 3).toNat / 2 ^ 15 + 5 * i.val
    let q := (parGet E 3).toNat % 2 ^ 8 + 8 * i.val
    let delta := 2 ^ ((parGet E (q + 5)).toNat % 32)
    let leff := if E.packed then max delta 4 else delta
    let due := (s.cluster (e.val / 64)).tick % leff = 0
    (¬ due → WritesFlags (.opPole e i) e 3 true E.n E.c E.v s) ∧
    (due → r + 5 ≤ 512 → ∃ t pbar x y eint o o', exec (.opPole e i) s = .next t ∧ OnlyEngine e s t ∧
      let F := t.engine e
      let l := if (memGet E (r + 3)).msb = true ∧ delta < 4 then 4 else delta
      let pick (j : Nat) := (parGet E (q + if l = delta then j else j + 2)).toInt
      Onward { E with mem := F.mem } F 10 false E.n E.c E.v ∧ (∀ g, regGet F g = regGet E g) ∧
      IsRounded .up ((mem48 E (r + 1)).toInt * 64) l pbar ∧
      IsRounded .up ((memGet E r).toInt * pick 0) (2 ^ 23) x ∧ IsRounded .up (pbar * pick 1) (2 ^ 17) y ∧
      IsSat (x + y) (memGet F r) o ∧
      IsRounded .up (((memGet E (r + 3)).toNat % 2 ^ 23 : Nat) * (parGet E (q + 4)).toInt) (2 ^ 17) eint ∧
      IsSat eint (memGet F (r + 4)) o' ∧
      mem48 F (r + 1) = 0 ∧ (memGet F (r + 3)).toNat % 2 ^ 23 = 0 ∧ (memGet F (r + 3)).msb = E.packed ∧
      ∀ w, w < 512 → w < r ∨ r + 5 ≤ w → tabGet 0 F.mem w = tabGet 0 E.mem w)

/-- CHECK writes the tick's low byte and the low 24 bits of the CRC-32C of the carry region into output words 0x46 and 0x47 and no other;
PEERCHK sets Z when the peer's mirror slot, as it stood at the end of the tick before, has the DIGEST of the PEER words (09 R243, 10 R274);
the CRC is the one of log entry 8. -/
def Obligations.EngineChecks : Prop :=
  ∀ (e : EngineNo) (s : State),
    let E := s.engine e
    let p := if e.val < 512 then e.val + 512 else e.val - 512
    let P := s.engine p
    let slot := if (s.cluster (e.val / 64)).tick ≤ P.ranTick then (mirrorOf s p).old else (mirrorOf s p).words
    (∃ t crc, exec (.opCheck e) s = .next t ∧ OnlyEngine e s t ∧
      crc = (crc32c ((List.range ((parGet E 2).toNat % 64)).flatMap fun i =>
        toLe 3 (memGet E ((parGet E 2).toNat / 2 ^ 15 + i)).toNat)).toNat ∧
      (tabGet (0 : BitVec 16) (t.engine e).outs 0x46).toNat = crc % 2 ^ 16 ∧
      (tabGet (0 : BitVec 16) (t.engine e).outs 0x47).toNat =
        crc / 2 ^ 16 % 2 ^ 8 + 2 ^ 8 * ((s.cluster (e.val / 64)).tick % 256) ∧
      (∀ q, q ≠ 0x46 → q ≠ 0x47 → tabGet (0 : BitVec 16) (t.engine e).outs q = tabGet 0 E.outs q) ∧
      Onward { E with outs := (t.engine e).outs, wrote := (t.engine e).wrote } (t.engine e) 4 E.z E.n E.c E.v ∧
      ∀ r, regGet (t.engine e) r = regGet E r) ∧
    ∀ d, d = (crc32c ((List.range ((parGet P 2).toNat % 64)).flatMap fun i => toLe 3 (tabGet (0 : W24) slot i).toNat)).toNat % 2 ^ 24 →
      WritesFlags (.opPeerchk e) e 4 (decide (d = (inWord E 0xE).toNat + 2 ^ 16 * ((inWord E 0xF).toNat % 256))) E.n E.c E.v s

/-- BR, BBS, BBC and RLOOP complete in every state. A branch goes to TARGET or on, in 2 slots or 1 (10 R261, R268, R269); a place that is the
end of an RLOOP body starts the next catch-up tick at the body's first address, with Z and N saying which roles are not replayed, and after
the last catch-up tick TARGET follows (10 R275). RLOOP outside a replay goes to TARGET at once, and in a replay it enters its body. The
model's own choices that it rests on: log entry 37. -/
def Obligations.EngineBranches : Prop :=
  ∀ (e : EngineNo) (ra : Reg) (bit : Fin 24) (target : Fin 8192) (s : State),
    let E := s.engine e
    let br (c : Cond) (b : Bool) := Branches (.opBr e c target) e b target s
    let completes (i : Instr) := ∃ t, exec i s = .next t ∧ OnlyEngine e s t ∧ (t.engine e).mem = E.mem ∧ ∀ r, regGet (t.engine e) r = regGet E r
    (∀ c, completes (.opBr e c target)) ∧ completes (.opBbs e ra bit target) ∧ completes (.opBbc e ra bit target) ∧
    completes (.opRloop e target) ∧
    br .al true ∧ br .eq E.z ∧ br .ne (!E.z) ∧ br .lt (E.n != E.v) ∧ br .ge (E.n == E.v) ∧
    br .gt (!E.z && (E.n == E.v)) ∧ br .le (E.z || (E.n != E.v)) ∧ br .lo E.c ∧ br .hs (!E.c) ∧ br .vs E.v ∧ br .vc (!E.v) ∧
    br .mi E.n ∧ br .pl (!E.n) ∧
    Branches (.opBbs e ra bit target) e ((regGet E ra).getLsbD bit) target s ∧
    Branches (.opBbc e ra bit target) e (!(regGet E ra).getLsbD bit) target s ∧
    (E.catchUp = 0 → E.loop = none → ∃ t, exec (.opRloop e target) s = .next t ∧ OnlyEngine e s t ∧
      t.engine e = { E with slots := E.slots + 1, pc := target }) ∧
    (E.catchUp = 0 → ∀ first n, E.loop = some (first, target.val, n) → ∃ t, exec (.opRloop e target) s = .next t ∧ OnlyEngine e s t ∧
      t.engine e = (if 1 < n then { E with slots := E.slots + 1, pc := first, loop := some (first, target.val, n - 1), z := !E.loopCone
                                           n := !E.loopSitter }
                    else { E with slots := E.slots + 1, pc := target, loop := none })) ∧
    (E.catchUp = 0 → ∀ first other n, other ≠ target.val → E.loop = some (first, other, n) → ∃ t, exec (.opRloop e target) s = .next t ∧
      OnlyEngine e s t ∧ t.engine e = { E with slots := E.slots + 1, pc := target }) ∧
    (∀ c first n, condHolds E c = true → E.loop = some (first, target.val, n) → ∃ t, exec (.opBr e c target) s = .next t ∧ OnlyEngine e s t ∧
      t.engine e = (if 1 < n then { E with slots := E.slots + 2, pc := first, loop := some (first, target.val, n - 1), z := !E.loopCone
                                           n := !E.loopSitter }
                    else { E with slots := E.slots + 2, pc := target, loop := none, catchUp := 0 })) ∧
    (E.catchUp ≠ 0 → ∃ t, exec (.opRloop e target) s = .next t ∧ OnlyEngine e s t ∧
      t.engine e = { E with slots := E.slots + 1, pc := (E.pc + 1) % 8192, z := !E.loopCone, n := !E.loopSitter,
                            loop := some ((E.pc + 1) % 8192, target.val, E.catchUp) }) ∧
    (∀ first n, E.loop = some (first, E.pc + 1, n + 2) → ∃ t, exec (.opNop e) s = .next t ∧
      t.engine e = { E with slots := E.slots + 1, pc := first, loop := some (first, E.pc + 1, n + 1), z := !E.loopCone, n := !E.loopSitter }) ∧
    (∀ first, E.loop = some (first, E.pc + 1, 1) → ∃ t, exec (.opNop e) s = .next t ∧
      t.engine e = { E with slots := E.slots + 1, pc := E.pc + 1, loop := none, catchUp := 0 })

/-- MISM, from any state: the first mismatch of the engine's channel freezes the tick and a further one is counted, the collector latches engine
disagreement, and no register changes (09 R247, 10 R274); a reserved opcode fails the engine as a double-bit error does (10 R277). The
model's own choices that it rests on: log entries 66, 72. -/
def Obligations.EngineMismatch : Prop :=
  ∀ (e : EngineNo) (code : MismCode) (word : BitVec 32) (s : State),
    let c := engChan s e
    (∃ t, exec (.opMism e code) s = .next t ∧ (t.chan c).frozen = true ∧
      ((s.chan c).frozen = true → (t.chan c).mismatches = (s.chan c).mismatches + 1) ∧
      FswLatched s t 0x20C (srcChan c) ∧ (∀ r, regGet (t.engine e) r = regGet (s.engine e) r) ∧
      ∀ j, j ≠ e.val → t.engine j = s.engine j) ∧
    ∃ t, exec (.reservedOpcode e word) s = .next t ∧ (t.engine e).failed = true ∧
      ((s.engine e).failed = false → FswLatched s t 0x215 (srcEngine e)) ∧ ∀ j, j ≠ e.val → t.engine j = s.engine j

/-- State requests of a command word that differs from the word kept, at a hearth that listens to the port and no fast trip of this tick stands
on the channel (09 R235, R240; 02 R49): the request that R49 allows, with the gate mode that its target permits, moves the channel. A CMD
frame's first word and its further ones alike. The model's own choices that it rests on: log entries 39, 40. -/
def Obligations.CommandWordsMove : Prop :=
  ∀ (h : Hearth) (p : Port) (k : Local) (lo tick : BitVec 12) (cont : Bool) (s : State),
    let c := 64 * h.val + k.val
    let C := s.cell c
    let done (i : Instr) (code : Nat) (P : Cell → Prop) := ∃ t, exec i s = .next t ∧ P (t.cell c) ∧
      (t.cell c).kept = some (BitVec.ofNat 16 (code * 4096 + lo.toNat)) ∧ (∀ j, j ≠ c → t.cell j = s.cell j)
    let fresh (code : Nat) := C.kept ≠ some (BitVec.ofNat 16 (code * 4096 + lo.toNat)) ∧ bitOf C.tickCauses 0 = false
    let gmode := lo.toNat / 1024
    Listens s h p →
    (fresh 1 → gmode = 0 → C.state = .seated ∨ (C.state = .cooling ∧ 4000 * fld C.env.word 36 8 ≤ C.offTicks) →
      done (.cmdReady h p k lo tick cont) 1 (fun D => D.state = .ready)) ∧
    (fresh 2 → gmode ≠ 0 → C.state = .ready → bitOf C.env.word 26 = true → feedSelected (s.group h).phase = true →
      rampingCount s h < (s.hearth h).rampAllow → done (.cmdRamp h p k lo tick cont) 2 (fun D => D.state = .ramping)) ∧
    (fresh 3 → gmode = 3 → C.state = .ramping → C.gateFull = true → done (.cmdFull h p k lo tick cont) 3 (fun D => D.state = .full)) ∧
    (fresh 4 → gmode = 3 → C.state = .full → C.gateFull = true →
      done (.cmdGood h p k lo tick cont) 4 (fun D => D.state = .good ∧ D.pg = true)) ∧
    (fresh 5 → gmode = 0 → C.state = .tripped → done (.cmdCool h p k lo tick cont) 5 (fun D => D.state = .cooling)) ∧
    (fresh 6 → gmode = 0 → C.state = .tripped → done (.cmdLock h p k lo tick cont) 6 (fun D => D.state = .locked)) ∧
    (fresh 7 → gmode = 0 → C.state = .seated ∨ C.state = .ready ∨ C.state = .ramping ∨ C.state = .full ∨ C.state = .good ∨ C.state = .cooling →
      done (.cmdOff h p k lo tick cont) 7 (fun D => D.state = .off ∧ D.pg = false ∧ gateLow D.gate = true)) ∧
    (fresh 8 → gmode = 0 → C.state = .off → done (.cmdOn h p k lo tick cont) 8 (fun D => D.state = .seated)) ∧
    (fresh 9 → gmode = 0 → C.state ≠ .vacant → C.state ≠ .held → done (.cmdReset h p k lo tick cont) 9 (fun D =>
      D.state = (if seatedOrFixed s c then .seated else .vacant) ∧ D.pg = false ∧ D.tripReg = 0xF000 ∧ gateLow D.gate = true))

/-- KEEP, PG_DROP, PG_RAISE and TRIP words, and reserved codes, at a hearth that listens to the port (09 R235, R236, R240; 02 R57, R60), when no
fast trip of this tick stands on the channel. The model's own choices that it rests on: log entries 39, 40. -/
def Obligations.CommandWordsKeepState : Prop :=
  ∀ (h : Hearth) (p : Port) (k : Local) (code : Fin 3) (lo tick : BitVec 12) (cont : Bool) (s : State),
    let c := 64 * h.val + k.val
    let C := s.cell c
    let w (code : Nat) : BitVec 16 := BitVec.ofNat 16 (code * 4096 + lo.toNat)
    let gmode := lo.toNat / 1024
    let iset := lo.toNat % 1024
    let others (t : State) := ∀ j, j ≠ c → t.cell j = s.cell j
    let fresh (code : Nat) := C.kept ≠ some (w code) ∧ bitOf C.tickCauses 0 = false
    Listens s h p →
    (fresh 0 → C.state = .full ∨ C.state = .good → gmode = 3 → ∃ t, exec (.cmdKeep h p k lo tick cont) s = .next t ∧ others t ∧
      (t.cell c).state = C.state ∧ (t.cell c).gate = .enh ∧ (t.cell c).iset.toNat = min iset (fld C.env.word 44 10)) ∧
    (fresh 11 → C.state = .good → gmode = 3 → ∃ t, exec (.cmdPgDrop h p k lo tick cont) s = .next t ∧ others t ∧
      (t.cell c).state = .good ∧ (t.cell c).pg = false ∧ (t.cell c).pgDropped = true) ∧
    (fresh 12 → C.state = .good → gmode = 3 → ∃ t, exec (.cmdPgRaise h p k lo tick cont) s = .next t ∧ others t ∧
      (t.cell c).state = .good ∧ (t.cell c).pg = true ∧ (t.cell c).pgDropped = false) ∧
    (fresh 10 → C.state = .ramping ∨ C.state = .full ∨ C.state = .good → lo.toNat % 64 ≠ 0 → C.tickCauses = 0 →
      ∃ t, exec (.cmdTrip h p k lo tick cont) s = .next t ∧ others t ∧ (t.cell c).state = .tripped ∧ (t.cell c).gate = .pullDown ∧
        (t.cell c).pg = false ∧ (t.chan c).trips = satInc (s.chan c).trips ∧
        ∀ i, i < 6 → lo.getLsbD i = true → (t.cell c).tripReg.getLsbD (i + 1) = true) ∧
    (fresh (13 + code) → C.lastRefused ≠ some (w (13 + code)) → ∃ t, exec (.cmdReserved h p k code lo tick cont) s = .next t ∧ others t ∧
      WordRefused s t c (w (13 + code)))

/-- A word the envelope refuses leaves the channel as it was, whatever port and claim: requests that R49 does not allow, READY before MIN_OFF,
RAMP outside the envelope, FULL and GOOD without GATE_FULL, and gate modes that the state does not permit (09 R240, R241); and a hearth that
does not listen to the port judges no word of it. In the tick of a fast trip a word other than a TRIP request has no effect (03 R79). The
model's own choices that it rests on: log entry 39. -/
def Obligations.EnvelopeRefuses : Prop :=
  ∀ (h : Hearth) (p : Port) (k : Local) (lo tick : BitVec 12) (cont : Bool) (s : State),
    let c := 64 * h.val + k.val
    let C := s.cell c
    let w (code : Nat) : BitVec 16 := BitVec.ofNat 16 (code * 4096 + lo.toNat)
    let gmode := lo.toNat / 1024
    let refuses (i : Instr) (code : Nat) := C.kept ≠ some (w code) → bitOf C.tickCauses 0 = false → ∃ t, exec i s = .next t ∧ (∀ j, j ≠ c → t.cell j = s.cell j) ∧ t.chans = s.chans ∧
      (C.lastRefused ≠ some (w code) → WordRefused s t c (w code)) ∧ (t.cell c).state = C.state ∧ (t.cell c).gate = C.gate ∧
      (t.cell c).iset = C.iset ∧ (t.cell c).refused = true
    (Listens s h p →
      (C.state ≠ .seated → C.state ≠ .cooling → refuses (.cmdReady h p k lo tick cont) 1) ∧
      (C.state = .cooling → C.offTicks < 4000 * fld C.env.word 36 8 → refuses (.cmdReady h p k lo tick cont) 1) ∧
      (C.state ≠ .ready ∨ bitOf C.env.word 26 = false ∨ feedSelected (s.group h).phase = false ∨ (s.hearth h).rampAllow ≤ rampingCount s h →
        refuses (.cmdRamp h p k lo tick cont) 2) ∧
      (C.state ≠ .ramping ∨ C.gateFull = false → refuses (.cmdFull h p k lo tick cont) 3) ∧
      (C.state ≠ .full ∨ C.gateFull = false → refuses (.cmdGood h p k lo tick cont) 4) ∧
      (C.state ≠ .tripped → refuses (.cmdCool h p k lo tick cont) 5 ∧ refuses (.cmdLock h p k lo tick cont) 6) ∧
      (C.state = .vacant ∨ C.state = .locked ∨ C.state = .off ∨ C.state = .held → refuses (.cmdOff h p k lo tick cont) 7) ∧
      (C.state ≠ .off → refuses (.cmdOn h p k lo tick cont) 8) ∧
      (C.state = .vacant ∨ C.state = .held → refuses (.cmdReset h p k lo tick cont) 9) ∧
      (lo.toNat % 64 = 0 → refuses (.cmdTrip h p k lo tick cont) 10) ∧
      (C.state ≠ .good → refuses (.cmdPgDrop h p k lo tick cont) 11 ∧ refuses (.cmdPgRaise h p k lo tick cont) 12) ∧
      (C.state ≠ .ramping → C.state ≠ .full → C.state ≠ .good → gmode ≠ 0 → refuses (.cmdKeep h p k lo tick cont) 0)) ∧
    ((s.hearth h).logic = true → ((s.hearth h).held = false ∨ (s.hearth h).holder ≠ p ∨ (s.hearth h).saggar = true ∨ (s.hearth h).fault = true ∨
        (s.hearth h).admitting = true) → ∃ t, exec (.cmdTrip h p k lo tick cont) s = .next t ∧ t.cells = s.cells ∧ t.chans = s.chans) ∧
    (Listens s h p → bitOf C.tickCauses 0 = true → C.kept ≠ some (w 7) → ∃ t, exec (.cmdOff h p k lo tick cont) s = .next t ∧
      t.cell c = { C with kept := some (w 7) } ∧ (∀ j, j ≠ c → t.cell j = s.cell j) ∧ t.chans = s.chans)

/-- PARAM writes at a hearth that listens to the port: the envelope is taken in Vacant, Seated, Off and Locked and held otherwise (09 R242); the
gate-current register takes the write in every state (03 R508); an event request is numbered and stamped with the start of the deciding
tick, dropped requests before it as an EV_GAP (09 R238); a hearth that does not listen takes none. The model's own choices that it rests on:
log entries 12, 58. -/
def Obligations.ParamWrites : Prop :=
  ∀ (h : Hearth) (p : Port) (k : Local) (env : EnvImage) (ig : BitVec 8) (q : EventReq) (s : State),
    let c := 64 * h.val + k.val
    let C := s.cell c
    let others (t : State) := ∀ j, j ≠ c → t.cell j = s.cell j
    (Listens s h p →
      (∃ t, exec (.paramEnvelopeWrite h p k env) s = .next t ∧ others t ∧ t.cell c =
        (if C.state = .vacant ∨ C.state = .seated ∨ C.state = .off ∨ C.state = .locked then { C with env := env, envWait := none }
         else { C with envWait := some env })) ∧
      (∃ t, exec (.paramIgRegWrite h p k ig) s = .next t ∧ others t ∧ t.cell c = { C with igReg := ig }) ∧
      (srcHearthOf q.source.toNat = some h.val → ∃ t r g, exec (.paramEventRequest h p q) s = .next t ∧ t.cells = s.cells ∧
        (t.hearth h).outbox = (s.hearth h).outbox ++ (if q.dropped = 0 then [r] else [g, r]) ∧
        r.source = q.source ∧ r.code = q.code ∧ r.payload = q.payload ∧ r.time = q.tickTime ∧ r.tick = true ∧ r.cls = 0 ∧
        (q.dropped = 0 → r.seq = tabGet 0 (s.hearth h).seqs q.source.toNat) ∧
        (q.dropped ≠ 0 → g.source = q.source ∧ g.code = 0x1001 ∧ g.seq = tabGet 0 (s.hearth h).seqs q.source.toNat ∧
          r.seq = nextSeq g.seq))) ∧
    ((s.hearth h).held = false ∨ (s.hearth h).holder ≠ p ∨ (s.hearth h).saggar = true ∨ (s.hearth h).fault = true ∨
        (s.hearth h).admitting = true →
      (∃ t, exec (.paramEnvelopeWrite h p k env) s = .next t ∧ t.cells = s.cells) ∧
      (∃ t, exec (.paramIgRegWrite h p k ig) s = .next t ∧ t.cells = s.cells) ∧
      ∃ t, exec (.paramEventRequest h p q) s = .next t ∧ (t.hearth h).outbox = (s.hearth h).outbox)

/-- Configuration writes at a hearth that listens to the port (01 R20, PARAM; the words are named as log entry 12 says): each write changes the
word that it names and no other entry of its kind. -/
def Obligations.ParamConfig : Prop :=
  ∀ (h : Hearth) (p : Port) (s : State), Listens s h p →
    let done (item : ConfigItem) (P : State → Prop) := ∃ t, exec (.paramConfigWrite h p item) s = .next t ∧ P t
    (∀ n w, done (.spyWord n w) fun t => ∀ i, t.spy i = if i = 130 * h.val + n.val then { s.spy i with nextWord := some w } else s.spy i) ∧
    (∀ w0 w1, done (.feedWords w0 w1) fun t => (t.hearth h).rampAllow = fld w1 57 7 ∧
      ∀ g, t.group g = if g = h.val then { s.group g with word0 := w0, word1 := w1 } else s.group g) ∧
    (∀ w, done (.hkControl w) fun t => ∀ i, t.hk i = if i = h.val then { s.hk i with control := w } else s.hk i) ∧
    (∀ n w, done (.hkEntry n w) fun t => ∀ i, t.hk i = if i = h.val then { s.hk i with entriesNext := (s.hk i).entriesNext ++ [(n.val, w)] } else s.hk i) ∧
    (∀ ws, done (.hkNtc ws) fun t => ∀ i, t.hk i = if i = h.val then { s.hk i with ntc := ws } else s.hk i) ∧
    (∀ n w, done (.capture n w) fun t => ∀ i, t.capture i = if i = 16 * h.val + n.val then { s.capture i with binding := w } else s.capture i) ∧
    (∀ n, done (.captureRead n) fun t => ∀ i, t.capture i = if i = 16 * h.val + n.val then
      { s.capture i with readers := (s.capture i).readers ++ [none] } else s.capture i) ∧
    (∀ n w, done (.slotWord n w) fun t => (t.slot (16 * h.val + n.val)).word = w ∧ ∀ i, i ≠ 16 * h.val + n.val → t.slot i = s.slot i) ∧
    (∀ k tw lw r, done (.cellWords k tw lw r) fun t => ∀ i, t.cell i = if i = 64 * h.val + k.val then
      { s.cell i with tripWord := tw, lifeWord := lw, rshunt := r.toNat, configured := true } else s.cell i) ∧
    done .release (fun t => (t.hearth h).released = true) ∧
    (∀ low, done (.warnOut low) fun t => ∀ g, t.group g = if g = h.val then { s.group g with warnOut := low } else s.group g)

/-- A claim is judged (13 R348): refused with the first reason that applies, and then nothing of the claim in force changes; taken at once as a
renewal; or admitted, with the hearth in Saggar hold. The model's own choices that it rests on: log entry 53. -/
def Obligations.ClaimJudged : Prop :=
  ∀ (h : Hearth) (p : Port) (num x : BitVec 32) (s : State),
    let H := s.hearth h
    let live := ¬ 20 ≤ (if H.holder = .loc then H.silentL else H.silentX)
    let done (P : State → Prop) := ∃ t, exec (.claimFrame h p num x) s = .next t ∧ P t ∧ ∀ j, j ≠ h.val → t.hearth j = s.hearth j
    let refused (r : BitVec 4) := done fun t =>
      t.cells = s.cells ∧ (t.hearth h).claim = H.claim ∧ (t.hearth h).held = H.held ∧ (t.hearth h).holder = H.holder ∧
      (t.hearth h).admitting = H.admitting ∧ (if p = .loc then (t.hearth h).refusedL else (t.hearth h).refusedX) = some r ∧
      ∃ e, lastStamp t h = some e ∧ e.code = 0x1604
    H.logic = true →
    (H.fault = true → refused 1) ∧
    (H.fault = false → H.claim.toNat / 2 = 0x7FFFFFFF → refused 2) ∧
    (H.fault = false → H.claim.toNat / 2 ≠ 0x7FFFFFFF → num.toNat ≤ H.claim.toNat → refused 3) ∧
    (H.fault = false → H.claim.toNat / 2 ≠ 0x7FFFFFFF → H.claim.toNat < num.toNat →
      (H.held = true → H.holder ≠ p → live → refused 4) ∧
      (H.held = true → H.holder = p → done fun t => t.cells = s.cells ∧ (t.hearth h).claim = num ∧ (t.hearth h).held = true ∧
        (t.hearth h).holder = p ∧ (t.hearth h).admitting = H.admitting ∧ (t.hearth h).saggar = H.saggar) ∧
      (H.held = false ∨ (H.holder ≠ p ∧ ¬ live) → done fun t => (t.hearth h).claim = num ∧ (t.hearth h).held = true ∧
        (t.hearth h).holder = p ∧ (t.hearth h).admitting = true ∧ (t.hearth h).saggar = true))

/-- Saggar hold and its end (01 R27, R510; 02 R67, R68; 13 R349, R350; 11 R299). Entry cancels the transition that a command word made in the
same tick: the channel enters Held as it was before the word (02 R50). The model's own choices that it rests on: log entries 4, 49. -/
def Obligations.SaggarHold : Prop :=
  ∀ (h : Hearth) (p : Port) (num : BitVec 32) (lane : Fin 2) (failed : BitVec 64) (detail : BitVec 32) (s : State),
    let H := s.hearth h
    let c (k : Local) := 64 * h.val + k.val
    let keeps (x : ChState) := x = .vacant ∨ x = .locked ∨ x = .off ∨ x = .held
    let held (k : Local) (t : State) :=
      let C := s.cell (c k)
      (C.undo = none → (t.cell (c k)).state = (if keeps C.state then C.state else .held) ∧
        (¬ keeps C.state → C.state ≠ .full → C.state ≠ .good → (t.cell (c k)).pg = false ∧ gateLow (t.cell (c k)).gate = true)) ∧
      ∀ u, C.undo = some u → ¬ keeps u.state → (t.cell (c k)).state = .held
    let good (k : Local) (t : State) :=
      let C := s.cell (c k)
      C.tickCauses = 0 → C.f < 2 ^ 46 →
        (C.undo = none → C.state = .full ∨ C.state = .good → (t.cell (c k)).pg = C.pg ∧ (t.cell (c k)).gate = C.gate) ∧
        ∀ u, C.undo = some u → u.state = .full ∨ u.state = .good → (t.cell (c k)).pg = u.pg ∧ (t.cell (c k)).gate = u.gate
    (H.held = true → 20 ≤ (if H.holder = .loc then H.silentL else H.silentX) → H.saggar = false →
      ∃ t, exec (.saggarHoldEntry h) s = .next t ∧ (t.hearth h).saggar = true ∧ ∀ k, held k t ∧ good k t) ∧
    (H.admitting = true → 4 ≤ H.admitTicks → H.fault = false →
      ∃ t, exec (.claimAcceptance h) s = .next t ∧ (t.hearth h).saggar = false ∧ (t.hearth h).admitting = false ∧ ∀ k,
        let C := s.cell (c k)
        (t.cell (c k)).state = if C.state ≠ .held then C.state else if C.gate = .enh then (if C.pg then .good else .full) else
          if C.heldTrip then .tripped else if seatedOrFixed s (c k) then .seated else .vacant) ∧
    (H.logic = true → H.held = true → H.holder = p → H.claim = num → H.saggar = false →
      ∃ t, exec (.releaseFrame h p num lane) s = .next t ∧ ∀ k, held k t ∧ good k t) ∧
    (H.fault = false → ∃ t, exec (.hearthFaultDetected h failed detail) s = .next t ∧ (t.hearth h).fault = true ∧
      (t.hearth h).faultPort = H.holder ∧ ∀ k, held k t ∧
        (failed.getLsbD k = true → gateLow (t.cell (c k)).gate = true ∧ (t.cell (c k)).pg = false ∧
          (t.cell (c k)).tripReg.getLsbD 7 = true ∧ (t.cell (c k)).tripReg.getLsbD 10 = true))

/-- RELEASE frames (13 R350): one from the holding port that carries the claim in force ends the hold, with the hearth in Saggar hold and its
number kept; any other is discarded and counted on the hearth end of its lane, with cause 4. -/
def Obligations.ReleaseFrames : Prop :=
  ∀ (h : Hearth) (p : Port) (num : BitVec 32) (lane : Fin 2) (s : State),
    let H := s.hearth h
    let done (P : State → EventRec → Prop) := ∃ t e, exec (.releaseFrame h p num lane) s = .next t ∧ lastStamp t h = some e ∧ P t e ∧
      ∀ j, j ≠ h.val → t.hearth j = s.hearth j
    H.logic = true →
    (H.held = true ∧ H.holder = p ∧ H.claim = num → done fun t e => (t.hearth h).held = false ∧ (t.hearth h).saggar = true ∧
      (t.hearth h).claim = num ∧ e.code = 0x1605 ∧ e.source.toNat = srcHearth h) ∧
    (¬ (H.held = true ∧ H.holder = p ∧ H.claim = num) → done fun t e => (t.hearth h).held = H.held ∧ (t.hearth h).holder = H.holder ∧
      (t.hearth h).claim = H.claim ∧ (t.hearth h).saggar = H.saggar ∧ t.cells = s.cells ∧ e.code = 0x1501 ∧
      e.source.toNat = (if p = .loc then 0x6000 + (2 * h.val + lane.val) else 0x6000 + (32 + h.val)) ∧
      e.payload.toNat % 2 ^ 16 = 0x102 ∧ e.payload.toNat / 2 ^ 80 = 4)

/-- A hearth reset taken from the holder of an accepted claim, or in hearth fault from the port that held the claim then: no claim, Saggar hold,
and every cell's gate, trip register, envelope, gate current and kept word at their reset values; where the local port held the hearth, this
device claims it again at once, with a number above the highest that it knows; otherwise the cells stay (11 R299, R303; 01 R510). The
model's own choices that it rests on: log entries 2, 60. -/
def Obligations.HearthReset : Prop :=
  ∀ (h : Hearth) (p : Port) (s : State),
    let H := s.hearth h
    H.logic = true →
    let known := fld (tabGet (0 : BitVec 64) s.hblocks h) 32 32 / 2
    let own := H.held = true ∧ H.holder = .loc
    (H.fault = true ∧ H.faultPort = p ∨ Listens s h p → ∃ t, exec (.paramHearthReset h p) s = .next t ∧ (t.hearth h).saggar = true ∧
      (t.hearth h).fault = false ∧
      (¬ own → (t.hearth h).held = false ∧ (t.hearth h).claim = 0 ∧ (t.hearth h).admitting = false) ∧
      (own → known < 0x7FFFFFFF → (t.hearth h).held = true ∧ (t.hearth h).holder = .loc ∧ (t.hearth h).admitting = true ∧
        (t.hearth h).claim.toNat / 2 = known + 1) ∧
      ∀ k : Local, let D := t.cell (64 * h.val + k.val)
        gateLow D.gate = true ∧ D.pg = false ∧ D.tripReg = 0xF000 ∧ D.igReg = 1 ∧ D.env = {} ∧ D.kept = none ∧
        (D.state = .held ∨ D.state = .vacant)) ∧
    (H.fault = false → ¬ Listens s h p → ∃ t, exec (.paramHearthReset h p) s = .next t ∧ t.cells = s.cells)

/-- The happenings that reset the device (11 R302 to R304; 18 R486): power, RST_N low for 500 ns or more, the write of 0x0000A55A to RESET, a
RESET frame that names this device, and the end of a DEV.RESET's delay; a shorter low, another value, another device's number and no
DEV.RESET change nothing. The model's own choices that it rests on: log entries 2, 4, 97, 120, 153. -/
def Obligations.DeviceReset : Prop :=
  ∀ (strap : Fin 8) (ns : Nat) (port : HostPort) (v : BitVec 32) (ident : BitVec 64) (s : State),
    let fresh (t : State) := CrownAtReset s t ∧ HearthsAtReset s t
    (Completes (.powerOn strap) s fun t => fresh t ∧ t.boot.rails = true ∧ t.pmb.addr = strap) ∧
    (500 ≤ ns → Completes (.rstNLow ns) s fun t => fresh t ∧ t.boot.rstLow = true ∧ t.pmb.addr = s.pmb.addr) ∧
    (ns < 500 → exec (.rstNLow ns) s = .next s) ∧
    (crownUp s = true → port = .spi ∨ (s.host.hostLost = false ∧ s.host.d3 = false) →
      Completes (.bar0ResetWrite port 0xA55A) s fun t => fresh t ∧ crownUp t = true) ∧
    (v ≠ 0xA55A → exec (.bar0ResetWrite port v) s = .next s) ∧
    (crownUp s = true → s.boot.stage ≠ 4 → ident.toNat = deviceId s → Completes (.pairResetFrame ident) s fun t => fresh t ∧ crownUp t = true) ∧
    (ident.toNat ≠ deviceId s → exec (.pairResetFrame ident) s = .next s) ∧
    (s.boot.resetDue = true → Completes .devResetDelayExpiry s fun t => fresh t ∧ t.boot.resetDue = false) ∧
    (s.boot.resetDue = false → exec .devResetDelayExpiry s = .next s)

/-- A hearth's power and its sampled operation (01 R34, R510; 04 R108; 07 R195, R196; 18 R487, R490): the first power of the always-on domain
holds the gates in Saggar hold with no claim; without the logic rails the hearth is in Saggar hold; a compare moment places each enabled
spyhole and moves F of each configured channel; RST_N's rise ends EXTEST, CLAMP and HIGHZ. The model's own choices that it rests on: log
entry 105. -/
def Obligations.HearthPower : Prop :=
  ∀ (h : Hearth) (zones : List Zone) (above : BitVec 64) (off : Fin 250) (s : State),
    let H := s.hearth h
    (H.alwaysOn = false → Completes (.alwaysOnPower h) s fun t => (t.hearth h).alwaysOn = true ∧ (t.hearth h).saggar = true ∧
      (t.hearth h).held = false ∧ (t.hearth h).claim = 0 ∧ (∃ e, lastStamp t h = some e ∧ e.code = 0x1401) ∧
      ∀ j, j ≠ h.val → t.hearth j = s.hearth j) ∧
    (H.alwaysOn = true → exec (.alwaysOnPower h) s = .next s) ∧
    (H.logic = true → Completes (.logicRailsAbsent h) s fun t => (t.hearth h).logic = false ∧ (t.hk h).running = false ∧
      (∀ n : SpyNo, (t.spy (130 * h.val + n.val)).filter = none) ∧
      (H.alwaysOn = true → (t.hearth h).saggar = true)) ∧
    (H.banked = false → Completes (.logicRailsPresent h) s fun t =>
      ∀ j, t.hearth j = if j = h.val then { H with logic := true } else s.hearth j) ∧
    (H.banked = true → exec (.logicRailsPresent h) s = .next s) ∧
    (H.alwaysOn = true → H.logic = false ∨ H.banked = true → Completes (.sampledTick h zones above off) s fun t =>
      (∀ (n : Fin 130) z, zones[n.val]? = some z → let y := s.spy (130 * h.val + n.val)
        if yOn y.word then (t.spy (130 * h.val + n.val)).zone = zoneIn y.word z ∧ (t.spy (130 * h.val + n.val)).starting = false ∧
          (t.spy (130 * h.val + n.val)).filter = none ∧
          (t.spy (130 * h.val + n.val)).st = (let x := if y.starting then startState (zoneIn y.word z) else spyJudged y (zoneIn y.word z)
                                              if x = .unresolved then y.st else x)
        else t.spy (130 * h.val + n.val) = y) ∧
      ∀ k : Local, let C := s.cell (64 * h.val + k.val)
        t.cell (64 * h.val + k.val) = if H.banked = false ∧ (t.group h).shadow = false ∧ C.configured = true then
          sampledFallback (above.getLsbD k) C else C) ∧
    (s.boot.rstLow = true → Completes .rstNRelease s fun t => t.boot = { s.boot with rstLow := false } ∧
      t.jtag.ir = if s.jtag.ir = .extest ∨ s.jtag.ir = .clamp ∨ s.jtag.ir = .highz then .bypass else s.jtag.ir) ∧
    (s.boot.rstLow = false → exec .rstNRelease s = .next s)

/-- Fatal errors (11 R288, R300, R301; 15 R391): the device is in Cracked, with the fatal bits of the FSW and the shard of the error; in Cracked
a further one is merged into that shard. The crash sector takes the copy that Cracked owes, unless it holds an unread one. The model's own
choices that it rests on: log entries 4, 55, 149. -/
def Obligations.FatalErrors : Prop :=
  ∀ (code : FatalCode) (detail : BitVec 96) (fuses : BitVec 2560) (s : State), crownUp s = true →
    (s.boot.cracked = false →
      (Completes (.fatalError code detail) s fun t => CrackedBy t (fatalOf code).1 ∧ ∃ x, t.coll.fatalSh = some x ∧ x.detail = detail) ∧
      (s.boot.watchdog = true → Completes .watchdogExpired s fun t => CrackedBy t 0x306) ∧
      (Completes .crownRailFault s fun t => CrackedBy t 0x309) ∧
      (Completes .crownOverTemperature s fun t => CrackedBy t 0x308) ∧
      (s.boot.stage = 3 → (fuseBad fuses).isSome = true → Completes (.fuseRecheck fuses) s fun t => CrackedBy t 0x30A) ∧
      (fuseBad fuses = none → exec (.fuseRecheck fuses) s = .next s)) ∧
    (∀ x, s.boot.cracked = true → s.coll.fatalSh = some x →
      Completes (.fatalError code detail) s fun t => t.coll.fatalSh = some { x with merged := satInc x.merged, shadowed := true } ∧
        t.boot = s.boot) ∧
    (∀ x, s.coll.copyDue = true → s.coll.fatalSh = some x → Completes .crashSectorCopy s fun t => t.coll.copyDue = false ∧
      t.coll.crashUnread = true ∧ t.boot = s.boot ∧
      (s.coll.crashUnread = true → t.coll.crash = s.coll.crash) ∧
      (s.coll.crashUnread = false → ∃ l, t.coll.crash = some (s.boot.bootCount, s.coll.fsw, x, l) ∧ l.length ≤ 15 ∧
        ∀ y ∈ l, y ∈ s.coll.shards ∧ y.cls = 2))

/-- The stages of a start-up (15 R394 to R400, R406; 12 R328): Bisque's checks in order, then Glaze with BOOT_COUNT raised by 1; the image
started or the stall with cause 6; the 60 ms timer; the commit, after which the event log runs, with the measured converter offsets within
25 codes (06 R159); and Draw. The model's own choices that it rests on: log entries 4, 121, 124, 126, 127. -/
def Obligations.BootStages : Prop :=
  ∀ (io : BisqueIo) (gl : GlazeIo) (s : State), alive s = true →
    let f := sensedFuses s io.fuses
    let cause : Option (BitVec 8) := if (fuseBad f).isSome then some 1 else if io.selfTest = false then some 3 else if io.pll = false then some 4
      else if io.trimOk ≠ 0xFF then some 2 else none
    (s.boot.stage = 1 →
      (∀ c, cause = some c → Completes (.bisqueEnd io) s fun t => t.boot.stage = 4 ∧ t.boot.cause = c) ∧
      (cause = none → io.flashAnswers = false → Completes (.bisqueEnd io) s fun t => t.boot.stage = 5 ∧ t.boot.cause = 7) ∧
      (cause = none → io.flashAnswers = true → Completes (.bisqueEnd io) s fun t => t.boot.stage = 2 ∧
        t.boot.bootCount = BitVec.ofNat 32 ((bootRec s).bootCount + 1) ∧
        ∀ h : Hearth, (t.hearth h).lane0.trained = io.lanes.getLsbD (2 * h.val) ∧ (t.hearth h).lane1.trained = io.lanes.getLsbD (2 * h.val + 1))) ∧
    (s.boot.stage = 2 → s.boot.started = false →
      (chooseImage s = none → Completes .imageStart s fun t => t.boot.stage = 5 ∧ t.boot.cause = 6 ∧ t.boot.started = false) ∧
      (∀ b, chooseImage s = some b → Completes .imageStart s fun t => t.boot.stage = 2 ∧ t.boot.started = true ∧ t.boot.image = b ∧
        t.boot.glazeTimer = true ∧ t.boot.fallback = decide (b ≠ (bootRec s).active))) ∧
    (s.boot.stage = 2 → s.boot.started = true →
      (s.boot.glazeTimer = true → Completes .glazeTimerExpiry s fun t => t.boot = { s.boot with started := false, glazeTimer := false }) ∧
      (Completes (.glazeBookCommit gl) s fun t => t.log.running = true ∧ t.boot.stage = 2 ∧
        (∀ b u, checkBook s (readBook s (bootRec s).book) none false = .ok (b, u) →
          t.boot.bookCopy = (bootRec s).book ∧ t.boot.bookEmpty = false) ∧
        ∀ c v, gl.offsets = [(c, v)] → (t.cell c).offset = if v.toInt.natAbs ≤ 25 then v else 0) ∧
      (s.log.running = true → Completes .draw s fun t => t.boot.stage = 3 ∧ t.boot.devState = 1 ∧ t.boot.watchdog = true ∧
        t.boot.glazeTimer = false ∧ t.boot.drawMs = BitVec.ofNat 8 (min 254 (s.time.tick / 4000)) ∧
        ∀ h : Hearth, obeys (s.hearth h) .loc = true → (t.hearth h).released = true))

/-- The fault collector (11 R284, R286, R289, R292, R293, R295): an error latches the FSW bits of its class and source; an error's end clears
PRESENT of its shard; a reaction's shadow closes at its end; a window's end lets each shard place a record again, and places the one held
back. The model's own choices that it rests on: log entries 4, 31, 45, 75. -/
def Obligations.Collector : Prop :=
  ∀ (code src : BitVec 16) (atNs : BitVec 64) (detail : BitVec 96) (clears : Bool) (idx : Nat) (s : State),
    (crownUp s = true → errCode code.toNat = true →
      Completes (.errorDetected code src atNs detail clears) s fun t => FswLatched s t code.toNat src.toNat ∧
        (errClass code.toNat = 3 → t.boot.cracked = true) ∧
        (∀ b, b < 64 → s.coll.fsw.getLsbD b = true → t.coll.fsw.getLsbD b = true)) ∧
    (errCode code.toNat = false → exec (.errorDetected code src atNs detail clears) s = .next s) ∧
    (∀ x, s.coll.shards.find? (fun x => x.code = code ∧ x.source = src ∧ x.present) = some x →
      Completes (.errorCleared code src atNs) s fun t => t.coll.fsw = s.coll.fsw ∧
        HasShard t x.id fun y => y.present = false ∧ y.clearedAt = atNs ∧ y.code = code ∧ y.source = src) ∧
    ((∀ x ∈ s.coll.shards, ¬ (x.code = code ∧ x.source = src ∧ x.present = true)) → exec (.errorCleared code src atNs) s = .next s) ∧
    (∀ sh e, s.coll.shadows[idx]? = some sh → sh.closed = none → sh.ends = some e → e ≤ s.time.tai →
      Completes (.reactionShadowEnd idx) s fun t => t.coll = { s.coll with shadows := s.coll.shadows.set idx { sh with closed := some e } }) ∧
    ((s.coll.shards.map (·.id)).Nodup → Completes .faultEventWindowEnd s fun t => t.coll.fsw = s.coll.fsw ∧ ∀ x ∈ s.coll.shards,
      HasShard t x.id fun y => y.present = x.present ∧
        if x.cls ≠ 1 ∧ (x.faultInWin = true ∨ x.clearInWin = true) ∧ x.present ≠ x.shown then
          y.shown = x.present ∧ (if x.present then y.faultInWin = true else y.clearInWin = true)
        else y.shown = x.shown ∧ y.faultInWin = false ∧ y.clearInWin = false)

/-- Slots (02 R44, R46 to R48, R64, R65; 07 R199): a change of the contacts starts a fall's 1 µs filter or restarts the debounce; the end of an
enabled slot's debounce seats the slot and its Vacant channels, or before the release keeps its time, a low of SEAT that is still filtered
without effect; a removal discharges the slot's channels, which enter Vacant; the LED's pattern advances. The model's own choices that it
rests on: log entries 4, 50. -/
def Obligations.SlotContacts : Prop :=
  ∀ (n : SlotNo) (pres seat : Bool) (off : Fin 250) (s : State),
    let S := s.slot n
    let H := s.hearth (n.val / 16)
    let now := H.tai + off.val
    let others (t : State) := ∀ j, j ≠ n.val → t.slot j = s.slot j
    (Completes (.seatChange n pres seat off) s fun t => others t ∧ t.cells = s.cells ∧ (t.slot n).pres = pres ∧ (t.slot n).seat = seat ∧
      (H.alwaysOn = true →
        (S.pres = true → pres = false → (t.slot n).fellP = some now) ∧ (S.seat = true → seat = false → (t.slot n).fellS = some now) ∧
        (S.pres = false → pres = true → (t.slot n).fellP = none) ∧ (S.seat = false → seat = true → (t.slot n).fellS = none) ∧
        ((S.pres = false ∧ pres = true ∧ S.fellP = none) ∨ (S.seat = false ∧ seat = true ∧ S.fellS = none) →
          (t.slot n).since = now ∧ (t.slot n).debouncing = (!S.seated && pres && (seat || !S.present)))) ∧
      (H.alwaysOn = false → (t.slot n).fellP = none ∧ (t.slot n).fellS = none ∧ (t.slot n).debouncing = S.debouncing)) ∧
    (S.debouncing = true → slotOn S.word = true → H.alwaysOn = true →
      (S.seat = true ∨ S.fellS ≠ none → Completes (.debounceComplete n off) s fun t => others t ∧ (t.slot n).debouncing = false ∧ (t.slot n).seated = true ∧
        (t.slot n).seats = satInc S.seats ∧
        (H.released = true → ∀ c ∈ slotCells s n, (s.cell c).state = .vacant → (t.cell c).state = .seated) ∧
        (H.released = false → (t.slot n).doneAt = some now ∧ t.cells = s.cells) ∧ ∀ c, c ∉ slotCells s n → t.cell c = s.cell c) ∧
      (S.seat = false → S.fellS = none → Completes (.debounceComplete n off) s fun t => others t ∧ (t.slot n).debouncing = false ∧ (t.slot n).present = true ∧
        t.cells = s.cells ∧ ∃ e, lastStamp t (n.val / 16) = some e ∧ e.code = 0x1203 ∧ e.source.toNat = srcSlot n)) ∧
    (S.debouncing = false ∨ slotOn S.word = false ∨ H.alwaysOn = false → exec (.debounceComplete n off) s = .next s) ∧
    (S.fellP ≠ none ∨ S.fellS ≠ none → H.alwaysOn = true → Completes (.slotRemoval n) s fun t => others t ∧ (t.slot n).fellP = none ∧
      (t.slot n).fellS = none ∧ (S.seated = false → t.cells = s.cells) ∧
      (S.seated = true → (t.slot n).seated = false ∧ (∀ c ∈ slotCells s n, (t.cell c).state = .vacant ∧ gateLow (t.cell c).gate = true ∧
        (t.cell c).pg = false) ∧ ∀ c, c ∉ slotCells s n → t.cell c = s.cell c)) ∧
    (S.fellP = none → S.fellS = none → exec (.slotRemoval n) s = .next s) ∧
    (hasLed s n = true → S.ledRow = 2 ∨ S.ledRow = 3 ∨ S.ledRow = 4 → Completes (.slotLedPhase n) s fun t => others t ∧
      t.slot n = { S with ledStep := (S.ledStep + 1) % (if S.ledRow = 3 then 4 else 2)
                          ledOn := ledLit S.ledRow ((S.ledStep + 1) % (if S.ledRow = 3 then 4 else 2)) })

/-- What a hearth decides on one channel (02 R49, R60, R61, R66; 04 R94, R95, R106, R110): the fast trip, the gate-off confirmation, the pass
transistor short and the fallback breaker of a Held channel. Only that channel's cell changes. The model's own choices that it rests on: log
entries 4, 32, 33, 39. -/
def Obligations.HearthTrips : Prop :=
  ∀ (c : OwnChan) (off : Fin 250) (s : State),
    let C := s.cell c
    let done (i : Instr) (P : State → Cell → Prop) := Completes i s fun t => OnChan c s t ∧ P t (t.cell c)
    let errored (t : State) (code : Nat) := ErrorStamped t (hOf c) (srcChan c) code
    (C.configured = true → fastArmed C = true → done (.fastTrip c off) fun t D => D.tripReg.getLsbD 0 = true ∧ fld D.tripReg 12 4 = 0 ∧
      (C.tickCauses = 0 → gateLow D.gate = true ∧ D.pg = false ∧ D.confirmed = false ∧ (t.chan c).trips = satInc (s.chan c).trips ∧
        D.state = if C.state = .ramping ∨ C.state = .full ∨ C.state = .good then .tripped else C.state)) ∧
    (C.configured = false ∨ fastArmed C = false → exec (.fastTrip c off) s = .next s) ∧
    (C.confirmed = false → gateLow C.gate = true →
      (C.state ≠ .tripped ∨ C.offPend = true ∨ sitterServes s c = false ∨ libSched (s.chan c) = false → done (.gateOffConfirmation c off) fun _ D =>
        D.confirmed = true ∧ D.gate = .pullDown ∧ D.gateFull = false ∧
        D.state = if C.state = .tripped ∧ C.offPend = true then .off else C.state) ∧
      (C.state = .tripped → C.offPend = false → sitterServes s c = true → libSched (s.chan c) = true →
        Completes (.gateOffConfirmation c off) s fun t => (t.cell c).confirmed = true ∧ gateLow (t.cell c).gate = true ∧
          (t.chan c).commanded = if admitsRetry (profWord (s.chan c) 16) (fld C.tripReg 12 4) = true ∧ (s.chan c).retry < pRetryLimit (s.chan c)
            then .cooling else .locked)) ∧
    (C.confirmed = true ∨ gateLow C.gate = false → exec (.gateOffConfirmation c off) s = .next s) ∧
    (C.shortTicks = 8 → C.state = .tripped ∨ C.state = .cooling ∨ C.state = .locked → Completes (.passTransistorShort c) s fun t =>
      (t.cell c).state = .locked ∧ (t.cell c).tripReg.getLsbD 8 = true ∧ (C.state ≠ .locked → fld (t.cell c).tripReg 12 4 = 8) ∧
      errored t 0x202 ∧ ∀ j, j ≠ c.val → t.cell j = s.cell j) ∧
    (C.state = .held → 2 ^ 46 ≤ C.f → C.heldTrip = false ∨ C.tickCauses ≠ 0 → done (.fallbackBreakerTrip c) fun t D => D.state = .held ∧
      D.tripReg.getLsbD 7 = true ∧ D.tripReg.getLsbD 10 = true ∧
      (C.tickCauses = 0 → gateLow D.gate = true ∧ D.pg = false ∧ D.heldTrip = true ∧ (t.chan c).trips = satInc (s.chan c).trips))

/-- A gate that does not discharge within 10 µs, or 40 ticks, of the trip tick (02 R62): the hearth places the channel in Locked with the cause
gate-discharge failure, bit 9 of the trip register (04 R109), and reports the contained error 0x203 on the channel. -/
def Obligations.GateDischargeFails : Prop :=
  ∀ (c : OwnChan) (s : State),
    let C := s.cell c
    C.state = .tripped → C.confirmed = false → 40 ≤ C.tripTicks → Completes (.gateDischargeFailure c) s fun t =>
      (t.cell c).state = .locked ∧ (t.cell c).tripReg.getLsbD 9 = true ∧ ErrorStamped t (hOf c) (srcChan c) 0x203 ∧
      (∀ j, j ≠ c.val → t.cell j = s.cell j) ∧ ∀ h, h ≠ hOf c → t.hearth h = s.hearth h

/-- The protective trips of the Sitter (02 R58; 03 R86 to R88; 04 R102, R111): each requests a trip with its cause when it is due; a progress
window that ends otherwise starts the next. The model's own choices that it rests on: log entries 4, 39, 62. -/
def Obligations.SitterTrips : Prop :=
  ∀ (c : Chan) (s : State), sitterRuns s c = true →
    let A := s.chan c
    (A.commanded = .ramping → 0 < A.rampTicks → 400 * pDeadline A ≤ A.rampTicks → Completes (.rampDeadline c) s (TripAsked s · c 3)) ∧
    (A.commanded = .full ∨ A.commanded = .good → 4 ≤ A.holdTicks → Completes (.gateHoldCheck c) s (TripAsked s · c 4)) ∧
    (breakerDue s c = true → Completes (.breakerTrip c) s (TripAsked s · c 1)) ∧
    (progressDue A = true → Completes (.progressWindowEnd c) s (TripAsked s · c 2)) ∧
    (A.commanded = .ramping → 4000 ≤ A.winTicks → progressDue A = false → Completes (.progressWindowEnd c) s fun t => t.cells = s.cells ∧
      t.chan c = { A with winTicks := 0, winStart := A.vWord, winShadow := false
                          winFails := if A.winShadow = true then A.winFails else if windowFails A = true then A.winFails + 1 else 0 } ∧
      ∀ j, j ≠ c.val → t.chan j = s.chan j) ∧
    (A.commanded = .ramping → A.rampTicks < 400 * pDeadline A → exec (.rampDeadline c) s = .next s) ∧
    (A.holdTicks < 4 → exec (.gateHoldCheck c) s = .next s)

/-- The Sitter's other timers (02 R51 to R54, R57, R71; 03 R84; 04 R113, R114, R121, R123; 05 R147; 07 R189). The model's own choices that it
rests on: log entries 4, 39, 63, 67. -/
def Obligations.SitterTimers : Prop :=
  ∀ (c : Chan) (tw : Fin 512) (s : State), sitterRuns s c = true →
    let A := s.chan c
    (A.commanded = .ramping → A.followEnh = false → segsDone A = false → segType (segNow A) = 2 → 40 * segDuration (segNow A) ≤ A.segTicks →
      Completes (.soakDurationEnd c) s fun t => t.chan c = nextSegment A ∧ t.cells = s.cells) ∧
    (0 < pDwell A → pDwell A ≤ A.dwell → dueCauses s c = 0 →
      (A.commanded = .full → Completes (.pgDwellComplete c) s fun t => (t.chan c).commanded = .good ∧ (t.chan c).dwell = 0 ∧
        (t.chan c).cmd = cmdWord 4 3 (runIset A)) ∧
      (A.commanded = .good → A.pgDrop = true → Completes (.pgDwellComplete c) s fun t => (t.chan c).commanded = .good ∧
        (t.chan c).pgDrop = false ∧ (t.chan c).cmd = cmdWord 12 3 (runIset A))) ∧
    (A.commanded = .cooling → backoffTicks (profWord A 16) A.retry ≤ A.backoff → Completes (.backoffEnd c) s fun t =>
      (t.chan c).commanded = .ready ∧ (t.chan c).cmd = cmdWord 1 0 0) ∧
    (A.commanded = .good → 0 < pDecay A → 400000 * pDecay A ≤ A.decay → dueCauses s c = 0 → A.hearthTrip = false → A.obs ≠ .tripped →
      (c.val < 512 → (s.cell c).tickCauses = 0) → Completes (.decayInterval c) s fun t =>
      t.chan c = { A with decay := 0, retry := A.retry - 1 } ∧ t.cells = s.cells) ∧
    (A.commanded ≠ A.obs → 80 < A.skewTicks → Completes (.stateSkew c) s fun t =>
      (t.chan c).skews = (if errPresent s 0x201 (srcChan c) = true then A.skews else satInc16 A.skews) ∧ (t.chan c).skewTicks = 1 ∧ (t.chan c).resend = some A.lastReq ∧ (t.chan c).cmd = BitVec.ofNat 16 (fld A.lastReq 0 12) ∧
      FswLatched s t 0x201 (srcChan c)) ∧
    (A.commanded = .ready → 4000000 ≤ A.coneWait → A.coneWaitDone = false → Completes (.coneWait c) s fun t =>
      (t.chan c).coneWaitDone = true ∧ t.cells = s.cells ∧
      (c.val < 512 → Listens s (hOf c) .loc → ∃ e, lastStamp t (hOf c) = some e ∧ e.code = 0x1109 ∧ e.source.toNat = srcChan c)) ∧
    (A.uvRun = true → 0 < yUvTime (pSpyV A) → 400 * yUvTime (pSpyV A) ≤ A.uvTicks → errPresent s 0x20B (srcChan c) = false →
      Completes (.uvTimeReached c) s fun t => t.cells = s.cells ∧ FswLatched s t 0x20B (srcChan c)) ∧
    (A.commanded = .ready → A.obs = .ready → 40 * pStartDelay A ≤ A.readyTicks → A.resend = none → A.stFresh = false →
      startFeedDelay s c = true → startAllowed s c = true → startCone s c = true → startMode s c (sitterTick s c) = none →
      Completes (.startDelayElapsed c) s fun t => t.chan c = { A with startOk := true } ∧ t.cells = s.cells) ∧
    (A.commanded = .ready → A.obs = .ready → 40 * pStartDelay A ≤ A.readyTicks → A.resend = none → A.stFresh = false →
      startFeedDelay s c = true → startAllowed s c = true → startCone s c = true → twinView s c = none → coneSubs { A with commanded := .ramping } (s.cone c).headSeen = 0 →
      Completes (.startDelayElapsed c) s fun t => (t.chan c).commanded = .ramping ∧ (t.chan c).rampTicks = 1 ∧ fld (t.chan c).cmd 12 4 = 2) ∧
    (alive s = true → s.boot.devState = 1 → A.obs = .seated → A.consented = false → bitOf A.req 0 = false → A.allocTag = none →
      pConsent A = 1 → A.hostOn = false → Completes (.consentEvaluation c) s fun t => (t.chan c).waitStamped = true ∧
        (t.chan c).consented = false ∧ t.cells = s.cells) ∧
    (alive s = true → s.boot.devState = 1 → A.obs = .seated → A.consented = false → bitOf A.req 0 = false → A.allocTag = none →
      pConsent A ≠ 1 ∨ A.hostOn = true → feedChosen s (c.val / 64) = true → facFeed s (c.val / 64) (fwSel s (c.val / 64)) = none →
      Completes (.consentEvaluation c) s fun t => bitOf (t.chan c).req 0 = true ∧ t.cells = s.cells) ∧
    (∀ v, twinView s c = some v → 4000 ≤ A.twinLow → twinSplit s c v = false → errPresent s 0x205 (srcChan c) = false →
      Completes (.twinOpen c) s fun t => FswLatched s t 0x205 (srcChan c) ∧ t.cells = s.cells) ∧
    (let w := (tabGet [] s.books.twins tw.val).getD 0 0
     let o := if tw.val < 256 then 0 else 512
     twOn w = true → served s (o + twChA w) = true → served s (o + twChB w) = true → servedHere s (o + twChA w) = true →
      servedHere s (o + twChB w) = true → 4000 ≤ (s.chan (o + twChA w)).twinOk →
      4000 ≤ (s.chan (o + twChB w)).twinOk → Completes (.twinReturn tw) s fun t => t.cells = s.cells ∧
        (t.chan (o + twChA w)).twinShared = true ∧ (t.chan (o + twChB w)).twinShared = true)

/-- The Cone's steps of one channel (05 R129, R131, R132, R134 to R137, R139 to R142, R144, R145, R148). The model's own choices that it rests
on: log entries 4, 65, 69, 70, 157. -/
def Obligations.ConeSteps : Prop :=
  ∀ (c : Chan) (s : State),
    let A := coneView s c
    let K := s.cone c
    let others (t : State) := ∀ j, j ≠ c.val → t.cone j = s.cone j
    (∀ e, A.cone = some e → A.prof ≠ [] → libSched A = true → (K.init = true → K.lastTick ≠ clusterTickOf s e) →
      (K.init = false → K.sampled = true ∧ (512 ≤ c.val ∨ (s.hearth (hOf c)).released = true)) →
      ((s.engine e).packed = true → clusterTickOf s e % 4 = 0) → Completes (.coneUpdate c) s fun t => others t ∧
        let L := t.cone c
        L.init = true ∧ L.lastTick = clusterTickOf s e ∧ L.headTick = clusterTickOf s e ∧ L.headOld = K.head ∧ L.dose = sat24 (doseOf A L) ∧
        L.eInt = sat24 (L.p1.eInt + L.p2.eInt + L.p3.eInt) ∧ L.hT = sat24 (headTemp A L) ∧ L.rHot = rHotOf A (L.tBase + thetaSum L) ∧
        L.peakD = max (if K.init then K.peakD else -8388608) L.dose ∧
        L.soaCount = (if aboveImax s c then min 256 (K.soaCount + 1) else 0) ∧ L.head = headOf A { L with head := K.head } (vdsQv s c A) ∧
        hdCone L.head = iConeAt A L (vdsQv s c A) ∧ L.head.getLsbD 26 = true ∧
        (pTsnsMode A = 0 → L.tBase = 256 * pTRefFix A ∧ L.rErr = 0 ∧ L.anchored = false ∧ L.tsnsFault = false) ∧
        (pTsnsMode A ≠ 0 → K.tsnsNew = true → tsnsValid A = false → L.tsnsFault = true ∧ L.anchored = false ∧ L.tsnsGood = 0) ∧
        (pTsnsMode A ≠ 0 → K.tsnsNew = true → tsnsValid A = true → K.tsnsFault = true → 7 ≤ K.tsnsGood →
          L.tsnsFault = false ∧ L.anchored = true ∧ L.tsnsGood = 8)) ∧
    (A.cone = none ∨ (K.init = false ∧ (K.sampled = false ∨ (c.val < 512 ∧ (s.hearth (hOf c)).released = false))) →
      exec (.coneUpdate c) s = .next s) ∧
    (K.preRun = true → 0 < pWarnTime A → 4000 * pWarnTime A ≤ K.preTicks → Completes (.prebendWarnTime c) s fun t => others t ∧
      t.cone c = { K with head := K.head ||| 0x20000000 }) ∧
    (K.init = true → 0 < K.soaCount → pSoaHold A ≤ K.soaCount → Completes (.soaPersistence c) s fun t => others t ∧
      t.cone c = { K with head := K.head ||| 0x40000000 }) ∧
    (K.init = true → pTsnsMode A ≠ 0 → 40000 ≤ K.tsnsAge → K.tsnsFault = false → Completes (.tsnsTimeout c) s fun t => others t ∧
      t.cone c = faultHold A { K with tsnsFault := true, tsnsGood := 0, faultCount := satInc16 K.faultCount } ∧
      (t.cone c).tBase = max K.tBase (256 * pTRefFix A) ∧ (t.cone c).anchored = false ∧ FswLatched s t 0x207 (srcChan c)) ∧
    (pTsnsMode A = 0 ∨ K.tsnsAge < 40000 → exec (.tsnsTimeout c) s = .next s) ∧
    (K.tsnsFault = false → K.tsnsGood = 8 → Completes (.tsnsFaultEnd c) s fun t => others t ∧ t.cone c = { K with tsnsGood := 0 } ∧
      t = clearError (s.updCone c fun K => { K with tsnsGood := 0 }) 0x207 (srcChan c)) ∧
    (K.tsnsFault = true ∨ K.tsnsGood ≠ 8 → exec (.tsnsFaultEnd c) s = .next s) ∧
    (K.diverged = false → 8 ≤ K.divHigh → Completes (.coneDivergence c) s fun t => others t ∧
      t.cone c = { K with diverged := true, divCount := satInc16 K.divCount } ∧ FswLatched s t 0x206 (srcChan c)) ∧
    (K.diverged = true → 8 ≤ K.divLow → Completes (.coneDivergence c) s fun t => others t ∧ t.cone c = { K with diverged := false }) ∧
    (K.divHigh < 8 → K.divLow < 8 → exec (.coneDivergence c) s = .next s)

/-- Engines and clusters as resources (01 R33; 09 R244, R247 to R257): failure and the loss of the roles, takeover, re-hosting, the verdict of a
recomputation, the loss of a cluster's clock, packing and unpacking. The model's own choices that it rests on: log entries 4, 18, 72, 73. -/
def Obligations.EngineService : Prop :=
  ∀ (e : EngineNo) (c : Chan) (n : ClusterNo) (why : EngineFailCause) (s : State),
    let A := s.chan c
    let lost (t : State) (f : Nat) := (t.engine f).failed = true ∧ (t.engine f).ended = true ∧
      ∀ k, (t.chan k).sitter ≠ some f ∧ (t.chan k).cone ≠ some f
    let hosts (t : State) (p : Nat) := (t.chan c).sitter = some p ∧ (t.chan c).cone = some p ∧ (t.chan c).takeover = none ∧
      (t.engine p).packed = true ∧ (t.engine p).rehosting = true
    ((s.engine e).failed = false → Completes (.engineFailed e why) s fun t => lost t e ∧ FswLatched s t 0x215 (srcEngine e)) ∧
    ((s.engine e).failed = true → exec (.engineFailed e why) s = .next s) ∧
    ((s.engine e).failed = false → 2 ≤ (s.engine e).badChecks → Completes (.checkUnitFailure e) s fun t => lost t e) ∧
    ((s.engine e).badChecks < 2 → exec (.checkUnitFailure e) s = .next s) ∧
    (∀ f p m, A.takeover = some (f, p, m) →
      ((s.engine p).failed = false → ((s.cluster (p / 64)).tick + 1) % 4 ≠ 0 → Completes (.engineTakeover c) s fun t => hosts t p) ∧
      ((s.engine p).failed = false → ((s.cluster (p / 64)).tick + 1) % 4 = 0 → exec (.engineTakeover c) s = .next s) ∧
      ((s.engine p).failed = true → Completes (.engineTakeover c) s fun t => unhosted (t.chan c) = hosted A ∧
        FswLatched s t 0x20D (srcChan c))) ∧
    (∀ p, unhosted A = true → newHost s c = some p → Completes (.unhostedRehost c) s fun t => hosts t p) ∧
    (A.frozen = true →
      (Completes (.recomputationComplete c .bothMatch) s fun t => (t.chan c).frozen = false ∧ (t.chan c).frozenTick = none ∧
        (t.chan c).mismatches = 0 ∧ FswLatched s t 0x106 (srcChan c)) ∧
      (∀ f, A.sitter = some f → (s.engine f).failed = false → Completes (.recomputationComplete c .sitterDiffers) s fun t =>
        (t.chan c).frozen = false ∧ lost t f) ∧
      (∀ f, A.cone = some f → (s.engine f).failed = false → Completes (.recomputationComplete c .coneDiffers) s fun t =>
        (t.chan c).frozen = false ∧ lost t f) ∧
      (∀ f g, A.sitter = some f → A.cone = some g → (s.engine f).failed = false → (s.engine g).failed = false →
        Completes (.recomputationComplete c .bothDiffer) s fun t => (t.chan c).frozen = false ∧ lost t f ∧ lost t g)) ∧
    (A.frozen = false → ∀ v, exec (.recomputationComplete c v) s = .next s) ∧
    ((s.cluster n).failed = false → Completes (.clusterClockLoss n) s fun t => (t.cluster n).failed = true ∧
      FswLatched s t 0x216 (srcCluster n) ∧ ∀ i : Local, (t.engine (64 * n.val + i.val)).failed = true) ∧
    (s.boot.packReq = true → s.boot.packed = false → s.time.tick % 4 = 0 → Completes .packingEdge s fun t => t.boot.packed = true ∧
      t.boot.packReq = false ∧ (c.val < 512 → hosted A = true → A.sitter = some c.val → A.cone = some (c.val + 512) →
        (t.chan c).sitter = some c.val ∧ (t.chan c).cone = some c.val)) ∧
    (s.boot.unpackReq = true → s.boot.packed = true → noneAdopted s = true → s.time.tick % 4 = 0 →
      Completes .unpackingEdge s fun t => t.boot.packed = false ∧ t.boot.unpackReq = false ∧
        (c.val < 512 → hosted A = true → A.sitter = some c.val → A.cone = some c.val → (s.engine c).rehosting = false →
          idleEngine s (c.val + 512) = true → (t.chan c).sitter = some c.val ∧ (t.chan c).cone = some (c.val + 512)))

/-- Ticks (01 R30, R31, R34; 06 R154; 09 R230; 12 R306, R311): a hearth tick's boundary, a tick of the time island, a cluster tick and the swap
of the parameter banks. The model's own choices that it rests on: log entries 27, 28, 155, 159. -/
def Obligations.Ticks : Prop :=
  ∀ (h : Hearth) (io : TickInput) (n : ClusterNo) (s : State),
    let H := s.hearth h
    (H.alwaysOn = true → Completes (.hearthTick h io) s fun t => (t.hearth h).tick = H.tick + 1 ∧ (t.hearth h).tai = H.tai + 250 ∧
      (∀ k : Local, t.cell (64 * h.val + k.val) =
        if continuous H = true then cellTick io (H.tick + 1) k (s.group h).shadowTick (s.cell (64 * h.val + k.val))
        else cellCounters (s.cell (64 * h.val + k.val))) ∧
      (t.hk h).record = none ∧
      (∀ y : SpyNo, ∀ w, continuous H = true → (s.spy (130 * h.val + y.val)).nextWord = some w →
        (t.spy (130 * h.val + y.val)).word = w ∧ (t.spy (130 * h.val + y.val)).nextWord = none) ∧
      (continuous H = true → H.held = true → ∃ n q a,
        Out.frame (.up h H.holder) (linkFrame 5 h (upLane H H.holder) n (H.tick + 1) (samplePayload { s with cells := t.cells } h (H.tick + 1))) ∈ t.out ∧
        Out.frame (.up h H.holder) (linkFrame 6 h (upLane H H.holder) (n + 1) (H.tick + 1) q) ∈ t.out ∧
        Out.frame (.up h H.holder) (linkFrame 8 h (upLane H H.holder) a (H.tick + 1)
          (payBlocks [(32, ((match H.holder with | .loc => H.rxL | .cross => H.rxX) - 1).toNat)])) ∈ t.out ∧
        (H.firstOut = [] → n = upSeq H H.holder)) ∧
      (continuous H = true → ∀ p, H.held = false ∨ H.holder ≠ p →
        Out.frame (.up h p) (linkFrame 0 h (upLane H p) (upSeq H p) (H.tick + 1) []) ∈ t.out)) ∧
    (H.alwaysOn = false → exec (.hearthTick h io) s = .next s) ∧
    (crownUp s = true → Completes .timeIslandTick s fun t => t.time = advanceTime s.time ∧ t.time.tick = s.time.tick + 1 ∧
      t.time.tai = s.time.tai + 250 ∧ ((s.time.tick + 1) % 40 ≠ 0 ∨ s.time.slew = 0 → t.time.slew = s.time.slew) ∧
      ((s.time.tick + 1) % 40 = 0 → t.time.slew.natAbs = s.time.slew.natAbs - 1) ∧
      (s.boot.devState < 3 ∨ 5 ≤ s.boot.devState → ∀ j : Hearth16, laneOpen s j = true →
        let sent (type : Nat) (n : BitVec 32) (p : List (BitVec 64)) :=
          Out.frame (.down j) (linkFrame type (j % 8) (downLane s j) n (s.time.tick + 1) p) ∈ t.out
        (holdsHearth s j = true → ∃ n, sent 8 n (payBlocks [(32, ((s.link j).rx - 1).toNat)])) ∧
        (holdsHearth s j = true → s.boot.cracked = false →
          sent 1 (s.link j).tx [BitVec.ofNat 64 (s.time.tai + 250), BitVec.ofNat 64 (s.time.tick + 1)]) ∧
        (holdsHearth s j = false → sent 0 (s.link j).tx []))) ∧
    (crownUp s = false → exec .timeIslandTick s = .next s) ∧
    ((s.cluster n).failed = false → s.boot.cracked = false → enginesStopped s = false →
      Completes (.clusterTick n) s fun t => (t.cluster n).tick = (s.cluster n).tick + 1 ∧ ∀ j, j ≠ n.val → (t.cluster j).tick = (s.cluster j).tick) ∧
    ((s.cluster n).failed = true → exec (.clusterTick n) s = .next s) ∧
    ((s.cluster n).swap = true → (s.cluster n).failed = false → Completes (.parameterBankSwap n) s fun t => (t.cluster n).swap = false ∧
      (∀ (k : Chan) e p, (s.chan k).sitter = some e → e / 64 = n.val → (s.chan k).profNext = some p →
        (t.chan k).prof = p ∧ (t.chan k).sitter = if p = [] then none else some e) ∧
      (∀ (k : Chan) e p, (s.chan k).cone = some e → e / 64 = n.val → (s.chan k).profNext = some p →
        (t.chan k).coneProf = p ∧ (t.chan k).cone = if p = [] then none else some e) ∧
      (∀ (k : Chan) p, (t.chan k).prof = p → (t.chan k).coneProf = p → (s.chan k).profNext = some p → (t.chan k).profNext = none) ∧
      (s.Wf → ∀ e E, (e, E) ∈ s.engines → e / 64 = n.val → (t.engine e).active = 1 - E.active)) ∧
    ((s.cluster n).swap = false → exec (.parameterBankSwap n) s = .next s)

/-- Lanes and frames (01 R19 to R26, R27, R32; 11 R288, R303; 12 R313): the failure of a lane, the failover, reset attempts and the return;
TICK, ACK and IDLE frames at a hearth; the frames that either end discards and counts. The model's own choices that it rests on: log entries
4, 38. -/
def Obligations.Lanes : Prop :=
  ∀ (h : Hearth) (lane : Fin 2) (id : LaneId) (why : LaneFault) (g : Hearth16) (side : LinkEnd) (p : Port) (tai tick : BitVec 64)
      (seq : BitVec 32) (code : Fin 6) (s : State),
    let H := s.hearth h
    let others (t : State) := ∀ j, j ≠ h.val → t.hearth j = s.hearth j
    let lanes (t : State) := ∀ i, i ≠ id → laneAt t i = laneAt s i
    ((laneAt s id).failed = false → (why = .frames → missedFrames s id = true) → Completes (.laneFailed id why) s fun t => lanes t ∧
      laneAt t id = { trained := false, failed := true, attempts := 0 } ∧
      (∀ k l, id = .link k l → ((t.hearth k).failover = true ↔
        (s.hearth k).failover = true ∨ ((s.hearth k).active = l ∧ (laneOf (s.hearth k) (otherLane l)).trained = true))) ∧
      (match id with
        | .crossOut k => ErrorStamped t k (laneSrc id) 0x213
        | _ => FswLatched s t 0x213 (laneSrc id))) ∧
    ((laneAt s id).failed = true ∨ (why = .frames ∧ missedFrames s id = false) → exec (.laneFailed id why) s = .next s) ∧
    (H.failover = true → Completes (.laneFailoverComplete h) s fun t => (t.hearth h).failover = false ∧
      (t.hearth h).active = otherLane H.active ∧ (t.hearth h).lostFrames = [] ∧ (t.link h).changed = BitVec.allOnes 64 ∧
      ∀ f ∈ H.replayL, Out.frame (.up h .loc) (linkFrame f.type h (otherLane H.active).val f.seq f.tick f.payload) ∈ t.out) ∧
    (H.failover = false → exec (.laneFailoverComplete h) s = .next s) ∧
    ((laneAt s id).failed = true → (laneAt s id).attempts < 20 → Completes (.laneResetAttempt id) s fun t => lanes t ∧
      laneAt t id = { laneAt s id with trained := false, attempts := (laneAt s id).attempts + 1 }) ∧
    (20 ≤ (laneAt s id).attempts ∨ (laneAt s id).failed = false → exec (.laneResetAttempt id) s = .next s) ∧
    ((laneAt s id).failed = true → Completes (.laneRetrained id) s fun t => lanes t ∧
      laneAt t id = { trained := true, failed := false, attempts := 0 } ∧ ∀ k l, id = .link k l →
        (t.hearth k).active = if (laneOf (s.hearth k) (otherLane l)).trained = true then (s.hearth k).active else l) ∧
    ((laneAt s id).failed = false → exec (.laneRetrained id) s = .next s) ∧
    (H.logic = true → H.held = true → H.holder = p → Completes (.tickFrame h p lane tai tick) s fun t => others t ∧
      (t.hearth h).tai = tai.toNat ∧ (t.hearth h).tick = tick.toNat ∧ (t.hearth h).holdover = false ∧ (t.hearth h).tickSeen = true ∧
      (laneAt t (match p with | .loc => .link h lane | .cross => .crossOut h)).seen = true ∧
      (if p = .loc then (t.hearth h).silentL = 0 else (t.hearth h).silentX = 0) ∧ t.cells = s.cells) ∧
    (H.logic = true → H.held = false ∨ H.holder ≠ p → Completes (.tickFrame h p lane tai tick) s fun t => others t ∧
      (t.hearth h).tai = H.tai ∧ (t.hearth h).tick = H.tick ∧ (if p = .loc then (t.hearth h).silentL = 0 else (t.hearth h).silentX = 0)) ∧
    (∀ k : Hearth16, k.val = h.val → Completes (.ackFrame .hearth k p seq) s fun t => others t ∧
      t.hearth h = (match p with
        | .loc => { H with replayL := H.replayL.filter fun f => !ackCovers seq f.seq
                           lostFrames := H.lostFrames.filter fun f => !ackCovers seq f.seq }
        | .cross => { H with replayX := H.replayX.filter fun f => !ackCovers seq f.seq })) ∧
    (8 ≤ g.val → exec (.ackFrame .hearth g p seq) s = .next s) ∧
    exec (.ackFrame .crown g p seq) s = .next s ∧ exec (.idleFrame side g p) s = .next s ∧
    (∀ k : Hearth16, k.val = h.val →
      (Completes (.frameCrcFail .hearth k p lane) s fun t => others t ∧ t.cells = s.cells ∧ ErrorStamped t h (laneHSrc h p lane) 0x102) ∧
      (Completes (.reservedFrameType .hearth k p lane code) s fun t => others t ∧ t.cells = s.cells ∧
        ErrorStamped t h (laneHSrc h p lane) 0x103 ∧ (if p = .loc then (t.hearth h).silentL = 0 else (t.hearth h).silentX = 0))) ∧
    (Completes (.frameCrcFail .crown g p lane) s fun t => t.hearths = s.hearths ∧ FswLatched s t 0x102 (laneCSrc g lane)) ∧
    (Completes (.reservedFrameType .crown g p lane code) s fun t => t.hearths = s.hearths ∧ FswLatched s t 0x103 (laneCSrc g lane))

/-- Frames at the Crown (01 R17, R22; 02 R70; 06 R160, R176; 12 R324, R326; 13 R345): SAMPLE and STATE frames present a hearth's samples, states
and hearth-state block; an EVENT frame's next record is admitted; a record held back for 2 ms goes behind a gap record. The model's own
choices that it rests on: log entries 13, 34, 38, 48. -/
def Obligations.CrownFrames : Prop :=
  ∀ (h : Hearth16) (tick : BitVec 12) (blocks : List (BitVec 64)) (late : Bool) (entries : List (BitVec 16)) (hstate : BitVec 64)
      (r : EventRec) (src : BitVec 16) (s : State),
    (s.boot.cracked = false → Completes (.sampleFrame h tick blocks late) s fun t =>
      tabGet false t.frameShadow h = (blocks.getD 0 0).getLsbD 7 ∧ tabGet 0 t.frameTick h = presentTick s h ∧ ∀ k : Local,
        let c := 64 * h.val + k.val
        let B := t.chan c
        (hosted (s.chan c) = true → B.late = late ∧
          (k.val % 8 = fld (blocks.getD 0 0) 2 3 → B.vFresh = true ∧
            B.vWord.toNat = fld (blocks.getD (9 + k.val / 8 / 4) 0) (16 * (k.val / 8 % 4)) 16 ∧
            B.vOvr = (blocks.getD 11 0).getLsbD (32 + k.val / 8)) ∧
          (k.val % 8 ≠ fld (blocks.getD 0 0) 2 3 → B.vFresh = false ∧ B.vWord = (s.chan c).vWord) ∧
          (k.val % 2 = fld (blocks.getD 0 0) 5 1 → B.iFresh = true ∧
            B.iWord.toNat = fld (blocks.getD (1 + k.val / 8) 0) (16 * (k.val / 2 % 4)) 16 ∧ B.iOvr = (blocks.getD 11 0).getLsbD (k.val / 2)) ∧
          (k.val % 2 ≠ fld (blocks.getD 0 0) 5 1 → B.iFresh = false ∧ B.iWord = (s.chan c).iWord)) ∧
        (hosted (s.chan c) = false → B = s.chan c)) ∧
    (s.boot.cracked = true → exec (.sampleFrame h tick blocks late) s = .next (takeUp s h)) ∧
    (alive s = true → Completes (.stateFrame h entries hstate) s fun t => tabGet 0 t.hblocks h = hstate ∧
      tabGet 0 t.feedWord h = hstate.extractLsb' 0 16 ∧
      (h.val < 8 → ∀ (k : Local) w x, entries[k.val]? = some w → stOf (fld w 12 4) = some x → hosted (s.chan (64 * h.val + k.val)) = true →
        (t.chan (64 * h.val + k.val)).obs = x ∧ (t.chan (64 * h.val + k.val)).stWord = w)) ∧
    (alive s = false → exec (.stateFrame h entries hstate) s = .next (seeState (takeUp s h) h)) ∧
    (crownUp s = true → Logging s → h.val < 8 → isNew s r.source.toNat r.seq = true → s.log.waiting.contains r = false →
      (isNext s r = true → s.log.waiting = [] → s.coll.heldEv = [] → r.code ≠ 0x1501 → Completes (.eventFrame h [r]) s fun t =>
        t.log.head = s.log.head + 1 ∧ t.log.recs = admitForm s r :: s.log.recs.take 16383 ∧ t.log.waiting = []) ∧
      (isNext s r = false → s.coll.heldEv = [] → r.code ≠ 0x1501 → Completes (.eventFrame h [r]) s fun t => t.log.recs = s.log.recs ∧
        t.log.waiting = s.log.waiting ++ [r])) ∧
    (∀ w, Logging s → s.coll.heldEv = [] → s.log.waiting.length < 16384 → firstWaiting s src.toNat = some w → Completes (.gapHoldTimeout src) s fun t =>
      ∃ g ∈ t.log.recs, g.code = 0x1001 ∧ g.source = src ∧ g.seq = prevSeq w.seq ∧ g.cls = 2) ∧
    (firstWaiting s src.toNat = none → exec (.gapHoldTimeout src) s = .next s)

/-- The housekeeping sequencer (06 R162 to R164, R171 to R177): its triggers, a completed conversion's record, and the end of a pass. The
model's own choices that it rests on: log entries 4, 41, 57. -/
def Obligations.HkSteps : Prop :=
  ∀ (h : Hearth) (e : Fin 32) (past : Bool) (v : HkConv) (s : State),
    let K := s.hk h
    let others (t : State) := ∀ j, j ≠ h.val → t.hk j = s.hk j
    (hkUp s h = true → cPeriod K ≠ 0 → Completes (.hkTimerTrigger h) s fun t => others t ∧ SeqTriggered K (t.hk h)) ∧
    (hkUp s h = false ∨ cPeriod K = 0 → exec (.hkTimerTrigger h) s = .next s) ∧
    (hkUp s h = true → 0 < K.startDue → Completes (.hkStartEventTrigger h) s fun t => others t ∧ SeqTriggered K (t.hk h) ∧
      (t.hk h).startDue = K.startDue - 1) ∧
    (hkUp s h = true → K.urgWait.contains e.val = true →
      let L := { K with urgWait := K.urgWait.erase e.val }
      let idle := (entrySources s h (hkEntry K e) (tabGet 0 K.follow e)).isEmpty
      (idle = true → Completes (.hkUrgentTrigger h e past) s fun t => others t ∧ t.hk h = L) ∧
      (idle = false → K.urgRun ≠ none ∨ (normalRuns s h K = true ∧ past = true) → Completes (.hkUrgentTrigger h e past) s fun t => others t ∧
        t.hk h = { L with urgPend := insertAsc e.val K.urgPend }) ∧
      (idle = false → K.urgRun = none → normalRuns s h K = true → past = false → Completes (.hkUrgentTrigger h e past) s fun t => others t ∧
        t.hk h = { L with urgRun := some e.val, diode := 0, diodeSettle := false, aborts := satInc16 K.aborts }) ∧
      (idle = false → K.urgRun = none → normalRuns s h K = false → Completes (.hkUrgentTrigger h e past) s fun t => others t ∧
        t.hk h = { L with urgRun := some e.val })) ∧
    (hkUp s h = true → convRunning s h = none → Completes (.hkConversionComplete h v) s fun t => others t ∧
      t.hk h = { K with urgRun := (nextUrgent s h K K.urgPend).1, urgPend := (nextUrgent s h K K.urgPend).2 }) ∧
    (∀ entry urgent inp sel, hkUp s h = true → convRunning s h = some (entry, urgent, inp, sel) →
      let mode := if inp < 64 then tsnsMode s (64 * h.val + inp) else 0
      let D := if K.diodeIn = inp then K.diode else 0
      let settled := if K.diodeIn = inp then K.diodeSettle else false
      let settle := decide (0 < K.settle) || v.clamp || settled
      let next := nextUrgent s h K K.urgPend
      let on := passOn s h entry (srcKey (hkEntry K entry) (inp, sel)) K
      let recorded (r : Nat × Bool) := Completes (.hkConversionComplete h v) s fun t => others t ∧ (t.hk h).settle = (if r.2 then 2 else K.settle - 1) ∧
        (t.hk h).record = some (hkRecord inp entry (inputForm inp) r.2 settle urgent (K.markFirst && !urgent) v.aperture.toNat
          (if 72 ≤ inp ∧ inp ≤ 75 then sel else 0) r.1) ∧
        (t.hk h).urgRun = next.1 ∧ (t.hk h).urgPend = next.2 ∧ (t.hk h).diode = 0 ∧
        (urgent = false → (t.hk h).entry = on.entry ∧ (t.hk h).inputPos = on.inputPos ∧ (t.hk h).steps = on.steps) ∧
        (urgent = true → (t.hk h).entry = K.entry ∧ (t.hk h).inputPos = K.inputPos ∧ (t.hk h).steps = K.steps)
      (mode = 1 → D < 2 → Completes (.hkConversionComplete h v) s fun t => others t ∧ (t.hk h).record = K.record ∧
        (D = 0 → (t.hk h).v1.toNat = rawCode v.value) ∧ (D = 1 → (t.hk h).v1 = K.v1 ∧ (t.hk h).v2.toNat = rawCode v.value) ∧
        (urgent = true ∨ next.1 = none → (t.hk h).diode = D + 1 ∧ (t.hk h).urgRun = K.urgRun) ∧
        (urgent = false → next.1 ≠ none → (t.hk h).diode = 0 ∧ (t.hk h).urgRun = next.1 ∧ (t.hk h).urgPend = next.2)) ∧
      (mode = 1 → 2 ≤ D → recorded (diodeTemp K.v1.toNat K.v2.toNat v.value (cIdeality K))) ∧
      (mode = 2 → recorded (ntcTemp K.ntc (rawCode v.value))) ∧
      (mode ≠ 1 → mode ≠ 2 → recorded (formValue (inputForm inp) v.value))) ∧
    (hkUp s h = false → exec (.hkConversionComplete h v) s = .next s) ∧
    (K.running = true → cLast K < (hkPlace s h K).1 → Completes (.hkPassEnd h) s fun t => others t ∧
      tabGet 0 t.passes h = tabGet 0 s.passes h + 1 ∧ (t.hk h).pending = false ∧
      if K.pending = true then (t.hk h).running = true ∧ (t.hk h).markFirst = true ∧ (t.hk h).entriesNext = []
      else t.hk h = { K with running := false }) ∧
    (K.running = false ∨ (hkPlace s h K).1 ≤ cLast K → exec (.hkPassEnd h) s = .next s)

/-- The spyholes (07 R184 to R187, R191 to R195; 08 R216, R217): a crossing starts, restarts or abandons a filter, and raises or retracts the
warning of the conducting feed; a filter's end enters its state and the capture slots bound to it; a start's compare resolves; a throttle
window's end reports what it suppressed. The model's own choices that it rests on: log entries 4, 42, 46, 59. -/
def Obligations.SpyholeSteps : Prop :=
  ∀ (h : Hearth) (n : SpyNo) (z : Zone) (off : Fin 250) (s : State),
    let k := 130 * h.val + n.val
    let y := s.spy k
    let w := zoneIn y.word z
    let x := spyJudged y w
    let G := s.group h
    let now := hearthNow s h off
    let others (t : State) := ∀ j, j ≠ k → t.spy j = s.spy j
    (yOn y.word = true → y.starting = false → continuous (s.hearth h) = true → Completes (.spyholeCrossing h n z off) s fun t => others t ∧
      t.captures = s.captures ∧
      t.spy k = { placeSpy y w with filter := if x = y.st then none else some x, filterAt := if y.filter = some x then y.filterAt else now } ∧
      (∀ f, spyFeed n = some f → G.sel = some f → y.st = .inside ∨ y.st = .unresolved → x = .below ∨ x = .above → y.filter ≠ some x →
        (t.group h).nextId = G.nextId + 1 ∧ ∃ e, lastStamp t h = some e ∧ e.code = 0x1305) ∧
      (∀ f, spyFeed n = some f → G.sel = some f → y.st = .inside ∨ y.st = .unresolved → y.filter = some .below ∨ y.filter = some .above → x = y.st →
        (G.pulling = false →
          (t.group h).warns = G.warns.map fun w => if isCrossing w then { w with kind := .retracted, due := true } else w) ∧
        (G.pulling = true → t.group h = G))) ∧
    (yOn y.word = false ∨ y.starting = true ∨ continuous (s.hearth h) = false → exec (.spyholeCrossing h n z off) s = .next s) ∧
    (∀ new, y.filter = some new → continuous (s.hearth h) = true → y.filterAt ≠ now ∨ yFilterNs y.word = 0 →
      Completes (.spyholeFilterComplete h n off) s fun t => others t ∧ (t.spy k).st = new ∧ (t.spy k).filter = none ∧
      (t.spy k).excursion = (if new = .below ∨ new = .above then true else if new = .inside then false else y.excursion) ∧
      ∀ i : Fin 16, let C := s.capture (16 * h.val + i.val)
        let D := t.capture (16 * h.val + i.val)
        let time := now - yFilterNs y.word - spyResponse n
        let unc := siteUnc (s.hearth h) (spySite n) false
        if bindingTakes C.binding n new = false then D = C
        else if C.edge.any (fun e => decide (e ≤ time)) then D = { C with late := C.late ++ [(new, time, unc, false)] }
        else D.latest = BitVec.ofNat 64 time ∧ D.stLatest = BitVec.ofNat 2 (spyCode new) ∧ D.smpLatest = false ∧ D.uncLatest = unc ∧
          D.count = (if C.count = 0xFFFF then C.count else C.count + 1) ∧ (C.count = 0 → D.first = D.latest ∧ D.uncFirst = unc) ∧
          (C.count ≠ 0 → D.first = C.first ∧ D.uncFirst = C.uncFirst) ∧ D.late = C.late) ∧
    (y.filter = none ∨ continuous (s.hearth h) = false ∨ (y.filterAt = now ∧ yFilterNs y.word ≠ 0) →
      exec (.spyholeFilterComplete h n off) s = .next s) ∧
    (y.starting = true → Completes (.spyholeStartCompare h n z off) s fun t => others t ∧ (t.spy k).zone = w ∧ (t.spy k).band = w ∧
      (t.spy k).starting = false ∧ (t.spy k).st = if startState w = .unresolved then y.st else startState w) ∧
    (y.starting = false → exec (.spyholeStartCompare h n z off) s = .next s) ∧
    (Completes (.spyThrottleWindowEnd h) s fun t => t.captures = s.captures ∧
      (∀ m : SpyNo, t.spy (130 * h.val + m.val) = { s.spy (130 * h.val + m.val) with stamped := 0, suppressed := 0 }) ∧
      ∀ m : SpyNo, (s.spy (130 * h.val + m.val)).suppressed ≠ 0 → ∃ e ∈ (t.hearth h).outbox, e.code = 0x110B ∧
        e.payload.toNat % 256 = m.val ∧ e.payload.toNat / 2 ^ 10 % 65536 = (s.spy (130 * h.val + m.val)).suppressed.toNat)

/-- A feed handover (08 R207, R209, R211, R212, R214, R217, R218, R223): the lead's end, the break, the gap's end, the make, the end of the
recharge and of the shadow, and the release of a warning. The model's own choices that it rests on: log entries 4, 43, 44, 46. -/
def Obligations.FeedHandover : Prop :=
  ∀ (h : Hearth) (off : Fin 250) (ident : BitVec 16) (s : State),
    let G := s.group h
    let now := hearthNow s h off
    let settled := if inExcursion s h = true then Phase.confirm else .steady
    let kept (w : Warn) := if w.kind = .kept ∧ w.due = false then { w with kind := .handover } else w
    let done (i : Instr) (P : State → Group → Prop) := Completes i s fun t => OnGroup h s t ∧ P t (t.group h)
    let made (i : Instr) (f : Feed) (limited : Bool) := done i fun t X => X.sel = some f ∧ X.phase = .recharge ∧ X.makeAt = now ∧
      X.limited = limited ∧ X.stuck = false ∧ X.shadow = (G.shadow || decide (G.phase = .none)) ∧
      X.shadowAt = (if G.phase = .none ∧ G.shadow = false then now else G.shadowAt) ∧
      (G.phase = .gap → G.shadow = false → ∀ w ∈ X.warns, w.kind = .handover → w.due = true) ∧ ∃ e, lastStamp t h = some e ∧ e.code = 0x1302
    (G.phase = .lead → G.pulling = false → done (.warnLeadEnd h) fun _ X =>
      X = { G with pulling := true, outgoing := G.sel, lossKind := 0, standing := false, warns := G.warns.map kept }) ∧
    (G.phase ≠ .lead ∨ G.pulling = true → exec (.warnLeadEnd h) s = .next s) ∧
    (G.pulling = true → done (.selectorBreak h off) fun t X => X.sel = none ∧ X.phase = .gap ∧ X.pulling = false ∧ X.stuck = false ∧
      X.shadow = true ∧ X.shadowAt = (if G.shadow = true then G.shadowAt else now) ∧ X.outgoing = G.outgoing ∧
      (G.outgoing = some .a → X.offAtA = now ∧ X.offHighA = false) ∧ (G.outgoing = some .b → X.offAtB = now ∧ X.offHighB = false) ∧
      (∀ w ∈ X.warns, w.kind ≠ .pending) ∧ ∃ e, lastStamp t h = some e ∧ e.code = 0x1301) ∧
    (G.pulling = false → exec (.selectorBreak h off) s = .next s) ∧
    (G.phase = .gap → G.sel = none → (∀ f, bestFeed s h off = some f → made (.gapExpiry h off) f true) ∧
      (bestFeed s h off = none → done (.gapExpiry h off) fun _ X => X.phase = .none ∧ X.sel = none ∧ X.forced = G.forced ∧
        ∀ w ∈ X.warns, w.kind ≠ .handover)) ∧
    (G.phase ≠ .gap ∨ G.sel ≠ none → exec (.gapExpiry h off) s = .next s) ∧
    (∀ f, G.phase = .idle → fld G.word0 60 2 ≠ 0 → bestFeed s h off = some f → made (.feedFirstMake h off) f false) ∧
    (∀ f, G.phase = .none → bestFeed s h off = some f → made (.feedMakeFromNone h off) f true) ∧
    (G.phase ≠ .idle ∨ bestFeed s h off = none → exec (.feedFirstMake h off) s = .next s) ∧
    (G.phase ≠ .none ∨ bestFeed s h off = none → exec (.feedMakeFromNone h off) s = .next s) ∧
    (G.phase = .recharge → G.pulling = false → G.pendSel = none → done (.rechargeEnd h off) fun t X => X.limited = false ∧
      X.sel = G.sel ∧ (∃ e ∈ (t.hearth h).outbox, e.code = 0x1303) ∧
      X.phase = (if G.shadow = true ∧ now < G.makeAt + 20000 then .tail else settled) ∧
      X.shadow = (G.shadow && decide (now < G.makeAt + 20000))) ∧
    (G.phase ≠ .recharge ∨ G.pulling = true → exec (.rechargeEnd h off) s = .next s) ∧
    (G.shadow = true → G.pendSel = none → (G.phase = .tail ∧ G.makeAt + 20000 ≤ now) ∨ G.shadowAt + 1000000 ≤ now →
      done (.shadowEnd h off) fun t X => X.shadow = false ∧ X.sel = G.sel ∧
        X.phase = (if G.phase = .tail ∧ G.pulling = false then settled else G.phase) ∧
        (G.sel = none ∨ G.pulling = true → X.warns = G.warns) ∧ ∃ e ∈ (t.hearth h).outbox, e.code = 0x1304) ∧
    (G.shadow = false → exec (.shadowEnd h off) s = .next s) ∧
    (∀ w, G.warns.find? (fun w => w.ident = ident ∧ w.due) = some w → done (.warningRelease h ident) fun t X =>
      X = { G with warns := G.warns.erase w } ∧ (w.kind ≠ .retracted → ∃ e, lastStamp t h = some e ∧ e.code = 0x1308))

/-- The watch on a feed group (08 R208 to R210, R213, R214, R216, R217, R221 to R223): the confirmed loss of the conducting feed, reverse
current, a path drop, a stuck selector, a recharge beyond its limit, the return to the preferred feed, and a short behind an off selector.
The model's own choices that it rests on: log entries 4, 43, 46. -/
def Obligations.FeedWatch : Prop :=
  ∀ (h : Hearth) (feed : Feed) (high : Bool) (volts : BitVec 32) (s : State),
    let G := s.group h
    let done (i : Instr) (P : State → Group → Prop) := Completes i s fun t => OnGroup h s t ∧ P t (t.group h)
    let errored (t : State) (code : Nat) := ErrorStamped t h (srcGroup h) code
    let other := bestFeed (s.updGroup h fun G => { G with outgoing := G.sel }) h
    let forced := G.forced && decide (G.forcedTo ≠ G.sel)
    (continuous (s.hearth h) = true → inExcursion s h = true → G.pulling = false → G.standing = false →
      G.phase = .confirm ∨ G.phase = .lead ∨ G.phase = .recharge ∨ G.phase = .tail →
      (other ≠ none → done (.confirmExpiry h) fun _ X => X.pulling = true ∧ X.outgoing = G.sel ∧ X.lossKind = 1 ∧ X.forced = forced ∧
        X.sel = G.sel ∧ ∀ w ∈ X.warns, w.kind ≠ .pending) ∧
      (other = none → G.pendSel = none → done (.confirmExpiry h) fun _ X => X.pulling = false ∧ X.standing = true ∧ X.sel = G.sel ∧
        X.forced = forced ∧ X.phase = (if G.phase = .confirm ∨ G.phase = .lead then .steady else G.phase) ∧ ∀ w ∈ X.warns, w.kind ≠ .pending)) ∧
    (inExcursion s h = false ∨ continuous (s.hearth h) = false → exec (.confirmExpiry h) s = .next s) ∧
    (G.sel ≠ none → done (.reverseCurrent h) fun _ X => X.pulling = true ∧ X.forced = forced ∧ X.nextId = G.nextId + 1 ∧ X.sel = G.sel ∧
      (G.pulling = false → X.lossKind = 2 ∧ X.outgoing = G.sel) ∧ ∀ w ∈ X.warns, w.kind ≠ .pending) ∧
    (G.sel = none → exec (.reverseCurrent h) s = .next s) ∧
    (G.pulling = false → G.phase = .steady ∨ G.phase = .confirm ∨ G.phase = .tail ∨ G.phase = .recharge → done (.pathDrop h) fun t X =>
      X.pulling = true ∧ X.lossKind = 3 ∧ X.outgoing = G.sel ∧ X.nextId = G.nextId + 1 ∧ X.forced = forced ∧ errored t 0x212 ∧
      X.barA = (G.barA || decide (G.sel = some .a)) ∧ X.barB = (G.barB || decide (G.sel = some .b))) ∧
    (G.pulling = true ∨ G.phase = .idle ∨ G.phase = .lead ∨ G.phase = .gap ∨ G.phase = .none → exec (.pathDrop h) s = .next s) ∧
    (G.pulling = true → G.stuck = false → done (.selectorDischargeTimeout h) fun t X => X = { G with stuck := true, phase := .gap } ∧
      errored t 0x20F) ∧
    (G.pulling = false ∨ G.stuck = true → exec (.selectorDischargeTimeout h) s = .next s) ∧
    (G.phase = .recharge → G.limited = true → G.shadowAt + 1000000 ≤ hearthNow s h 250 → done (.rechargeOvertime h) fun t X =>
      X.limited = false ∧ X.shadow = false ∧ X.phase = .recharge ∧ errored t 0x210) ∧
    (G.phase ≠ .recharge ∨ G.limited = false ∨ hearthNow s h 250 < G.shadowAt + 1000000 → exec (.rechargeOvertime h) s = .next s) ∧
    (∀ f at_, prefer G = some f → G.phase = .steady → G.pulling = false → G.forced = false → fld G.word0 39 8 ≠ 0 →
      G.sel = some (otherFeed f) → eligible s h f = true → G.returnSince = some at_ → at_ + 10000000 * fld G.word0 39 8 ≤ hearthNow s h 500 →
      done (.returnDwell h) fun t X => X.phase = .lead ∧ X.target = some f ∧ X.lossKind = 0 ∧
        X.nextId = G.nextId + 1 ∧ X.sel = G.sel ∧ ∃ e, lastStamp t h = some e ∧ e.code = 0x1305) ∧
    (G.phase ≠ .steady ∨ G.forced = true ∨ G.returnSince = none → exec (.returnDwell h) s = .next s) ∧
    (G.sel ≠ some feed → done (.offStateShort h feed high volts) fun t X =>
      X = (match feed with | .a => { G with offHighA := high } | .b => { G with offHighB := high }) ∧
      (high = true → (match feed with | .a => G.offHighA | .b => G.offHighB) = false → errored t 0x211)) ∧
    (G.sel = some feed → exec (.offStateShort h feed high volts) s = .next s)

/-- The time base's inputs, its steps, and the seals (12 R307, R309, R311, R329, R330, R507): an accepted 1PPS edge sets the phase and corrects
the counter by the distance to the nearest second; LOCAL holds from the third edge while the time of day is known; an armed TIME.SET is
applied; the loss and return of an input; the step of a large correction; a seal and its signature. The model's own choices that it rests
on: log entries 4, 76, 77, 154. -/
def Obligations.TimeBase : Prop :=
  ∀ (atNs : BitVec 64) (s : State), crownUp s = true →
    let T := s.time
    let x : Int := (atNs.toNat : Int) - tPpsDelay T.word
    let c := nearSecond x - x
    let inPhase := T.phased = false ∨ c.natAbs ≤ 1000
    (tPpsEn T.word = true → inPhase → T.armed = none → Completes (.ppsEdge atNs) s fun t =>
      t.time.phased = true ∧ t.time.ppsLost = false ∧ t.time.edges = T.edges + 1 ∧ t.time.lastPps = BitVec.ofInt 64 (nearSecond x) ∧
      t.time.slew + t.time.stepDue = c ∧ 250 ∣ t.time.stepDue ∧ (if c.natAbs ≤ 1000 then t.time.stepDue = 0 else t.time.slew.natAbs ≤ 125) ∧
      t.time.state = if (T.known = true ∨ 2 ≤ T.state.val) ∧ 2 ≤ T.edges then 2 else T.state) ∧
    (∀ tai unc, tPpsEn T.word = true → inPhase → T.armed = some (tai, unc) → Completes (.ppsEdge atNs) s fun t =>
      t.time.phased = true ∧ t.time.ppsLost = false ∧ t.time.state = 1 ∧ t.time.armed = none ∧ t.time.known = true ∧ t.time.edges = 0 ∧
      t.time.lastPps = tai ∧ t.time.uBase = 80 * unc.toNat ∧ t.time.slew + t.time.stepDue = tai.toNat - x) ∧
    (tPpsEn T.word = true → ¬ inPhase → Completes (.ppsEdge atNs) s fun t => t.time = { T with ignored := T.ignored + 1 }) ∧
    (tPpsEn T.word = false → exec (.ppsEdge atNs) s = .next s) ∧
    (tPpsEn T.word = true → T.ppsLost = false → T.lastPps.toNat + 3000000000 ≤ T.tai → Completes .ppsAbsent s fun t =>
      t.time.ppsLost = true ∧ t.time.phased = false ∧ t.time.edges = 0 ∧ t.time.state = (if T.state = 2 then 4 else T.state) ∧
      FswLatched s t 0x21E srcDevice) ∧
    (T.tai < T.lastPps.toNat + 3000000000 → exec .ppsAbsent s = .next s) ∧
    (tF10mEn T.word = true → T.f10mLost = false → Completes .f10mLoss s fun t => t.time.f10mLost = true ∧ t.time.state = T.state ∧
      t.time.uBase = (if T.state = 2 then 800 else T.uBase) ∧ FswLatched s t 0x21E srcDevice) ∧
    (tF10mEn T.word = true → T.f10mLost = true → Completes .f10mReturn s fun t => t.time.f10mLost = false ∧ t.time.state = T.state ∧
      t.time.uBase = if T.state = 2 then 320 else T.uBase) ∧
    (T.stepDue ≠ 0 → Completes .timeStep s fun t => t.time.stepDue = 0 ∧ t.time.tai = ((T.tai : Int) + T.stepDue).toNat ∧
      t.time.slew = T.slew ∧ (Logging s → Logged t srcDevice 0x1004)) ∧
    (T.stepDue = 0 → exec .timeStep s = .next s) ∧
    (let p := tAuditNs T.word
     let ahead := (p - T.tai % p) % p
     Logging s → p ≠ 0 → ahead < 250 → (∀ d ∈ s.log.sealsDue, d.rec_.time.toNat ≠ T.tai + ahead) → T.tai + ahead < 2 ^ 64 →
      Completes .auditSeal s fun t => t.log.head = s.log.head + 1 ∧ t.log.sealNo = s.log.sealNo + 1 ∧ Logged t srcDevice 0x1006 ∧
        ∃ d, t.log.sealsDue = s.log.sealsDue ++ [d] ∧ d.num = s.log.sealNo + 1 ∧ d.index = s.log.head + 1 ∧ d.chain = t.log.chain ∧
          d.first = s.log.lastSealIndex + 1 ∧ d.rec_.time.toNat = T.tai + ahead) ∧
    (tAuditNs T.word = 0 → exec .auditSeal s = .next s) ∧
    (∀ d rest, s.log.sealsDue = d :: rest → s.boot.cracked = false → Completes .sealSigned s fun t => t.log.sealsDue = rest ∧
      ∃ b, t.log.seals = (d.num, b) :: s.log.seals.take 63 ∧ b.take 192 = sealBody s d ∧ t.log.prevDigest = Config.sha384 b) ∧
    (s.log.sealsDue = [] → exec .sealSigned s = .next s)

/-- The pair link and the wake (13 R334 to R338, R355, R359 to R361; 16 R435, R437, R438): heartbeats sent and received, a silent path, HELLO
and the partner's Book, the partner's Banked interval, a wake cause, the end of the entry to Banked and of the wake, and the requests that
go to the partner. The model's own choices that it rests on: log entries 4, 23, 46, 92, 94, 99, 100, 103. -/
def Obligations.PairLink : Prop :=
  ∀ (count : BitVec 32) (dstate pstate own partner : BitVec 8) (ns : Nat) (x : PairHello) (off : BitVec 32) (bs : List Byte) (h : Hearth)
    (cause : Fin 7) (s : State),
    let P := s.pair
    (alive s = true → 1 ≤ s.boot.devState.val → s.boot.devState.val ≤ 4 → s.time.tick % 8 = 0 → Completes .heartbeatEmit s fun t =>
      if s.boot.devState = 1 ∨ (s.boot.devState = 4 ∧ 5 ≤ s.host.wakeStage) then
        Sends s t [pairFrame s 1 0 [(32, P.hbCount.toNat), (8, s.boot.devState.val), (8, P.state.val), (8, ownMask s), (8, adoptedMask s)], .pulse] ∧
          t.pair = { P with hbCount := P.hbCount + 1, tx := P.tx + 1 }
      else Sends s t [.pulse] ∧ t.pair = P) ∧
    (s.time.tick % 8 ≠ 0 → exec .heartbeatEmit s = .next s) ∧
    (pairOn s = true → Completes (.heartbeatFrame count dstate pstate own partner) s fun t => t.pair.laneLive = true ∧
      t.pair.laneTick = s.time.tick ∧ t.pair.hbSeen = count ∧ t.pair.partnerState = pstate ∧ t.pair.told = false ∧
      (P.state = 5 → t.pair.state = if pstate = 3 ∧ P.partnerState ≠ 3 ∧ noneAdopted s = false then 7 else 5)) ∧
    (pairOn s = true → 100 ≤ ns → ns ≤ 400 → Completes (.heartbeatPulse ns) s fun t => t.pair.pulseLive = true ∧
      t.pair.pulseTick = s.time.tick ∧ t.pair.told = false ∧ t.pair.laneLive = P.laneLive) ∧
    (ns < 100 ∨ 400 < ns → exec (.heartbeatPulse ns) s = .next s) ∧
    (pairOn s = true → P.laneLive = true → P.banked = false → P.laneTick + 64 ≤ s.time.tick → Completes (.heartbeatPathSilent .lane) s fun t =>
      t.pair.laneLive = false ∧ t.pair.pulseLive = P.pulseLive ∧ (P.pulseLive = true → FswLatched s t 0x21A srcPartner)) ∧
    (pairOn s = true → P.pulseLive = true → P.pulseTick + 64 ≤ s.time.tick → Completes (.heartbeatPathSilent .pulse) s fun t =>
      t.pair.pulseLive = false ∧ t.pair.laneLive = P.laneLive ∧ (laneOut s = false → FswLatched s t 0x21A srcPartner)) ∧
    (P.banked = true ∨ s.time.tick < P.laneTick + 64 → exec (.heartbeatPathSilent .lane) s = .next s) ∧
    (pairOn s = true → firmwareRuns s = true →
      (helloBad s x = true → Completes (.pairHello x) s fun t => t.pair.agreed = false ∧
        t.pair.state = if P.state.val ≤ 3 ∨ P.state = 6 then 2 else P.state) ∧
      (helloBad s x = false → Completes (.pairHello x) s fun t => t.pair.agreed = true ∧ t.pair.partnerId = x.ident ∧
        t.pair.partnerDigest = x.bookDigest ∧ t.pair.greeted = true ∧
        (P.state.val ≤ 2 → x.bookDigest ≠ s.books.partnerDigest → t.pair.state = 1)) ∧
      (let n := if off = 0 then 0 else s.books.incomingLen
       let m := tabPut 0 (if off = 0 then [] else s.books.incoming) n (bs.take 2036)
       let len := n + (bs.take 2036).length
       let want := leAt (tabRun 0 m 0 32) 8 4
       let all := tabRun 0 m 0 (max 32 want)
       (P.agreed = true → off.toNat = n → n + bs.length ≤ 1048576 →
        (len < 32 ∨ len < want → Completes (.bookFrame off bs) s fun t => t.books = { s.books with incoming := m, incomingLen := len } ∧
          t.pair = P) ∧
        (32 ≤ len → want ≤ len → Completes (.bookFrame off bs) s fun t => t.books.incoming = [] ∧ t.books.incomingLen = 0 ∧
          let bad := t.books.partner = s.books.partner ∧ t.pair.state = if P.state.val ≤ 2 then 2 else P.state
          match checkBook (s.setBooks { s.books with incoming := [], incomingLen := 0 }) all none true with
          | .ok (b, _) => if bookDigest b = P.partnerDigest then t.books.partner = all ∧ t.books.partnerDigest = bookDigest b else bad
          | .error _ => bad)) ∧
       (off.toNat ≠ n → exec (.bookFrame off bs) s = .next s))) ∧
    (pairOn s = true → Completes .noticeBanked s fun t => t.pair = { P with banked := true } ∧ Agree [.pair] s t) ∧
    (pairOn s = true → P.banked = true → Completes .noticeAwake s fun t =>
      t.pair = { P with banked := false, laneTick := s.time.tick } ∧ Agree [.pair] s t) ∧
    (pairOn s = true → s.boot.devState = 1 → (s.hearth h).alwaysOn = true → (s.hearth h).saggar = true →
      ¬ ((s.hearth h).held = true ∧ (s.hearth h).holder = .cross) → ¬ (P.transfer = true ∧ P.handing = some h) →
      Completes (.ownHearthSaggarNotice h) s fun t => Sends s t [pairFrame s 5 h [(8, 5), (32, 0)]] ∧ Agree [.out, .pair] s t ∧
        t.pair = { P with tx := P.tx + 1 }) ∧
    (pairOn s = true → firmwareRuns s = true → P.state = 5 → pairAutoReset s = true → P.fresh = true → bothSilent s = true →
      P.adoptedSince + pairResetTicks s ≤ s.time.tick → Completes .resetDelayExpiry s fun t =>
        Sends s t [pairFrame s 6 0 [(64, P.partnerId.toNat)]] ∧ t.pair = { P with fresh := false, tx := P.tx + 1 } ∧ Stamped s t srcPartner 0x1609 [(8, 1)]) ∧
    (pairAutoReset s = false ∨ bothSilent s = false → exec .resetDelayExpiry s = .next s) ∧
    (Completes (.wakeCause cause h) s fun t =>
      (s.boot.devState = 3 → t.boot = { s.boot with devState := 4 } ∧ t.host.wakeCause = wakeBits cause h ∧ t.host.wakeStage = 0 ∧
        t.host.wakeTick = s.time.tick ∧ t.host.wakeTime = BitVec.ofNat 64 s.time.tai) ∧
      (s.boot.devState = 4 → t.boot = s.boot ∧ t.host = { s.host with wakeCause := s.host.wakeCause ||| wakeBits cause h }) ∧
      (s.boot.devState = 2 → t.boot = s.boot ∧ t.host.wakeHeld = s.host.wakeHeld ||| wakeBits cause h) ∧
      (s.boot.devState ≠ 2 → s.boot.devState ≠ 3 → s.boot.devState ≠ 4 → t = s)) ∧
    (∀ src, s.host.bankSrc = some src → s.boot.devState = 2 → (srcBox s src).running = false → Completes .bankedReached s fun t =>
      t.boot.devState = (if s.host.wakeHeld = 0 then 3 else 4) ∧ t.host.bankSrc = none ∧ t.time.parent = none ∧
        t.time.state = (if s.time.state = 3 then 4 else s.time.state) ∧
        (s.host.wakeHeld ≠ 0 → t.host.wakeCause = s.host.wakeHeld ∧ t.host.wakeHeld = 0 ∧ t.host.wakeTick = s.time.tick)) ∧
    (s.boot.devState ≠ 2 → exec .bankedReached s = .next s) ∧
    (s.boot.devState = 4 → s.host.wakeTick + 160 ≤ s.time.tick → Completes .wakeComplete s fun t => t.boot.devState = 1 ∧
      t.host.irqStatus.getLsbD 17 = true ∧ ∀ m : MboxNo, (t.mbox m).phase ≠ 3) ∧
    (s.time.tick < s.host.wakeTick + 160 → exec .wakeComplete s = .next s)

/-- Adoption, checkpoints and the hand-over of hearths (13 R334, R339, R342, R344, R352, R354 to R359, R361; 14 R382; 16 R439). The model's own
choices that it rests on: log entries 4, 26, 91, 93, 94, 98, 100. -/
def Obligations.PairAdoption : Prop :=
  ∀ (j : Hearth) (claim : BitVec 32) (part count : Nat) (bytes : List Byte) (s : State),
    let P := s.pair
    let C := s.cp j
    let lowestHeld (t : State) := ∃ i : Hearth, t.pair.handing = some i ∧ (s.cp i).held = true ∧ (∀ k : Hearth, k < i → (s.cp k).held = false) ∧
      t.pair.returnDue = true ∧ t.pair.transfer = false
    (pairOn s = true → P.told = false → bothSilent s = true →
      (asleep s = false → canAdopt s = true → Completes .partnerSilent s fun t => t.pair.told = true ∧ t.pair.greeted = false ∧
        t.pair.handing = none ∧ t.pair.handSrc = none ∧
        ((∃ i : Hearth, pairAdopts s i = true ∧ mayAdopt s i = true) → t.pair.state = 4 ∧
          (s.boot.packed = false → t.boot.packReq = true ∧ ∀ i : Hearth,
            t.pair.adopting.getLsbD i = (P.adopting.getLsbD i || (pairAdopts s i && mayAdopt s i)))) ∧
        ((∀ i : Hearth, (pairAdopts s i && mayAdopt s i) = false) → (P.cps.any fun p => p.2.held || p.2.claiming) = false → P.adopting = 0 →
          t.pair.state = 6 ∧ t.boot.packReq = false ∧ FswLatched s t 0x21B srcPartner)) ∧
      (asleep s = false → canAdopt s = false → Completes .partnerSilent s fun t => t.pair.told = true ∧ t.pair.state = P.state) ∧
      (asleep s = true → Completes .partnerSilent s fun t => t.pair = { P with told := true } ∧
        (s.boot.devState = 3 → t.boot.devState = 4 ∧ t.host.wakeCause = wakeBits 4 0))) ∧
    (P.told = true ∨ bothSilent s = false → exec .partnerSilent s = .next s) ∧
    (C.claiming = true → C.claimAt + 40 ≤ s.time.tick → Completes (.adoptionClaimTimeout j) s fun t => (t.cp j).claiming = false ∧
      t.pair.refusedMask.getLsbD j = true ∧ (∀ k : Local, hosted (t.chan (512 + 64 * j.val + k.val)) = false) ∧
      ∀ i, i ≠ j.val → t.cp i = s.cp i) ∧
    (C.claiming = false ∨ s.time.tick < C.claimAt + 40 → exec (.adoptionClaimTimeout j) s = .next s) ∧
    (pairOn s = true → P.agreed = true → s.boot.devState = 1 → s.time.tick % 2000 = 250 * j.val →
      let q := tabGet 0 P.cpSeq j.val + 1
      Completes (.checkpointTick j) s fun t =>
        (hearthOurs s j = true → tabGet 0 t.pair.cpSeq j.val = q) ∧
        (C.held = true → tabGet 0 t.pair.cpSeq (8 + j.val) = tabGet 0 P.cpSeq (8 + j.val) + 1) ∧
        (hearthOurs s j = true → C.held = false → let ps := cpParts 9 (checkpointOf s j 0 q)
          Sends s t ((List.range ps.length).map fun i => .frame .pair (linkFrame 2 j 0 (P.tx + BitVec.ofNat 32 i) s.time.tick
            (payBlocks ([(8, i), (8, ps.length), (48, 0)] ++ byteFlds (ps.getD i []))))))) ∧
    (s.time.tick % 2000 ≠ 250 * j.val → exec (.checkpointTick j) s = .next s) ∧
    (pairOn s = true → firmwareRuns s = true →
      let bs := (if part = 0 then [] else C.next) ++ bytes.take 2032
      let whole := bs.length = 16580 ∧ leAt bs 16576 4 = (crc32c (bs.take 16576)).toNat
      let missed (t : State) := Logging s → Logged t srcPartner 0x1608
      (part = 0 ∨ (part = C.part ∧ C.part ≠ 255) →
        (part + 1 < count → Completes (.checkpointFrame j part count bytes) s fun t => Agree [.pair] s t ∧
          t.cp j = { C with part := part + 1, next := bs }) ∧
        (count ≤ part + 1 → ¬ whole → Completes (.checkpointFrame j part count bytes) s fun t => missed t ∧
          t.cp j = { C with part := 0, next := [] }) ∧
        (count ≤ part + 1 → whole → cpDigest bs = s.books.partnerDigest → s.books.partner ≠ [] →
          cpDigest bs ≠ s.books.digest ∨ s.books.own = [] → ¬ (C.have_ = true ∧ cpSeqOf bs ≤ C.cpSeq) → cpKind bs ≠ 1 →
          Completes (.checkpointFrame j part count bytes) s fun t =>
            t.cp j = { C with part := 0, next := [], cpSeq := cpSeqOf bs, have_ := true, bytes := bs })) ∧
      (part ≠ 0 → C.part = 255 → exec (.checkpointFrame j part count bytes) s = .next s) ∧
      (part ≠ 0 → part ≠ C.part → C.part ≠ 255 → Completes (.checkpointFrame j part count bytes) s fun t => missed t ∧
        t.cp j = { C with part := 255, next := [] })) ∧
    (pairOn s = true → firmwareRuns s = true →
      (P.handing = some j → P.returnDue = false → claim ≠ 0 → P.transfer = false → Completes (.noticeReady j claim) s fun t =>
        (∃ l, Sends s t (downFrame s (8 + j.val) 4 [(32, C.claim.toNat)] :: l)) ∧ (t.cp j).held = false ∧ (t.cp j).accepted = false ∧
        (P.handMask = 0 → t.pair.handing = none ∧ (noneAdopted t = true → t.pair.state = 3 ∧ t.boot.unpackReq = s.boot.packed))) ∧
      (P.handing = some j → P.returnDue = false → claim ≠ 0 → P.transfer = true → Completes (.noticeReady j claim) s fun t =>
        t.out.getLast? = some (pairFrame s 5 j [(8, 4), (32, (s.hearth j).claim.toNat)]) ∧ t.pair = { P with tx := P.tx + 1 }) ∧
      (P.handing = some j → P.returnDue = false → claim = 0 → Completes (.noticeReady j claim) s fun t =>
        if C.retries < 3 then t.pair.returnDue = true ∧ t.cp j = { C with retries := C.retries + 1 } ∧ t.pair.handing = some j
        else t.pair.handing = none ∧ t.pair.handSrc = none) ∧
      (P.handing = none → claim = 0 → P.state = 7 → C.held = true → Completes (.noticeReady j claim) s lowestHeld) ∧
      (P.prepared.getLsbD j = true → Completes (.noticeReleased j claim) s fun t => Agree [.pair, .links, .out] s t ∧
        Sends s t [downFrame s (8 + j.val) 3 [(32, (adoptNumber s j).toNat), (32, wAddr s)]] ∧ t.pair.prepared = maskClr P.prepared j ∧
        t.cp j = { C with claiming := true, claimAt := s.time.tick, claim := adoptNumber s j, accepted := false }) ∧
      (P.prepared.getLsbD j = false → Completes (.noticeReleased j claim) s fun t =>
        t.hearths = (claimOwn s j).hearths ∧ t.cells = (claimOwn s j).cells ∧ t.pair = P)) ∧
    (pairOn s = true → pairAdopts s j = true → canAdopt s = true →
      (asleep s = true → Completes (.noticeAdoptRequest j) s fun t => t.pair = { P with adopting := maskSet P.adopting j } ∧
        (s.boot.devState = 3 → t.boot.devState = 4 ∧ t.host.wakeCause = wakeBits 5 0)) ∧
      (asleep s = false → mayAdopt s j = true → s.boot.packed = false → Completes (.noticeAdoptRequest j) s fun t =>
        t.boot.packReq = true ∧ t.pair.adopting = maskSet P.adopting j ∧ t.pair.refusedMask = 0) ∧
      (asleep s = false → mayAdopt s j = true → s.boot.packed = true → Completes (.noticeAdoptRequest j) s fun t =>
        (t.cp j).claiming = true ∧ (t.cp j).claimAt = s.time.tick ∧
          t.out.getLast? = some (downFrame s (8 + j.val) 3 [(32, (adoptNumber s j).toNat), (32, wAddr s)]))) ∧
    (pairAdopts s j = false ∨ canAdopt s = false → exec (.noticeAdoptRequest j) s = .next s) ∧
    (pairOn s = true → s.boot.devState = 1 → P.state = 7 → pairReturnAuto s = true → P.handing = none →
      P.returnSince + pairReturnTicks s ≤ s.time.tick → (∃ i : Hearth, (s.cp i).held = true) → Completes .returnDelayExpiry s lowestHeld) ∧
    (pairReturnAuto s = false ∨ P.state ≠ 7 → exec .returnDelayExpiry s = .next s)

/-- The Works lanes, their frames, routes, addresses and time (14 R364 to R375, R386, R387). The model's own choices that it rests on: log
entries 4, 23, 46, 81, 114, 118, 119. -/
def Obligations.WorksLinks : Prop :=
  ∀ (n : WLane) (x : WorksHello) (ts : TimeSync) (lseq a : BitVec 16) (dist : List (BitVec 5)) (ident depart : BitVec 64) (count : BitVec 32)
    (hops : Fin 32) (s : State), worksOn s = true →
    let L := s.wlane n
    let src := worksLaneSrc n
    let good := x.format = 1 ∧ x.worksId.toNat = wId s
    let hello := [(16, 1), (16, wAddr s), (32, wId s), (64, fld s.boot.fuses 0 64), (8, n.val), (8, fld s.works.word1 (8 * n.val) 8), (1, 0),
      (1, b2n s.works.excluded)]
    (L.state = .training → Completes (.worksBlockLock n) s fun t => (t.wlane n).state = .hello ∧ (t.wlane n).hellosIn = 0 ∧
      (t.wlane n).hellosOut = 1 ∧ (HasRoom s n → Sends s t [nextFrame s n 2 0 (wAddr s) 0 hello]) ∧
      Stamped s t src 0x1701 [(8, n.val), (8, 1), (8, 2), (16, L.neighbour.toNat)]) ∧
    (L.state = .hello → Completes (.worksHelloSend n) s fun t => (HasRoom s n → Sends s t [nextFrame s n 2 0 (wAddr s) 0 hello]) ∧
      (t.wlane n).hellosOut = min 3 (L.hellosOut + 1) ∧
      (t.wlane n).state = if 3 ≤ L.hellosIn ∧ 2 ≤ L.hellosOut then .up else .hello) ∧
    (L.state = .up → Completes (.worksIdleSend n) s fun t => Sends s t [plainFrame s n 0 []] ∧ Agree [.out] s t) ∧
    (L.state = .up → Completes (.worksLinkFailed n) s fun t => (t.wlane n).state = .failed ∧ (t.wlane n).adv = [] ∧
      (errPresent s 0x21C src = false → FswLatched s t 0x21C src) ∧
      (∀ b, (tabGet ((31 : BitVec 5), (0 : BitVec 2)) t.works.routes b).1 ≠ 31 →
        (tabGet ((31 : BitVec 5), (0 : BitVec 2)) t.works.routes b).2.toNat ≠ n.val) ∧
      (s.time.parent = some n → t.time.parent = none ∧ t.time.state = if s.time.state = 3 then 4 else s.time.state)) ∧
    (L.state = .failed → Completes (.worksLaneRetrain n) s fun t => (t.wlane n).state = .training) ∧
    (L.state = .training ∨ L.state = .hello → Completes (.worksLaneUpTimeout n) s fun t => (t.wlane n).state = .failed ∧
      (errPresent s 0x21C src = false → FswLatched s t 0x21C src)) ∧
    (Completes (.worksHello n x) s fun t => Acked s t n false ∧
      (L.state = .disabled ∨ L.state = .training ∨ L.state = .failed → (t.wlane n).state = L.state) ∧
      (L.state = .hello ∨ L.state = .up ∨ L.state = .dormant ∨ L.state = .mismatch →
        (t.wlane n).neighbour = x.addr ∧ (t.wlane n).asymThere = x.asym ∧
        (¬ good → (t.wlane n).state = .mismatch) ∧
        (good → x.banked = true → (t.wlane n).state = if L.state = .up then .dormant else L.state) ∧
        (good → x.banked = false → (t.wlane n).state = match L.state with
          | .dormant | .mismatch => .hello
          | .hello => if 2 ≤ L.hellosIn ∧ 3 ≤ L.hellosOut then .up else .hello
          | st => st)) ∧
      t.works.excluded = (s.works.excluded || decide (x.addr.toNat = wAddr s ∧ x.ident.toNat < fld s.boot.fuses 0 64))) ∧
    (Arrives s n lseq false → Completes (.route n lseq dist) s fun t => Acked s t n false ∧ (t.wlane n).adv = advTable 0 (dist.take 2048) ∧
      ∀ b, b ≠ wAddr s → tabGet ((31 : BitVec 5), (0 : BitVec 2)) t.works.routes b = bestRoute t b) ∧
    (lseq ≠ L.lseqIn → exec (.route n lseq dist) s = .next s) ∧
    (wEnable s = true → Completes .routePeriodic s fun t => t.works.routeDue = false ∧ t.works.routeChanged = 0 ∧
      ((∀ m ∈ upLanes s, HasRoom s m) → Sends s t ((upLanes s).map fun m =>
        nextFrame s m 3 0 (wAddr s) 0 ((List.range 2048).map fun b => (5, advertised s m b)))) ∧
      (s.works.routeChanged ≠ 0 → Stamped s t srcWorks 0x1702 [(16, reachCount s), (16, s.works.routeChanged)])) ∧
    (let newer := match addrEntry s a.toNat ident with
        | some (c, _) => newerCount c count
        | none => true
     let excluded (t : State) := t.works.excluded = (s.works.excluded || decide (a.toNat = wAddr s ∧ ident.toNat < fld s.boot.fuses 0 64))
     Arrives s n lseq false →
      (30 ≤ hops.val → Completes (.addr n lseq a ident count hops) s fun t => Acked s t n false ∧ Sends s t [ackOf s n] ∧
        t.works.addrs = s.works.addrs ∧ (t.wlane n).lost = satInc L.lost) ∧
      (hops.val < 30 → newer = true → Completes (.addr n lseq a ident count hops) s fun t => Acked s t n false ∧ excluded t ∧
        t.works.addrs = (a.toNat, ident, count, s.time.tai) :: s.works.addrs.filter (fun e => ¬ (e.1 = a.toNat ∧ e.2.1 = ident)) ∧
        ((∀ m ∈ upLanes s, HasRoom s m) → Sends s t (ackOf s n :: ((upLanes s).filter fun m => m ≠ n.val).map fun m =>
          nextFrame s m 9 0 (a.toNat % 2048) (hops.val + 1) [(16, a.toNat), (64, ident.toNat), (32, count.toNat)]))) ∧
      (hops.val < 30 → newer = false → Completes (.addr n lseq a ident count hops) s fun t => Acked s t n false ∧ excluded t ∧
        Sends s t [ackOf s n] ∧ t.works.addrs = s.works.addrs)) ∧
    (wEnable s = true → s.works.excluded = false → Completes .addrFlood s fun t => t.works.addrCount = s.works.addrCount + 1 ∧
      ((∀ m ∈ upLanes s, HasRoom s m) → Sends s t ((upLanes s).map fun m =>
        nextFrame s m 9 0 (wAddr s) 0 [(16, wAddr s), (64, fld s.boot.fuses 0 64), (32, (s.works.addrCount + 1).toNat)]))) ∧
    (wEnable s = false ∨ s.works.excluded = true → exec .addrFlood s = .next s) ∧
    (let kept := L.unacked.filter fun f => decide (2 ^ 15 ≤ (lseq - f.lseq).toNat)
     let moved := numbered L.lseqOut (L.queued.take (64 - kept.length))
     Completes (.zunakAck n lseq) s fun t => Agree [.works, .out] s t ∧ Sends s t (moved.map (bufferedFrame n)) ∧
      t.wlane n = { L with unacked := kept ++ moved, queued := L.queued.drop (64 - kept.length)
                           lseqOut := L.lseqOut + BitVec.ofNat 16 moved.length } ∧ ∀ m, m ≠ n.val → t.wlane m = s.wlane m) ∧
    (L.state = .up ∨ L.state = .dormant → Completes (.retransmitTimeout n) s fun t => Agree [.out] s t ∧
      Sends s t (L.unacked.map (bufferedFrame n))) ∧
    (L.state ≠ .up → L.state ≠ .dormant → exec (.retransmitTimeout n) s = .next s) ∧
    (∀ why, Completes (.zunakFrameDiscard n why) s fun t =>
      match why with
      | .crc | .length => FswLatched s t 0x102 src
      | .reservedType | .class3 => FswLatched s t 0x103 src
      | .duplicate => t = s
      | .hops30 | .noRoute => t.wlane n = { L with lost := satInc L.lost } ∧ Agree [.works] s t) ∧
    (L.state = .up → Completes (.timesyncSend n depart) s fun t => (t.wlane n).txPrev = depart ∧ (t.wlane n).syncNo = L.syncNo + 1 ∧
      (t.wlane n).deps = (L.syncNo, depart) :: L.deps.take 15 ∧ (HasRoom s n → Sends s t [nextFrame s n 1 0 (wAddr s) 0 (syncPayload s L)])) ∧
    (L.state = .up → Completes (.timesync n ts depart) s fun t =>
      Acked s t n false ∧ (t.wlane n).peer = some ts ∧ (t.wlane n).rxTime = depart ∧ (t.wlane n).rxSync = ts.syncNo ∧
      (tWorks s.time.word = false ∨ s.time.state = 2 → t.time.parent = none ∧ t.time.state = if s.time.state = 3 then 4 else s.time.state) ∧
      (let u := chooseParent ((acceptNext s n).updWlane n fun L => { L with peer := some ts, rxTime := depart, rxSync := ts.syncNo })
       ∀ d, L.deps.find? (fun d => d.1 == ts.rxSyncNo) = some d → L.peer ≠ none → L.rxSync + 1 = ts.syncNo → u.time.parent = some n →
        let off := offset20 s n d.2 ts.rx ts.txPrev L.rxTime
        t.time.parent = some n ∧
        (off.natAbs ≤ 80 → 15 ≤ u.time.locked → u.time.state ≠ 3 → t.time.state = 3 ∧ t.time.uBase = rankOf ts ∧ t.time.known = true ∧
          t.time.hops = BitVec.ofNat 8 (ts.hops.toNat + 1)) ∧
        (80 < off.natAbs → u.time.state ≠ 3 → t.time.state = u.time.state ∧ t.time.locked = 0) ∧
        (2000 < off.natAbs → 7 ≤ u.time.wild → u.time.state = 3 → t.time.state = 4)))

/-- The feed ledger (14 R376 to R382): what a keeper does with each entry that a lane brings, what a requester does with the answer, what the
firmware of a group sends, and the entry that is for another device. The model's own choices that it rests on: log entries 4, 24, 46, 82,
83, 84. -/
def Obligations.WorksLedger : Prop :=
  ∀ (n : WLane) (h : WorksHdr) (e : LedgerEntry) (g : Hearth) (s : State),
    let mine := Arrives s n h.lseq h.cont ∧ h.dest.toNat = wAddr s ∧ h.hops.toNat < 30
    let id := e.feedId
    let before := totalOf s id e.origin e.hearth
    let passed (t : State) (f : Fac) := commitment s id ≤ 8 * f.cap → 8 * f.cap < commitment t id →
      Stamped s t srcWorks 0x1705 [(16, f.id), (32, commitment t id), (16, f.cap)]
    let once (i : BitVec 16) := (s.works.totals.filter fun x => x.1 = i ∧ x.2.1 = e.origin ∧ x.2.2.1 = e.hearth).length ≤ 1
    let answered (t : State) (op : Nat) (x : LedgerEntry) := wEnable s = true → s.works.excluded = false → h.src.toNat ≠ wAddr s →
      ∀ m, servingLane s h.src.toNat = some m → HasRoom s m →
      Sends s t ((if h.cont then [] else [ackOf s n]) ++ [nextFrame s m 4 h.src.toNat (wAddr s) 0 (entryFlds op x)])
    (Arrives s n h.lseq h.cont → h.dest.toNat ≠ wAddr s ∨ 30 ≤ h.hops.toNat →
      Completes (.allocReq n h e) s (fun t => Forwarded s t n h 4 (entryFlds 1 e)) ∧
      Completes (.grant n h e) s (fun t => Forwarded s t n h 4 (entryFlds 2 e)) ∧
      Completes (.refuse n h e) s (fun t => Forwarded s t n h 4 (entryFlds 3 e)) ∧
      Completes (.ledgerRelease n h e) s (fun t => Forwarded s t n h 4 (entryFlds 4 e)) ∧
      Completes (.announce n h e) s (fun t => Forwarded s t n h 4 (entryFlds 5 e)) ∧
      Completes (.confirm n h e) s (fun t => Forwarded s t n h 4 (entryFlds 6 e)) ∧
      Completes (.retract n h e) s (fun t => Forwarded s t n h 4 (entryFlds 7 e)) ∧
      Completes (.move n h e) s (fun t => Forwarded s t n h 4 (entryFlds 8 e)) ∧
      Completes (.standing n h e) s (fun t => Forwarded s t n h 4 (entryFlds 9 e)) ∧
      Completes (.freed n h e) s (fun t => Forwarded s t n h 4 (entryFlds 10 e))) ∧
    (mine →
      (∀ f, keptFeed s id.toNat = some f → e.capacity.toNat = f.cap → commitment s id + e.amount.toNat ≤ 8 * f.cap →
        Completes (.allocReq n h e) s fun t => totalOf t id e.origin e.hearth = before + e.amount.toNat ∧ answered t 2 e) ∧
      (∀ f, keptFeed s id.toNat = some f → e.capacity.toNat = f.cap → 8 * f.cap < commitment s id + e.amount.toNat →
        Completes (.allocReq n h e) s fun t => t.works.totals = s.works.totals ∧ answered t 3 { e with reason := 1 }) ∧
      (∀ f, keptFeed s id.toNat = some f → e.capacity.toNat ≠ f.cap → Completes (.allocReq n h e) s fun t =>
        t.works.totals = s.works.totals ∧ answered t 3 { e with reason := 2 } ∧
        Stamped s t srcWorks 0x1707 [(16, f.id), (16, e.origin.toNat), (16, e.capacity.toNat)]) ∧
      (keptFeed s id.toNat = none → Completes (.allocReq n h e) s fun t => t.works.totals = s.works.totals ∧ answered t 3 { e with reason := 3 }) ∧
      (∀ c, tagChan s e.tag = some c → Completes (.grant n h e) s fun t => t.chan c = { s.chan c with
        allocated := true, allocTag := none, req := if (s.chan c).obs = .seated then (s.chan c).req ||| 1 else (s.chan c).req }) ∧
      (∀ c, tagChan s e.tag = some c → Completes (.refuse n h e) s fun t =>
        t.chan c = { s.chan c with allocTag := none, waitStamped := true }) ∧
      (Completes (.ledgerRelease n h e) s fun t => totalOf t id e.origin e.hearth = before - e.amount.toNat ∧ t.works.holds = s.works.holds) ∧
      (let gone := s.works.retracts.any fun r => r.1 == id && r.2.1 == e.origin && r.2.2.1 == e.hearth && r.2.2.2.1 == e.ident &&
          decide (s.time.tai ≤ r.2.2.2.2 + 1000000)
       Completes (.announce n h e) s fun t => t.works.totals = s.works.totals ∧ ∀ f, keptFeed s id.toNat = some f →
        if gone = true then t.works.holds = s.works.holds
        else passed t f ∧ t.works.holds = (s.works.holds.filter fun y => !isHold e y) ++
          [{ feedId := id, origin := e.origin, hearth := e.hearth, ident := e.ident, amount := e.amount.toNat }]) ∧
      (Completes (.confirm n h e) s fun t =>
        (∀ f, keptFeed s id.toNat = some f → totalOf t id e.origin e.hearth = before + e.amount.toNat ∧
          t.works.holds = s.works.holds.filter fun y => !isHold e y) ∧
        ∀ i, i ≠ id → once i → totalOf t i e.origin e.hearth = totalOf s i e.origin e.hearth - e.amount.toNat) ∧
      (Completes (.retract n h e) s fun t => (t.works.holds = s.works.holds.filter fun y => !isHold e y) ∧ t.works.totals = s.works.totals ∧
        (id, e.origin, e.hearth, e.ident, s.time.tai) ∈ t.works.retracts) ∧
      (Completes (.move n h e) s fun t => ∀ i, totalOf t i e.origin e.hearth = 0 ∧
        (once i → totalOf t i h.src (e.hearth ^^^ 8) = totalOf s i h.src (e.hearth ^^^ 8) + totalOf s i e.origin e.hearth)) ∧
      (Completes (.standing n h e) s fun t =>
        (∀ f, keptFeed s id.toNat = some f → totalOf t id e.origin e.hearth = e.amount.toNat) ∧
        (keptFeed s id.toNat = none → t.works.totals = s.works.totals)) ∧
      (Completes (.freed n h e) s fun t => Acked s t n h.cont ∧ t.chans = s.chans ∧ t.works.totals = s.works.totals)) ∧
    (worksOn s = false → exec (.allocReq n h e) s = .next s ∧ exec (.confirm n h e) s = .next s) ∧
    (∀ c, tagChan s e.tag = some c → Completes (.allocNoAnswer e.tag) s fun t =>
      t.chan c = { s.chan c with allocTag := none, waitStamped := true }) ∧
    (tagChan s e.tag = none → exec (.allocNoAnswer e.tag) s = .next s) ∧
    (alive s = true → s.boot.devState = 1 ∨ s.boot.devState = 2 → wEnable s = true → s.works.excluded = false → Completes .standingSend s fun t =>
      ∀ (k : Hearth16) (feed : Nat) f, facFeed s k feed = some f → ∀ to_, to_ = f.keeper ∨ to_ = f.keeper2 → to_ ≠ wAddr s →
        ∀ lane, servingLane s to_ = some lane →
          let p := payBlocks (entryFlds 9 (ownEntry s f k 0x3F (if tabGet 0 s.works.charged k = feed then hearthAlloc s k else 0)))
          (∃ q, .frame (.works lane) (worksFrame 4 to_ (wAddr s) 0 q p) ∈ t.out) ∨
            ∃ x ∈ (t.wlane lane).queued, x.type = 4 ∧ x.dest.toNat = to_ ∧ x.payload = p) ∧
    (∀ f, (((s.works.facility ++ s.works.facilityP).filterMap facOf).find? fun f => f.id == id.toNat) = some f →
      Completes (.keeperUnreachable id) s fun t => Agree [.works] s t ∧
        (t.works.useStandby.contains id = !reachable s f.keeper) ∧
        ∀ i, i ≠ id → t.works.useStandby.contains i = s.works.useStandby.contains i) ∧
    (∀ ident, alive s = true → s.works.announceDue = [(g.val, 0, ident)] → ident < 65536 →
      let from_ := tabGet 0 s.works.charged g.val
      ∀ f, from_ ≠ 0 → tabGet 0 s.works.announced g.val = 0 → fwShadow s g = true → (fwPhase s g == phaseCode .none) = false →
        facFeed s g (3 - from_) = some f → Completes (.ledgerAnnounceSend g) s fun t => t.works.announceDue = [] ∧
          tabGet 0 t.works.announced g.val = BitVec.ofNat 16 (ident + 1) ∧
          (wEnable s = true → s.works.excluded = false → askKeeper s f ≠ wAddr s → ∀ m, servingLane s (askKeeper s f) = some m → HasRoom s m →
            Sends s t [nextFrame s m 4 (askKeeper s f) (wAddr s) 0 (entryFlds 5
              { ownEntry s f g 0x3F (hearthAlloc s g) with ident := BitVec.ofNat 16 ident })])) ∧
    (alive s = false → exec (.ledgerAnnounceSend g) s = .next s) ∧
    (let is_ (x : Hold) : Bool := x.feedId == id && x.origin == e.origin && x.hearth == e.hearth && x.ident == e.ident
     (s.works.holds.any is_ = true → Completes (.ledgerHoldLapse id e.origin e.hearth e.ident) s fun t =>
        (t.works.holds = s.works.holds.filter fun x => !is_ x) ∧ t.works.totals = s.works.totals ∧
        Stamped s t srcWorks 0x1706 [(16, id.toNat), (16, e.origin.toNat), (8, e.hearth.toNat), (16, e.ident.toNat)]) ∧
      (s.works.holds.any is_ = false → exec (.ledgerHoldLapse id e.origin e.hearth e.ident) s = .next s))

/-- Commands and events between devices of the Works (14 R368, R383 to R385; 16 R437): a forwarded command joins the queue of its origin, or
wakes a device in Banked; a response reaches the command that waits for it; records of a subscription go to the ring. The model's own
choices that it rests on: log entries 4, 25, 82, 110, 114. -/
def Obligations.WorksForward : Prop :=
  ∀ (n : WLane) (h : WorksHdr) (tag : BitVec 32) (status : BitVec 16) (bytes : List Byte) (first : BitVec 64) (recs : List EventRec)
    (o : BitVec 11) (m : MboxNo) (s : State),
    let here := Arrives s n h.lseq h.cont
    let mine := h.dest.toNat = wAddr s ∧ h.hops.toNat < 30
    let last := tabGet 0 s.works.fwdTag h.src.toNat
    let known := (last ≠ 0 ∧ (BitVec.ofNat 32 (last + 0xFFFFFFFF) - tag).toNat < 2 ^ 31) ∨
      (s.works.fwdQ.any fun q => q.1 == h.src && q.2.1 == tag) = true
    let queued (t : State) := if known then t.works.fwdQ = s.works.fwdQ ∧ t.host.arrivals = s.host.arrivals
      else t.works.fwdQ = s.works.fwdQ ++ [(h.src, tag, bytes, s.host.arrivals)] ∧ t.host.arrivals = s.host.arrivals + 1
    (here → ¬ mine →  -- for another device, or with HOPS 30
      Completes (.commandFrame n h tag bytes) s (fun t => Forwarded s t n h 5 ((32, tag.toNat) :: byteFlds bytes)) ∧
      Completes (.responseFrame n h tag status bytes) s (fun t => Forwarded s t n h 6 ((32, tag.toNat) :: (16, status.toNat) :: byteFlds bytes)) ∧
      Completes (.worksEventFrame n h first recs) s (fun t => Forwarded s t n h 7 ((64, first.toNat) :: byteFlds (recs.flatMap recBytes)))) ∧
    (here → mine → Completes (.commandFrame n h tag bytes) s fun t => Acked s t n h.cont ∧ queued t) ∧
    (alive s = true → s.boot.devState = 3 → mine → wLaneEn s n = true → s.works.excluded = false →
      Completes (.commandFrame n h tag bytes) s fun t => queued t ∧ t.boot.devState = 4 ∧ t.host.wakeCause = wakeBits 6 0) ∧
    (∀ t' i, here → mine → (s.works.sends.find? fun p => p.1 == tag) = some (t', .mbox i) →
      let M := s.mbox i
      Completes (.responseFrame n h tag status bytes) s fun t => t.works.sends = s.works.sends.erase (t', .mbox i) ∧
        (t.mbox i).answer = (if reqOp M = 0x0E03 then some (status, []) else
          some (0, respHeader (leAt (reqBody M) 4 2) bytes.length status.toNat M.seq.toNat s.time.tai ++ bytes))) ∧
    (∀ t', (s.works.sends.find? fun p => p.1 == tag) = some (t', .mbox m) → Completes (.worksSendTimeout tag) s fun t =>
      t.works.sends = s.works.sends.erase (t', .mbox m) ∧ (t.mbox m).answer = some (0x803, [])) ∧
    ((s.works.sends.find? fun p => p.1 == tag) = none → exec (.worksSendTimeout tag) s = .next s) ∧
    (∀ k, here → mine → tabGet 0 s.works.subsIn h.src.toNat = k + 1 → Completes (.worksEventFrame n h first recs) s fun t =>
      let l := recs.take 60
      tabGet 0 t.works.subsIn h.src.toNat = max k (first.toNat + l.length) + 1 ∧
      t.works.fwdRecs = s.works.fwdRecs ++ (((List.range l.length).zip l).filter fun p => decide (k ≤ first.toNat + p.1)).map
        (fun p => (BitVec.ofNat 16 h.src.toNat, first.toNat + p.1, p.2)) ∧
      (k < first.toNat → Stamped s t srcWorks 0x1708 [(16, h.src.toNat), (64, k), (32, first.toNat - k)])) ∧
    (here → mine → tabGet 0 s.works.subsIn h.src.toNat = 0 → Completes (.worksEventFrame n h first recs) s fun t =>
      t.works.fwdRecs = s.works.fwdRecs) ∧
    (reachable s o.toNat = false → Completes (.subscriptionUnreachable o) s fun t => Agree [.works] s t ∧
      tabGet 0 t.works.subsIn o.toNat = 0 ∧ tabGet 0 t.works.subsOut o.toNat = 0 ∧
      ∀ a, a ≠ o.toNat → tabGet 0 t.works.subsIn a = tabGet 0 s.works.subsIn a ∧ tabGet 0 t.works.subsOut a = tabGet 0 s.works.subsOut a) ∧
    (reachable s o.toNat = true → exec (.subscriptionUnreachable o) s = .next s) ∧
    (∀ k, nextFwd s o = none → (s.fwdBox o.toNat).running = false →
      closestFwd (tabGet 0 s.works.fwdTag o.toNat) (s.works.fwdQ.filter fun q => q.1 == o) = some k →
      Completes (.forwardTagWait o) s fun t => Agree [.works] s t ∧ t.works.fwdQ = s.works.fwdQ ∧
        tabGet 0 t.works.fwdTag o.toNat = if k = 0 then 2 ^ 32 else k.toNat) ∧
    ((nextFwd s o).isSome = true → exec (.forwardTagWait o) s = .next s)

/-- The host's registers, mailboxes and ring (16 R415 to R427, R431; 17 R443, R447): locks, doorbells, the start and the end of a command, reads
with an effect, writes, the host's link, and the event ring. The model's own choices that it rests on: log entries 4, 11, 106, 107, 115,
129, 130. -/
def Obligations.HostRegisters : Prop :=
  ∀ (port : HostPort) (m : MboxNo) (o : BitVec 11) (lock : BitVec 2) (length seq : BitVec 16) (request : List Byte) (v : BitVec 32)
    (off : BitVec 18) (cause : Fin 3) (d3 last : Bool) (s : State),
    let M := s.mbox m
    let H := s.host
    let newLock : BitVec 2 := if lock = portLock port ∧ M.lock = 0 then lock
      else if lock = 0 ∧ M.lock = portLock port ∧ M.phase ≠ 1 then 0 else M.lock
    let msixed (t : State) (n : Nat) := if bitOf H.msixMask n = true then Sends s t [] ∧ bitOf t.host.msixPba n = true else Sends s t [.msix n]
    (crownUp s = true → H.hostLost = false → Completes (.hostLost cause) s fun t => t.host.hostLost = true ∧
      t.host.stopped = (H.stopped || H.ringOn) ∧ FswLatched s t 0x21D (srcIsland 3) ∧
      ∀ st body, M.lock = 1 → M.phase = 1 → M.answer = some (st, body) → (t.mbox m).lock = 0 ∧ (t.mbox m).phase = 2 ∧ (t.mbox m).doneSeq = M.seq) ∧
    (H.hostLost = true → Completes .hostReturn s fun t => t.host.hostLost = false ∧ t.coll.fsw = s.coll.fsw) ∧
    (crownUp s = true → H.hostLost = false → Completes (.pciePowerStateChange d3) s fun t => Agree [.host] s t ∧ t.host = { H with d3 := d3 }) ∧
    (H.hostLost = true → exec (.hostLost cause) s = .next s ∧ exec (.pciePowerStateChange d3) s = .next s) ∧
    (portOpen s port = false → exec (.mboxLockWrite port m lock) s = .next s ∧ exec (.mboxDoorbell port m length seq request) s = .next s ∧
      exec (.wakeCauseRead port) s = .next s ∧ exec (.consWrite port v) s = .next s) ∧
    (portOpen s port = true →
      (Completes (.mboxLockWrite port m lock) s fun t => Agree [.host] s t ∧ t.mbox m = { M with lock := newLock }) ∧
      (M.lock ≠ portLock port → exec (.mboxDoorbell port m length seq request) s = .next s) ∧
      (M.lock = portLock port → let req := tabPut 0 M.request 0 (request.take 1984)
        (M.phase = 1 ∨ M.phase = 3 → Completes (.mboxDoorbell port m length seq request) s fun t =>
          t.mbox m = { M with request := req, overrun := true } ∧ Agree [.host] s t) ∧
        (M.phase ≠ 1 → M.phase ≠ 3 → s.boot.cracked = false → Completes (.mboxDoorbell port m length seq request) s fun t =>
          t.mbox m = { M with
            request := req, phase := if s.boot.devState = 1 ∨ (s.boot.stage = 5 ∧ m = 0) then 1 else 3, length := length, seq := seq
            arrival := H.arrivals, running := false, answer := none, acted := none, copy := tabRun 0 req 0 (min length.toNat 1984) } ∧
          t.host.arrivals = H.arrivals + 1 ∧
          (s.boot.devState = 3 → t.boot.devState = 4 ∧ t.host.wakeCause = wakeBits (match port with | .pcie => 0 | .spi => 1) 0)) ∧
        (M.phase ≠ 1 → M.phase ≠ 3 → s.boot.cracked = true → Completes (.mboxDoorbell port m length seq request) s fun t =>
          (t.mbox m).phase = 2 ∧ (t.mbox m).doneSeq = seq ∧ t.boot.devState = s.boot.devState ∧
          (t.mbox m).response = respHeader (leAt (tabRun 0 req 0 (min length.toNat 1984)) 0 2) 0 4 seq.toNat s.time.tai)) ∧
      (Completes (.wakeCauseRead port) s fun t => Sends s t [.reply (toLe 4 H.wakeCause.toNat)] ∧ t.host = { H with wakeCause := 0 }) ∧
      (Completes (.timeNowRead port) s fun t => Sends s t [.reply (toLe 4 (s.time.tai % 2 ^ 32))] ∧
        t.host = { H with nowHigh := BitVec.ofNat 32 (s.time.tai / 2 ^ 32) }) ∧
      (Completes (.evtwEntryRead port last) s fun t => Sends s t [.reply (if last then windowBytes s else (windowBytes s).take 60)] ∧
        t.host = if last then { H with evtwIndex := H.evtwIndex + 1 } else H) ∧
      (Completes (.ringEnableWrite port v) s fun t => Agree [.host] s t ∧ t.host.ringOn = v.getLsbD 31 ∧
        t.host.ringSize = (if H.ringOn = true then H.ringSize else BitVec.ofNat 5 v.toNat) ∧
        (H.ringOn = false → v.getLsbD 31 = true → t.host.stopped = false ∧ t.host.coalSeen = 0 ∧
          (H.resumeNew = true → t.host.resumeUse = true ∧ t.host.resumeNew = false ∧ t.host.nextRing = logTail s))) ∧
      (Completes (.consWrite port v) s fun t => Agree [.host] s t ∧
        t.host = { H with cons := if (v - H.cons).toNat ≤ ringUsed s then v else H.cons }) ∧
      (Completes (.registerWrite port 0x10 v) s fun t => t.host = { H with mboxDone := H.mboxDone &&& ~~~(v.extractLsb' 0 16) }) ∧
      (Completes (.registerWrite port 0x80 v) s fun t => t.host = { H with irqStatus := H.irqStatus &&& ~~~(v.extractLsb' 0 21) }) ∧
      (Completes (.registerWrite port 0x84 v) s fun t => t.host = { H with irqMask := v.extractLsb' 0 21 }) ∧
      (Completes (.registerWrite port 0x1008 v) s fun t => exec (.ringEnableWrite port v) s = .next t) ∧
      (Completes (.registerWrite port 0x1018 v) s fun t => exec (.consWrite port v) s = .next t) ∧
      (Completes (.registerWrite port 0x101C v) s fun t => t.host = { H with coalTime := v.extractLsb' 16 16, coalCount := v.extractLsb' 0 16 }) ∧
      (Completes (.registerWrite port 0x1020 v) s fun t => t.host = { H with dmaError := H.dmaError && !v.getLsbD 2 })) ∧
    (off.toNat % 4 ≠ 0 → exec (.registerWrite port off v) s = .next s) ∧
    (hostUp s = true → s.boot.cracked = false → M.phase = 1 → M.running = false → s.boot.devState = 1 →
      mayStart s (reqOp M) M.arrival = true → Completes (.commandStart (.mbox m)) s fun t => Agree [.host] s t ∧ (t.mbox m).running = true ∧
        match startStatus s (.mbox m) M with
        | none => (t.mbox m).answer = M.answer
        | some st => (t.mbox m).answer = some (BitVec.ofNat 16 st, [])) ∧
    (∀ q, hostUp s = true → s.boot.cracked = false → s.boot.devState = 1 → nextFwd s o = some q → (s.fwdBox o.toNat).running = false →
      mayStart s (leAt q.2.2.1 0 2) q.2.2.2 = true →
      let N := { s.fwdBox o.toNat with copy := q.2.2.1, length := BitVec.ofNat 16 q.2.2.1.length, arrival := q.2.2.2, phase := 1 }
      startStatus s (.fwd o) N = none → Completes (.commandStart (.fwd o)) s fun t => Agree [.host] s t ∧
        t.fwdBox o.toNat = { N with running := true }) ∧
    (M.running = true → exec (.commandStart (.mbox m)) s = .next s) ∧
    (∀ st body, s.boot.cracked = false → M.answer = some (st, body) → reqDma M = false → body.length ≤ 2032 → Completes (.commandDone m) s fun t =>
      (t.mbox m).response = respHeader (reqOp M) body.length st.toNat M.seq.toNat s.time.tai ++ body ∧ (t.mbox m).phase = 2 ∧
      (t.mbox m).doneSeq = M.seq ∧ (t.mbox m).overrun = false ∧ (t.mbox m).running = false ∧ (t.mbox m).answer = none ∧
      bitOf t.host.mboxDone m = true ∧ t.boot.resetDue = (s.boot.resetDue || asksReset M st.toNat) ∧
      (M.lock = 2 → Sends s t [] ∧ bitOf t.host.irqStatus m = true) ∧
      (M.lock = 1 → H.hostLost = false → H.d3 = false → msixed t (16 + m.val)) ∧
      (M.lock = 1 → H.hostLost = true → (t.mbox m).lock = 0)) ∧
    (s.boot.cracked = true → M.phase = 1 ∨ M.phase = 3 → Completes (.commandDone m) s fun t => (t.mbox m).phase = 2 ∧ (t.mbox m).doneSeq = M.seq ∧
      (t.mbox m).response = respHeader (reqOp M) 0 4 M.seq.toNat s.time.tai) ∧
    (M.answer = none → s.boot.cracked = false ∨ (M.phase ≠ 1 ∧ M.phase ≠ 3) → exec (.commandDone m) s = .next s) ∧
    (ringRuns s = true →
      (∀ i r, ringWaiting s = [(i, r)] → s.works.fwdRecs = [] → ringAdmits s i r = true → ringFull s = false →
        (H.ringGaps.find? fun g => g.1 == r.source.toNat) = none → Completes .ringDelivery s fun t =>
          t.host.prod = H.prod + 1 ∧ t.host.nextRing = i + 1 ∧
          ∃ l, Sends s t (.dma (H.ringBase.toNat + 64 * (H.prod.toNat % 2 ^ H.ringSize.toNat)) (entryBytes r i 0xFFFF 1) ::
            .dma H.ringWb.toNat (toLe 4 (H.prod + 1).toNat) :: l) ∧ (H.coalSeen + 1 < H.coalCount.toNat → l = [])) ∧
      (0 < H.coalSeen → Completes .coalesceTimer s fun t => t.host.coalSeen = 0 ∧ t.host.prod = H.prod ∧ msixed t 0) ∧
      (Completes .ringDmaError s fun t => t.host.dmaError = true ∧ t.host.stopped = true ∧ t.host.prod = H.prod ∧ msixed t 0)) ∧
    (ringRuns s = false → exec .ringDelivery s = .next s ∧ exec .coalesceTimer s = .next s ∧ exec .ringDmaError s = .next s)

/-- The SPI target, the PMBus target and the JTAG port (16 R428 to R434; 18 R487). The model's own choices that it rests on: log entries 8, 109,
131, 134, 135, 136, 137. -/
def Obligations.SerialPorts : Prop :=
  ∀ (addr : BitVec 24) (len : Nat) (bytes : List Byte) (code v : Byte) (acc : PmbAccess) (means : PmbMeans) (pins : BitVec 256) (tdi : Bool)
    (s : State),
    let a := addr.toNat
    let P := (pmbWatch s).pmb
    let p := s.pmb.page.toNat
    let alone (b : Nat) := ¬ (0x14 ≤ b ∧ b < 0x18) ∧ ¬ (0x28 ≤ b ∧ b < 0x2C) ∧ ¬ (0x10BC ≤ b ∧ b < 0x10C0)
    let pmb (i : Instr) (f : PmbSt → Prop) := Completes i s fun t => Agree [.pmb] s t ∧ f t.pmb
    let rows (i : Instr) (c : Nat) (pages : PmbPages) (bs : List Byte) :=
      (onPage s pages = true → acc.write = none → pmb i fun Q => 
        let x := if acc.pec = none then bs
          else bs ++ [pecOf ([BitVec.ofNat 8 (2 * pmbAddress s), BitVec.ofNat 8 c, BitVec.ofNat 8 (2 * pmbAddress s + 1)] ++ bs)]
        Q = { P with reply := some x }) ∧
      (onPage s pages = true → acc.write ≠ none → pmb i fun Q => Q = { P with cml := P.cml ||| 0x40#8, reply := none }) ∧
      (onPage s pages = false → pmb i fun Q => Q = { P with cml := P.cml ||| 0x80#8, reply := none })
    (hostUp s = true → (∀ k, k < len → alone (a + k)) → ∀ i, i = .spiRead addr len ∨ i = .spiQuadRead addr len → Completes i s fun t =>
      Sends s t [.reply ((List.range len).map fun k => spiByte s (a + k))] ∧
      t.host = { s.host with spiErr := s.host.spiErr || !((List.range len).all fun k => spiReach (a + k)) }) ∧
    (crownUp s = true → hostUp s = false → ∀ i, i = .spiRead addr len ∨ i = .spiQuadRead addr len → Completes i s fun t =>
      t.host = s.host ∧ ∃ bs, Sends s t [.reply bs] ∧ bs.length = len) ∧
    (crownUp s = true → ∀ i, i = .spiWrite addr bytes ∨ i = .spiQuadWrite addr bytes →
      (∀ off : BitVec 18, a = off.toNat → a % 4 = 0 → spiReach a = true → inRequest a = false → bytes.length = 4 →
        exec i s = exec (.registerWrite .spi off (BitVec.ofNat 32 (leAt bytes 0 4))) s ∧ Completes i s fun _ => True) ∧
      (inRequest a = false → a % 4 ≠ 0 ∨ spiReach a = false → bytes.length = 1 → Completes i s fun t => Agree [.host] s t ∧
        t.host = { s.host with spiErr := true }) ∧
      (∀ (m : MboxNo) (k : Fin 1984), hostUp s = true → a = 0x10000 + 0x1000 * m.val + 0x40 + k.val → k.val + bytes.length ≤ 1984 →
        (s.mbox m).lock = 2 → Completes i s fun t => Agree [.host] s t ∧
          t.mbox m = { s.mbox m with request := tabPut 0 (s.mbox m).request k.val bytes })) ∧
    (crownUp s = true → Completes .spiReadStatus s fun t => t.host = { s.host with spiErr := false } ∧
      Sends s t [.reply [BitVec.ofNat 8 (packBits [hostUp s, !irqN s, s.boot.devState == 3, s.boot.cracked, s.host.spiErr])]]) ∧
    (crownUp s = true → Completes (.spiUnknownInstruction code) s fun t => Agree [.host] s t ∧ t.host = { s.host with spiErr := s.host.spiErr ||
      !([0x03#8, 0x02#8, 0x6B#8, 0x32#8, 0x05#8].contains code) }) ∧
    (crownUp s = true →
      rows (.capability acc) 0x19 .dev [0xB0] ∧ rows (.voutMode acc) 0x20 .group [0x17] ∧
      rows (.statusByte acc) 0x78 .all (toLe 1 (statusWordOf (pmbWatch s) p)) ∧
      rows (.statusWord acc) 0x79 .all (toLe 2 (statusWordOf (pmbWatch s) p)) ∧
      rows (.statusInput acc) 0x7C .group [tabGet 0 P.input p] ∧ rows (.statusTemperature acc) 0x7D .all [tabGet 0 P.temp p] ∧
      rows (.statusCml acc) 0x7E .all [P.cml] ∧ rows (.statusMfrSpecific acc) 0x80 .all [tabGet 0 P.mfr p] ∧
      rows (.readVin acc) 0x88 .group (toLe 2 (tabGet 0 P.vin p).toNat) ∧ rows (.readIin acc) 0x89 .group (toLe 2 (tabGet 0 P.iin p).toNat) ∧
      rows (.readVout acc) 0x8B .group (toLe 2 (tabGet 0 P.vout p).toNat) ∧
      rows (.readTemperature1 acc) 0x8D .all (toLe 2 (tabGet 0 P.temp1 p).toNat) ∧
      rows (.readTemperature2 acc) 0x8E .all (toLe 2 (tabGet 0 P.temp2 p).toNat) ∧
      rows (.readPin acc) 0x97 .all (toLe 2 (tabGet 0 P.pin p).toNat) ∧ rows (.pmbusRevision acc) 0x98 .dev [0x33] ∧
      rows (.mfrId acc) 0x99 .dev [7, 0x41, 0x45, 0x4C, 0x48, 0x45, 0x49, 0x50] ∧
      rows (.mfrModel acc) 0x9A .dev [6, 0x4B, 0x4C, 0x2D, 0x35, 0x31, 0x32] ∧ rows (.mfrRevision acc) 0x9B .dev [2, 0x41, 0x31] ∧
      rows (.mfrSerial acc) 0x9E .dev (8 :: toLe 8 (deviceId s)) ∧
      rows (.mfrChannelState acc) 0xD0 .group (32 :: statePairs s (64 * (p - 1)) 32) ∧
      rows (.mfrFsw acc) 0xD1 .dev (8 :: toLe 8 s.coll.fsw.toNat) ∧ rows (.mfrBootStatus acc) 0xD2 .dev (4 :: toLe 4 (bootWord s)) ∧
      rows (.mfrFeedStatus acc) 0xD3 .group (toLe 2 (tabGet 0 s.feedWord (p - 1)).toNat) ∧
      (acc.write = none → pmb (.page acc) fun Q => 
        let x := if acc.pec = none then [s.pmb.page]
          else [s.pmb.page, pecOf [BitVec.ofNat 8 (2 * pmbAddress s), 0, BitVec.ofNat 8 (2 * pmbAddress s + 1), s.pmb.page]]
        Q = { P with reply := some x }) ∧
      (acc.write = some [v] → acc.pec = some false → pmb (.page acc) fun Q => Q = { P with cml := P.cml ||| 0x20#8, reply := none }) ∧
      (acc.write = some [v] → acc.pec ≠ some false → pmb (.page acc) fun Q =>
        Q = if v.toNat ≤ 8 ∨ v = 0xFF then { P with page := v, reply := none } else { P with cml := P.cml ||| 0x40#8, reply := none }) ∧
      (acc.pec ≠ some false → pmb (.clearFaults acc) fun Q => Q.cml = 0 ∧ Q.reply = none ∧ Q.page = s.pmb.page ∧ ∀ q, q < 9 →
        let old (w : Tab Byte) : Byte := if s.pmb.page = 0xFF ∨ q = p then 0 else tabGet 0 w q
        tabGet 0 Q.input q = (old s.pmb.input ||| BitVec.ofNat 8 (inputLive s q)) ∧
        tabGet 0 Q.temp q = (old s.pmb.temp ||| BitVec.ofNat 8 (tempLive s q)) ∧ tabGet 0 Q.mfr q = (old s.pmb.mfr ||| BitVec.ofNat 8 (mfrLive s q))) ∧
      (acc.pec = some false → pmb (.clearFaults acc) fun Q => Q = { P with cml := P.cml ||| 0x20#8, reply := none }) ∧
      (pmb (.pmbusUnsupportedCommand code acc) fun Q => Q = if code.toNat ∈ pmbCodes then s.pmb else
        { P with cml := P.cml ||| 0x80#8, reply := none }) ∧
      (pmb .smbusAlertResponse fun Q => 
        let x := if pmbAlert (pmbWatch s) = true then some [BitVec.ofNat 8 (2 * (0x58 + s.pmb.addr.val))] else none
        Q = { P with reply := x })) ∧
    (alive s = true → s.boot.devState ≠ 3 → Completes (.pmbusReadUpdate means) s fun t => Agree [.pmb, .free] s t ∧
      tabGet 0 t.pmb.temp1 0 = lin11 means.crown.toInt 128 ∧ t.pmb.cml = s.pmb.cml ∧
      ∀ (g : Hearth) vin iin vout die, means.groups[g.val]? = some (vin, iin, vout, die) → means.groups.length = 8 →
        tabGet 0 t.pmb.vin (g.val + 1) = (if (s.group g).sel = none then 0x8000 else lin11 (vin.toNat * 16) 10000) ∧
        tabGet 0 t.pmb.iin (g.val + 1) = lin11 (4 * iin.toInt) (max 1 (fld (s.group g).word1 44 13)) ∧
        tabGet 0 t.pmb.temp1 (g.val + 1) = lin11 die.toInt 128) ∧
    (s.boot.devState = 3 → exec (.pmbusReadUpdate means) s = .next s) ∧
    (let jtag (i : Instr) (J : JtagSt) := Completes i s fun t => Agree [.jtag] s t ∧ t.jtag = J
     let J := s.jtag
     let held (ir : JtagIr) : JtagSt := { J with ir := if s.boot.rstLow then ir else .bypass }
     jtag .idcode { J with ir := .idcode, shift := idWord } ∧ jtag .testLogicReset { J with ir := .idcode, shift := idWord } ∧
      jtag (.samplePreload pins) { J with ir := .samplePreload, bsr := pins } ∧ jtag .extest (held .extest) ∧ jtag .clamp (held .clamp) ∧
      jtag .highz (held .highz) ∧ jtag (.bypass tdi) { J with ir := .bypass, bypass := tdi } ∧
      (debugLock s = true → jtag (.aelheipDebug tdi) { J with ir := .bypass, bypass := tdi }) ∧
      (debugLock s = false → exec (.aelheipDebug tdi) s = .refused .debugNotGiven))

/-- Commands that read (17 R446, R449 to R453, R456 to R469; 15 R408 to R411): what each answers, and where an answer goes: into its mailbox
until COMMAND_DONE, or as the RESPONSE of a forwarded command (14 R383). What the spec leaves open of a hearth, a schedule or a checkpoint
is a free value (log entry 1). -/
def Obligations.CommandsRead : Prop :=
  ∀ (src : CmdSrc) (part : BitVec 8) (c : Chan) (g : Hearth16) (pair : Fin 512) (off len : BitVec 32) (digest : BitVec 384) (e : Fin 32)
    (slot : Fin 16) (spy : SpyNo) (w : BitVec 16) (count : Fin 32) (filter : Fin 3) (mark : Bool) (copy : Fin 2) (n41 : Fin 41) (s : State),
    let v := s.freshFree.1
    let u := s.freshFree.2
    let gone (h : Nat) := hearthSeen s h = false
    let B := srcBox s src
    (let all := summary0 s ++ summary1 s ++ summarySeqs s
     let kept := updBox s src fun m => { m with snapshot := all, snapIndex := s.log.head }
     (part = 0 → Runs (.devSummary src part) src 0x0101 [part] s kept 0 (all.take 640)) ∧
     (part = 0xFF → reqDma B = true → Runs (.devSummary src part) src 0x0101 [part] s kept 0 all) ∧
     (part = 0xFF → reqDma B = false → Runs (.devSummary src part) src 0x0101 [part] s s 0x102 []) ∧
     (part ≠ 0 → part ≠ 0xFF → Runs (.devSummary src part) src 0x0101 [part] s s (if B.snapshot = [] then 6 else 0)
        (if B.snapshot = [] then [] else sliceBytes B.snapshot (summaryPart part.toNat).1 (summaryPart part.toNat).2))) ∧
    Runs (.devFence src) src 0x0102 [] s s 0 (toLe 8 s.log.head) ∧
    (gone (c.val / 64) → Runs (.chanStatus src c) src 0x0204 (toLe 2 c.val) s s 0x204 [] ∧
      Runs (.coneStatus src c) src 0x0701 (toLe 2 c.val) s s 0x204 []) ∧
    (¬ gone (c.val / 64) → chanThere s c.val = false → Runs (.chanStatus src c) src 0x0204 (toLe 2 c.val) s s 0x201 [] ∧
      Runs (.coneStatus src c) src 0x0701 (toLe 2 c.val) s s 0x201 []) ∧
    (¬ gone (c.val / 64) → chanThere s c.val = true →
      Runs (.chanStatus src c) src 0x0204 (toLe 2 c.val) s u 0 (chanBlock u c.val v ++ coneBlock u c.val (v / 2 ^ 48)) ∧
      Runs (.coneStatus src c) src 0x0701 (toLe 2 c.val) s (if hearthOurs s (c.val / 64) = true then u.updCone c.val fun K => { K with peakD := if K.init then K.dose else 0 }
        else u) 0 (coneBlock u c.val v)) ∧
    (gone (part.toNat / 16) → Runs (.slotStatus src part) src 0x0301 [part] s s 0x204 []) ∧
    (¬ gone (part.toNat / 16) → Runs (.slotStatus src part) src 0x0301 [part] s (if slotOn (slotWordOf s part.toNat) = true then u else s)
      (if slotOn (slotWordOf s part.toNat) = true then 0 else 3)
      (if slotOn (slotWordOf s part.toNat) = true then slotBody u part.toNat v else [])) ∧
    (gone g.val → Runs (.feedStatus src g) src 0x0401 (toLe 1 g.val) s s 0x204 [] ∧ Runs (.hkcStatus src g) src 0x0801 (toLe 1 g.val) s s 0x204 [] ∧
      Runs (.hkcRead src g e) src 0x0803 (toLe 1 g.val ++ toLe 1 e.val) s s 0x204 [] ∧
      Runs (.spyStatus src g spy) src 0x0903 (toLe 1 g.val ++ toLe 1 spy.val) s s 0x204 []) ∧
    (¬ gone g.val → Runs (.feedStatus src g) src 0x0401 (toLe 1 g.val) s u 0 (feedBody u g.val v) ∧
      (hearthOurs s g.val = false → Runs (.hkcStatus src g) src 0x0801 (toLe 1 g.val) s s 0 (List.replicate 11 0) ∧
        Runs (.spyStatus src g spy) src 0x0903 (toLe 1 g.val ++ toLe 1 spy.val) s s 0 (List.replicate 8 0)) ∧
      (hearthOurs s g.val = true → g.val < 8 → let K := s.hk g.val
        let y := s.spy (130 * g.val + spy.val)
        Runs (.hkcStatus src g) src 0x0801 (toLe 1 g.val) s (s.updHk g.val fun K => { K with overrun := false, overruns := 0, aborts := 0, urgOver := 0 })
          0 (toLe 1 (b2n K.overrun) ++ toLe 2 K.overruns.toNat ++ toLe 2 K.aborts.toNat ++ toLe 2 K.urgOver.toNat ++
            toLe 4 (tabGet (0 : BitVec 32) s.passes g.val).toNat) ∧
        Runs (.spyStatus src g spy) src 0x0903 (toLe 1 g.val ++ toLe 1 spy.val) s s 0 (toLe 1 (if y.starting then 3 else spyCode y.st) ++
          toLe 1 (spyCode (presented y)) ++ toLe 2 (yLower y.word) ++ toLe 2 (yUpper y.word) ++ toLe 1 (fld y.word 40 4) ++ toLe 1 (fld y.word 37 3))) ∧
      (let r := tabGet ((0 : BitVec 64), (0 : BitVec 64), (0 : BitVec 32)) s.hkRecs (32 * g.val + e.val)
       let used := eOwner ((entriesOf s g.val).getD e.val 0) ≠ 0
       (¬ used → Runs (.hkcRead src g e) src 0x0803 (toLe 1 g.val ++ toLe 1 e.val) s s 3 []) ∧
       (used → hearthOurs s g.val = false → Runs (.hkcRead src g e) src 0x0803 (toLe 1 g.val ++ toLe 1 e.val) s s 0 (List.replicate 20 0)) ∧
       (used → hearthOurs s g.val = true → Runs (.hkcRead src g e) src 0x0803 (toLe 1 g.val ++ toLe 1 e.val) s s 0
          (toLe 8 r.1.toNat ++ toLe 8 r.2.1.toNat ++ toLe 4 r.2.2.toNat)))) ∧
    (let req := toLe 1 g.val ++ toLe 1 slot.val
     let bound := bitOf (bindingOf s g.val slot.val) 4
     let ran := exec (.spyCapture src g slot) s
     cmdIs s src 0x0902 req = true →
      (hearthOurs s g.val = false → ran = .next (setAnswer s src 0x204 [])) ∧
      (hearthOurs s g.val = true → bound = false → ran = .next (setAnswer s src 3 [])) ∧
      (hearthOurs s g.val = true → bound = true → bodyFits B 24 = false → ran = .next (setAnswer s src 0 (List.replicate 24 0))) ∧
      (hearthOurs s g.val = true → bound = true → bodyFits B 24 = true →
        (g.val < 8 → ran = .next (captureRead (updBox s src fun m => { m with acted := some (captureMark (16 * g.val + slot.val)) }) g.val slot.val (some src))) ∧
        (8 ≤ g.val → ran = .next (setAnswer (sendParam u g.val 6 slot.val [1]) src 0 (toLe 24 (v / 2 ^ 26 * 2 ^ 26)))))) ∧
    (let t := (tabGet [] s.books.twins pair.val).getD 0 0
     let o := if pair.val < 256 then 0 else 512
     let a := o + twChA t
     let b := o + twChB t
     (twOn t = false → Runs (.twinStatus src pair) src 0x0501 (toLe 2 pair.val) s s 3 []) ∧
     (twOn t = true → 256 ≤ pair.val → (chanThere s a && chanThere s b) = false → Runs (.twinStatus src pair) src 0x0501 (toLe 2 pair.val) s s 3 []) ∧
     (twOn t = true → (pair.val < 256 ∨ (chanThere s a && chanThere s b) = true) → Runs (.twinStatus src pair) src 0x0501 (toLe 2 pair.val) s s 0 (toLe 2 a ++ toLe 2 b ++
        toLe 1 (b2n ((s.chan a).twinShared && (s.chan b).twinShared)) ++ toLe 1 (s.chan a).twinReason.toNat ++
        toLe 2 (min (s.chan a).twinOk (s.chan b).twinOk) ++
        toLe 1 (b2n (errPresent s 0x205 (srcChan a)) + 2 * b2n (errPresent s 0x205 (srcChan b)))))) ∧
    (let req := toLe 1 part.toNat ++ toLe 4 off.toNat ++ toLe 4 len.toNat ++ hashBytes digest
     part ≠ 0 → (∀ x, schedJudge s part off len digest = .error x → Runs (.schedCheck src part off len digest) src 0x0602 req s s (schedStatus x) []) ∧
      (∀ k t, schedJudge s part off len digest = .ok (k, t) → Runs (.schedCheck src part off len digest) src 0x0602 req s s 0
        (toLe 2 k.sitter ++ toLe 2 k.cone ++ toLe 2 k.packed ++ toLe 2 k.replay))) ∧
    (part ≠ 1 → loadedFor s false part.toNat = none → Runs (.schedStatus src part) src 0x0604 [part] s s 3 []) ∧
    (∀ l, part ≠ 1 → loadedFor s false part.toNat = some l → Runs (.schedStatus src part) src 0x0604 [part] s s 0
      (toLe 1 0x80 ++ toLe 2 (schedUsers s part.toNat).length ++ (l.words ++ l.worst).flatMap (toLe 2) ++ hashBytes l.digest)) ∧
    Runs (.schedStatus src 1) src 0x0604 [1] s u 0 (toLe 1 1 ++ toLe 2 (schedUsers s 1).length ++
      ([0, 1, 2].map Config.libWords ++ [98, 183, 229]).flatMap (toLe 2) ++ hashBytes (BitVec.ofNat 384 v)) ∧
    Runs (.faultStatus src) src 0x0A01 [] s s 0 (toLe 8 s.coll.fsw.toNat ++ toLe 4 (correctedSum s) ++ toLe 4 s.coll.lost.toNat ++
      toLe 2 s.coll.shards.length ++ toLe 2 s.coll.newest.toNat ++ toLe 1 (b2n s.coll.crashUnread)) ∧
    (let match_ (x : Shard) : Bool := match filter with | 0 => true | 1 => x.latched | 2 => x.present
     Runs (.faultRead src w count filter) src 0x0A03 (toLe 2 w.toNat ++ toLe 1 count.val ++ toLe 1 filter.val) s s 0
      ((((s.coll.shards.filter match_).foldl (fun l x => insertShard w x l) []).take count.val).flatMap shardBytes)) ∧
    Runs (.faultCount src w) src 0x0A07 (toLe 2 w.toNat) s s 0
      (((s.coll.counts.filter fun p => decide (p.1 / 65536 = w.toNat)).take 32).flatMap fun p => toLe 2 (p.1 % 65536) ++ toLe 4 p.2.toNat) ∧
    Runs (.faultCrash src mark) src 0x0A06 (toLe 1 (b2n mark)) s (s.setColl { s.coll with crashUnread := s.coll.crashUnread && !mark }) 0 (crashBody s) ∧
    Runs (.timeStatus src) src 0x0B02 [] s s 0 (toLe 1 s.time.state.val ++ toLe 1 s.time.hops.toNat ++ toLe 2 s.time.parentAddr.toNat ++
      toLe 4 (uBase16 s 32) ++ toLe 8 s.time.lastPps.toNat ++ toLe 4 s.time.ignored.toNat ++ toLe 8 s.time.tick ++ toLe 8 s.time.tai) ∧
    (∀ id b, (s.log.seals.find? fun p => p.1 == off.toNat) = some (id, b) → Runs (.evtAudit src off) src 0x0C02 (toLe 4 off.toNat) s s 0 b) ∧
    ((s.log.seals.find? fun p => p.1 == off.toNat) = none → Runs (.evtAudit src off) src 0x0C02 (toLe 4 off.toNat) s s 0x602 []) ∧
    Runs (.evtStatus src) src 0x0C03 [] s s 0 (toLe 8 s.log.head ++ toLe 8 (if s.log.recs = [] then 0 else logTail s) ++ toLe 8 s.host.nextRing ++
      toLe 8 s.host.ringDropped) ∧
    Runs (.partStatus src) src 0x0D01 [] s u 0 (toLe 1 s.pair.state.val ++ toLe 1 (b2n s.pair.laneLive + 2 * b2n s.pair.pulseLive) ++
      toLe 1 (adoptedMask s) ++ toLe 1 (lentMask s) ++ toLe 2 (pairAddr s) ++ toLe 8 s.pair.partnerId.toNat ++
      (List.range 8).flatMap (fun j => toLe 4 (s.cp j).cpSeq.toNat) ++ (List.range 8).flatMap fun j => toLe 4 (cpAge u j v)) ∧
    Runs (.worksStatus src) src 0x0E01 [] s s 0 (toLe 1 (worksRole s) ++ (List.range 4).flatMap (fun n => toLe 1 (wlCode (s.wlane n).state)) ++
      (List.range 4).flatMap (fun n => toLe 2 (s.wlane n).neighbour.toNat) ++ toLe 2 (reachCount s) ++ toLe 2 s.time.parentAddr.toNat ++
      toLe 1 (min 255 s.works.subsIn.length)) ∧
    (keptFeed s w.toNat = none → Runs (.worksLedger src w) src 0x0E05 (toLe 2 w.toNat) s s 3 []) ∧
    (∀ f, keptFeed s w.toNat = some f → Runs (.worksLedger src w) src 0x0E05 (toLe 2 w.toNat) s s 0 (toLe 1 (if f.keeper = wAddr s then 1 else 2) ++
      toLe 2 f.cap ++ toLe 4 (commitment s w) ++ toLe 2 (s.works.holds.filter fun x => x.feedId == w).length ++
      toLe 2 ((s.works.totals.filter fun x => x.1 == w).map fun x => x.2.1).eraseDups.length)) ∧
    (let bs := if copy = 0 then s.books.own else stagedBytes s s.books.stagedLen
     Runs (.bookRead src copy off w) src 0x0F03 (toLe 4 copy.val ++ toLe 4 off.toNat ++ toLe 2 w.toNat) s s
      (if bs.length < off.toNat + w.toNat then 3 else 0) (if bs.length < off.toNat + w.toNat then [] else (bs.drop off.toNat).take w.toNat)) ∧
    Runs (.bookStatus src) src 0x0F04 [] s s 0 (toLe 1 (b2n (bootRec s).book) ++ toLe 4 ((ownBook s).getD noBook).gen ++
      toLe 4 s.books.own.length ++ toLe 4 s.books.stagedLen ++ hashBytes s.books.digest) ∧
    Runs (.fwStatus src) src 0x1005 [] s s 0 (toLe 4 (bootWord s) ++ toLe 1 (b2n s.boot.image) ++ toLe 4 (imgVersion s false) ++
      toLe 4 (imgVersion s true) ++ toLe 2 (imgSvn s false) ++ toLe 2 (imgSvn s true) ++
      toLe 1 (b2n (imgUsable s false) + 2 * b2n (imgUsable s true)) ++ toLe 1 (attempts s false) ++ toLe 1 (attempts s true) ++
      toLe 1 (b2n s.boot.verified)) ∧
    Runs (.attestIdentity src) src 0x1101 [] s s 0 (toLe 8 (deviceId s) ++ sliceBytes (Config.attestPublic (attestSecret s)) 0 96 ++
      toLe 96 (fuse s 1440 768)) ∧
    (let b := reportBody s digest
     let sig := Config.ecdsaSign (attestSecret s) (Config.sha384 b)
     Runs (.attestReport src digest) src 0x1102 (hashBytes digest) s s 0 (b ++ hashBytes sig.1 ++ hashBytes sig.2)) ∧
    Runs (.attestLog src w n41) src 0x1104 (toLe 2 w.toNat ++ toLe 1 n41.val) s s 0
      (((s.boot.mlog.drop w.toNat).take n41.val).flatMap fun e => toLe 1 e.1.toNat ++ toLe 1 e.2.1.toNat ++ hashBytes e.2.2) ∧
    (∀ (m : MboxNo) st body, let t := setAnswer s (.mbox m) st body
      Agree [.host] s t ∧ (∀ j, t.mbox j = if j = m.val then { s.mbox m with answer := some (BitVec.ofNat 16 st, body), acted := none } else s.mbox j)) ∧
    (∀ (o : BitVec 11) st body q, (s.works.fwdQ.find? fun q => q.1.toNat == o.toNat && q.2.2.2 == (s.fwdBox o.toNat).arrival) = some q →
      st < 65536 → body.length ≤ 2032 → o.toNat ≠ wAddr s → wEnable s = true → s.works.excluded = false →
      let t := setAnswer s (.fwd o) st body
      (∀ m, servingLane s o.toNat = some m → HasRoom s m →
        Sends s t [nextFrame s m 6 o.toNat (wAddr s) 0 ((32, q.2.1.toNat) :: (16, st) :: byteFlds body)]) ∧ t.works.fwdQ = s.works.fwdQ.erase q ∧ tabGet 0 t.works.fwdTag o.toNat = q.2.1.toNat + 1 ∧ (t.fwdBox o.toNat).running = false)

/-- Commands that act on channels, feeds, hearths and the device (17 R445, R449, R454, R455, R458, R462 to R468; 11 R290 to R292, R303, R305; 12
R310; 13 R357 to R360; 14 R383, R384; 16 R435): the check that fails and its status, or the effect. The model's own choices that it rests
on: log entries 106, 111, 138, 139, 145, 148, 150, 151. -/
def Obligations.CommandsAct : Prop :=
  ∀ (src : CmdSrc) (key unc : BitVec 32) (force low fin : Bool) (c : Chan) (g : Hearth16) (target : FeedSel) (feed : Feed) (e : Fin 32)
    (w mask tai : BitVec 64) (spy : SpyNo) (id : BitVec 16) (dflt : Fin 3) (entries : List ResumeEntry) (m8 : BitVec 8) (inner : List Byte)
    (s : State),
    let P := s.pair
    let A := s.chan c.val
    let own := g.val < 8
    let ours := hearthOurs s g.val = true
    let fails (i : Instr) (op : Nat) (req : List Byte) (st : Nat) := Runs i src op req s s st []
    let does (i : Instr) (op : Nat) (req : List Byte) (u : State) := Runs i src op req s u 0 []
    let acts (i : Instr) (op : Nat) (req : List Byte) (f : State → Prop) := Acts i src op req s [] f
    let noted (x : State) := setAnswer x src 0 [BitVec.ofNat 8 (stCode A.obs), 0]
    let posted (f : ChanSt → ChanSt) (bit : Nat) := updBox (s.updChan c.val f) src fun m => { m with acted := some (c.val, bit) }
    let on (A : ChanSt) : ChanSt := { A with hostOn := true }
    let off (A : ChanSt) : ChanSt := { A with hostOn := false }
    let req (A : ChanSt) (b : Nat) : ChanSt := { A with req := A.req ||| BitVec.ofNat 4 b }
    let chan (i : Instr) (op : Nat) (r : State) := cmdIs s src op (toLe 2 c.val) = true → exec i s = .next r
    let there := hearthOurs s (c.val / 64) = true ∧ chanThere s c.val = true
    let rst := toLe 4 key.toNat ++ toLe 1 (b2n force)
    (key ≠ 0xA55A → fails (.devReset src key force) 0x0103 rst 3) ∧
    (key = 0xA55A → force = true ∨ unprotected s = false → does (.devReset src key force) 0x0103 rst s) ∧
    (key = 0xA55A → force = false → unprotected s = true → fails (.devReset src key force) 0x0103 rst 7) ∧
    (bankBusy s = true → fails (.devBank src) 0x0104 [] 8) ∧
    (bankBusy s = false → acts (.devBank src) 0x0104 [] fun u => u.boot.devState = 2 ∧ u.host.bankSrc = some src ∧
      ∀ h : Hearth, (u.hearth h).banked = true ∧ (u.hearth h).logic = false ∧ (u.hk h).running = false) ∧
    (hearthOurs s (c.val / 64) = false → chan (.chanOn src c) 0x0201 (setAnswer s src 0x204 []) ∧
      chan (.chanOff src c) 0x0202 (setAnswer s src 0x204 []) ∧ chan (.chanReset src c) 0x0203 (setAnswer s src 0x204 [])) ∧
    (there →
      (A.obs = .locked → chan (.chanOn src c) 0x0201 (setAnswer s src 0x202 []) ∧ chan (.chanOff src c) 0x0202 (setAnswer s src 0x202 [])) ∧
      (A.obs = .off → chan (.chanOn src c) 0x0201 (posted (fun A => req (on A) 4) 4)) ∧
      (A.obs ≠ .locked → A.obs ≠ .off → chan (.chanOn src c) 0x0201 (noted (s.updChan c.val on))) ∧
      (A.obs = .held → chan (.chanOff src c) 0x0202 (setAnswer s src 0x203 [])) ∧
      (A.obs = .vacant ∨ A.obs = .off → chan (.chanOff src c) 0x0202 (noted (s.updChan c.val off))) ∧
      (A.obs ∉ [.locked, .held, .vacant, .off] → chan (.chanOff src c) 0x0202 (posted (fun A => req (off A) 2) 2)) ∧
      (A.obs = .vacant ∨ A.obs = .held → chan (.chanReset src c) 0x0203 (setAnswer s src 0x203 [])) ∧
      (A.obs ≠ .vacant → A.obs ≠ .held → chan (.chanReset src c) 0x0203 (posted (fun A => req A 8) 8))) ∧
    (let i := Instr.feedSelect src g target
     let q := toLe 1 g.val ++ toLe 1 (selCode target)
     let ok := match target with | .auto => true | .a => eligible s g.val .a | .b => eligible s g.val .b
     (¬ ours → fails i 0x0402 q 0x204) ∧ (ours → own → ok = true → does i 0x0402 q (feedSelectWrite s g.val target)) ∧
      (ours → own → ok = false → fails i 0x0402 q 0x205) ∧ (ours → ¬ own → target = .auto → does i 0x0402 q (sendParam s g.val 10 0 [0])) ∧
      (ours → ¬ own → target ≠ .auto → cmdIs s src 0x0402 q = true → exec i s = .next (setAnswer s.freshFree.2 src 0x205 []) ∨
        exec i s = .next (setAnswer (sendParam s.freshFree.2 g.val 10 0 [selCode target]) src 0 []))) ∧
    (let i := Instr.feedClear src g feed
     let q := toLe 1 g.val ++ toLe 1 (feedCode feed)
     let bar := bitOf (tabGet (0 : BitVec 16) s.feedWord g.val) (match feed with | .a => 8 | .b => 7)
     (¬ ours → fails i 0x0403 q 0x204) ∧
      (ours → own → barred (s.group g.val) feed = false → does i 0x0403 q s) ∧
      (ours → own → barred (s.group g.val) feed = true → (offLow s g.val feed = false → fails i 0x0403 q 0x205) ∧
        (offLow s g.val feed = true → does i 0x0403 q (feedClearWrite s g.val feed))) ∧
      (ours → ¬ own → bar = false → does i 0x0403 q s) ∧
      (ours → ¬ own → bar = true → cmdIs s src 0x0403 q = true → exec i s = .next (setAnswer s.freshFree.2 src 0x205 []) ∨
        exec i s = .next (setAnswer (sendParam s.freshFree.2 g.val 11 0 [feedCode feed]) src 0 []))) ∧
    (let i := Instr.feedWarn src g low
     let q := toLe 1 g.val ++ toLe 1 (b2n low)
     (¬ ours → fails i 0x0404 q 0x204) ∧
      (ours → fld (feedWordOf s g.val 1) 34 2 ≠ 2 → fails i 0x0404 q 0x206) ∧
      (ours → fld (feedWordOf s g.val 1) 34 2 = 2 →
        does i 0x0404 q (if own then writeConfig s g.val (.warnOut low) else sendParam s g.val 12 0 [b2n low]))) ∧
    (let i := Instr.hkcSet src g e w
     let q := toLe 1 g.val ++ toLe 1 e.val ++ toLe 6 0 ++ toLe 8 w.toNat
     (¬ ours → fails i 0x0802 q 0x204) ∧ (ours → hkcJudge s g.val e.val w ≠ 0 → fails i 0x0802 q (hkcJudge s g.val e.val w)) ∧
      (ours → hkcJudge s g.val e.val w = 0 → let u := s.updHk g.val fun K => { K with entriesNext := K.entriesNext ++ [(e.val, w)] }
        does i 0x0802 q (if own then u else sendParam u g.val 3 e.val [w.toNat]))) ∧
    ((¬ ours → fails (.hkcTrigger src g) 0x0804 (toLe 1 g.val) 0x204) ∧
      (ours → does (.hkcTrigger src g) 0x0804 (toLe 1 g.val) (if own then gateEvent s g.val 9 0 else sendParam s g.val 14 0 [1]))) ∧
    (let i := Instr.spySet src g spy w
     let q := toLe 1 g.val ++ toLe 1 spy.val ++ toLe 6 0 ++ toLe 8 w.toNat
     (¬ ours → fails i 0x0901 q 0x204) ∧ (ours → spyJudge s g.val spy.val w ≠ 0 → fails i 0x0901 q (spyJudge s g.val spy.val w)) ∧
      (ours → spyJudge s g.val spy.val w = 0 → let u := s.updSpy (130 * g.val + spy.val) fun y => { y with nextWord := some w }
        does i 0x0901 q (if own then u else sendParam u g.val 0 spy.val [w.toNat]))) ∧
    (let x := (s.coll.fsw &&& ~~~(mask &&& 0x3FFFFFFFFFFFFFF8#64)) ||| (presentBits s &&& (mask &&& 0x3FFFFFFFFFFFFFF8#64))
     Runs (.faultClear src mask) src 0x0A02 (toLe 8 mask.toNat) s (s.setColl { s.coll with fsw := x }) 0 (toLe 8 x.toNat)) ∧
    ((s.coll.shards.find? fun x => x.id == id && x.latched) = none → fails (.faultAck src id) 0x0A04 (toLe 2 id.toNat) 3) ∧
    (∀ x, (s.coll.shards.find? fun x => x.id == id && x.latched) = some x →
      (x.present = true → fails (.faultAck src id) 0x0A04 (toLe 2 id.toNat) 0x501) ∧
      (x.present = false → does (.faultAck src id) 0x0A04 (toLe 2 id.toNat)
        (s.setColl { s.coll with shards := s.coll.shards.filter fun y => y.id ≠ id }))) ∧
    (let i := Instr.faultReset src id force
     let q := toLe 2 id.toNat ++ toLe 1 (b2n force)
     let n := srcIdx id.toNat
     let marked := commandedReset s id.toNat 0x0A05 (match src with | .mbox m => m.val | .fwd _ => 0)
     (srcType id.toNat ∉ [3, 5, 8] ∨ 16 ≤ n → fails i 0x0A05 q 3) ∧
      (srcType id.toNat = 8 → n < 16 → ((s.chans.map (·.1)).any (holdsCluster s n) = true → fails i 0x0A05 q 0x502) ∧
        ((s.chans.map (·.1)).any (holdsCluster s n) = false → does i 0x0A05 q (resetCluster marked n) ∧
          let u := resetCluster marked n
          (u.cluster n).failed = false ∧ (u.cluster n).tick = s.time.tick ∧ (u.cluster n).returning = true ∧ ∀ k : Local,
            u.engine (64 * n + k.val) =
            { bank0 := (s.engine (64 * n + k.val)).bank0, bank1 := (s.engine (64 * n + k.val)).bank1, active := (s.engine (64 * n + k.val)).active })) ∧
      (srcType id.toNat = 3 → n < 8 → let H := s.hearth n
        let mayReset := H.logic = true ∧ takesReset H .loc = true
        let cross := H.held = true ∧ H.holder = .cross
        (cross → fails i 0x0A05 q 0x503) ∧ (¬ cross → ¬ mayReset → fails i 0x0A05 q 0x204) ∧
        (¬ cross → mayReset → force = false → carriesLoad s n = true → fails i 0x0A05 q 0x502) ∧
        (¬ cross → mayReset → force = true ∨ carriesLoad s n = false →
          does i 0x0A05 q (claimOwn (hearthReset (controlFrame marked n .loc) n) n))) ∧
      (srcType id.toNat = 3 → 8 ≤ n → n < 16 → (hearthOurs s n = false → fails i 0x0A05 q 0x204) ∧
        (hearthOurs s n = true → force = false → carriesLoad s n = true → fails i 0x0A05 q 0x502) ∧
        (hearthOurs s n = true → force = true ∨ carriesLoad s n = false → does i 0x0A05 q (claimPartner (sendParam marked n 15 0 [1]) (n - 8)))) ∧
      (srcType id.toNat = 5 → n < 16 → let l : Fin 2 := if n % 2 = 0 then 0 else 1
        ((s.hearth (n / 2)).active = l → fails i 0x0A05 q 0x502) ∧
        ((s.hearth (n / 2)).active ≠ l → does i 0x0A05 q
          (marked.updHearth (n / 2) fun H => setLane H l { trained := false, failed := true, attempts := 0 })))) ∧
    (let i := Instr.timeSet src tai unc
     let q := toLe 8 tai.toNat ++ toLe 4 unc.toNat
     (s.time.state = 2 ∨ s.time.state = 3 → fails i 0x0B01 q 0x601) ∧
      (s.time.state ≠ 2 → s.time.state ≠ 3 → tPpsEn s.time.word = true → does i 0x0B01 q (s.setTime { s.time with armed := some (tai, unc) })) ∧
      (s.time.state ≠ 2 → s.time.state ≠ 3 → tPpsEn s.time.word = false → acts i 0x0B01 q fun u => u.time.state = 1 ∧
        u.time.uBase = 80 * unc.toNat ∧ u.time.slew + u.time.stepDue = (tai.toNat : Int) - s.time.tai)) ∧
    (let i := Instr.evtResume src fin dflt entries
     let q := toLe 1 (b2n fin) ++ toLe 1 dflt.val ++ toLe 2 entries.length ++ entries.flatMap fun x => toLe 2 x.source.toNat ++ toLe 2 0 ++ toLe 4 x.first.toNat
     let H := s.host
     let B := srcBox s src
     (H.ringOn = true → fails i 0x0C01 q 0x603) ∧ (H.ringOn = false → dflt = 0 → B.snapshot = [] → fails i 0x0C01 q 6) ∧
      (H.ringOn = false → dflt ≠ 0 ∨ B.snapshot ≠ [] → acts i 0x0C01 q fun u => u.host.resumeFinal = fin ∧ u.host.resumeDflt = dflt ∧
        u.host.resumeNew = true ∧ u.host.resume = addResume (if H.resumeFinal = true then [] else H.resume) entries ∧
        u.host.resumeFrom = (match dflt with | 0 => B.snapIndex | 1 => 0 | 2 => s.log.head))) ∧
    (let lent := BitVec.ofNat 8 (lentMask s)
     let adopter := P.state = 7
     let i := Instr.partReturn src
     let run (r : State) := cmdIs s src 0x0D02 [] = true → exec i s = .next r
     (¬ adopter → P.partnerState ≠ 7 ∨ lent = 0 → run (setAnswer s src 0x701 [])) ∧
      (adopter ∨ (P.partnerState = 7 ∧ lent ≠ 0) → handRuns s = true → run (setAnswer s src 0x703 [])) ∧
      (adopter → handRuns s = false → adoptedMask s ≠ 0 → cmdIs s src 0x0D02 [] = true → Completes i s fun t =>
        HandStarts s t (BitVec.ofNat 8 (adoptedMask s)) false src) ∧
      (¬ adopter → P.partnerState = 7 → lent ≠ 0 → handRuns s = false → cmdIs s src 0x0D02 [] = true → Completes i s fun t =>
        ∃ j : Hearth, lent.getLsbD j = true ∧ (∀ k : Hearth, k < j → lent.getLsbD k = false) ∧ Sends s t [pairFrame s 5 j [(8, 3), (32, 0)]] ∧
          t.pair = { P with handSrc := some src, handed := 0, tx := P.tx + 1 })) ∧
    (let i := Instr.partTransfer src m8
     let run (r : State) := cmdIs s src 0x0D03 [m8] = true → exec i s = .next r
     let held := ∀ j : Hearth, m8.getLsbD j = true → hearthOurs s j = true
     (¬ held → run (setAnswer s src 0x204 [])) ∧ (m8 = 0 → run (setAnswer s src 3 [])) ∧
      (held → m8 ≠ 0 → P.state ≠ 3 → run (setAnswer s src 0x701 [])) ∧ (held → m8 ≠ 0 → P.state = 3 → handRuns s = true → run (setAnswer s src 0x703 [])) ∧
      (held → m8 ≠ 0 → P.state = 3 → handRuns s = false → cmdIs s src 0x0D03 [m8] = true → Completes i s fun t => HandStarts s t m8 true src)) ∧
    (let silent := P.laneLive = false ∧ P.pulseLive = false
     (P.state = 0 → fails (.partReset src) 0x0D04 [] 0x701) ∧ (P.state ≠ 0 → ¬ silent → fails (.partReset src) 0x0D04 [] 0x704) ∧
      (P.state ≠ 0 → silent → acts (.partReset src) 0x0D04 [] fun u => Sends s u [pairFrame s 6 0 [(64, P.partnerId.toNat)]] ∧
        Stamped s u srcPartner 0x1609 [(8, 0)])) ∧
    (let i := Instr.worksSend src id inner
     let q := toLe 2 id.toNat ++ toLe 2 0 ++ inner
     let member := wEnable s = true ∧ s.works.excluded = false
     let run (r : State) := cmdIs s src 0x0E02 q = true → exec i s = .next r
     (leAt inner 0 2 = 0x0E02 → run (setAnswer s src 3 [])) ∧ (leAt inner 0 2 ≠ 0x0E02 → ¬ member → run (setAnswer s src 0x804 [])) ∧
      (leAt inner 0 2 ≠ 0x0E02 → member → reachable s id.toNat = false → run (setAnswer s src 0x802 [])) ∧
      (leAt inner 0 2 ≠ 0x0E02 → member → reachable s id.toNat = true → id.toNat ≠ wAddr s → cmdIs s src 0x0E02 q = true → Completes i s fun t =>
        t.works.sends = s.works.sends ++ [(s.works.nextTag, src)] ∧ t.works.nextTag = s.works.nextTag + 1 ∧
        ∀ m, servingLane s id.toNat = some m → HasRoom s m →
          Sends s t [nextFrame s m 5 id.toNat (wAddr s) 0 ((32, s.works.nextTag.toNat) :: byteFlds inner)])) ∧
    (let q := toLe 2 id.toNat ++ toLe 2 0 ++ toLe 8 tai.toNat
     (∀ o, src = .fwd o → id.toNat = wAddr s → acts (.worksSubscribe src id tai) 0x0E03 q fun u =>
        tabGet 0 u.works.subsOut o.toNat = max 1 tai.toNat + 1 ∧ Agree [.works] s u) ∧
      (∀ m, src = .mbox m → wEnable s = true → s.works.excluded = false → reachable s id.toNat = true → id.toNat ≠ wAddr s →
        cmdIs s src 0x0E03 q = true → Completes (.worksSubscribe src id tai) s fun t => t.works.sends = s.works.sends ++ [(s.works.nextTag, src)] ∧
          ∀ m, servingLane s id.toNat = some m → HasRoom s m → Sends s t [nextFrame s m 5 id.toNat (wAddr s) 0
            ((32, s.works.nextTag.toNat) :: byteFlds (toLe 2 0x0E03 ++ toLe 2 12 ++ toLe 4 0 ++ q))])) ∧
    (∀ m, src = .mbox m →
      (tabGet 0 s.works.subsIn id.toNat = 0 → fails (.worksUnsubscribe src id) 0x0E04 (toLe 2 id.toNat) 3) ∧
      (tabGet 0 s.works.subsIn id.toNat ≠ 0 → acts (.worksUnsubscribe src id) 0x0E04 (toLe 2 id.toNat) fun u =>
        tabGet 0 u.works.subsIn id.toNat = 0 ∧ u.works.nextTag = s.works.nextTag + 1)) ∧
    (∀ o, src = .fwd o →
      (id.toNat ≠ wAddr s ∨ tabGet 0 s.works.subsOut o.toNat = 0 → fails (.worksUnsubscribe src id) 0x0E04 (toLe 2 id.toNat) 3) ∧
      (id.toNat = wAddr s → tabGet 0 s.works.subsOut o.toNat ≠ 0 → acts (.worksUnsubscribe src id) 0x0E04 (toLe 2 id.toNat) fun u =>
        tabGet 0 u.works.subsOut o.toNat = 0 ∧ Agree [.works] s u))

/-- Commands that write the flash, the staging buffer, the fuses and the measurements (17 R459, R469; 15 R392, R401, R404, R407, R408, R411,
R412): what is written where, and every other byte of the flash as it was. The model's own choices that it rests on: log entries 9, 10, 85,
106, 138, 147, 152, 153. -/
def Obligations.CommandsStore : Prop :=
  ∀ (src : CmdSrc) (off len : BitVec 32) (data : List Byte) (ok fresh reset force : Bool) (id : BitVec 8) (digest : BitVec 384) (s : State),
    let inside := off.toNat + data.length ≤ 1048576
    let b := !s.boot.image
    let fails (i : Instr) (op : Nat) (req : List Byte) (st : Nat) := Runs i src op req s s st []
    let acts (i : Instr) (op : Nat) (req body : List Byte) (f : State → Prop) := Acts i src op req s body f
    let failed (i : Instr) (op : Nat) (req : List Byte) (st : Nat) (body : List Byte) (f : State → Prop) :=
      cmdIs s src op req = true → bodyFits (srcBox s src) body.length = true →
        ∃ u, exec i s = .next (setAnswer u src st body) ∧ FswLatched s u 0x21F srcDevice ∧ u.boot.flash = s.boot.flash ∧ f u
    let flashed (u : State) (start : Nat) := ∀ a, tabGet (0xFF : Byte) u.boot.flash a =
      if start ≤ a ∧ a < start + data.length then data.getD (a - start) 0xFF else tabGet 0xFF s.boot.flash a
    let at_ := toLe 4 off.toNat ++ data
    (¬ inside → fails (.schedWrite src off data ok) 0x0601 at_ 3 ∧ fails (.fwWrite src off data ok) 0x1001 at_ 3) ∧
    (inside → ok = true → acts (.schedWrite src off data ok) 0x0601 at_ [] fun u => flashed u (customAt + off.toNat) ∧ Agree [.flash] s u) ∧
    (inside → ok = false → failed (.schedWrite src off data ok) 0x0601 at_ 9 [] fun _ => True) ∧
    (inside → ok = true → acts (.fwWrite src off data ok) 0x1001 at_ [] fun u => flashed u (imageAt b + off.toNat) ∧
      u.boot.verified = false ∧ (if b then u.boot.badB else u.boot.badA) = false) ∧
    (inside → ok = false → failed (.fwWrite src off data ok) 0x1001 at_ 9 [] fun u => u.boot.verified = false ∧
      (if b then u.boot.badB else u.boot.badA) = true) ∧
    (let req := toLe 1 id.toNat ++ toLe 4 off.toNat ++ toLe 4 len.toNat ++ hashBytes digest
     let i := Instr.schedLoad src id off len digest
     (id = 0 ∨ id = 1 → fails i 0x0603 req 3) ∧
      (∀ x, id ≠ 0 → id ≠ 1 → schedJudge s id off len digest = .error x → fails i 0x0603 req (schedStatus x)) ∧
      (∀ k t, id ≠ 0 → id ≠ 1 → schedJudge s id off len digest = .ok (k, t) →
        ((schedUsers s id.toNat).all fun c => chanIn s c [.vacant, .seated, .off, .locked]) = false → fails i 0x0603 req (schedStatus .busy)) ∧
      (∀ k t, id ≠ 0 → id ≠ 1 → schedJudge s id off len digest = .ok (k, t) →
        ((schedUsers s id.toNat).all fun c => chanIn s c [.vacant, .seated, .off, .locked]) = true →
        acts i 0x0603 req (toLe 2 k.sitter ++ toLe 2 k.cone ++ toLe 2 k.packed ++ toLe 2 k.replay) fun u =>
          (∃ l, loadedFor u false id.toNat = some l ∧ l.digest = digest) ∧ u.boot.mcount = s.boot.mcount + 1 ∧
          u.boot.flash = s.boot.flash)) ∧
    (let req := toLe 4 off.toNat ++ toLe 1 (b2n fresh) ++ toLe 3 0 ++ data
     (¬ inside → fails (.bookStage src off fresh data) 0x0F01 req 3) ∧
      (inside → acts (.bookStage src off fresh data) 0x0F01 req [] fun u => Agree [.books] s u ∧
        u.books.stagedLen = max (if fresh = true then 0 else s.books.stagedLen) (off.toNat + data.length) ∧ u.books.own = s.books.own ∧
        ∀ a, tabGet 0 u.books.staged a = if off.toNat ≤ a ∧ a < off.toNat + data.length then data.getD (a - off.toNat) 0
          else if fresh = true then 0 else tabGet 0 s.books.staged a)) ∧
    (let bs := stagedBytes s len.toNat
     let i := Instr.bookCommit src len ok
     let judged := checkBook s bs ((ownBook s).map Book.gen) false
     let none_ (k : Book) := toLe 2 0xFFFF ++ toLe 2 0xFFFF ++ toLe 2 0xFFFF ++ toLe 2 0 ++ hashBytes (bookDigest k)
     (∀ x k, judged = .error x → parseBook bs = .ok k →
        Runs i src 0x0F02 (toLe 4 len.toNat) s s x.status (commitBody x.place (bookDigest k))) ∧
      (∀ x y, judged = .error x → parseBook bs = .error y →
        Runs i src 0x0F02 (toLe 4 len.toNat) s s.freshFree.2 x.status (commitBody x.place (BitVec.ofNat 384 s.freshFree.1))) ∧
      (∀ k t, judged = .ok (k, t) → ok = false → failed i 0x0F02 (toLe 4 len.toNat) 0x307 (none_ k) fun u => u.books = s.books) ∧
      (∀ k t, judged = .ok (k, t) → ok = true → commitBusy s k = true → Runs i src 0x0F02 (toLe 4 len.toNat) s s 0x308 (none_ k)) ∧
      (∀ k t, judged = .ok (k, t) → ok = true → commitBusy s k = false → acts i 0x0F02 (toLe 4 len.toNat) (none_ k) fun u =>
        u.books.own = k.bytes ∧ u.books.digest = bookDigest k)) ∧
    (let i := Instr.fwVerify src
     (imgGenuine s b = false → fails i 0x1002 [] 0x901) ∧ (imgGenuine s b = true → imgSvn s b < rollback s → fails i 0x1002 [] 0x902) ∧
      (imgGenuine s b = true → rollback s ≤ imgSvn s b → Runs i src 0x1002 [] s (s.setBoot { s.boot with verified := true }) 0
        (toLe 4 (imgVersion s b) ++ toLe 2 (imgSvn s b)))) ∧
    (let i := Instr.fwActivate src reset force
     let req := [BitVec.ofNat 8 (b2n reset + 2 * b2n force)]
     (s.boot.verified = false → fails i 0x1003 req 0x903) ∧
      (s.boot.verified = true → reset = true → force = false → unprotected s = true → fails i 0x1003 req 0x904) ∧
      (s.boot.verified = true → reset = false ∨ force = true ∨ unprotected s = false → (bootRec s).seq + 1 < 2 ^ 64 → acts i 0x1003 req [] fun u =>
        (bootRec u).active = b ∧ (if b then (bootRec u).attB else (bootRec u).attA) = 0 ∧ (bootRec u).book = (bootRec s).book ∧
        ∀ a, imageAt false ≤ a → tabGet (0xFF : Byte) u.boot.flash a = tabGet 0xFF s.boot.flash a)) ∧
    (let i := Instr.fwRatchet src force
     let n := imgSvn s s.boot.image
     let older := imgUsable s b = true ∧ imgSvn s b < n
     let u := s.setFuses (blowRollback s.boot.fuses n)
     (force = false → older → fails i 0x1004 [BitVec.ofNat 8 (2 * b2n force)] 0x902) ∧
      (force = true ∨ ¬ older → Runs i src 0x1004 [BitVec.ofNat 8 (2 * b2n force)] s u 0 (toLe 2 (rollback u)))) ∧
    acts (.attestExtend src digest) 0x1103 (hashBytes digest) (hashBytes ((extendSlot s 7 9 digest).boot.slots.getD 7 0)) fun u =>
      Agree [.measured] s u ∧ u.boot.mcount = s.boot.mcount + 1 ∧ (s.boot.slots.length = 8 →
        u.boot.slots = s.boot.slots.set 7 (Config.sha384 (hashBytes (s.boot.slots.getD 7 0) ++ hashBytes digest)))
end

