-- ==== Sys2Proof/Laws/Tab.lean ====
section
/-! SUPPORT. Laws of the sparse tables: reading after a write, and the canonical form that every write keeps. -/
namespace Sys2Proof.Machine
open Sys2Proof

/-- Reading a table after an insertion at a key that it does not list. -/
theorem tabGet_tabIns {α : Type} (d : α) (t : Tab α) (k j : Nat) (v : α) (h : k ∉ t.map (·.1)) :
    tabGet d (tabIns t k v) j = if k = j then v else tabGet d t j := by
  induction t with
  | nil => rfl
  | cons p r ih =>
    obtain ⟨a, w⟩ := p
    have hk : k ≠ a := fun e => h (by simp [e])
    have ih := ih fun m => h (List.mem_cons_of_mem _ m)
    unfold tabIns
    split
    · simp [tabGet]
    · simp only [tabGet]
      split
      · rename_i e
        rw [if_neg fun x => hk (x.trans e.symm)]
      · exact ih

/-- Reading a table from which a key has been taken away. -/
theorem tabGet_erase {α : Type} (d : α) (t : Tab α) (k j : Nat) :
    tabGet d (t.filter fun p => p.1 != k) j = if k = j then d else tabGet d t j := by
  induction t with
  | nil => simp [tabGet]
  | cons p r ih =>
    obtain ⟨a, w⟩ := p
    by_cases hak : a = k
    · subst hak
      simp only [List.filter, bne_self_eq_false, ih, tabGet]
      split <;> simp_all
    · simp only [List.filter, bne_iff_ne.2 hak, tabGet, ih]
      by_cases e : a = j
      · subst e
        rw [if_pos rfl, if_neg fun x => hak x.symm]
        simp
      · rw [if_neg e, if_neg e]

theorem erase_not_mem {α : Type} (t : Tab α) (k : Nat) : k ∉ (t.filter fun p => p.1 != k).map (·.1) := by
  simp [List.mem_map, List.mem_filter]

/-- A read after a write gives the value written at its key and the old entry at every other. -/
@[simp] theorem tabGet_tabSet {α : Type} [DecidableEq α] (d : α) (t : Tab α) (k j : Nat) (v : α) :
    tabGet d (tabSet d t k v) j = if k = j then v else tabGet d t j := by
  unfold tabSet
  simp only
  split
  · rename_i e
    rw [tabGet_erase, e]
  · rw [tabGet_tabIns _ _ _ _ _ (erase_not_mem t k), tabGet_erase]
    split <;> rfl

/-- A read at the key written gives the value written. -/
theorem tabGet_tabSet_self {α : Type} [DecidableEq α] (d : α) (t : Tab α) (k : Nat) (v : α) : tabGet d (tabSet d t k v) k = v := by simp

/-- Raising or dropping the lower bound of a canonical table. -/
theorem tabWfAbove_mono {α : Type} [DecidableEq α] {d : α} {t : Tab α} {a b : Nat} (h : a ≤ b)
    (w : tabWfAbove d (some b) t = true) : tabWfAbove d (some a) t = true := by
  cases t with
  | nil => rfl
  | cons p r =>
    simp only [tabWfAbove, Bool.and_eq_true, decide_eq_true_eq] at w ⊢
    exact ⟨⟨by omega, w.1.2⟩, w.2⟩

/-- The bound of a canonical table may be dropped. -/
theorem tabWfAbove_none {α : Type} [DecidableEq α] {d : α} {t : Tab α} {b : Nat}
    (w : tabWfAbove d (some b) t = true) : tabWfAbove d none t = true := by
  cases t with
  | nil => rfl
  | cons p r =>
    simp only [tabWfAbove, Bool.and_eq_true, decide_eq_true_eq] at w ⊢
    exact ⟨⟨trivial, w.1.2⟩, w.2⟩

/-- Taking entries away keeps the canonical form. -/
theorem filter_wf {α : Type} [DecidableEq α] (d : α) (q : Nat × α → Bool) (t : Tab α) (lo : Option Nat)
    (w : tabWfAbove d lo t = true) : tabWfAbove d lo (t.filter q) = true := by
  induction t generalizing lo with
  | nil => rfl
  | cons p r ih =>
    obtain ⟨a, v⟩ := p
    simp only [tabWfAbove, Bool.and_eq_true] at w
    simp only [List.filter]
    split
    · simp only [tabWfAbove, Bool.and_eq_true]
      exact ⟨w.1, ih _ w.2⟩
    · have k := ih _ w.2
      cases lo with
      | none => exact tabWfAbove_none k
      | some b => exact tabWfAbove_mono (by have := w.1.1; simp only [decide_eq_true_eq] at this; omega) k

/-- Inserting a value unlike the default at a new key keeps the canonical form. -/
theorem tabIns_wf {α : Type} [DecidableEq α] (d : α) (t : Tab α) (k : Nat) (v : α) (lo : Option Nat) (hv : v ≠ d)
    (hk : k ∉ t.map (·.1)) (hlo : ∀ b, lo = some b → b < k) (w : tabWfAbove d lo t = true) :
    tabWfAbove d lo (tabIns t k v) = true := by
  induction t generalizing lo with
  | nil =>
    cases lo with
    | none => simp [tabIns, tabWfAbove, hv]
    | some b => simp [tabIns, tabWfAbove, hv, hlo b rfl]
  | cons p r ih =>
    obtain ⟨a, u⟩ := p
    simp only [tabWfAbove, Bool.and_eq_true] at w
    unfold tabIns
    split
    · rename_i l
      simp only [tabWfAbove, Bool.and_eq_true, decide_eq_true_eq]
      refine ⟨⟨?_, hv⟩, ⟨l, ?_⟩, w.2⟩
      · cases lo with
        | none => rfl
        | some b => simpa using hlo b rfl
      · simpa using w.1.2
    · rename_i l
      have ne : k ≠ a := fun e => hk (by simp [e])
      simp only [tabWfAbove, Bool.and_eq_true]
      refine ⟨w.1, ih _ (fun m => hk (List.mem_cons_of_mem _ m)) (fun b e => ?_) w.2⟩
      cases e
      omega

/-- Every write keeps the canonical form. -/
theorem tabSet_wf {α : Type} [DecidableEq α] {d : α} {t : Tab α} (k : Nat) (v : α) (w : tabWf d t = true) :
    tabWf d (tabSet d t k v) = true := by
  unfold tabSet
  simp only
  split
  · exact filter_wf d _ t none w
  · rename_i hv
    exact tabIns_wf d _ k v none hv (erase_not_mem t k) (fun b e => by cases e) (filter_wf d _ t none w)

/-- Writing a run of values keeps the canonical form. -/
theorem tabPut_wf {α : Type} [DecidableEq α] {d : α} {t : Tab α} (k : Nat) (l : List α) (w : tabWf d t = true) :
    tabWf d (tabPut d t k l) = true := by
  induction l generalizing t k with
  | nil => exact w
  | cons v r ih => exact ih (k + 1) (tabSet_wf k v w)

/-- A run written is read at its keys, and every other key reads as before. -/
theorem tabGet_tabPut {α : Type} [DecidableEq α] (d : α) (t : Tab α) (k j : Nat) (l : List α) :
    tabGet d (tabPut d t k l) j = if k ≤ j ∧ j < k + l.length then l.getD (j - k) d else tabGet d t j := by
  induction l generalizing t k with
  | nil => rw [if_neg (by simp)]; rfl
  | cons v r ih =>
    simp only [tabPut, ih, tabGet_tabSet, List.length_cons]
    by_cases h : k + 1 ≤ j ∧ j < k + 1 + r.length
    · rw [if_pos h, if_pos (by omega)]
      obtain ⟨n, hn⟩ : ∃ n, j - k = n + 1 := ⟨j - k - 1, by omega⟩
      rw [hn, show j - (k + 1) = n by omega]
      rfl
    · rw [if_neg h]
      by_cases e : k = j
      · subst e
        rw [if_pos rfl, if_pos (by omega)]
        simp
      · rw [if_neg e, if_neg (by omega)]

end Sys2Proof.Machine
end

