-- ==== Sys2Proof/Laws/Move.lean ====
section
/-! SUPPORT. What an operation may change, said once per operation: `Move w s t` says that `t` is `s` but for the parts of `w`, and that it
keeps the form of State.Wf. Moves compose, so that the lemma of an operation follows from those of the operations it calls. -/
namespace Sys2Proof.Machine
open Sys2Proof

/-- `t` agrees with `s` outside the parts of `w`, and is well formed if `s` is. -/
structure Move (w : List Part) (s t : State) : Prop where
  same : Agree w s t
  keeps : s.Wf → t.Wf

/-- Every part of `v` is one of `w`. -/
def Part.sub (v w : List Part) : Bool := v.all w.contains

theorem Part.sub_iff {v w : List Part} : Part.sub v w = true ↔ ∀ p ∈ v, p ∈ w := by simp [Part.sub]

theorem Part.sub_refl (w : List Part) : Part.sub w w = true := Part.sub_iff.2 fun _ h => h

theorem Part.sub_trans {u v w : List Part} (h : Part.sub u v = true) (k : Part.sub v w = true) : Part.sub u w = true :=
  Part.sub_iff.2 fun p q => Part.sub_iff.1 k p (Part.sub_iff.1 h p q)

theorem Part.same_refl (s : State) (p : Part) : p.same s s := by cases p <;> first | rfl | exact ⟨rfl, rfl, rfl⟩

theorem Part.same_trans {s t u : State} {p : Part} (h : p.same s t) (k : p.same t u) : p.same s u := by
  cases p
  case measured => exact ⟨k.1.trans h.1, k.2.1.trans h.2.1, k.2.2.trans h.2.2⟩
  all_goals exact Eq.trans k h

theorem Move.refl (w : List Part) (s : State) : Move w s s := ⟨fun p _ => p.same_refl s, id⟩

/-- A move followed by a move of fewer parts. -/
theorem Move.step {w v : List Part} {s t u : State} (h : Move w s t) (k : Move v t u) (e : Part.sub v w = true) : Move w s u :=
  ⟨fun p q => Part.same_trans (h.same p q) (k.same p fun r => q (Part.sub_iff.1 e p r)), fun f => k.keeps (h.keeps f)⟩

/-- A move as the outcome of a command. -/
theorem Move.next {w : List Part} {s t u : State} (e : (Host.Outcome.next t : Host.Outcome State Fault Refusal) = .next u)
    (h : Move w s t) : Move w s u := by
  injection e with e
  exact e ▸ h

theorem Move.ite {w : List Part} {s a b : State} {c : Prop} [Decidable c] (h : Move w s a) (k : Move w s b) :
    Move w s (if c then a else b) := by
  split
  · exact h
  · exact k

theorem Move.foldl {α : Type} {w : List Part} {s t : State} {f : State → α → State} {l : List α} (h : Move w s t)
    (k : ∀ u a, Move w u (f u a)) : Move w s (l.foldl f t) := by
  induction l generalizing t with
  | nil => exact h
  | cons a l ih => exact ih (Move.step h (k t a) (Part.sub_refl w))

theorem Move.forEach {α : Type} {w : List Part} {s t : State} {f : State → α → State} {l : List α} (h : Move w s t)
    (k : ∀ u a, Move w u (f u a)) : Move w s (forEach l f t) := Move.foldl h k

theorem Move.when {w : List Part} {s t : State} {b : Bool} {f : State → State} (h : Move w s t)
    (k : ∀ u, Move w u (f u)) : Move w s (t.when b f) := by
  unfold State.when
  split
  · exact Move.step h (k t) (Part.sub_refl w)
  · exact h

end Sys2Proof.Machine
end

