-- ==== Sys2Proof/Laws/MoveOps.lean ====
section
/-! SUPPORT. The moves of the named operations over the state. -/
namespace Sys2Proof.Machine
open Sys2Proof

variable {s t : State} {w : List Part}

theorem setBoot_move (hf : a1.flash = t.boot.flash) (hz : a1.fuses = t.boot.fuses) (hm : a1.slots = t.boot.slots) (hl : a1.mlog = t.boot.mlog)
    (hc : a1.mcount = t.boot.mcount) (h : Move w s t) (k : Part.sub [.boot] w = true) : Move w s (State.setBoot t a1) :=
  Move.step h ⟨fun p q => by cases p <;> first | rfl | exact hf | exact hz | exact ⟨hm, hl, hc⟩ | exact absurd (by decide) q,
    fun f => by
      cases f; constructor <;> first | assumption | (show tabWf _ a1.flash = _; rw [hf]; assumption) |
        (show a1.slots.length = _; rw [hm]; assumption) | (show a1.mlog.length ≤ _; rw [hl]; assumption)⟩ k

theorem setBooks_move (h : Move w s t) (k : Part.sub [.books] w = true) : Move w s (State.setBooks t a1) :=
  Move.step h ⟨fun p q => by cases p <;> first | rfl | exact ⟨rfl, rfl, rfl⟩ | exact absurd (by decide) q,
    fun f => by cases f; constructor <;> assumption⟩ k

theorem setTime_move (h : Move w s t) (k : Part.sub [.time] w = true) : Move w s (State.setTime t a1) :=
  Move.step h ⟨fun p q => by cases p <;> first | rfl | exact ⟨rfl, rfl, rfl⟩ | exact absurd (by decide) q,
    fun f => by cases f; constructor <;> assumption⟩ k

theorem setLog_move (hr : a1.recs = t.log.recs) (hs : a1.seals = t.log.seals) (h : Move w s t) (k : Part.sub [.log] w = true) : Move w s (State.setLog t a1) :=
  Move.step h ⟨fun p q => by cases p <;> first | rfl | exact ⟨rfl, rfl, rfl⟩ | exact absurd (by decide) q,
    fun f => by
      cases f; constructor <;> first | assumption | (show a1.recs.length ≤ _; rw [hr]; assumption) | (show a1.seals.length ≤ _; rw [hs]; assumption)⟩ k

theorem setLog_le_move (hr : a1.recs.length ≤ 16384) (hs : t.log.seals.length ≤ 64 → a1.seals.length ≤ 64) (h : Move w s t) (k : Part.sub [.log] w = true) : Move w s (State.setLog t a1) :=
  Move.step h ⟨fun p q => by cases p <;> first | rfl | exact ⟨rfl, rfl, rfl⟩ | exact absurd (by decide) q,
    fun f => by cases f; constructor <;> first | assumption | exact hr | exact hs (by assumption)⟩ k

theorem setColl_move (h : Move w s t) (k : Part.sub [.coll] w = true) : Move w s (State.setColl t a1) :=
  Move.step h ⟨fun p q => by cases p <;> first | rfl | exact ⟨rfl, rfl, rfl⟩ | exact absurd (by decide) q,
    fun f => by cases f; constructor <;> assumption⟩ k

theorem setPair_move (h : Move w s t) (k : Part.sub [.pair] w = true) : Move w s (State.setPair t a1) :=
  Move.step h ⟨fun p q => by cases p <;> first | rfl | exact ⟨rfl, rfl, rfl⟩ | exact absurd (by decide) q,
    fun f => by cases f; constructor <;> assumption⟩ k

theorem setWorks_move (h : Move w s t) (k : Part.sub [.works] w = true) : Move w s (State.setWorks t a1) :=
  Move.step h ⟨fun p q => by cases p <;> first | rfl | exact ⟨rfl, rfl, rfl⟩ | exact absurd (by decide) q,
    fun f => by cases f; constructor <;> assumption⟩ k

theorem setHost_move (h : Move w s t) (k : Part.sub [.host] w = true) : Move w s (State.setHost t a1) :=
  Move.step h ⟨fun p q => by cases p <;> first | rfl | exact ⟨rfl, rfl, rfl⟩ | exact absurd (by decide) q,
    fun f => by cases f; constructor <;> assumption⟩ k

theorem setPmb_move (h : Move w s t) (k : Part.sub [.pmb] w = true) : Move w s (State.setPmb t a1) :=
  Move.step h ⟨fun p q => by cases p <;> first | rfl | exact ⟨rfl, rfl, rfl⟩ | exact absurd (by decide) q,
    fun f => by cases f; constructor <;> assumption⟩ k

theorem setJtag_move (h : Move w s t) (k : Part.sub [.jtag] w = true) : Move w s (State.setJtag t a1) :=
  Move.step h ⟨fun p q => by cases p <;> first | rfl | exact ⟨rfl, rfl, rfl⟩ | exact absurd (by decide) q,
    fun f => by cases f; constructor <;> assumption⟩ k

theorem setFree_move (h : Move w s t) (k : Part.sub [.free] w = true) : Move w s (State.setFree t a1) :=
  Move.step h ⟨fun p q => by cases p <;> first | rfl | exact ⟨rfl, rfl, rfl⟩ | exact absurd (by decide) q,
    fun f => by cases f; constructor <;> assumption⟩ k

theorem putGbus_move (h : Move w s t) (k : Part.sub [.gbus] w = true) : Move w s (State.putGbus t a1 a2) :=
  Move.step h ⟨fun p q => by cases p <;> first | rfl | exact ⟨rfl, rfl, rfl⟩ | exact absurd (by decide) q,
    fun f => by cases f; constructor <;> first | assumption | exact tabSet_wf _ _ (by assumption)⟩ k

theorem putFeedWord_move (h : Move w s t) (k : Part.sub [.feedWord] w = true) : Move w s (State.putFeedWord t a1 a2) :=
  Move.step h ⟨fun p q => by cases p <;> first | rfl | exact ⟨rfl, rfl, rfl⟩ | exact absurd (by decide) q,
    fun f => by cases f; constructor <;> first | assumption | exact tabSet_wf _ _ (by assumption)⟩ k

theorem putHblock_move (h : Move w s t) (k : Part.sub [.hblocks] w = true) : Move w s (State.putHblock t a1 a2) :=
  Move.step h ⟨fun p q => by cases p <;> first | rfl | exact ⟨rfl, rfl, rfl⟩ | exact absurd (by decide) q,
    fun f => by cases f; constructor <;> first | assumption | exact tabSet_wf _ _ (by assumption)⟩ k

theorem putFrameShadow_move (h : Move w s t) (k : Part.sub [.frameShadow] w = true) : Move w s (State.putFrameShadow t a1 a2) :=
  Move.step h ⟨fun p q => by cases p <;> first | rfl | exact ⟨rfl, rfl, rfl⟩ | exact absurd (by decide) q,
    fun f => by cases f; constructor <;> first | assumption | exact tabSet_wf _ _ (by assumption)⟩ k

theorem putFrameTick_move (h : Move w s t) (k : Part.sub [.frameTick] w = true) : Move w s (State.putFrameTick t a1 a2) :=
  Move.step h ⟨fun p q => by cases p <;> first | rfl | exact ⟨rfl, rfl, rfl⟩ | exact absurd (by decide) q,
    fun f => by cases f; constructor <;> first | assumption | exact tabSet_wf _ _ (by assumption)⟩ k

theorem putGbusNew_move (h : Move w s t) (k : Part.sub [.gbusNew] w = true) : Move w s (State.putGbusNew t a1 a2) :=
  Move.step h ⟨fun p q => by cases p <;> first | rfl | exact ⟨rfl, rfl, rfl⟩ | exact absurd (by decide) q,
    fun f => by cases f; constructor <;> first | assumption | exact tabSet_wf _ _ (by assumption)⟩ k

theorem putHkRec_move (h : Move w s t) (k : Part.sub [.hkRecs] w = true) : Move w s (State.putHkRec t a1 a2) :=
  Move.step h ⟨fun p q => by cases p <;> first | rfl | exact ⟨rfl, rfl, rfl⟩ | exact absurd (by decide) q,
    fun f => by cases f; constructor <;> first | assumption | exact tabSet_wf _ _ (by assumption)⟩ k

theorem putPasses_move (h : Move w s t) (k : Part.sub [.passes] w = true) : Move w s (State.putPasses t a1 a2) :=
  Move.step h ⟨fun p q => by cases p <;> first | rfl | exact ⟨rfl, rfl, rfl⟩ | exact absurd (by decide) q,
    fun f => by cases f; constructor <;> first | assumption | exact tabSet_wf _ _ (by assumption)⟩ k

theorem setFlash_move (hf : t.Wf → tabWf 0xFF a1 = true) (h : Move w s t) (k : Part.sub [.flash] w = true) : Move w s (State.setFlash t a1) :=
  Move.step h ⟨fun p q => by cases p <;> first | rfl | exact ⟨rfl, rfl, rfl⟩ | exact absurd (by decide) q,
    fun f => by
      have g := hf f
      cases f; constructor <;> first | exact g | assumption⟩ k

theorem setFuses_move (h : Move w s t) (k : Part.sub [.fuses] w = true) : Move w s (State.setFuses t a1) :=
  Move.step h ⟨fun p q => by cases p <;> first | rfl | exact ⟨rfl, rfl, rfl⟩ | exact absurd (by decide) q,
    fun f => by cases f; constructor <;> assumption⟩ k

theorem measure_move (h : Move w s t) (k : Part.sub [.measured] w = true) : Move w s (State.measure t a1 a2 a3) :=
  Move.step h ⟨fun p q => by cases p <;> first | rfl | exact ⟨rfl, rfl, rfl⟩ | exact absurd (by decide) q,
    fun f => by
      cases f; constructor <;> first | assumption | (show (List.set _ _ _).length = _; rw [List.length_set]; assumption) |
        (show (if _ then _ else _ : List _).length ≤ 512; split; (rw [List.length_append, List.length_singleton]; omega); assumption)⟩ k

theorem restartHk_move (h : Move w s t) (k : Part.sub [.hkRecs, .passes] w = true) : Move w s (State.restartHk t) := by
  have g : ∀ (l t : Tab (BitVec 64 × BitVec 64 × BitVec 32)), tabWf (0, 0, 0) t = true →
      tabWf (0, 0, 0) (l.foldl (fun t p => if p.1 < 256 then tabSet (0, 0, 0) t p.1 (p.2.1, p.2.2.1, 0) else t) t) = true := by
    intro l
    induction l with
    | nil => exact fun _ h => h
    | cons p l ih =>
      intro t h
      refine ih _ ?_
      show tabWf _ (if _ then _ else _) = true
      split
      · exact tabSet_wf _ _ h
      · exact h
  exact Move.step h ⟨fun p q => by cases p <;> first | rfl | exact ⟨rfl, rfl, rfl⟩ | exact absurd (by decide) q,
    fun f => by cases f; constructor <;> first | assumption | exact g _ _ (by assumption) | rfl⟩ k

theorem updCell_move (h : Move w s t) (k : Part.sub [.cells] w = true) : Move w s (State.updCell t a1 a2) :=
  Move.step h ⟨fun p q => by cases p <;> first | rfl | exact ⟨rfl, rfl, rfl⟩ | exact absurd (by decide) q,
    fun f => by cases f; constructor <;> first | assumption | exact tabSet_wf _ _ (by assumption)⟩ k

theorem updHearth_move (h : Move w s t) (k : Part.sub [.hearths] w = true) : Move w s (State.updHearth t a1 a2) :=
  Move.step h ⟨fun p q => by cases p <;> first | rfl | exact ⟨rfl, rfl, rfl⟩ | exact absurd (by decide) q,
    fun f => by cases f; constructor <;> first | assumption | exact tabSet_wf _ _ (by assumption)⟩ k

theorem updSlot_move (h : Move w s t) (k : Part.sub [.slots] w = true) : Move w s (State.updSlot t a1 a2) :=
  Move.step h ⟨fun p q => by cases p <;> first | rfl | exact ⟨rfl, rfl, rfl⟩ | exact absurd (by decide) q,
    fun f => by cases f; constructor <;> first | assumption | exact tabSet_wf _ _ (by assumption)⟩ k

theorem updSpy_move (h : Move w s t) (k : Part.sub [.spies] w = true) : Move w s (State.updSpy t a1 a2) :=
  Move.step h ⟨fun p q => by cases p <;> first | rfl | exact ⟨rfl, rfl, rfl⟩ | exact absurd (by decide) q,
    fun f => by cases f; constructor <;> first | assumption | exact tabSet_wf _ _ (by assumption)⟩ k

theorem updCapture_move (h : Move w s t) (k : Part.sub [.captures] w = true) : Move w s (State.updCapture t a1 a2) :=
  Move.step h ⟨fun p q => by cases p <;> first | rfl | exact ⟨rfl, rfl, rfl⟩ | exact absurd (by decide) q,
    fun f => by cases f; constructor <;> first | assumption | exact tabSet_wf _ _ (by assumption)⟩ k

theorem updGroup_move (h : Move w s t) (k : Part.sub [.groups] w = true) : Move w s (State.updGroup t a1 a2) :=
  Move.step h ⟨fun p q => by cases p <;> first | rfl | exact ⟨rfl, rfl, rfl⟩ | exact absurd (by decide) q,
    fun f => by cases f; constructor <;> first | assumption | exact tabSet_wf _ _ (by assumption)⟩ k

theorem updHk_move (h : Move w s t) (k : Part.sub [.hks] w = true) : Move w s (State.updHk t a1 a2) :=
  Move.step h ⟨fun p q => by cases p <;> first | rfl | exact ⟨rfl, rfl, rfl⟩ | exact absurd (by decide) q,
    fun f => by cases f; constructor <;> first | assumption | exact tabSet_wf _ _ (by assumption)⟩ k

theorem updChan_move (h : Move w s t) (k : Part.sub [.chans] w = true) : Move w s (State.updChan t a1 a2) :=
  Move.step h ⟨fun p q => by cases p <;> first | rfl | exact ⟨rfl, rfl, rfl⟩ | exact absurd (by decide) q,
    fun f => by cases f; constructor <;> first | assumption | exact tabSet_wf _ _ (by assumption)⟩ k

theorem updCone_move (h : Move w s t) (k : Part.sub [.cones] w = true) : Move w s (State.updCone t a1 a2) :=
  Move.step h ⟨fun p q => by cases p <;> first | rfl | exact ⟨rfl, rfl, rfl⟩ | exact absurd (by decide) q,
    fun f => by cases f; constructor <;> first | assumption | exact tabSet_wf _ _ (by assumption)⟩ k

theorem updEngine_move (h : Move w s t) (k : Part.sub [.engines] w = true) : Move w s (State.updEngine t a1 a2) :=
  Move.step h ⟨fun p q => by cases p <;> first | rfl | exact ⟨rfl, rfl, rfl⟩ | exact absurd (by decide) q,
    fun f => by cases f; constructor <;> first | assumption | exact tabSet_wf _ _ (by assumption)⟩ k

theorem updCluster_move (h : Move w s t) (k : Part.sub [.clusters] w = true) : Move w s (State.updCluster t a1 a2) :=
  Move.step h ⟨fun p q => by cases p <;> first | rfl | exact ⟨rfl, rfl, rfl⟩ | exact absurd (by decide) q,
    fun f => by cases f; constructor <;> first | assumption | exact tabSet_wf _ _ (by assumption)⟩ k

theorem updCp_move (h : Move w s t) (k : Part.sub [.pair] w = true) : Move w s (State.updCp t a1 a2) :=
  Move.step h ⟨fun p q => by cases p <;> first | rfl | exact ⟨rfl, rfl, rfl⟩ | exact absurd (by decide) q,
    fun f => by cases f; constructor <;> assumption⟩ k

theorem updMbox_move (h : Move w s t) (k : Part.sub [.host] w = true) : Move w s (State.updMbox t a1 a2) :=
  Move.step h ⟨fun p q => by cases p <;> first | rfl | exact ⟨rfl, rfl, rfl⟩ | exact absurd (by decide) q,
    fun f => by cases f; constructor <;> assumption⟩ k

theorem updFwdBox_move (h : Move w s t) (k : Part.sub [.host] w = true) : Move w s (State.updFwdBox t a1 a2) :=
  Move.step h ⟨fun p q => by cases p <;> first | rfl | exact ⟨rfl, rfl, rfl⟩ | exact absurd (by decide) q,
    fun f => by cases f; constructor <;> assumption⟩ k

theorem updWlane_move (h : Move w s t) (k : Part.sub [.works] w = true) : Move w s (State.updWlane t a1 a2) :=
  Move.step h ⟨fun p q => by cases p <;> first | rfl | exact ⟨rfl, rfl, rfl⟩ | exact absurd (by decide) q,
    fun f => by cases f; constructor <;> assumption⟩ k

theorem emit_move (h : Move w s t) (k : Part.sub [.out] w = true) : Move w s (State.emit t a1) :=
  Move.step h ⟨fun p q => by cases p <;> first | rfl | exact ⟨rfl, rfl, rfl⟩ | exact absurd (by decide) q,
    fun f => by cases f; constructor <;> assumption⟩ k

theorem updLink_move (h : Move w s t) (k : Part.sub [.links] w = true) : Move w s (State.updLink t a1 a2) :=
  Move.step h ⟨fun p q => by cases p <;> first | rfl | exact ⟨rfl, rfl, rfl⟩ | exact absurd (by decide) q,
    fun f => by cases f; constructor <;> first | assumption | exact tabSet_wf _ _ (by assumption)⟩ k

theorem freshFree_move (h : Move w s t) (k : Part.sub [.free] w = true) : Move w s t.freshFree.2 :=
  Move.step h ⟨fun p q => by cases p <;> first | rfl | exact ⟨rfl, rfl, rfl⟩ | exact absurd (by decide) q,
    fun f => by cases f; constructor <;> assumption⟩ k

theorem freshFree_move_eq (e : t.freshFree = (b, u)) (h : Move w s t) (k : Part.sub [.free] w = true) : Move w s u := by
  have q := freshFree_move h k
  rw [e] at q
  exact q

end Sys2Proof.Machine
end

