-- ==== Sys2Proof/Laws/MoveRecords.lean ====
section
/-! SUPPORT. The moves of event records, the fault collector, the time island and the Works links: for each operation, the parts of the state that it may change; State.Wf is kept. -/
namespace Sys2Proof.Machine
open Sys2Proof

variable {s t u : State} {w : List Part}

theorem sendDown_move (h : Move w s t) (k : Part.sub [.links, .out] w) : Move w s (sendDown t a1 a2 a3) := by
  refine Move.step h ?_ k
  unfold sendDown
  repeat' first
    | with_reducible (first | exact Move.refl _ _ | apply Move.ite | apply updLink_move | apply emit_move)
    | decide | intro u | split | dsimp only

theorem sendDownIdle_move (h : Move w s t) (k : Part.sub [.out] w) : Move w s (sendDownIdle t a1 a2 a3 a4) := by
  refine Move.step h ?_ k
  unfold sendDownIdle
  repeat' first
    | with_reducible (first | exact Move.refl _ _ | apply Move.ite | apply emit_move)
    | decide | intro u | split | dsimp only

theorem takeUp_move (h : Move w s t) (k : Part.sub [.links] w) : Move w s (takeUp t a1) := by
  refine Move.step h ?_ k
  unfold takeUp
  repeat' first
    | with_reducible (first | exact Move.refl _ _ | apply Move.ite | apply updLink_move)
    | decide | intro u | split | dsimp only

theorem sendParam_move (h : Move w s t) (k : Part.sub [.links, .out] w) : Move w s (sendParam t a1 a2 a3 a4) := by
  refine Move.step h ?_ k
  unfold sendParam
  repeat' first
    | with_reducible (first | exact Move.refl _ _ | apply Move.ite | apply sendDown_move)
    | decide | intro u | split | dsimp only

theorem stampRec_move (h : Move w s t) (k : Part.sub [.hearths] w) : Move w s (stampRec t a1 a2 a3 a4 a5 a6 a7 a8 a9) := by
  refine Move.step h ?_ k
  unfold stampRec
  repeat' first
    | with_reducible (first | exact Move.refl _ _ | apply Move.ite | apply updHearth_move)
    | decide | intro u | split | dsimp only

theorem stampNow_move (h : Move w s t) (k : Part.sub [.hearths] w) : Move w s (stampNow t a1 a2 a3 a4 a5) := by
  refine Move.step h ?_ k
  unfold stampNow
  repeat' first
    | with_reducible (first | exact Move.refl _ _ | apply Move.ite | apply stampRec_move)
    | decide | intro u | split | dsimp only

theorem stampError_move (h : Move w s t) (k : Part.sub [.hearths] w) : Move w s (stampError t a1 a2 a3 a4 a5) := by
  refine Move.step h ?_ k
  unfold stampError
  repeat' first
    | with_reducible (first | exact Move.refl _ _ | apply Move.ite | apply stampRec_move)
    | decide | intro u | split | dsimp only

theorem msix_move (h : Move w s t) (k : Part.sub [.host, .out] w) : Move w s (msix t a1) := by
  refine Move.step h ?_ k
  unfold msix
  repeat' first
    | with_reducible (first | exact Move.refl _ _ | apply Move.ite | apply setHost_move | apply emit_move)
    | decide | intro u | split | dsimp only

theorem spiIrq_move (h : Move w s t) (k : Part.sub [.host] w) : Move w s (spiIrq t a1) := by
  refine Move.step h ?_ k
  unfold spiIrq
  repeat' first
    | with_reducible (first | exact Move.refl _ _ | apply Move.ite | apply setHost_move)
    | decide | intro u | split | dsimp only

theorem admitRec_move (h : Move w s t) (k : Part.sub [.log, .host] w) : Move w s (admitRec t a1) := by
  refine Move.step h ?_ k
  unfold admitRec
  dsimp only
  with_reducible apply Move.ite
  · exact Move.refl _ _
  · with_reducible apply Move.ite
    · exact setLog_move rfl rfl (Move.refl _ _) (by decide)
    · have r : ∀ (a : EventRec) (l : List EventRec), (a :: l.take 16383).length ≤ 16384 := by
        intro a l
        rw [List.length_cons, List.length_take]
        omega
      repeat' first
        | with_reducible (first | exact Move.refl _ _ | apply Move.ite | apply spiIrq_move | apply setHost_move | apply setLog_le_move)
        | exact r _ _ | exact id | decide

theorem numberAdmit_move (h : Move w s t) (k : Part.sub [.log, .host] w) : Move w s (numberAdmit t a1) := by
  refine Move.step h ?_ k
  unfold numberAdmit
  repeat' first
    | with_reducible (first | exact Move.refl _ _ | apply Move.ite | apply setLog_move | apply admitRec_move | exact rfl)
    | exact rfl | decide | intro u | split | dsimp only

theorem crownStamp_move (h : Move w s t) (k : Part.sub [.log, .host] w) : Move w s (crownStamp t a1 a2 a3) := by
  refine Move.step h ?_ k
  unfold crownStamp
  repeat' first
    | with_reducible (first | exact Move.refl _ _ | apply Move.ite | apply numberAdmit_move)
    | decide | intro u | split | dsimp only

theorem releaseHeld_move (h : Move w s t) (k : Part.sub [.log, .coll, .host] w) : Move w s (releaseHeld t) := by
  refine Move.step h ?_ k
  unfold releaseHeld
  repeat' first
    | with_reducible (first | exact Move.refl _ _ | apply Move.ite | apply setColl_move | apply numberAdmit_move
                            | refine Move.foldl ?_ (fun u a => ?_))
    | decide | intro u | split | dsimp only

theorem drainWaiting_move (h : Move w s t) (k : Part.sub [.log, .host] w) : Move w s (drainWaiting a1 t) := by
  refine Move.step h ?_ k
  clear h k
  induction a1 generalizing t with
  | zero => exact Move.refl _ _
  | succ n ih =>
    unfold drainWaiting
    split
    · exact Move.refl _ _
    · refine Move.step ?_ ih (by decide)
      repeat' first
        | with_reducible (first | exact Move.refl _ _ | apply admitRec_move | apply setLog_move | exact rfl)
        | decide

theorem receiveRec_move (h : Move w s t) (k : Part.sub [.log, .host] w) : Move w s (receiveRec t a1) := by
  refine Move.step h ?_ k
  unfold receiveRec
  repeat' first
    | with_reducible (first | exact Move.refl _ _ | apply Move.ite | apply setLog_move | apply drainWaiting_move | apply admitRec_move
                            | exact rfl)
    | exact rfl | decide | intro u | split | dsimp only

theorem latchFsw_move (h : Move w s t) (k : Part.sub [.coll, .host, .out] w) : Move w s (latchFsw t a1 a2) := by
  refine Move.step h ?_ k
  unfold latchFsw
  repeat' first
    | with_reducible (first | exact Move.refl _ _ | apply Move.ite | apply setColl_move | apply spiIrq_move | apply msix_move)
    | decide | intro u | split | dsimp only

theorem placeFault_move (h : Move w s t) (k : Part.sub [.log, .coll, .host] w) : Move w s (placeFault t a1 a2) := by
  refine Move.step h ?_ k
  unfold placeFault
  repeat' first
    | with_reducible (first | exact Move.refl _ _ | apply Move.ite | apply setColl_move | apply numberAdmit_move)
    | decide | intro u | split | dsimp only

theorem noteChange_move (h : Move w s t) (k : Part.sub [.log, .coll, .host] w) : Move w s (noteChange t a1 a2) := by
  refine Move.step h ?_ k
  unfold noteChange
  repeat' first
    | with_reducible (first | exact Move.refl _ _ | apply Move.ite | apply placeFault_move | apply setColl_move)
    | decide | intro u | split | dsimp only

theorem loseShard_move (h : Move w s t) (k : Part.sub [.coll] w) : Move w s (loseShard t) := by
  refine Move.step h ?_ k
  unfold loseShard
  repeat' first
    | with_reducible (first | exact Move.refl _ _ | apply Move.ite | apply setColl_move)
    | decide | intro u | split | dsimp only

theorem writeShard_move (h : Move w s t) (k : Part.sub [.coll] w) : Move w s (writeShard t a1) := by
  refine Move.step h ?_ k
  unfold writeShard
  repeat' first
    | with_reducible (first | exact Move.refl _ _ | apply Move.ite | apply setColl_move | apply loseShard_move)
    | decide | intro u | split | dsimp only

theorem noteOccurrence_move (h : Move w s t) (k : Part.sub [.log, .coll, .host] w) : Move w s (noteOccurrence t a1 a2 a3 a4) := by
  refine Move.step h ?_ k
  unfold noteOccurrence
  repeat' first
    | with_reducible (first | exact Move.refl _ _ | apply Move.ite | apply noteChange_move)
    | decide | intro u | split | dsimp only

theorem openShadow_move (h : Move w s t) (k : Part.sub [.coll] w) : Move w s (openShadow t a1 a2) := by
  refine Move.step h ?_ k
  unfold openShadow
  repeat' first
    | with_reducible (first | exact Move.refl _ _ | apply Move.ite | apply setColl_move)
    | decide | intro u | split | dsimp only

theorem recordShard_move (h : Move w s t) (k : Part.sub [.log, .coll, .host] w) : Move w s (recordShard t a1) := by
  refine Move.step h ?_ k
  unfold recordShard
  repeat' first
    | with_reducible (first | exact Move.refl _ _ | apply Move.ite | apply setColl_move | apply writeShard_move | apply openShadow_move
                            | apply noteOccurrence_move)
    | decide | intro u | split | dsimp only

theorem countCorrected_move (h : Move w s t) (k : Part.sub [.coll] w) : Move w s (countCorrected t a1).1 := by
  refine Move.step h ?_ k
  unfold countCorrected
  repeat' first
    | with_reducible (first | exact Move.refl _ _ | apply Move.ite | apply setColl_move)
    | decide | intro u | split | dsimp only

theorem countCorrected_move_eq (e : countCorrected t a1 = (u, b)) (h : Move w s t) (k : Part.sub [.coll] w) : Move w s u := by
  have q := countCorrected_move (a1 := a1) h k
  rw [e] at q
  exact q

theorem recordError_move (h : Move w s t) (k : Part.sub [.log, .coll, .host, .out] w) : Move w s (recordError t a1) := by
  refine Move.step h ?_ k
  unfold recordError
  repeat' first
    | with_reducible (first | exact Move.refl _ _ | apply Move.ite | apply latchFsw_move | apply recordShard_move)
    | decide | intro u | split | dsimp only

theorem mergeInto_move (h : Move w s t) (k : Part.sub [.coll] w) : Move w s (mergeInto t a1) := by
  refine Move.step h ?_ k
  unfold mergeInto
  repeat' first
    | with_reducible (first | exact Move.refl _ _ | apply Move.ite | apply setColl_move)
    | decide | intro u | split | dsimp only

theorem enterCracked_move (h : Move w s t) (k : Part.sub [.boot, .coll, .host, .out] w) : Move w s (enterCracked t a1) := by
  refine Move.step h ?_ k
  unfold enterCracked
  repeat' first
    | with_reducible (first | exact Move.refl _ _ | apply Move.ite | apply setColl_move | apply openShadow_move | apply spiIrq_move
                            | apply msix_move | apply setBoot_move | exact rfl)
    | exact rfl | decide | intro u | split | dsimp only

theorem judgeError_move (h : Move w s t) (k : Part.sub [.log, .coll, .host, .out] w) : Move w s (judgeError t a1) := by
  refine Move.step h ?_ k
  unfold judgeError
  repeat' first
    | with_reducible (first | exact Move.refl _ _ | apply Move.ite | apply recordError_move | apply mergeInto_move)
    | decide | intro u | split | dsimp only

theorem takeError_move (h : Move w s t) (k : Part.sub [.boot, .log, .coll, .host, .out] w) : Move w s (takeError t a1) := by
  refine Move.step h ?_ k
  unfold takeError
  repeat' first
    | with_reducible (first | exact Move.refl _ _ | apply Move.ite | apply enterCracked_move | apply judgeError_move
                            | apply countCorrected_move | apply countCorrected_move_eq (by assumption))
    | decide | intro u | split | dsimp only

theorem raiseError_move (h : Move w s t) (k : Part.sub [.boot, .log, .coll, .host, .out] w) : Move w s (raiseError t a1 a2 a3) := by
  refine Move.step h ?_ k
  unfold raiseError
  repeat' first
    | with_reducible (first | exact Move.refl _ _ | apply Move.ite | apply takeError_move)
    | decide | intro u | split | dsimp only

theorem clearErrorAt_move (h : Move w s t) (k : Part.sub [.log, .coll, .host] w) : Move w s (clearErrorAt t a1 a2 a3) := by
  refine Move.step h ?_ k
  unfold clearErrorAt
  repeat' first
    | with_reducible (first | exact Move.refl _ _ | apply Move.ite | apply setColl_move | apply noteChange_move)
    | decide | intro u | split | dsimp only

theorem clearError_move (h : Move w s t) (k : Part.sub [.log, .coll, .host] w) : Move w s (clearError t a1 a2) := by
  refine Move.step h ?_ k
  unfold clearError
  repeat' first
    | with_reducible (first | exact Move.refl _ _ | apply Move.ite | apply clearErrorAt_move)
    | decide | intro u | split | dsimp only

theorem reportError_move (h : Move w s t) (k : Part.sub [.hearths] w) : Move w s (reportError t a1 a2 a3 a4 a5) := by
  refine Move.step h ?_ k
  unfold reportError
  repeat' first
    | with_reducible (first | exact Move.refl _ _ | apply Move.ite | apply stampError_move | apply updHearth_move)
    | decide | intro u | split | dsimp only

theorem endError_move (h : Move w s t) (k : Part.sub [.hearths, .log, .coll, .host] w) : Move w s (endError t a1 a2 a3) := by
  refine Move.step h ?_ k
  unfold endError
  repeat' first
    | with_reducible (first | exact Move.refl _ _ | apply Move.ite | apply clearError_move | apply updHearth_move)
    | decide | intro u | split | dsimp only

theorem collectRecord_move (h : Move w s t) (k : Part.sub [.boot, .log, .coll, .host, .out] w) : Move w s (collectRecord t a1) := by
  refine Move.step h ?_ k
  unfold collectRecord
  repeat' first
    | with_reducible (first | exact Move.refl _ _ | apply Move.ite | apply clearError_move | apply takeError_move)
    | decide | intro u | split | dsimp only

theorem commandedReset_move (h : Move w s t) (k : Part.sub [.boot, .log, .coll, .host, .out] w) : Move w s (commandedReset t a1 a2 a3) := by
  refine Move.step h ?_ k
  unfold commandedReset
  repeat' first
    | with_reducible (first | exact Move.refl _ _ | apply Move.ite | apply raiseError_move)
    | decide | intro u | split | dsimp only

theorem scheduleEnd_move (h : Move w s t) (k : Part.sub [.coll] w) : Move w s (scheduleEnd t a1 a2 a3) := by
  refine Move.step h ?_ k
  unfold scheduleEnd
  repeat' first
    | with_reducible (first | exact Move.refl _ _ | apply Move.ite | apply setColl_move)
    | decide | intro u | split | dsimp only

theorem scheduleFirst_move (h : Move w s t) (k : Part.sub [.coll] w) : Move w s (scheduleFirst t a1 a2 a3) := by
  refine Move.step h ?_ k
  unfold scheduleFirst
  repeat' first
    | with_reducible (first | exact Move.refl _ _ | apply Move.ite | apply setColl_move)
    | decide | intro u | split | dsimp only

theorem setTimeState_move (h : Move w s t) (k : Part.sub [.time, .log, .host] w) : Move w s (setTimeState t a1 a2 a3) := by
  refine Move.step h ?_ k
  unfold setTimeState
  repeat' first
    | with_reducible (first | exact Move.refl _ _ | apply Move.ite | apply crownStamp_move | apply setTime_move)
    | decide | intro u | split | dsimp only

theorem setParent_move (h : Move w s t) (k : Part.sub [.time, .log, .host] w) : Move w s (setParent t a1 a2) := by
  refine Move.step h ?_ k
  unfold setParent
  repeat' first
    | with_reducible (first | exact Move.refl _ _ | apply Move.ite | apply crownStamp_move | apply setTime_move)
    | decide | intro u | split | dsimp only

theorem toHoldover_move (h : Move w s t) (k : Part.sub [.time, .log, .host] w) : Move w s (toHoldover t) := by
  refine Move.step h ?_ k
  unfold toHoldover
  repeat' first
    | with_reducible (first | exact Move.refl _ _ | apply Move.ite | apply setTimeState_move)
    | decide | intro u | split | dsimp only

theorem correct_move (h : Move w s t) (k : Part.sub [.time] w) : Move w s (correct t a1) := by
  refine Move.step h ?_ k
  unfold correct
  repeat' first
    | with_reducible (first | exact Move.refl _ _ | apply Move.ite | apply setTime_move)
    | decide | intro u | split | dsimp only

theorem applyTimeSet_move (h : Move w s t) (k : Part.sub [.time, .log, .host] w) : Move w s (applyTimeSet t a1 a2) := by
  refine Move.step h ?_ k
  unfold applyTimeSet
  repeat' first
    | with_reducible (first | exact Move.refl _ _ | apply Move.ite | apply crownStamp_move | apply setTimeState_move | apply correct_move)
    | decide | intro u | split | dsimp only

theorem clearTimeInput_move (h : Move w s t) (k : Part.sub [.log, .coll, .host] w) : Move w s (clearTimeInput t) := by
  refine Move.step h ?_ k
  unfold clearTimeInput
  repeat' first
    | with_reducible (first | exact Move.refl _ _ | apply Move.ite | apply clearError_move)
    | decide | intro u | split | dsimp only

theorem ppsAccept_move (h : Move w s t) (k : Part.sub [.time, .log, .coll, .host] w) : Move w s (ppsAccept t a1) := by
  refine Move.step h ?_ k
  unfold ppsAccept
  repeat' first
    | with_reducible (first | exact Move.refl _ _ | apply Move.ite | apply applyTimeSet_move | apply setTimeState_move
                            | apply setParent_move | apply setTime_move | apply clearTimeInput_move | apply correct_move)
    | decide | intro u | split | dsimp only

theorem ppsEdge_move (h : Move w s t) (k : Part.sub [.time, .log, .coll, .host] w) : Move w s (ppsEdge a1 t) := by
  refine Move.step h ?_ k
  unfold ppsEdge
  repeat' first
    | with_reducible (first | exact Move.refl _ _ | apply Move.ite | apply ppsAccept_move | apply setTime_move)
    | decide | intro u | split | dsimp only

theorem ppsAbsent_move (h : Move w s t) (k : Part.sub [.boot, .time, .log, .coll, .host, .out] w) : Move w s (ppsAbsent t) := by
  refine Move.step h ?_ k
  unfold ppsAbsent
  repeat' first
    | with_reducible (first | exact Move.refl _ _ | apply Move.ite | apply toHoldover_move | apply setTime_move | apply raiseError_move)
    | decide | intro u | split | dsimp only

theorem f10mLoss_move (h : Move w s t) (k : Part.sub [.boot, .time, .log, .coll, .host, .out] w) : Move w s (f10mLoss t) := by
  refine Move.step h ?_ k
  unfold f10mLoss
  repeat' first
    | with_reducible (first | exact Move.refl _ _ | apply Move.ite | apply setTimeState_move | apply setTime_move | apply raiseError_move)
    | decide | intro u | split | dsimp only

theorem f10mReturn_move (h : Move w s t) (k : Part.sub [.time, .log, .coll, .host] w) : Move w s (f10mReturn t) := by
  refine Move.step h ?_ k
  unfold f10mReturn
  repeat' first
    | with_reducible (first | exact Move.refl _ _ | apply Move.ite | apply setTimeState_move | apply setTime_move
                            | apply clearTimeInput_move)
    | decide | intro u | split | dsimp only

theorem timeStep_move (h : Move w s t) (k : Part.sub [.time, .log, .host] w) : Move w s (timeStep t) := by
  refine Move.step h ?_ k
  unfold timeStep
  repeat' first
    | with_reducible (first | exact Move.refl _ _ | apply Move.ite | apply crownStamp_move | apply setTime_move)
    | decide | intro u | split | dsimp only

theorem gapHoldTimeout_move (h : Move w s t) (k : Part.sub [.log, .coll, .host] w) : Move w s (gapHoldTimeout a1 t) := by
  refine Move.step h ?_ k
  unfold gapHoldTimeout
  repeat' first
    | with_reducible (first | exact Move.refl _ _ | apply Move.ite | apply drainWaiting_move | apply releaseHeld_move | apply admitRec_move)
    | decide | intro u | split | dsimp only

theorem auditSeal_move (h : Move w s t) (k : Part.sub [.log, .host] w) : Move w s (auditSeal t) := by
  refine Move.step h ?_ k
  unfold auditSeal
  repeat' first
    | with_reducible (first | exact Move.refl _ _ | apply Move.ite | apply setLog_move | apply numberAdmit_move | exact rfl)
    | exact rfl | decide | intro u | split | dsimp only

theorem sealSigned_move (h : Move w s t) (k : Part.sub [.log] w) : Move w s (sealSigned t) := by
  refine Move.step h ?_ k
  unfold sealSigned
  split
  · exact Move.refl _ _
  · with_reducible apply Move.ite
    · exact Move.refl _ _
    · refine ⟨fun p q => by cases p <;> first | rfl | exact ⟨rfl, rfl, rfl⟩ | exact absurd (by decide) q, fun f => ?_⟩
      cases f
      constructor <;> first | assumption | skip
      show (List.cons _ (List.take 63 _)).length ≤ 64
      rw [List.length_cons, List.length_take]
      omega

theorem noteTripReg_move (h : Move w s t) (k : Part.sub [.chans] w) : Move w s (noteTripReg t a1) := by
  refine Move.step h ?_ k
  unfold noteTripReg
  repeat' first
    | with_reducible (first | exact Move.refl _ _ | apply Move.ite | apply updChan_move)
    | decide | intro u | split | dsimp only

theorem noteFeed_move (h : Move w s t) (k : Part.sub [.works] w) : Move w s (noteFeed t a1) := by
  refine Move.step h ?_ k
  unfold noteFeed
  repeat' first
    | with_reducible (first | exact Move.refl _ _ | apply Move.ite | apply setWorks_move)
    | decide | intro u | split | dsimp only

theorem takeRecord_move (h : Move w s t) (k : Part.sub [.chans, .boot, .log, .coll, .works, .host, .out] w) : Move w s (takeRecord a1 t a2) := by
  refine Move.step h ?_ k
  unfold takeRecord
  repeat' first
    | with_reducible (first | exact Move.refl _ _ | apply Move.ite | apply collectRecord_move | apply noteFeed_move | apply receiveRec_move
                            | apply releaseHeld_move | apply noteTripReg_move)
    | decide | intro u | split | dsimp only

theorem eventFrame_move (h : Move w s t) (k : Part.sub [.chans, .links, .boot, .log, .coll, .works, .host, .out] w) : Move w s (eventFrame a1 a2 t) := by
  refine Move.step h ?_ k
  unfold eventFrame
  repeat' first
    | with_reducible (first | exact Move.refl _ _ | apply Move.ite | apply takeUp_move | apply takeRecord_move
                            | refine Move.foldl ?_ (fun u a => ?_))
    | decide | intro u | split | dsimp only

theorem setLaneState_move (h : Move w s t) (k : Part.sub [.boot, .log, .coll, .works, .host, .out] w) : Move w s (setLaneState t a1 a2) := by
  refine Move.step h ?_ k
  unfold setLaneState
  repeat' first
    | with_reducible (first | exact Move.refl _ _ | apply Move.ite | apply crownStamp_move | apply updWlane_move | apply clearError_move
                            | apply raiseError_move)
    | decide | intro u | split | dsimp only

theorem transmit_move (h : Move w s t) (k : Part.sub [.works, .out] w) : Move w s (transmit t a1 a2) := by
  refine Move.step h ?_ k
  unfold transmit
  repeat' first
    | with_reducible (first | exact Move.refl _ _ | apply Move.ite | apply updWlane_move | apply emit_move)
    | decide | intro u | split | dsimp only

theorem sendRaw_move (h : Move w s t) (k : Part.sub [.works, .out] w) : Move w s (sendRaw t a1 a2 a3 a4 a5 a6 a7) := by
  refine Move.step h ?_ k
  unfold sendRaw
  repeat' first
    | with_reducible (first | exact Move.refl _ _ | apply Move.ite | apply updWlane_move | apply transmit_move)
    | decide | intro u | split | dsimp only

theorem drainQueue_move (h : Move w s t) (k : Part.sub [.works, .out] w) : Move w s (drainQueue t a1) := by
  refine Move.step h ?_ k
  unfold drainQueue
  repeat' first
    | with_reducible (first | exact Move.refl _ _ | apply Move.ite | apply updWlane_move | apply transmit_move
                            | refine Move.forEach ?_ (fun u a => ?_))
    | decide | intro u | split | dsimp only

theorem sendLocal_move (h : Move w s t) (k : Part.sub [.works, .out] w) : Move w s (sendLocal t a1 a2 a3) := by
  refine Move.step h ?_ k
  unfold sendLocal
  repeat' first
    | with_reducible (first | exact Move.refl _ _ | apply Move.ite | apply sendRaw_move)
    | decide | intro u | split | dsimp only

theorem sendPlain_move (h : Move w s t) (k : Part.sub [.out] w) : Move w s (sendPlain t a1 a2 a3) := by
  refine Move.step h ?_ k
  unfold sendPlain
  repeat' first
    | with_reducible (first | exact Move.refl _ _ | apply Move.ite | apply emit_move)
    | decide | intro u | split | dsimp only

theorem loseFrame_move (h : Move w s t) (k : Part.sub [.works] w) : Move w s (loseFrame t a1) := by
  refine Move.step h ?_ k
  unfold loseFrame
  repeat' first
    | with_reducible (first | exact Move.refl _ _ | apply Move.ite | apply updWlane_move)
    | decide | intro u | split | dsimp only

theorem routeFrame_move (h : Move w s t) (k : Part.sub [.works, .out] w) : Move w s (routeFrame t a1 a2 a3 a4 a5 a6) := by
  refine Move.step h ?_ k
  unfold routeFrame
  repeat' first
    | with_reducible (first | exact Move.refl _ _ | apply Move.ite | apply loseFrame_move | apply sendRaw_move)
    | decide | intro u | split | dsimp only

theorem originate_move (h : Move w s t) (k : Part.sub [.works, .out] w) : Move w s (originate t a1 a2 a3) := by
  refine Move.step h ?_ k
  unfold originate
  repeat' first
    | with_reducible (first | exact Move.refl _ _ | apply Move.ite | apply routeFrame_move)
    | decide | intro u | split | dsimp only

theorem forward_move (h : Move w s t) (k : Part.sub [.works, .out] w) : Move w s (forward t a1 a2 a3 a4) := by
  refine Move.step h ?_ k
  unfold forward
  repeat' first
    | with_reducible (first | exact Move.refl _ _ | apply Move.ite | apply routeFrame_move)
    | decide | intro u | split | dsimp only

theorem acceptNext_move (h : Move w s t) (k : Part.sub [.works, .out] w) : Move w s (acceptNext t a1) := by
  refine Move.step h ?_ k
  unfold acceptNext
  repeat' first
    | with_reducible (first | exact Move.refl _ _ | apply Move.ite | apply updWlane_move | apply sendPlain_move)
    | decide | intro u | split | dsimp only

theorem takeFrame_move (h : Move w s t) (k : Part.sub [.works, .out] w) (j : ∀ u, Move w u (a4 u)) :
    Move w s (takeFrame t a1 a2 a3 a4) := by
  unfold takeFrame
  repeat' first
    | with_reducible exact h
    | with_reducible exact k
    | with_reducible apply Move.ite
    | with_reducible refine Move.step ?_ (j _) (Part.sub_refl w)
    | with_reducible refine acceptNext_move ?_ (Part.sub_trans (by decide) k)

theorem takeRouted_move (h : Move w s t) (k : Part.sub [.works, .out] w) (j : ∀ u, Move w u (a3 u)) (l : ∀ u, Move w u (a4 u)) :
    Move w s (takeRouted t a1 a2 a3 a4) := by
  unfold takeRouted
  refine takeFrame_move h (Part.sub_trans (by decide) k) fun u => ?_
  repeat' first
    | with_reducible exact Move.refl _ _
    | with_reducible apply Move.ite
    | with_reducible exact j _
    | with_reducible exact l _
    | with_reducible exact loseFrame_move (Move.refl _ _) (Part.sub_trans (by decide) k)

theorem computeRoutes_move (h : Move w s t) (k : Part.sub [.works] w) : Move w s (computeRoutes t) := by
  refine Move.step h ?_ k
  unfold computeRoutes
  repeat' first
    | with_reducible (first | exact Move.refl _ _ | apply Move.ite | apply setWorks_move | refine Move.foldl ?_ (fun u a => ?_))
    | decide | intro u | split | dsimp only

theorem sendRoutes_move (h : Move w s t) (k : Part.sub [.works, .out] w) : Move w s (sendRoutes t) := by
  refine Move.step h ?_ k
  unfold sendRoutes
  repeat' first
    | with_reducible (first | exact Move.refl _ _ | apply Move.ite | apply setWorks_move | apply sendLocal_move
                            | refine Move.forEach ?_ (fun u a => ?_))
    | decide | intro u | split | dsimp only

theorem sendHello_move (h : Move w s t) (k : Part.sub [.works, .out] w) : Move w s (sendHello t a1 a2) := by
  refine Move.step h ?_ k
  unfold sendHello
  repeat' first
    | with_reducible (first | exact Move.refl _ _ | apply Move.ite | apply updWlane_move | apply sendLocal_move)
    | decide | intro u | split | dsimp only

theorem requeue_move (h : Move w s t) (k : Part.sub [.works, .out] w) : Move w s (requeue t a1) := by
  refine Move.step h ?_ k
  unfold requeue
  repeat' first
    | with_reducible (first | exact Move.refl _ _ | apply Move.ite | apply updWlane_move | apply routeFrame_move
                            | refine Move.forEach ?_ (fun u a => ?_))
    | decide | intro u | split | dsimp only

theorem loseParent_move (h : Move w s t) (k : Part.sub [.time, .log, .host] w) : Move w s (loseParent t a1) := by
  refine Move.step h ?_ k
  unfold loseParent
  repeat' first
    | with_reducible (first | exact Move.refl _ _ | apply Move.ite | apply toHoldover_move | apply setParent_move)
    | decide | intro u | split | dsimp only

theorem leaveUp_move (h : Move w s t) (k : Part.sub [.boot, .time, .log, .coll, .works, .host, .out] w) : Move w s (leaveUp t a1 a2) := by
  refine Move.step h ?_ k
  unfold leaveUp
  repeat' first
    | with_reducible (first | exact Move.refl _ _ | apply Move.ite | apply updWlane_move | apply setLaneState_move
                            | apply computeRoutes_move | apply requeue_move | apply loseParent_move)
    | decide | intro u | split | dsimp only

theorem worksStart_move (h : Move w s t) (k : Part.sub [.boot, .time, .log, .coll, .works, .host, .out] w) : Move w s (worksStart t) := by
  refine Move.step h ?_ k
  unfold worksStart
  repeat' first
    | with_reducible (first | exact Move.refl _ _ | apply Move.ite | apply leaveUp_move | apply updWlane_move | apply setWorks_move
                            | refine Move.forEach ?_ (fun u a => ?_))
    | decide | intro u | split | dsimp only

theorem worksBlockLock_move (h : Move w s t) (k : Part.sub [.boot, .log, .coll, .works, .host, .out] w) : Move w s (worksBlockLock a1 t) := by
  refine Move.step h ?_ k
  unfold worksBlockLock
  repeat' first
    | with_reducible (first | exact Move.refl _ _ | apply Move.ite | apply updWlane_move | apply setLaneState_move | apply sendHello_move)
    | decide | intro u | split | dsimp only

theorem tryUp_move (h : Move w s t) (k : Part.sub [.boot, .log, .coll, .works, .host, .out] w) : Move w s (tryUp t a1) := by
  refine Move.step h ?_ k
  unfold tryUp
  repeat' first
    | with_reducible (first | exact Move.refl _ _ | apply Move.ite | apply setLaneState_move | apply setWorks_move)
    | decide | intro u | split | dsimp only

theorem worksHelloSend_move (h : Move w s t) (k : Part.sub [.boot, .log, .coll, .works, .host, .out] w) : Move w s (worksHelloSend a1 t) := by
  refine Move.step h ?_ k
  unfold worksHelloSend
  repeat' first
    | with_reducible (first | exact Move.refl _ _ | apply Move.ite | apply tryUp_move | apply sendHello_move)
    | decide | intro u | split | dsimp only

theorem worksIdleSend_move (h : Move w s t) (k : Part.sub [.out] w) : Move w s (worksIdleSend a1 t) := by
  refine Move.step h ?_ k
  unfold worksIdleSend
  repeat' first
    | with_reducible (first | exact Move.refl _ _ | apply Move.ite | apply sendPlain_move)
    | decide | intro u | split | dsimp only

theorem worksLinkFailed_move (h : Move w s t) (k : Part.sub [.boot, .time, .log, .coll, .works, .host, .out] w) : Move w s (worksLinkFailed a1 t) := by
  refine Move.step h ?_ k
  unfold worksLinkFailed
  repeat' first
    | with_reducible (first | exact Move.refl _ _ | apply Move.ite | apply sendRoutes_move | apply leaveUp_move)
    | decide | intro u | split | dsimp only

theorem worksLaneRetrain_move (h : Move w s t) (k : Part.sub [.boot, .log, .coll, .works, .host, .out] w) : Move w s (worksLaneRetrain a1 t) := by
  refine Move.step h ?_ k
  unfold worksLaneRetrain
  repeat' first
    | with_reducible (first | exact Move.refl _ _ | apply Move.ite | apply setLaneState_move)
    | decide | intro u | split | dsimp only

theorem worksLaneUpTimeout_move (h : Move w s t) (k : Part.sub [.boot, .log, .coll, .works, .host, .out] w) : Move w s (worksLaneUpTimeout a1 t) := by
  refine Move.step h ?_ k
  unfold worksLaneUpTimeout
  repeat' first
    | with_reducible (first | exact Move.refl _ _ | apply Move.ite | apply setLaneState_move)
    | decide | intro u | split | dsimp only

theorem addressConflict_move (h : Move w s t) (k : Part.sub [.log, .works, .host] w) : Move w s (addressConflict t a1) := by
  refine Move.step h ?_ k
  unfold addressConflict
  repeat' first
    | with_reducible (first | exact Move.refl _ _ | apply Move.ite | apply crownStamp_move | apply setWorks_move)
    | decide | intro u | split | dsimp only

theorem helloLane_move (h : Move w s t) (k : Part.sub [.boot, .time, .log, .coll, .works, .host, .out] w) : Move w s (helloLane t a1 a2) := by
  refine Move.step h ?_ k
  unfold helloLane
  repeat' first
    | with_reducible (first | exact Move.refl _ _ | apply Move.ite | apply leaveUp_move | apply updWlane_move | apply tryUp_move
                            | apply setLaneState_move)
    | decide | intro u | split | dsimp only

theorem worksHello_move (h : Move w s t) (k : Part.sub [.boot, .time, .log, .coll, .works, .host, .out] w) : Move w s (worksHello a1 a2 t) := by
  refine Move.step h ?_ k
  unfold worksHello
  repeat' first
    | with_reducible (first | exact Move.refl _ _ | apply Move.ite | apply acceptNext_move | apply helloLane_move
                            | apply addressConflict_move)
    | decide | intro u | split | dsimp only

theorem routeIn_move (h : Move w s t) (k : Part.sub [.works, .out] w) : Move w s (routeIn a1 a2 a3 t) := by
  refine Move.step h ?_ k
  unfold routeIn
  repeat' first
    | with_reducible (first | exact Move.refl _ _ | apply Move.ite | apply updWlane_move | apply computeRoutes_move | apply takeFrame_move)
    | decide | intro u | split | dsimp only

theorem routePeriodic_move (h : Move w s t) (k : Part.sub [.log, .works, .host, .out] w) : Move w s (routePeriodic t) := by
  refine Move.step h ?_ k
  unfold routePeriodic
  repeat' first
    | with_reducible (first | exact Move.refl _ _ | apply Move.ite | apply sendRoutes_move | apply crownStamp_move | apply setWorks_move)
    | decide | intro u | split | dsimp only

theorem noteAddr_move (h : Move w s t) (k : Part.sub [.works] w) : Move w s (noteAddr t a1 a2 a3) := by
  refine Move.step h ?_ k
  unfold noteAddr
  repeat' first
    | with_reducible (first | exact Move.refl _ _ | apply Move.ite | apply setWorks_move)
    | decide | intro u | split | dsimp only

theorem addrIn_move (h : Move w s t) (k : Part.sub [.log, .works, .host, .out] w) : Move w s (addrIn a1 a2 a3 a4 a5 a6 t) := by
  refine Move.step h ?_ k
  unfold addrIn
  repeat' first
    | with_reducible (first | exact Move.refl _ _ | apply Move.ite | apply noteAddr_move | apply addressConflict_move | apply loseFrame_move
                            | apply takeFrame_move | apply sendRaw_move | refine Move.forEach ?_ (fun u a => ?_))
    | decide | intro u | split | dsimp only

theorem addrFlood_move (h : Move w s t) (k : Part.sub [.works, .out] w) : Move w s (addrFlood t) := by
  refine Move.step h ?_ k
  unfold addrFlood
  repeat' first
    | with_reducible (first | exact Move.refl _ _ | apply Move.ite | apply setWorks_move | apply sendRaw_move
                            | refine Move.forEach ?_ (fun u a => ?_))
    | decide | intro u | split | dsimp only

theorem zunakAck_move (h : Move w s t) (k : Part.sub [.works, .out] w) : Move w s (zunakAck a1 a2 t) := by
  refine Move.step h ?_ k
  unfold zunakAck
  repeat' first
    | with_reducible (first | exact Move.refl _ _ | apply Move.ite | apply drainQueue_move | apply updWlane_move)
    | decide | intro u | split | dsimp only

theorem retransmitTimeout_move (h : Move w s t) (k : Part.sub [.out] w) : Move w s (retransmitTimeout a1 t) := by
  refine Move.step h ?_ k
  unfold retransmitTimeout
  repeat' first
    | with_reducible (first | exact Move.refl _ _ | apply Move.ite | apply emit_move | refine Move.forEach ?_ (fun u a => ?_))
    | decide | intro u | split | dsimp only

theorem zunakFrameDiscard_move (h : Move w s t) (k : Part.sub [.boot, .log, .coll, .works, .host, .out, .free] w) : Move w s (zunakFrameDiscard a1 a2 t) := by
  refine Move.step h ?_ k
  unfold zunakFrameDiscard
  repeat' first
    | with_reducible (first | exact Move.refl _ _ | apply Move.ite | apply freshFree_move | apply freshFree_move_eq (by assumption)
                            | apply loseFrame_move | apply raiseError_move)
    | decide | intro u | split | dsimp only

end Sys2Proof.Machine
end

