-- ==== Sys2Proof/Laws/MoveHearth.lean ====
section
/-! SUPPORT. The moves of a hearth: cells, slots, trips, feeds, spyholes, claims and frames: for each operation, the parts of the state that it may change; State.Wf is kept. -/
namespace Sys2Proof.Machine
open Sys2Proof

variable {s t u : State} {w : List Part}

theorem gateEvent_move (h : Move w s t) (k : Part.sub [.hks] w) : Move w s (gateEvent t a1 a2 a3) := by
  refine Move.step h ?_ k
  unfold gateEvent
  repeat' first
    | with_reducible (first | exact Move.refl _ _ | apply Move.ite | apply updHk_move | refine Move.foldl ?_ (fun u a => ?_))
    | decide | intro u | split | dsimp only

theorem startPass_move (h : Move w s t) (k : Part.sub [.hks] w) : Move w s (startPass t a1 a2) := by
  refine Move.step h ?_ k
  unfold startPass
  repeat' first
    | with_reducible (first | exact Move.refl _ _ | apply Move.ite | apply updHk_move | refine Move.foldl ?_ (fun u a => ?_))
    | decide | intro u | split | dsimp only

theorem seqTrigger_move (h : Move w s t) (k : Part.sub [.hks] w) : Move w s (seqTrigger t a1) := by
  refine Move.step h ?_ k
  unfold seqTrigger
  repeat' first
    | with_reducible (first | exact Move.refl _ _ | apply Move.ite | apply updHk_move | apply startPass_move)
    | decide | intro u | split | dsimp only

theorem enterState_move (h : Move w s t) (k : Part.sub [.cells, .hearths, .hks, .chans] w) : Move w s (enterState t a1 a2 a3 a4) := by
  refine Move.step h ?_ k
  unfold enterState
  repeat' first
    | with_reducible (first | exact Move.refl _ _ | apply Move.ite | apply updChan_move | apply stampNow_move | apply gateEvent_move
                            | apply updCell_move)
    | decide | intro u | split | dsimp only

theorem takeTrip_move (h : Move w s t) (k : Part.sub [.cells, .hearths, .hks, .chans] w) : Move w s (takeTrip t a1 a2 a3 a4 a5 a6 a7) := by
  refine Move.step h ?_ k
  unfold takeTrip
  repeat' first
    | with_reducible (first | exact Move.refl _ _ | apply Move.ite | apply updChan_move | apply enterState_move | apply stampRec_move
                            | apply gateEvent_move | apply updCell_move)
    | decide | intro u | split | dsimp only

theorem tripNow_move (h : Move w s t) (k : Part.sub [.cells, .hearths, .hks, .chans] w) : Move w s (tripNow t a1 a2 a3 a4 a5) := by
  refine Move.step h ?_ k
  unfold tripNow
  repeat' first
    | with_reducible (first | exact Move.refl _ _ | apply Move.ite | apply takeTrip_move)
    | decide | intro u | split | dsimp only

theorem noteUndo_move (h : Move w s t) (k : Part.sub [.cells] w) : Move w s (noteUndo t a1) := by
  refine Move.step h ?_ k
  unfold noteUndo
  repeat' first
    | with_reducible (first | exact Move.refl _ _ | apply Move.ite | apply updCell_move)
    | decide | intro u | split | dsimp only

theorem channelReset_move (h : Move w s t) (k : Part.sub [.cells, .hearths, .hks, .chans] w) : Move w s (channelReset t a1 a2) := by
  refine Move.step h ?_ k
  unfold channelReset
  repeat' first
    | with_reducible (first | exact Move.refl _ _ | apply Move.ite | apply updChan_move | apply enterState_move | apply updCell_move)
    | decide | intro u | split | dsimp only

theorem writeIgReg_move (h : Move w s t) (k : Part.sub [.cells] w) : Move w s (writeIgReg t a1 a2) := by
  refine Move.step h ?_ k
  unfold writeIgReg
  repeat' first
    | with_reducible (first | exact Move.refl _ _ | apply Move.ite | apply updCell_move)
    | decide | intro u | split | dsimp only

theorem applyWord_move (h : Move w s t) (k : Part.sub [.cells, .hearths, .hks, .chans] w) : Move w s (applyWord t a1 a2) := by
  refine Move.step h ?_ k
  unfold applyWord
  repeat' first
    | with_reducible (first | exact Move.refl _ _ | apply Move.ite | apply noteUndo_move | apply channelReset_move | apply enterState_move
                            | apply tripNow_move | apply updCell_move)
    | decide | intro u | split | dsimp only

theorem refuseWord_move (h : Move w s t) (k : Part.sub [.cells, .hearths] w) : Move w s (refuseWord t a1 a2 a3) := by
  refine Move.step h ?_ k
  unfold refuseWord
  repeat' first
    | with_reducible (first | exact Move.refl _ _ | apply Move.ite | apply stampNow_move | apply updCell_move)
    | decide | intro u | split | dsimp only

theorem hearthReceive_move (h : Move w s t) (k : Part.sub [.cells, .hearths, .hks, .chans] w) : Move w s (hearthReceive t a1 a2 a3) := by
  refine Move.step h ?_ k
  unfold hearthReceive
  repeat' first
    | with_reducible (first | exact Move.refl _ _ | apply Move.ite | apply applyWord_move | apply refuseWord_move | apply updCell_move)
    | decide | intro u | split | dsimp only

theorem cancelWord_move (h : Move w s t) (k : Part.sub [.cells, .hearths, .chans] w) : Move w s (cancelWord t a1) := by
  refine Move.step h ?_ k
  unfold cancelWord
  repeat' first
    | with_reducible (first | exact Move.refl _ _ | apply Move.ite | apply updChan_move | apply updHearth_move | apply updCell_move)
    | decide | intro u | split | dsimp only

theorem holdChannel_move (h : Move w s t) (k : Part.sub [.cells, .hearths, .hks, .chans] w) : Move w s (holdChannel t a1) := by
  refine Move.step h ?_ k
  unfold holdChannel
  repeat' first
    | with_reducible (first | exact Move.refl _ _ | apply Move.ite | apply cancelWord_move | apply enterState_move | apply tripNow_move
                            | apply updCell_move)
    | decide | intro u | split | dsimp only

theorem enterSaggar_move (h : Move w s t) (k : Part.sub [.cells, .hearths, .hks, .chans] w) : Move w s (enterSaggar t a1) := by
  refine Move.step h ?_ k
  unfold enterSaggar
  repeat' first
    | with_reducible (first | exact Move.refl _ _ | apply Move.ite | apply holdChannel_move | apply stampNow_move | apply updHearth_move
                            | refine Move.forEach ?_ (fun u a => ?_))
    | decide | intro u | split | dsimp only

theorem releaseChannel_move (h : Move w s t) (k : Part.sub [.cells, .hearths, .hks, .chans] w) : Move w s (releaseChannel t a1) := by
  refine Move.step h ?_ k
  unfold releaseChannel
  repeat' first
    | with_reducible (first | exact Move.refl _ _ | apply Move.ite | apply updChan_move | apply enterState_move | apply updCell_move)
    | decide | intro u | split | dsimp only

theorem stampGroup_move (h : Move w s t) (k : Part.sub [.hearths] w) : Move w s (stampGroup t a1 a2 a3 a4) := by
  refine Move.step h ?_ k
  unfold stampGroup
  repeat' first
    | with_reducible (first | exact Move.refl _ _ | apply Move.ite | apply stampNow_move)
    | decide | intro u | split | dsimp only

theorem raiseWarn_move (h : Move w s t) (k : Part.sub [.hearths, .groups] w) : Move w s (raiseWarn t a1 a2 a3) := by
  refine Move.step h ?_ k
  unfold raiseWarn
  repeat' first
    | with_reducible (first | exact Move.refl _ _ | apply Move.ite | apply updGroup_move | apply stampGroup_move)
    | decide | intro u | split | dsimp only

theorem confirmWarns_move (h : Move w s t) (k : Part.sub [.hearths, .groups] w) : Move w s (confirmWarns t a1 a2 a3) := by
  refine Move.step h ?_ k
  unfold confirmWarns
  repeat' first
    | with_reducible (first | exact Move.refl _ _ | apply Move.ite | apply updGroup_move | apply stampGroup_move
                            | refine Move.forEach ?_ (fun u a => ?_))
    | decide | intro u | split | dsimp only

theorem retractWarns_move (h : Move w s t) (k : Part.sub [.hearths, .groups] w) : Move w s (retractWarns t a1 a2) := by
  refine Move.step h ?_ k
  unfold retractWarns
  repeat' first
    | with_reducible (first | exact Move.refl _ _ | apply Move.ite | apply updGroup_move | apply stampGroup_move
                            | refine Move.forEach ?_ (fun u a => ?_))
    | decide | intro u | split | dsimp only

theorem dueWarns_move (h : Move w s t) (k : Part.sub [.groups] w) : Move w s (dueWarns t a1 a2) := by
  refine Move.step h ?_ k
  unfold dueWarns
  repeat' first
    | with_reducible (first | exact Move.refl _ _ | apply Move.ite | apply updGroup_move)
    | decide | intro u | split | dsimp only

theorem groupDetail_move (h : Move w s t) (k : Part.sub [.free] w) : Move w s (groupDetail t a1 a2 a3).2 := by
  refine Move.step h ?_ k
  unfold groupDetail
  repeat' first
    | with_reducible (first | exact Move.refl _ _ | apply Move.ite | apply freshFree_move | apply freshFree_move_eq (by assumption))
    | decide | intro u | split | dsimp only

theorem groupDetail_move_eq (e : groupDetail t a1 a2 a3 = (b, u)) (h : Move w s t) (k : Part.sub [.free] w) : Move w s u := by
  have q := groupDetail_move (a1 := a1) (a2 := a2) (a3 := a3) h k
  rw [e] at q
  exact q

theorem groupError_move (h : Move w s t) (k : Part.sub [.hearths, .free] w) : Move w s (groupError t a1 a2 a3 a4 a5) := by
  refine Move.step h ?_ k
  unfold groupError
  repeat' first
    | with_reducible (first | exact Move.refl _ _ | apply Move.ite | apply groupDetail_move | apply groupDetail_move_eq (by assumption)
                            | apply reportError_move)
    | decide | intro u | split | dsimp only

theorem groupEnd_move (h : Move w s t) (k : Part.sub [.hearths, .log, .coll, .host] w) : Move w s (groupEnd t a1 a2) := by
  refine Move.step h ?_ k
  unfold groupEnd
  repeat' first
    | with_reducible (first | exact Move.refl _ _ | apply Move.ite | apply endError_move)
    | decide | intro u | split | dsimp only

theorem planned_move (h : Move w s t) (k : Part.sub [.hearths, .groups] w) : Move w s (planned t a1 a2 a3 a4) := by
  refine Move.step h ?_ k
  unfold planned
  repeat' first
    | with_reducible (first | exact Move.refl _ _ | apply Move.ite | apply updGroup_move | apply raiseWarn_move)
    | decide | intro u | split | dsimp only

theorem applySelect_move (h : Move w s t) (k : Part.sub [.hearths, .groups] w) : Move w s (applySelect t a1 a2 a3) := by
  refine Move.step h ?_ k
  unfold applySelect
  repeat' first
    | with_reducible (first | exact Move.refl _ _ | apply Move.ite | apply updGroup_move | apply stampGroup_move | apply planned_move)
    | decide | intro u | split | dsimp only

theorem takePending_move (h : Move w s t) (k : Part.sub [.hearths, .groups] w) : Move w s (takePending t a1 a2) := by
  refine Move.step h ?_ k
  unfold takePending
  repeat' first
    | with_reducible (first | exact Move.refl _ _ | apply Move.ite | apply applySelect_move)
    | decide | intro u | split | dsimp only

theorem enterSteady_move (h : Move w s t) (k : Part.sub [.hearths, .groups] w) : Move w s (enterSteady t a1 a2) := by
  refine Move.step h ?_ k
  unfold enterSteady
  repeat' first
    | with_reducible (first | exact Move.refl _ _ | apply Move.ite | apply updGroup_move | apply takePending_move)
    | decide | intro u | split | dsimp only

theorem dueHandover_move (h : Move w s t) (k : Part.sub [.groups] w) : Move w s (dueHandover t a1) := by
  refine Move.step h ?_ k
  unfold dueHandover
  repeat' first
    | with_reducible (first | exact Move.refl _ _ | apply Move.ite | apply dueWarns_move)
    | decide | intro u | split | dsimp only

theorem endShadow_move (h : Move w s t) (k : Part.sub [.hearths, .groups] w) : Move w s (endShadow t a1 a2) := by
  refine Move.step h ?_ k
  unfold endShadow
  repeat' first
    | with_reducible (first | exact Move.refl _ _ | apply Move.ite | apply updGroup_move | apply enterSteady_move | apply stampGroup_move
                            | apply dueHandover_move)
    | decide | intro u | split | dsimp only

theorem pullOutgoing_move (h : Move w s t) (k : Part.sub [.groups] w) : Move w s (pullOutgoing t a1 a2) := by
  refine Move.step h ?_ k
  unfold pullOutgoing
  repeat' first
    | with_reducible (first | exact Move.refl _ _ | apply Move.ite | apply updGroup_move)
    | decide | intro u | split | dsimp only

theorem loss_move (h : Move w s t) (k : Part.sub [.hearths, .groups] w) : Move w s (loss t a1 a2 a3) := by
  refine Move.step h ?_ k
  unfold loss
  repeat' first
    | with_reducible (first | exact Move.refl _ _ | apply Move.ite | apply updGroup_move | apply takePending_move | apply raiseWarn_move
                            | apply pullOutgoing_move | apply confirmWarns_move)
    | decide | intro u | split | dsimp only

theorem standingCheck_move (h : Move w s t) (k : Part.sub [.groups] w) : Move w s (standingCheck t a1 a2) := by
  refine Move.step h ?_ k
  unfold standingCheck
  repeat' first
    | with_reducible (first | exact Move.refl _ _ | apply Move.ite | apply updGroup_move | apply pullOutgoing_move)
    | decide | intro u | split | dsimp only

theorem makeFeed_move (h : Move w s t) (k : Part.sub [.hearths, .groups, .hks] w) : Move w s (makeFeed t a1 a2 a3 a4) := by
  refine Move.step h ?_ k
  unfold makeFeed
  repeat' first
    | with_reducible (first | exact Move.refl _ _ | apply Move.ite | apply updGroup_move | apply stampGroup_move | apply dueHandover_move
                            | apply gateEvent_move)
    | decide | intro u | split | dsimp only

theorem feedCross_move (h : Move w s t) (k : Part.sub [.hearths, .groups] w) : Move w s (feedCross t a1 a2 a3 a4) := by
  refine Move.step h ?_ k
  unfold feedCross
  repeat' first
    | with_reducible (first | exact Move.refl _ _ | apply Move.ite | apply raiseWarn_move)
    | decide | intro u | split | dsimp only

theorem feedSpyChange_move (h : Move w s t) (k : Part.sub [.hearths, .groups] w) : Move w s (feedSpyChange t a1 a2 a3 a4 a5) := by
  refine Move.step h ?_ k
  unfold feedSpyChange
  repeat' first
    | with_reducible (first | exact Move.refl _ _ | apply Move.ite | apply retractWarns_move | apply updGroup_move | apply dueWarns_move
                            | apply enterSteady_move | apply standingCheck_move)
    | decide | intro u | split | dsimp only

theorem confirmLoss_move (h : Move w s t) (k : Part.sub [.hearths, .groups] w) : Move w s (confirmLoss a1 t) := by
  refine Move.step h ?_ k
  unfold confirmLoss
  repeat' first
    | with_reducible (first | exact Move.refl _ _ | apply Move.ite | apply loss_move)
    | decide | intro u | split | dsimp only

theorem confirmExpiry_move (h : Move w s t) (k : Part.sub [.hearths, .groups] w) : Move w s (confirmExpiry a1 t) := by
  refine Move.step h ?_ k
  unfold confirmExpiry
  repeat' first
    | with_reducible (first | exact Move.refl _ _ | apply Move.ite | apply confirmLoss_move)
    | decide | intro u | split | dsimp only

theorem reverseCurrent_move (h : Move w s t) (k : Part.sub [.hearths, .groups] w) : Move w s (reverseCurrent a1 t) := by
  refine Move.step h ?_ k
  unfold reverseCurrent
  repeat' first
    | with_reducible (first | exact Move.refl _ _ | apply Move.ite | apply loss_move)
    | decide | intro u | split | dsimp only

theorem pathDrop_move (h : Move w s t) (k : Part.sub [.hearths, .groups, .free] w) : Move w s (pathDrop a1 t) := by
  refine Move.step h ?_ k
  unfold pathDrop
  repeat' first
    | with_reducible (first | exact Move.refl _ _ | apply Move.ite | apply groupError_move | apply loss_move)
    | decide | intro u | split | dsimp only

theorem warnLeadEnd_move (h : Move w s t) (k : Part.sub [.groups] w) : Move w s (warnLeadEnd a1 t) := by
  refine Move.step h ?_ k
  unfold warnLeadEnd
  repeat' first
    | with_reducible (first | exact Move.refl _ _ | apply Move.ite | apply pullOutgoing_move)
    | decide | intro u | split | dsimp only

theorem selectorBreak_move (h : Move w s t) (k : Part.sub [.hearths, .groups, .hks, .log, .coll, .host] w) : Move w s (selectorBreak a1 a2 t) := by
  refine Move.step h ?_ k
  unfold selectorBreak
  repeat' first
    | with_reducible (first | exact Move.refl _ _ | apply Move.ite | apply groupEnd_move | apply updGroup_move | apply stampGroup_move
                            | apply confirmWarns_move | apply gateEvent_move)
    | decide | intro u | split | dsimp only

theorem selectorDischargeTimeout_move (h : Move w s t) (k : Part.sub [.hearths, .groups, .free] w) : Move w s (selectorDischargeTimeout a1 t) := by
  refine Move.step h ?_ k
  unfold selectorDischargeTimeout
  repeat' first
    | with_reducible (first | exact Move.refl _ _ | apply Move.ite | apply updGroup_move | apply freshFree_move
                            | apply freshFree_move_eq (by assumption) | apply groupError_move)
    | decide | intro u | split | dsimp only

theorem gapExpiry_move (h : Move w s t) (k : Part.sub [.hearths, .groups, .hks] w) : Move w s (gapExpiry a1 a2 t) := by
  refine Move.step h ?_ k
  unfold gapExpiry
  repeat' first
    | with_reducible (first | exact Move.refl _ _ | apply Move.ite | apply makeFeed_move | apply updGroup_move)
    | decide | intro u | split | dsimp only

theorem feedFirstMake_move (h : Move w s t) (k : Part.sub [.hearths, .groups, .hks] w) : Move w s (feedFirstMake a1 a2 t) := by
  refine Move.step h ?_ k
  unfold feedFirstMake
  repeat' first
    | with_reducible (first | exact Move.refl _ _ | apply Move.ite | apply makeFeed_move)
    | decide | intro u | split | dsimp only

theorem feedMakeFromNone_move (h : Move w s t) (k : Part.sub [.hearths, .groups, .hks] w) : Move w s (feedMakeFromNone a1 a2 t) := by
  refine Move.step h ?_ k
  unfold feedMakeFromNone
  repeat' first
    | with_reducible (first | exact Move.refl _ _ | apply Move.ite | apply makeFeed_move)
    | decide | intro u | split | dsimp only

theorem rechargeEnd_move (h : Move w s t) (k : Part.sub [.hearths, .groups, .log, .coll, .host] w) : Move w s (rechargeEnd a1 a2 t) := by
  refine Move.step h ?_ k
  unfold rechargeEnd
  repeat' first
    | with_reducible (first | exact Move.refl _ _ | apply Move.ite | apply groupEnd_move | apply updGroup_move | apply enterSteady_move
                            | apply stampGroup_move | apply endShadow_move)
    | decide | intro u | split | dsimp only

theorem shadowEnd_move (h : Move w s t) (k : Part.sub [.hearths, .groups] w) : Move w s (shadowEnd a1 a2 t) := by
  refine Move.step h ?_ k
  unfold shadowEnd
  repeat' first
    | with_reducible (first | exact Move.refl _ _ | apply Move.ite | apply endShadow_move)
    | decide | intro u | split | dsimp only

theorem rechargeOvertime_move (h : Move w s t) (k : Part.sub [.hearths, .groups, .free] w) : Move w s (rechargeOvertime a1 t) := by
  refine Move.step h ?_ k
  unfold rechargeOvertime
  repeat' first
    | with_reducible (first | exact Move.refl _ _ | apply Move.ite | apply updGroup_move | apply endShadow_move | apply groupError_move)
    | decide | intro u | split | dsimp only

theorem warningRelease_move (h : Move w s t) (k : Part.sub [.hearths, .groups] w) : Move w s (warningRelease a1 a2 t) := by
  refine Move.step h ?_ k
  unfold warningRelease
  repeat' first
    | with_reducible (first | exact Move.refl _ _ | apply Move.ite | apply updGroup_move | apply stampGroup_move)
    | decide | intro u | split | dsimp only

theorem returnTick_move (h : Move w s t) (k : Part.sub [.groups] w) : Move w s (returnTick t a1) := by
  refine Move.step h ?_ k
  unfold returnTick
  repeat' first
    | with_reducible (first | exact Move.refl _ _ | apply Move.ite | apply updGroup_move)
    | decide | intro u | split | dsimp only

theorem returnDwell_move (h : Move w s t) (k : Part.sub [.hearths, .groups] w) : Move w s (returnDwell a1 t) := by
  refine Move.step h ?_ k
  unfold returnDwell
  repeat' first
    | with_reducible (first | exact Move.refl _ _ | apply Move.ite | apply planned_move)
    | decide | intro u | split | dsimp only

theorem offStateShort_move (h : Move w s t) (k : Part.sub [.hearths, .groups, .log, .coll, .host, .free] w) : Move w s (offStateShort a1 a2 a3 a4 t) := by
  refine Move.step h ?_ k
  unfold offStateShort
  repeat' first
    | with_reducible (first | exact Move.refl _ _ | apply Move.ite | apply groupEnd_move | apply updGroup_move | apply groupError_move)
    | decide | intro u | split | dsimp only

theorem feedSelectWrite_move (h : Move w s t) (k : Part.sub [.hearths, .groups] w) : Move w s (feedSelectWrite t a1 a2) := by
  refine Move.step h ?_ k
  unfold feedSelectWrite
  repeat' first
    | with_reducible (first | exact Move.refl _ _ | apply Move.ite | apply updGroup_move | apply applySelect_move)
    | decide | intro u | split | dsimp only

theorem feedClearWrite_move (h : Move w s t) (k : Part.sub [.hearths, .groups, .log, .coll, .host] w) : Move w s (feedClearWrite t a1 a2) := by
  refine Move.step h ?_ k
  unfold feedClearWrite
  repeat' first
    | with_reducible (first | exact Move.refl _ _ | apply Move.ite | apply groupEnd_move | apply updGroup_move | apply standingCheck_move)
    | decide | intro u | split | dsimp only

theorem groupReset_move (h : Move w s t) (k : Part.sub [.hearths, .groups, .log, .coll, .host] w) : Move w s (groupReset t a1) := by
  refine Move.step h ?_ k
  unfold groupReset
  repeat' first
    | with_reducible (first | exact Move.refl _ _ | apply Move.ite | apply groupEnd_move | apply updGroup_move | apply stampGroup_move
                            | refine Move.forEach ?_ (fun u a => ?_))
    | decide | intro u | split | dsimp only

theorem stampSpy_move (h : Move w s t) (k : Part.sub [.hearths, .spies] w) : Move w s (stampSpy t a1 a2 a3 a4 a5 a6) := by
  refine Move.step h ?_ k
  unfold stampSpy
  repeat' first
    | with_reducible (first | exact Move.refl _ _ | apply Move.ite | apply updSpy_move | apply stampRec_move)
    | decide | intro u | split | dsimp only

theorem changeSpy_move (h : Move w s t) (k : Part.sub [.hearths, .spies, .captures, .groups, .hks] w) : Move w s (changeSpy t a1 a2 a3 a4 a5 a6) := by
  refine Move.step h ?_ k
  unfold changeSpy
  repeat' first
    | with_reducible (first | exact Move.refl _ _ | apply Move.ite | apply feedSpyChange_move | apply updGroup_move | apply updSpy_move
                            | apply stampSpy_move | apply updCapture_move | apply gateEvent_move | refine Move.forEach ?_ (fun u a => ?_))
    | decide | intro u | split | dsimp only

theorem spyStart_move (h : Move w s t) (k : Part.sub [.spies] w) : Move w s (spyStart t a1) := by
  refine Move.step h ?_ k
  unfold spyStart
  repeat' first
    | with_reducible (first | exact Move.refl _ _ | apply Move.ite | apply updSpy_move)
    | decide | intro u | split | dsimp only

theorem spyNewWord_move (h : Move w s t) (k : Part.sub [.spies] w) : Move w s (spyNewWord t a1 a2 a3) := by
  refine Move.step h ?_ k
  unfold spyNewWord
  repeat' first
    | with_reducible (first | exact Move.refl _ _ | apply Move.ite | apply spyStart_move | apply updSpy_move)
    | decide | intro u | split | dsimp only

theorem crossWarning_move (h : Move w s t) (k : Part.sub [.hearths, .groups] w) : Move w s (crossWarning t a1 a2 a3 a4 a5) := by
  refine Move.step h ?_ k
  unfold crossWarning
  repeat' first
    | with_reducible (first | exact Move.refl _ _ | apply Move.ite | apply feedCross_move)
    | decide | intro u | split | dsimp only

theorem crossingBack_move (h : Move w s t) (k : Part.sub [.hearths, .groups] w) : Move w s (crossingBack t a1 a2 a3 a4 a5) := by
  refine Move.step h ?_ k
  unfold crossingBack
  repeat' first
    | with_reducible (first | exact Move.refl _ _ | apply Move.ite | apply retractWarns_move)
    | decide | intro u | split | dsimp only

theorem spyholeCrossing_move (h : Move w s t) (k : Part.sub [.hearths, .spies, .groups] w) : Move w s (spyholeCrossing a1 a2 a3 a4 t) := by
  refine Move.step h ?_ k
  unfold spyholeCrossing
  repeat' first
    | with_reducible (first | exact Move.refl _ _ | apply Move.ite | apply updSpy_move | apply crossingBack_move | apply crossWarning_move)
    | decide | intro u | split | dsimp only

theorem spyholeFilterComplete_move (h : Move w s t) (k : Part.sub [.hearths, .spies, .captures, .groups, .hks] w) : Move w s (spyholeFilterComplete a1 a2 a3 t) := by
  refine Move.step h ?_ k
  unfold spyholeFilterComplete
  repeat' first
    | with_reducible (first | exact Move.refl _ _ | apply Move.ite | apply changeSpy_move)
    | decide | intro u | split | dsimp only

theorem spyholeStartCompare_move (h : Move w s t) (k : Part.sub [.hearths, .spies, .captures, .groups, .hks] w) : Move w s (spyholeStartCompare a1 a2 a3 a4 t) := by
  refine Move.step h ?_ k
  unfold spyholeStartCompare
  repeat' first
    | with_reducible (first | exact Move.refl _ _ | apply Move.ite | apply updSpy_move | apply changeSpy_move)
    | decide | intro u | split | dsimp only

theorem throttleEnd_move (h : Move w s t) (k : Part.sub [.hearths, .spies] w) : Move w s (throttleEnd t a1) := by
  refine Move.step h ?_ k
  unfold throttleEnd
  repeat' first
    | with_reducible (first | exact Move.refl _ _ | apply Move.ite | apply updSpy_move | apply stampNow_move
                            | refine Move.forEach ?_ (fun u a => ?_))
    | decide | intro u | split | dsimp only

theorem dropFilters_move (h : Move w s t) (k : Part.sub [.spies] w) : Move w s (dropFilters t a1) := by
  refine Move.step h ?_ k
  unfold dropFilters
  repeat' first
    | with_reducible (first | exact Move.refl _ _ | apply Move.ite | apply updSpy_move | refine Move.forEach ?_ (fun u a => ?_))
    | decide | intro u | split | dsimp only

theorem captureRead_move (h : Move w s t) (k : Part.sub [.captures] w) : Move w s (captureRead t a1 a2 a3) := by
  refine Move.step h ?_ k
  unfold captureRead
  repeat' first
    | with_reducible (first | exact Move.refl _ _ | apply Move.ite | apply updCapture_move)
    | decide | intro u | split | dsimp only

theorem captureTick_move (h : Move w s t) (k : Part.sub [.captures, .host] w) : Move w s (captureTick a1 t a2) := by
  refine Move.step h ?_ k
  unfold captureTick
  repeat' first
    | with_reducible (first | exact Move.refl _ _ | apply Move.ite | apply updFwdBox_move | apply updMbox_move | apply updCapture_move)
    | decide | intro u | split | dsimp only

theorem requestWake_move (h : Move w s t) (k : Part.sub [.boot, .host] w) : Move w s (requestWake t a1 a2) := by
  refine Move.step h ?_ k
  unfold requestWake
  repeat' first
    | with_reducible (first | exact Move.refl _ _ | apply Move.ite | apply setHost_move | apply setBoot_move | exact rfl)
    | exact rfl | decide | intro u | split | dsimp only

theorem seatChange_move (h : Move w s t) (k : Part.sub [.slots] w) : Move w s (seatChange a1 a2 a3 a4 t) := by
  refine Move.step h ?_ k
  unfold seatChange
  repeat' first
    | with_reducible (first | exact Move.refl _ _ | apply Move.ite | apply updSlot_move)
    | decide | intro u | split | dsimp only

theorem seatCycleClear_move (h : Move w s t) (k : Part.sub [.cells, .chans] w) : Move w s (seatCycleClear t a1) := by
  refine Move.step h ?_ k
  unfold seatCycleClear
  repeat' first
    | with_reducible (first | exact Move.refl _ _ | apply Move.ite | apply updChan_move | apply updCell_move)
    | decide | intro u | split | dsimp only

theorem seatChannels_move (h : Move w s t) (k : Part.sub [.cells, .hearths, .hks, .chans] w) : Move w s (seatChannels t a1 a2) := by
  refine Move.step h ?_ k
  unfold seatChannels
  repeat' first
    | with_reducible (first | exact Move.refl _ _ | apply Move.ite | apply enterState_move | apply seatCycleClear_move
                            | refine Move.forEach ?_ (fun u a => ?_))
    | decide | intro u | split | dsimp only

theorem stampSeat_move (h : Move w s t) (k : Part.sub [.hearths] w) : Move w s (stampSeat t a1 a2) := by
  refine Move.step h ?_ k
  unfold stampSeat
  repeat' first
    | with_reducible (first | exact Move.refl _ _ | apply Move.ite | apply stampRec_move)
    | decide | intro u | split | dsimp only

theorem debounceComplete_move (h : Move w s t) (k : Part.sub [.cells, .hearths, .slots, .hks, .chans, .boot, .host] w) : Move w s (debounceComplete a1 a2 t) := by
  refine Move.step h ?_ k
  unfold debounceComplete
  repeat' first
    | with_reducible (first | exact Move.refl _ _ | apply Move.ite | apply seatChannels_move | apply stampSeat_move | apply updSlot_move
                            | apply stampNow_move | apply requestWake_move)
    | decide | intro u | split | dsimp only

theorem removeChannel_move (h : Move w s t) (k : Part.sub [.cells, .hearths, .hks, .chans] w) : Move w s (removeChannel t a1) := by
  refine Move.step h ?_ k
  unfold removeChannel
  repeat' first
    | with_reducible (first | exact Move.refl _ _ | apply Move.ite | apply enterState_move | apply updCell_move)
    | decide | intro u | split | dsimp only

theorem removeSlot_move (h : Move w s t) (k : Part.sub [.cells, .hearths, .slots, .hks, .chans] w) : Move w s (removeSlot t a1 a2 a3) := by
  refine Move.step h ?_ k
  unfold removeSlot
  repeat' first
    | with_reducible (first | exact Move.refl _ _ | apply Move.ite | apply updSlot_move | apply stampNow_move | apply stampRec_move
                            | apply removeChannel_move | refine Move.forEach ?_ (fun u a => ?_))
    | decide | intro u | split | dsimp only

theorem slotRemoval_move (h : Move w s t) (k : Part.sub [.cells, .hearths, .slots, .hks, .chans] w) : Move w s (slotRemoval a1 t) := by
  refine Move.step h ?_ k
  unfold slotRemoval
  repeat' first
    | with_reducible (first | exact Move.refl _ _ | apply Move.ite | apply updSlot_move | apply removeSlot_move)
    | decide | intro u | split | dsimp only

theorem ledTick_move (h : Move w s t) (k : Part.sub [.slots] w) : Move w s (ledTick t a1) := by
  refine Move.step h ?_ k
  unfold ledTick
  repeat' first
    | with_reducible (first | exact Move.refl _ _ | apply Move.ite | apply updSlot_move)
    | decide | intro u | split | dsimp only

theorem slotLedPhase_move (h : Move w s t) (k : Part.sub [.slots] w) : Move w s (slotLedPhase a1 t) := by
  refine Move.step h ?_ k
  unfold slotLedPhase
  repeat' first
    | with_reducible (first | exact Move.refl _ _ | apply Move.ite | apply updSlot_move)
    | decide | intro u | split | dsimp only

theorem unhost_move (h : Move w s t) (k : Part.sub [.chans, .boot, .log, .coll, .host, .out] w) : Move w s (unhost t a1 a2) := by
  refine Move.step h ?_ k
  unfold unhost
  repeat' first
    | with_reducible (first | exact Move.refl _ _ | apply Move.ite | apply updChan_move | apply raiseError_move)
    | decide | intro u | split | dsimp only

theorem rehost_move (h : Move w s t) (k : Part.sub [.chans, .boot, .log, .coll, .host, .out] w) : Move w s (rehost t a1 a2) := by
  refine Move.step h ?_ k
  unfold rehost
  repeat' first
    | with_reducible (first | exact Move.refl _ _ | apply Move.ite | apply updChan_move | apply unhost_move)
    | decide | intro u | split | dsimp only

theorem engineDown_move (h : Move w s t) (k : Part.sub [.chans, .engines, .boot, .log, .coll, .host, .out] w) : Move w s (engineDown t a1) := by
  refine Move.step h ?_ k
  unfold engineDown
  repeat' first
    | with_reducible (first | exact Move.refl _ _ | apply Move.ite | apply rehost_move | apply updEngine_move
                            | refine Move.forEach ?_ (fun u a => ?_))
    | decide | intro u | split | dsimp only

theorem failEngine_move (h : Move w s t) (k : Part.sub [.chans, .engines, .boot, .log, .coll, .host, .out] w) : Move w s (failEngine t a1 a2) := by
  refine Move.step h ?_ k
  unfold failEngine
  repeat' first
    | with_reducible (first | exact Move.refl _ _ | apply Move.ite | apply engineDown_move | apply raiseError_move)
    | decide | intro u | split | dsimp only

theorem mismatch_move (h : Move w s t) (k : Part.sub [.chans, .boot, .log, .coll, .host, .out] w) : Move w s (mismatch t a1 a2 a3) := by
  refine Move.step h ?_ k
  unfold mismatch
  repeat' first
    | with_reducible (first | exact Move.refl _ _ | apply Move.ite | apply updChan_move | apply raiseError_move)
    | decide | intro u | split | dsimp only

theorem sendCmd_move (h : Move w s t) (k : Part.sub [.links, .out] w) : Move w s (sendCmd t a1 a2) := by
  refine Move.step h ?_ k
  unfold sendCmd
  repeat' first
    | with_reducible (first | exact Move.refl _ _ | apply Move.ite | apply sendDown_move)
    | decide | intro u | split | dsimp only

theorem markCmd_move (h : Move w s t) (k : Part.sub [.links, .out] w) : Move w s (markCmd t a1) := by
  refine Move.step h ?_ k
  unfold markCmd
  repeat' first
    | with_reducible (first | exact Move.refl _ _ | apply Move.ite | apply sendCmd_move | apply updLink_move)
    | decide | intro u | split | dsimp only

theorem sitterIg_move (h : Move w s t) (k : Part.sub [.cells, .links, .out] w) : Move w s (sitterIg t a1 a2) := by
  refine Move.step h ?_ k
  unfold sitterIg
  repeat' first
    | with_reducible (first | exact Move.refl _ _ | apply Move.ite | apply writeIgReg_move | apply sendParam_move)
    | decide | intro u | split | dsimp only

theorem igFirst_move (h : Move w s t) (k : Part.sub [.cells, .chans, .links, .out] w) : Move w s (igFirst t a1 a2) := by
  refine Move.step h ?_ k
  unfold igFirst
  repeat' first
    | with_reducible (first | exact Move.refl _ _ | apply Move.ite | apply updChan_move | apply sitterIg_move)
    | decide | intro u | split | dsimp only

theorem sitterCmd_move (h : Move w s t) (k : Part.sub [.cells, .hearths, .hks, .chans, .links, .out] w) : Move w s (sitterCmd t a1 a2) := by
  refine Move.step h ?_ k
  unfold sitterCmd
  repeat' first
    | with_reducible (first | exact Move.refl _ _ | apply Move.ite | apply updChan_move | apply markCmd_move | apply igFirst_move
                            | apply hearthReceive_move)
    | decide | intro u | split | dsimp only

theorem sitterTrip_move (h : Move w s t) (k : Part.sub [.cells, .hearths, .hks, .chans, .links, .out] w) : Move w s (sitterTrip t a1 a2 a3) := by
  refine Move.step h ?_ k
  unfold sitterTrip
  repeat' first
    | with_reducible (first | exact Move.refl _ _ | apply Move.ite | apply updChan_move | apply sitterCmd_move)
    | decide | intro u | split | dsimp only

theorem sitterOut_move (h : Move w s t) (k : Part.sub [.cells, .hearths, .hks, .chans, .links, .out] w) : Move w s (sitterOut t a1 a2) := by
  refine Move.step h ?_ k
  unfold sitterOut
  repeat' first
    | with_reducible (first | exact Move.refl _ _ | apply Move.ite | apply updChan_move | apply sitterCmd_move)
    | decide | intro u | split | dsimp only

theorem gateOffDecision_move (h : Move w s t) (k : Part.sub [.cells, .hearths, .hks, .chans, .links, .out] w) : Move w s (gateOffDecision t a1 a2) := by
  refine Move.step h ?_ k
  unfold gateOffDecision
  repeat' first
    | with_reducible (first | exact Move.refl _ _ | apply Move.ite | apply updChan_move | apply sitterCmd_move)
    | decide | intro u | split | dsimp only

theorem fastTrip_move (h : Move w s t) (k : Part.sub [.cells, .hearths, .hks, .chans] w) : Move w s (fastTrip a1 a2 t) := by
  refine Move.step h ?_ k
  unfold fastTrip
  repeat' first
    | with_reducible (first | exact Move.refl _ _ | apply Move.ite | apply takeTrip_move)
    | decide | intro u | split | dsimp only

theorem gateOffConfirmation_move (h : Move w s t) (k : Part.sub [.cells, .hearths, .hks, .chans, .links, .log, .coll, .host, .out] w) : Move w s (gateOffConfirmation a1 a2 t) := by
  refine Move.step h ?_ k
  unfold gateOffConfirmation
  repeat' first
    | with_reducible (first | exact Move.refl _ _ | apply Move.ite | apply noteUndo_move | apply gateOffDecision_move
                            | apply enterState_move | apply endError_move | apply updCell_move)
    | decide | intro u | split | dsimp only

theorem gateDischargeFailure_move (h : Move w s t) (k : Part.sub [.cells, .hearths, .hks, .chans, .free] w) : Move w s (gateDischargeFailure a1 t) := by
  refine Move.step h ?_ k
  unfold gateDischargeFailure
  repeat' first
    | with_reducible (first | exact Move.refl _ _ | apply Move.ite | apply freshFree_move | apply freshFree_move_eq (by assumption)
                            | apply enterState_move | apply reportError_move | apply updCell_move)
    | decide | intro u | split | dsimp only

theorem passTransistorShort_move (h : Move w s t) (k : Part.sub [.cells, .hearths, .hks, .chans] w) : Move w s (passTransistorShort a1 t) := by
  refine Move.step h ?_ k
  unfold passTransistorShort
  repeat' first
    | with_reducible (first | exact Move.refl _ _ | apply Move.ite | apply stampError_move | apply enterState_move | apply updCell_move)
    | decide | intro u | split | dsimp only

theorem fallbackBreakerTrip_move (h : Move w s t) (k : Part.sub [.cells, .hearths, .hks, .chans] w) : Move w s (fallbackBreakerTrip a1 t) := by
  refine Move.step h ?_ k
  unfold fallbackBreakerTrip
  repeat' first
    | with_reducible (first | exact Move.refl _ _ | apply Move.ite | apply tripNow_move)
    | decide | intro u | split | dsimp only

theorem controlFrame_move (h : Move w s t) (k : Part.sub [.hearths] w) : Move w s (controlFrame t a1 a2) := by
  refine Move.step h ?_ k
  unfold controlFrame
  repeat' first
    | with_reducible (first | exact Move.refl _ _ | apply Move.ite | apply updHearth_move)
    | decide | intro u | split | dsimp only

theorem saggarHoldEntry_move (h : Move w s t) (k : Part.sub [.cells, .hearths, .hks, .chans] w) : Move w s (saggarHoldEntry a1 t) := by
  refine Move.step h ?_ k
  unfold saggarHoldEntry
  repeat' first
    | with_reducible (first | exact Move.refl _ _ | apply Move.ite | apply enterSaggar_move)
    | decide | intro u | split | dsimp only

theorem stampClaim_move (h : Move w s t) (k : Part.sub [.hearths] w) : Move w s (stampClaim t a1 a2 a3 a4 a5) := by
  refine Move.step h ?_ k
  unfold stampClaim
  repeat' first
    | with_reducible (first | exact Move.refl _ _ | apply Move.ite | apply stampNow_move)
    | decide | intro u | split | dsimp only

theorem judgeClaim_move (h : Move w s t) (k : Part.sub [.cells, .hearths, .hks, .chans] w) : Move w s (judgeClaim t a1 a2 a3) := by
  refine Move.step h ?_ k
  unfold judgeClaim
  repeat' first
    | with_reducible (first | exact Move.refl _ _ | apply Move.ite | apply stampClaim_move | apply enterSaggar_move | apply updHearth_move)
    | decide | intro u | split | dsimp only

theorem claimFrame_move (h : Move w s t) (k : Part.sub [.cells, .hearths, .hks, .chans] w) : Move w s (claimFrame a1 a2 a3 t) := by
  refine Move.step h ?_ k
  unfold claimFrame
  repeat' first
    | with_reducible (first | exact Move.refl _ _ | apply Move.ite | apply controlFrame_move | apply judgeClaim_move)
    | decide | intro u | split | dsimp only

theorem claimOwn_move (h : Move w s t) (k : Part.sub [.cells, .hearths, .hks, .chans] w) : Move w s (claimOwn t a1) := by
  refine Move.step h ?_ k
  unfold claimOwn
  repeat' first
    | with_reducible (first | exact Move.refl _ _ | apply Move.ite | apply controlFrame_move | apply judgeClaim_move)
    | decide | intro u | split | dsimp only

theorem acceptChannel_move (h : Move w s t) (k : Part.sub [.cells, .hearths, .hks, .chans] w) : Move w s (acceptChannel t a1) := by
  refine Move.step h ?_ k
  unfold acceptChannel
  repeat' first
    | with_reducible (first | exact Move.refl _ _ | apply Move.ite | apply updChan_move | apply releaseChannel_move)
    | decide | intro u | split | dsimp only

theorem claimAcceptance_move (h : Move w s t) (k : Part.sub [.cells, .hearths, .hks, .chans] w) : Move w s (claimAcceptance a1 t) := by
  refine Move.step h ?_ k
  unfold claimAcceptance
  repeat' first
    | with_reducible (first | exact Move.refl _ _ | apply Move.ite | apply stampClaim_move | apply stampNow_move | apply acceptChannel_move
                            | apply updHearth_move | refine Move.forEach ?_ (fun u a => ?_))
    | decide | intro u | split | dsimp only

theorem discardAtHearth_move (h : Move w s t) (k : Part.sub [.hearths, .free] w) : Move w s (discardAtHearth t a1 a2 a3 a4 a5) := by
  refine Move.step h ?_ k
  unfold discardAtHearth
  repeat' first
    | with_reducible (first | exact Move.refl _ _ | apply Move.ite | apply stampError_move | apply freshFree_move
                            | apply freshFree_move_eq (by assumption))
    | decide | intro u | split | dsimp only

theorem releaseHearth_move (h : Move w s t) (k : Part.sub [.cells, .hearths, .hks, .chans, .free] w) : Move w s (releaseHearth t a1 a2 a3 a4) := by
  refine Move.step h ?_ k
  unfold releaseHearth
  repeat' first
    | with_reducible (first | exact Move.refl _ _ | apply Move.ite | apply stampNow_move | apply enterSaggar_move | apply updHearth_move
                            | apply discardAtHearth_move)
    | decide | intro u | split | dsimp only

theorem releaseFrame_move (h : Move w s t) (k : Part.sub [.cells, .hearths, .hks, .chans, .free] w) : Move w s (releaseFrame a1 a2 a3 a4 t) := by
  refine Move.step h ?_ k
  unfold releaseFrame
  repeat' first
    | with_reducible (first | exact Move.refl _ _ | apply Move.ite | apply controlFrame_move | apply releaseHearth_move)
    | decide | intro u | split | dsimp only

theorem hearthFaultDetected_move (h : Move w s t) (k : Part.sub [.cells, .hearths, .hks, .chans] w) : Move w s (hearthFaultDetected a1 a2 a3 t) := by
  refine Move.step h ?_ k
  unfold hearthFaultDetected
  repeat' first
    | with_reducible (first | exact Move.refl _ _ | apply Move.ite | apply holdChannel_move | apply stampNow_move | apply stampError_move
                            | apply updHearth_move | apply updCell_move | refine Move.forEach ?_ (fun u a => ?_))
    | decide | intro u | split | dsimp only

theorem hearthResetChannel_move (h : Move w s t) (k : Part.sub [.cells, .hearths, .hks, .chans] w) : Move w s (hearthResetChannel t a1) := by
  refine Move.step h ?_ k
  unfold hearthResetChannel
  repeat' first
    | with_reducible (first | exact Move.refl _ _ | apply Move.ite | apply enterState_move | apply updCell_move)
    | decide | intro u | split | dsimp only

theorem hearthReset_move (h : Move w s t) (k : Part.sub [.cells, .hearths, .spies, .captures, .groups, .hks, .chans, .log, .coll, .host] w) : Move w s (hearthReset t a1) := by
  refine Move.step h ?_ k
  unfold hearthReset
  repeat' first
    | with_reducible (first | exact Move.refl _ _ | apply Move.ite | apply spyStart_move | apply updHk_move | apply groupReset_move
                            | apply holdChannel_move | apply updCapture_move | apply hearthResetChannel_move | apply enterSaggar_move
                            | apply updHearth_move | refine Move.forEach ?_ (fun u a => ?_))
    | decide | intro u | split | dsimp only

theorem releaseFlag_move (h : Move w s t) (k : Part.sub [.cells, .hearths, .slots, .hks, .chans] w) : Move w s (releaseFlag t a1) := by
  refine Move.step h ?_ k
  unfold releaseFlag
  repeat' first
    | with_reducible (first | exact Move.refl _ _ | apply Move.ite | apply seatChannels_move | apply stampSeat_move | apply updSlot_move
                            | apply enterState_move | apply updHearth_move | refine Move.forEach ?_ (fun u a => ?_))
    | decide | intro u | split | dsimp only

theorem cmdFrame_move (h : Move w s t) (k : Part.sub [.cells, .hearths, .hks, .chans] w) : Move w s (cmdFrame t a1 a2 a3 a4 a5 a6 a7) := by
  refine Move.step h ?_ k
  unfold cmdFrame
  repeat' first
    | with_reducible (first | exact Move.refl _ _ | apply Move.ite | apply controlFrame_move | apply stampError_move
                            | apply hearthReceive_move)
    | decide | intro u | split | dsimp only

theorem paramFrame_move (h : Move w s t) (k : Part.sub [.hearths] w) (j : ∀ u, Move w u (a3 u)) :
    Move w s (paramFrame t a1 a2 a3) := by
  unfold paramFrame
  repeat' first
    | with_reducible exact h
    | with_reducible exact k
    | with_reducible apply Move.ite
    | with_reducible refine Move.step ?_ (j _) (Part.sub_refl w)
    | with_reducible refine controlFrame_move ?_ (Part.sub_trans (by decide) k)
    | dsimp only

theorem writeEnvelope_move (h : Move w s t) (k : Part.sub [.cells] w) : Move w s (writeEnvelope t a1 a2) := by
  refine Move.step h ?_ k
  unfold writeEnvelope
  repeat' first
    | with_reducible (first | exact Move.refl _ _ | apply Move.ite | apply updCell_move)
    | decide | intro u | split | dsimp only

theorem numberRequest_move (h : Move w s t) (k : Part.sub [.hearths] w) : Move w s (numberRequest t a1 a2) := by
  refine Move.step h ?_ k
  unfold numberRequest
  repeat' first
    | with_reducible (first | exact Move.refl _ _ | apply Move.ite | apply stampRec_move)
    | decide | intro u | split | dsimp only

theorem paramHearthReset_move (h : Move w s t) (k : Part.sub [.cells, .hearths, .spies, .captures, .groups, .hks, .chans, .log, .coll, .host] w) : Move w s (paramHearthReset a1 a2 t) := by
  refine Move.step h ?_ k
  unfold paramHearthReset
  repeat' first
    | with_reducible (first | exact Move.refl _ _ | apply Move.ite | apply controlFrame_move | apply hearthReset_move | apply claimOwn_move)
    | decide | intro u | split | dsimp only

theorem writeSlotWord_move (h : Move w s t) (k : Part.sub [.slots] w) : Move w s (writeSlotWord t a1 a2) := by
  refine Move.step h ?_ k
  unfold writeSlotWord
  repeat' first
    | with_reducible (first | exact Move.refl _ _ | apply Move.ite | apply updSlot_move)
    | decide | intro u | split | dsimp only

theorem writeConfig_move (h : Move w s t) (k : Part.sub [.cells, .hearths, .slots, .spies, .captures, .groups, .hks, .chans, .log, .coll, .host] w) : Move w s (writeConfig t a1 a2) := by
  refine Move.step h ?_ k
  unfold writeConfig
  repeat' first
    | with_reducible (first | exact Move.refl _ _ | apply Move.ite | apply updHk_move | apply updGroup_move | apply updSpy_move
                            | apply writeSlotWord_move | apply feedClearWrite_move | apply releaseFlag_move | apply updCapture_move
                            | apply feedSelectWrite_move | apply updHearth_move | apply captureRead_move | apply updCell_move)
    | decide | intro u | split | dsimp only

theorem resync_move (h : Move w s t) (k : Part.sub [.hearths, .spies] w) : Move w s (resync t a1 a2 a3) := by
  refine Move.step h ?_ k
  unfold resync
  repeat' first
    | with_reducible (first | exact Move.refl _ _ | apply Move.ite | apply stampNow_move | apply updHearth_move | apply throttleEnd_move)
    | decide | intro u | split | dsimp only

theorem seeTick_move (h : Move w s t) (k : Part.sub [.hearths] w) : Move w s (seeTick t a1 a2 a3) := by
  refine Move.step h ?_ k
  unfold seeTick
  repeat' first
    | with_reducible (first | exact Move.refl _ _ | apply Move.ite | apply updHearth_move)
    | decide | intro u | split | dsimp only

theorem tickFrame_move (h : Move w s t) (k : Part.sub [.hearths, .spies] w) : Move w s (tickFrame a1 a2 a3 a4 a5 t) := by
  refine Move.step h ?_ k
  unfold tickFrame
  repeat' first
    | with_reducible (first | exact Move.refl _ _ | apply Move.ite | apply resync_move | apply seeTick_move | apply controlFrame_move
                            | apply updHearth_move | apply throttleEnd_move)
    | decide | intro u | split | dsimp only

theorem ackFrame_move (h : Move w s t) (k : Part.sub [.hearths] w) : Move w s (ackFrame a1 a2 a3 a4 t) := by
  refine Move.step h ?_ k
  unfold ackFrame
  repeat' first
    | with_reducible (first | exact Move.refl _ _ | apply Move.ite | apply updHearth_move)
    | decide | intro u | split | dsimp only

theorem discardFrame_move (h : Move w s t) (k : Part.sub [.hearths, .boot, .log, .coll, .host, .out, .free] w) : Move w s (discardFrame t a1 a2 a3 a4 a5 a6) := by
  refine Move.step h ?_ k
  unfold discardFrame
  repeat' first
    | with_reducible (first | exact Move.refl _ _ | apply Move.ite | apply freshFree_move | apply freshFree_move_eq (by assumption)
                            | apply discardAtHearth_move | apply raiseError_move)
    | decide | intro u | split | dsimp only

theorem reservedFrameType_move (h : Move w s t) (k : Part.sub [.hearths, .boot, .log, .coll, .host, .out, .free] w) : Move w s (reservedFrameType a1 a2 a3 a4 a5 t) := by
  refine Move.step h ?_ k
  unfold reservedFrameType
  repeat' first
    | with_reducible (first | exact Move.refl _ _ | apply Move.ite | apply discardFrame_move | apply controlFrame_move)
    | decide | intro u | split | dsimp only

theorem updLane_move (h : Move w s t) (k : Part.sub [.hearths, .pair] w) : Move w s (updLane t a1 a2) := by
  refine Move.step h ?_ k
  unfold updLane
  repeat' first
    | with_reducible (first | exact Move.refl _ _ | apply Move.ite | apply updCp_move | apply updHearth_move | apply setPair_move)
    | decide | intro u | split | dsimp only

theorem reportLane_move (h : Move w s t) (k : Part.sub [.hearths, .boot, .log, .coll, .host, .out] w) : Move w s (reportLane t a1 a2) := by
  refine Move.step h ?_ k
  unfold reportLane
  repeat' first
    | with_reducible (first | exact Move.refl _ _ | apply Move.ite | apply stampError_move | apply raiseError_move)
    | decide | intro u | split | dsimp only

theorem laneFailed_move (h : Move w s t) (k : Part.sub [.hearths, .boot, .log, .coll, .pair, .host, .out] w) : Move w s (laneFailed a1 a2 t) := by
  refine Move.step h ?_ k
  unfold laneFailed
  repeat' first
    | with_reducible (first | exact Move.refl _ _ | apply Move.ite | apply updLane_move | apply updHearth_move | apply reportLane_move)
    | decide | intro u | split | dsimp only

theorem replayOverflow_move (h : Move w s t) (k : Part.sub [.hearths] w) : Move w s (replayOverflow t a1) := by
  refine Move.step h ?_ k
  unfold replayOverflow
  repeat' first
    | with_reducible (first | exact Move.refl _ _ | apply Move.ite | apply stampError_move | apply stampRec_move | apply updHearth_move
                            | refine Move.forEach ?_ (fun u a => ?_))
    | decide | intro u | split | dsimp only

theorem fullCmd_move (h : Move w s t) (k : Part.sub [.cells, .hearths, .hks, .chans] w) : Move w s (fullCmd t a1) := by
  refine Move.step h ?_ k
  unfold fullCmd
  repeat' first
    | with_reducible (first | exact Move.refl _ _ | apply Move.ite | apply hearthReceive_move | refine Move.forEach ?_ (fun u a => ?_))
    | decide | intro u | split | dsimp only

theorem resendFrame_move (h : Move w s t) (k : Part.sub [.out] w) : Move w s (resendFrame t a1 a2) := by
  refine Move.step h ?_ k
  unfold resendFrame
  repeat' first
    | with_reducible (first | exact Move.refl _ _ | apply Move.ite | apply emit_move)
    | decide | intro u | split | dsimp only

theorem laneFailoverComplete_move (h : Move w s t) (k : Part.sub [.cells, .hearths, .hks, .chans, .links, .out] w) : Move w s (laneFailoverComplete a1 t) := by
  refine Move.step h ?_ k
  unfold laneFailoverComplete
  repeat' first
    | with_reducible (first | exact Move.refl _ _ | apply Move.ite | apply replayOverflow_move | apply resendFrame_move | apply fullCmd_move
                            | apply updHearth_move | apply updLink_move | refine Move.forEach ?_ (fun u a => ?_))
    | decide | intro u | split | dsimp only

theorem laneResetAttempt_move (h : Move w s t) (k : Part.sub [.hearths, .pair] w) : Move w s (laneResetAttempt a1 t) := by
  refine Move.step h ?_ k
  unfold laneResetAttempt
  repeat' first
    | with_reducible (first | exact Move.refl _ _ | apply Move.ite | apply updLane_move)
    | decide | intro u | split | dsimp only

theorem laneRetrained_move (h : Move w s t) (k : Part.sub [.hearths, .log, .coll, .pair, .host] w) : Move w s (laneRetrained a1 t) := by
  refine Move.step h ?_ k
  unfold laneRetrained
  repeat' first
    | with_reducible (first | exact Move.refl _ _ | apply Move.ite | apply clearError_move | apply scheduleEnd_move | apply updLane_move
                            | apply updHearth_move)
    | decide | intro u | split | dsimp only

theorem latchSlot_move (h : Move w s t) (k : Part.sub [.clusters] w) : Move w s (latchSlot t a1 a2 a3) := by
  refine Move.step h ?_ k
  unfold latchSlot
  repeat' first
    | with_reducible (first | exact Move.refl _ _ | apply Move.ite | apply updCluster_move)
    | decide | intro u | split | dsimp only

theorem relatch_move (h : Move w s t) (k : Part.sub [.engines, .clusters] w) : Move w s (relatch t a1 a2 a3) := by
  refine Move.step h ?_ k
  unfold relatch
  repeat' first
    | with_reducible (first | exact Move.refl _ _ | apply Move.ite | apply updEngine_move | apply updCluster_move | apply latchSlot_move)
    | decide | intro u | split | dsimp only

end Sys2Proof.Machine
end

