-- ==== Sys2Proof/Laws/MoveLinks.lean ====
section
/-! SUPPORT. The moves of requests, the ledger, mailboxes and forwarded commands: for each operation, the parts of the state that it may change; State.Wf is kept. -/
namespace Sys2Proof.Machine
open Sys2Proof

variable {s t u : State} {w : List Part}

theorem sendEventReq_move (h : Move w s t) (k : Part.sub [.links, .out] w) : Move w s (sendEventReq t a1 a2) := by
  refine Move.step h ?_ k
  unfold sendEventReq
  repeat' first
    | with_reducible (first | exact Move.refl _ _ | apply Move.ite | apply sendParam_move)
    | decide | intro u | split | dsimp only

theorem sitterEvent_move (h : Move w s t) (k : Part.sub [.hearths, .links, .out] w) : Move w s (sitterEvent t a1 a2 a3) := by
  refine Move.step h ?_ k
  unfold sitterEvent
  repeat' first
    | with_reducible (first | exact Move.refl _ _ | apply Move.ite | apply sendEventReq_move | apply numberRequest_move)
    | decide | intro u | split | dsimp only

theorem setTotal_move (h : Move w s t) (k : Part.sub [.works] w) : Move w s (setTotal t a1 a2 a3 a4) := by
  refine Move.step h ?_ k
  unfold setTotal
  repeat' first
    | with_reducible (first | exact Move.refl _ _ | apply Move.ite | apply setWorks_move)
    | decide | intro u | split | dsimp only

theorem consentWait_move (h : Move w s t) (k : Part.sub [.hearths, .chans, .links, .out] w) : Move w s (consentWait t a1 a2) := by
  refine Move.step h ?_ k
  unfold consentWait
  repeat' first
    | with_reducible (first | exact Move.refl _ _ | apply Move.ite | apply sitterEvent_move | apply updChan_move)
    | decide | intro u | split | dsimp only

theorem giveConsent_move (h : Move w s t) (k : Part.sub [.chans] w) : Move w s (giveConsent t a1) := by
  refine Move.step h ?_ k
  unfold giveConsent
  repeat' first
    | with_reducible (first | exact Move.refl _ _ | apply Move.ite | apply updChan_move)
    | decide | intro u | split | dsimp only

theorem takeGrant_move (h : Move w s t) (k : Part.sub [.chans, .works] w) : Move w s (takeGrant t a1) := by
  refine Move.step h ?_ k
  unfold takeGrant
  repeat' first
    | with_reducible (first | exact Move.refl _ _ | apply Move.ite | apply updChan_move | apply giveConsent_move | apply setWorks_move)
    | decide | intro u | split | dsimp only

theorem takeRefuse_move (h : Move w s t) (k : Part.sub [.hearths, .chans, .links, .out] w) : Move w s (takeRefuse t a1) := by
  refine Move.step h ?_ k
  unfold takeRefuse
  repeat' first
    | with_reducible (first | exact Move.refl _ _ | apply Move.ite | apply updChan_move | apply consentWait_move)
    | decide | intro u | split | dsimp only

theorem takeFreed_move (h : Move w s t) (k : Part.sub [] w) : Move w s (takeFreed t) := by
  refine Move.step h ?_ k
  unfold takeFreed
  repeat' first
    | with_reducible (first | exact Move.refl _ _ | apply Move.ite)
    | decide | intro u | split | dsimp only

theorem answerTo_move (h : Move w s t) (k : Part.sub [.hearths, .chans, .links, .works, .out] w) : Move w s (answerTo t a1 a2 a3) := by
  refine Move.step h ?_ k
  unfold answerTo
  repeat' first
    | with_reducible (first | exact Move.refl _ _ | apply Move.ite | apply takeGrant_move | apply takeRefuse_move | apply takeFreed_move
                            | apply originate_move)
    | decide | intro u | split | dsimp only

theorem freedOn_move (h : Move w s t) (k : Part.sub [.hearths, .chans, .links, .works, .out] w) : Move w s (freedOn t a1 a2) := by
  refine Move.step h ?_ k
  unfold freedOn
  repeat' first
    | with_reducible (first | exact Move.refl _ _ | apply Move.ite | apply answerTo_move | refine Move.forEach ?_ (fun u a => ?_))
    | decide | intro u | split | dsimp only

theorem overCheck_move (h : Move w s t) (k : Part.sub [.log, .host] w) : Move w s (overCheck t a1 a2) := by
  refine Move.step h ?_ k
  unfold overCheck
  repeat' first
    | with_reducible (first | exact Move.refl _ _ | apply Move.ite | apply crownStamp_move)
    | decide | intro u | split | dsimp only

theorem keeperAlloc_move (h : Move w s t) (k : Part.sub [.hearths, .chans, .links, .log, .works, .host, .out] w) : Move w s (keeperAlloc t a1 a2) := by
  refine Move.step h ?_ k
  unfold keeperAlloc
  repeat' first
    | with_reducible (first | exact Move.refl _ _ | apply Move.ite | apply crownStamp_move | apply setWorks_move | apply answerTo_move
                            | apply setTotal_move)
    | decide | intro u | split | dsimp only

theorem keeperRelease_move (h : Move w s t) (k : Part.sub [.hearths, .chans, .links, .works, .out] w) : Move w s (keeperRelease t a1) := by
  refine Move.step h ?_ k
  unfold keeperRelease
  repeat' first
    | with_reducible (first | exact Move.refl _ _ | apply Move.ite | apply freedOn_move | apply setTotal_move)
    | decide | intro u | split | dsimp only

theorem keeperAnnounce_move (h : Move w s t) (k : Part.sub [.log, .works, .host] w) : Move w s (keeperAnnounce t a1) := by
  refine Move.step h ?_ k
  unfold keeperAnnounce
  repeat' first
    | with_reducible (first | exact Move.refl _ _ | apply Move.ite | apply setWorks_move | apply overCheck_move)
    | decide | intro u | split | dsimp only

theorem keeperConfirm_move (h : Move w s t) (k : Part.sub [.hearths, .chans, .links, .log, .works, .host, .out] w) : Move w s (keeperConfirm t a1) := by
  refine Move.step h ?_ k
  unfold keeperConfirm
  repeat' first
    | with_reducible (first | exact Move.refl _ _ | apply Move.ite | apply setWorks_move | apply overCheck_move | apply freedOn_move
                            | apply setTotal_move | refine Move.forEach ?_ (fun u a => ?_))
    | decide | intro u | split | dsimp only

theorem keeperRetract_move (h : Move w s t) (k : Part.sub [.hearths, .chans, .links, .works, .out] w) : Move w s (keeperRetract t a1) := by
  refine Move.step h ?_ k
  unfold keeperRetract
  repeat' first
    | with_reducible (first | exact Move.refl _ _ | apply Move.ite | apply setWorks_move | apply freedOn_move)
    | decide | intro u | split | dsimp only

theorem keeperMove_move (h : Move w s t) (k : Part.sub [.works] w) : Move w s (keeperMove t a1 a2) := by
  refine Move.step h ?_ k
  unfold keeperMove
  repeat' first
    | with_reducible (first | exact Move.refl _ _ | apply Move.ite | apply setTotal_move | refine Move.forEach ?_ (fun u a => ?_))
    | decide | intro u | split | dsimp only

theorem keeperStanding_move (h : Move w s t) (k : Part.sub [.hearths, .chans, .links, .works, .out] w) : Move w s (keeperStanding t a1) := by
  refine Move.step h ?_ k
  unfold keeperStanding
  repeat' first
    | with_reducible (first | exact Move.refl _ _ | apply Move.ite | apply freedOn_move | apply setTotal_move)
    | decide | intro u | split | dsimp only

theorem keeperOp_move (h : Move w s t) (k : Part.sub [.hearths, .chans, .links, .log, .works, .host, .out] w) : Move w s (keeperOp t a1 a2 a3) := by
  refine Move.step h ?_ k
  unfold keeperOp
  repeat' first
    | with_reducible (first | exact Move.refl _ _ | apply Move.ite | apply keeperRetract_move | apply takeGrant_move
                            | apply keeperAnnounce_move | apply keeperConfirm_move | apply takeRefuse_move | apply keeperAlloc_move
                            | apply takeFreed_move | apply keeperStanding_move | apply keeperMove_move | apply keeperRelease_move)
    | decide | intro u | split | dsimp only

theorem ledgerSend_move (h : Move w s t) (k : Part.sub [.hearths, .chans, .links, .log, .works, .host, .out] w) : Move w s (ledgerSend t a1 a2 a3) := by
  refine Move.step h ?_ k
  unfold ledgerSend
  repeat' first
    | with_reducible (first | exact Move.refl _ _ | apply Move.ite | apply keeperOp_move | apply originate_move)
    | decide | intro u | split | dsimp only

theorem ledgerIn_move (h : Move w s t) (k : Part.sub [.hearths, .chans, .links, .log, .works, .host, .out] w) : Move w s (ledgerIn a1 a2 a3 a4 t) := by
  refine Move.step h ?_ k
  unfold ledgerIn
  repeat' first
    | with_reducible (first | exact Move.refl _ _ | apply Move.ite | apply keeperOp_move | apply forward_move | apply takeRouted_move)
    | decide | intro u | split | dsimp only

theorem ledgerCheck_move (h : Move w s t) (k : Part.sub [.hearths, .chans, .links, .log, .works, .host, .out] w) : Move w s (ledgerCheck t a1) := by
  refine Move.step h ?_ k
  unfold ledgerCheck
  repeat' first
    | with_reducible (first | exact Move.refl _ _ | apply Move.ite | apply updChan_move | apply giveConsent_move | apply consentWait_move
                            | apply setWorks_move | apply ledgerSend_move)
    | decide | intro u | split | dsimp only

theorem consentEvaluation_move (h : Move w s t) (k : Part.sub [.hearths, .chans, .links, .log, .works, .host, .out] w) : Move w s (consentEvaluation a1 t) := by
  refine Move.step h ?_ k
  unfold consentEvaluation
  repeat' first
    | with_reducible (first | exact Move.refl _ _ | apply Move.ite | apply ledgerCheck_move | apply consentWait_move)
    | decide | intro u | split | dsimp only

theorem releaseAlloc_move (h : Move w s t) (k : Part.sub [.hearths, .chans, .links, .log, .works, .host, .out] w) : Move w s (releaseAlloc t a1) := by
  refine Move.step h ?_ k
  unfold releaseAlloc
  repeat' first
    | with_reducible (first | exact Move.refl _ _ | apply Move.ite | apply updChan_move | apply ledgerSend_move)
    | decide | intro u | split | dsimp only

theorem standingSend_move (h : Move w s t) (k : Part.sub [.hearths, .chans, .links, .log, .works, .host, .out] w) : Move w s (standingSend t) := by
  refine Move.step h ?_ k
  unfold standingSend
  repeat' first
    | with_reducible (first | exact Move.refl _ _ | apply Move.ite | apply ledgerSend_move | refine Move.forEach ?_ (fun u a => ?_))
    | decide | intro u | split | dsimp only

theorem keeperUnreachable_move (h : Move w s t) (k : Part.sub [.works] w) : Move w s (keeperUnreachable a1 t) := by
  refine Move.step h ?_ k
  unfold keeperUnreachable
  repeat' first
    | with_reducible (first | exact Move.refl _ _ | apply Move.ite | apply setWorks_move)
    | decide | intro u | split | dsimp only

theorem closeAnnounce_move (h : Move w s t) (k : Part.sub [.hearths, .chans, .links, .log, .works, .host, .out] w) : Move w s (closeAnnounce t a1 a2) := by
  refine Move.step h ?_ k
  unfold closeAnnounce
  repeat' first
    | with_reducible (first | exact Move.refl _ _ | apply Move.ite | apply setWorks_move | apply ledgerSend_move)
    | decide | intro u | split | dsimp only

theorem announceAct_move (h : Move w s t) (k : Part.sub [.hearths, .chans, .links, .log, .works, .host, .out] w) : Move w s (announceAct a1 t a2) := by
  refine Move.step h ?_ k
  unfold announceAct
  repeat' first
    | with_reducible (first | exact Move.refl _ _ | apply Move.ite | apply closeAnnounce_move | apply setWorks_move | apply ledgerSend_move)
    | decide | intro u | split | dsimp only

theorem ledgerAnnounceSend_move (h : Move w s t) (k : Part.sub [.hearths, .chans, .links, .log, .works, .host, .out] w) : Move w s (ledgerAnnounceSend a1 t) := by
  refine Move.step h ?_ k
  unfold ledgerAnnounceSend
  repeat' first
    | with_reducible (first | exact Move.refl _ _ | apply Move.ite | apply announceAct_move | apply closeAnnounce_move | apply setWorks_move
                            | refine Move.foldl ?_ (fun u a => ?_))
    | decide | intro u | split | dsimp only

theorem ledgerHoldLapse_move (h : Move w s t) (k : Part.sub [.hearths, .chans, .links, .log, .works, .host, .out] w) : Move w s (ledgerHoldLapse a1 a2 a3 a4 t) := by
  refine Move.step h ?_ k
  unfold ledgerHoldLapse
  repeat' first
    | with_reducible (first | exact Move.refl _ _ | apply Move.ite | apply crownStamp_move | apply setWorks_move | apply freedOn_move)
    | decide | intro u | split | dsimp only

theorem updBox_move (h : Move w s t) (k : Part.sub [.host] w) : Move w s (updBox t a1 a2) := by
  refine Move.step h ?_ k
  unfold updBox
  repeat' first
    | with_reducible (first | exact Move.refl _ _ | apply Move.ite | apply updFwdBox_move | apply updMbox_move)
    | decide | intro u | split | dsimp only

theorem answerSend_move (h : Move w s t) (k : Part.sub [.works, .host] w) : Move w s (answerSend t a1 a2 a3) := by
  refine Move.step h ?_ k
  unfold answerSend
  repeat' first
    | with_reducible (first | exact Move.refl _ _ | apply Move.ite | apply setWorks_move | apply updBox_move)
    | decide | intro u | split | dsimp only

theorem flushFwd_move (h : Move w s t) (k : Part.sub [.boot, .works, .host, .out] w) : Move w s (flushFwd t a1) := by
  refine Move.step h ?_ k
  unfold flushFwd
  repeat' first
    | with_reducible (first | exact Move.refl _ _ | apply Move.ite | apply updFwdBox_move | apply setWorks_move | apply answerSend_move
                            | apply setBoot_move | apply originate_move | exact rfl)
    | exact rfl | decide | intro u | split | dsimp only

theorem setAnswer_move (h : Move w s t) (k : Part.sub [.boot, .works, .host, .out] w) : Move w s (setAnswer t a1 a2 a3) := by
  refine Move.step h ?_ k
  unfold setAnswer
  repeat' first
    | with_reducible (first | exact Move.refl _ _ | apply Move.ite | apply flushFwd_move | apply updBox_move)
    | decide | intro u | split | dsimp only

theorem runCmd_move (h : Move w s t) (k : Part.sub [.boot, .works, .host, .out] w) (j : ∀ u, Move w u (a4 u).1) :
    Move w s (runCmd t a1 a2 a3 a4) := by
  unfold runCmd
  repeat' first
    | with_reducible exact h
    | with_reducible exact k
    | with_reducible apply Move.ite
    | with_reducible refine Move.step ?_ (j _) (Part.sub_refl w)
    | with_reducible refine setAnswer_move ?_ (Part.sub_trans (by decide) k)
    | dsimp only

theorem runLater_move (h : Move w s t) (j : ∀ u, Move w u (a4 u)) : Move w s (runLater t a1 a2 a3 a4) := by
  unfold runLater
  with_reducible apply Move.ite
  · exact Move.step h (j _) (Part.sub_refl w)
  · exact h

theorem lockWrite_move (h : Move w s t) (k : Part.sub [.host] w) : Move w s (lockWrite a1 a2 a3 t) := by
  refine Move.step h ?_ k
  unfold lockWrite
  repeat' first
    | with_reducible (first | exact Move.refl _ _ | apply Move.ite | apply updMbox_move)
    | decide | intro u | split | dsimp only

theorem doneSignal_move (h : Move w s t) (k : Part.sub [.host, .out] w) : Move w s (doneSignal t a1) := by
  refine Move.step h ?_ k
  unfold doneSignal
  repeat' first
    | with_reducible (first | exact Move.refl _ _ | apply Move.ite | apply setHost_move | apply spiIrq_move | apply msix_move)
    | decide | intro u | split | dsimp only

theorem endCommand_move (h : Move w s t) (k : Part.sub [.boot, .host, .out] w) : Move w s (endCommand t a1 a2 a3) := by
  refine Move.step h ?_ k
  unfold endCommand
  repeat' first
    | with_reducible (first | exact Move.refl _ _ | apply Move.ite | apply doneSignal_move | apply updMbox_move | apply setBoot_move
                            | apply emit_move | exact rfl)
    | exact rfl | decide | intro u | split | dsimp only

theorem commandDone_move (h : Move w s t) (k : Part.sub [.boot, .host, .out] w) : Move w s (commandDone a1 t) := by
  refine Move.step h ?_ k
  unfold commandDone
  repeat' first
    | with_reducible (first | exact Move.refl _ _ | apply Move.ite | apply endCommand_move)
    | decide | intro u | split | dsimp only

theorem doorbell_move (h : Move w s t) (k : Part.sub [.boot, .host, .out] w) : Move w s (doorbell a1 a2 a3 a4 a5 t) := by
  refine Move.step h ?_ k
  unfold doorbell
  repeat' first
    | with_reducible (first | exact Move.refl _ _ | apply Move.ite | apply setHost_move | apply updMbox_move | apply requestWake_move
                            | apply endCommand_move)
    | decide | intro u | split | dsimp only

theorem beginCmd_move (h : Move w s t) (k : Part.sub [.boot, .works, .host, .out] w) : Move w s (beginCmd t a1) := by
  refine Move.step h ?_ k
  unfold beginCmd
  repeat' first
    | with_reducible (first | exact Move.refl _ _ | apply Move.ite | apply updBox_move | apply setAnswer_move)
    | decide | intro u | split | dsimp only

theorem commandStart_move (h : Move w s t) (k : Part.sub [.boot, .works, .host, .out] w) : Move w s (commandStart a1 t) := by
  refine Move.step h ?_ k
  unfold commandStart
  repeat' first
    | with_reducible (first | exact Move.refl _ _ | apply Move.ite | apply beginCmd_move | apply updFwdBox_move)
    | decide | intro u | split | dsimp only

theorem releaseDoorbells_move (h : Move w s t) (k : Part.sub [.host] w) : Move w s (releaseDoorbells t) := by
  refine Move.step h ?_ k
  unfold releaseDoorbells
  repeat' first
    | with_reducible (first | exact Move.refl _ _ | apply Move.ite | apply updMbox_move | refine Move.forEach ?_ (fun u a => ?_))
    | decide | intro u | split | dsimp only

theorem onHearth_move (h : Move w s t) (j : ∀ u, Move w u (a2 u).1) : Move w s (onHearth t a1 a2).1 := by
  unfold onHearth
  split
  · exact Move.step h (j _) (Part.sub_refl w)
  · exact h

theorem onChan_move (h : Move w s t) (j : ∀ u, Move w u (a2 u).1) : Move w s (onChan t a1 a2).1 := by
  unfold onChan
  refine onHearth_move h (fun u => ?_)
  split
  · exact j u
  · exact Move.refl _ _

theorem queueFwd_move (h : Move w s t) (k : Part.sub [.works, .host] w) : Move w s (queueFwd t a1 a2 a3) := by
  refine Move.step h ?_ k
  unfold queueFwd
  repeat' first
    | with_reducible (first | exact Move.refl _ _ | apply Move.ite | apply setHost_move | apply setWorks_move)
    | decide | intro u | split | dsimp only

theorem commandFrame_move (h : Move w s t) (k : Part.sub [.boot, .works, .host, .out] w) : Move w s (commandFrame a1 a2 a3 a4 t) := by
  refine Move.step h ?_ k
  unfold commandFrame
  repeat' first
    | with_reducible (first | exact Move.refl _ _ | apply Move.ite | apply queueFwd_move | apply forward_move | apply requestWake_move
                            | apply takeRouted_move)
    | decide | intro u | split | dsimp only

theorem forwardTagWait_move (h : Move w s t) (k : Part.sub [.works] w) : Move w s (forwardTagWait a1 t) := by
  refine Move.step h ?_ k
  unfold forwardTagWait
  repeat' first
    | with_reducible (first | exact Move.refl _ _ | apply Move.ite | apply setWorks_move)
    | decide | intro u | split | dsimp only

theorem responseFrame_move (h : Move w s t) (k : Part.sub [.works, .host, .out] w) : Move w s (responseFrame a1 a2 a3 a4 a5 t) := by
  refine Move.step h ?_ k
  unfold responseFrame
  repeat' first
    | with_reducible (first | exact Move.refl _ _ | apply Move.ite | apply answerSend_move | apply forward_move | apply takeRouted_move)
    | decide | intro u | split | dsimp only

theorem worksSendTimeout_move (h : Move w s t) (k : Part.sub [.boot, .works, .host, .out] w) : Move w s (worksSendTimeout a1 t) := by
  refine Move.step h ?_ k
  unfold worksSendTimeout
  repeat' first
    | with_reducible (first | exact Move.refl _ _ | apply Move.ite | apply setWorks_move | apply setAnswer_move)
    | decide | intro u | split | dsimp only

theorem takeEvents_move (h : Move w s t) (k : Part.sub [.log, .works, .host] w) : Move w s (takeEvents a1 a2 a3 t) := by
  refine Move.step h ?_ k
  unfold takeEvents
  repeat' first
    | with_reducible (first | exact Move.refl _ _ | apply Move.ite | apply crownStamp_move | apply setWorks_move)
    | decide | intro u | split | dsimp only

theorem worksEventFrame_move (h : Move w s t) (k : Part.sub [.log, .works, .host, .out] w) : Move w s (worksEventFrame a1 a2 a3 a4 t) := by
  refine Move.step h ?_ k
  unfold worksEventFrame
  repeat' first
    | with_reducible (first | exact Move.refl _ _ | apply Move.ite | apply takeEvents_move | apply forward_move | apply takeRouted_move)
    | decide | intro u | split | dsimp only

theorem subscriptionUnreachable_move (h : Move w s t) (k : Part.sub [.works] w) : Move w s (subscriptionUnreachable a1 t) := by
  refine Move.step h ?_ k
  unfold subscriptionUnreachable
  repeat' first
    | with_reducible (first | exact Move.refl _ _ | apply Move.ite | apply setWorks_move)
    | decide | intro u | split | dsimp only

theorem sendEvents_move (h : Move w s t) (k : Part.sub [.works, .out] w) : Move w s (sendEvents t a1) := by
  refine Move.step h ?_ k
  unfold sendEvents
  repeat' first
    | with_reducible (first | exact Move.refl _ _ | apply Move.ite | apply setWorks_move | apply originate_move)
    | decide | intro u | split | dsimp only

theorem serveSubscribers_move (h : Move w s t) (k : Part.sub [.works, .out] w) : Move w s (serveSubscribers t) := by
  refine Move.step h ?_ k
  unfold serveSubscribers
  repeat' first
    | with_reducible (first | exact Move.refl _ _ | apply Move.ite | apply sendEvents_move | refine Move.forEach ?_ (fun u a => ?_))
    | decide | intro u | split | dsimp only

theorem sendCommand_move (h : Move w s t) (k : Part.sub [.works, .host, .out] w) : Move w s (sendCommand t a1 a2) := by
  refine Move.step h ?_ k
  unfold sendCommand
  repeat' first
    | with_reducible (first | exact Move.refl _ _ | apply Move.ite | apply setWorks_move | apply queueFwd_move | apply originate_move)
    | decide | intro u | split | dsimp only

theorem askDevice_move (h : Move w s t) (k : Part.sub [.boot, .works, .host, .out] w) : Move w s (askDevice t a1 a2 a3) := by
  refine Move.step h ?_ k
  unfold askDevice
  repeat' first
    | with_reducible (first | exact Move.refl _ _ | apply Move.ite | apply setWorks_move | apply setAnswer_move | apply sendCommand_move)
    | decide | intro u | split | dsimp only

theorem worksSend_move (h : Move w s t) (k : Part.sub [.boot, .works, .host, .out] w) : Move w s (worksSend a1 a2 a3 t) := by
  refine Move.step h ?_ k
  unfold worksSend
  repeat' first
    | with_reducible (first | exact Move.refl _ _ | apply Move.ite | apply setAnswer_move | apply askDevice_move)
    | decide | intro u | split | dsimp only

theorem worksSubscribe_move (h : Move w s t) (k : Part.sub [.boot, .works, .host, .out] w) : Move w s (worksSubscribe a1 a2 a3 t) := by
  refine Move.step h ?_ k
  unfold worksSubscribe
  repeat' first
    | with_reducible (first | exact Move.refl _ _ | apply Move.ite | apply setWorks_move | apply setAnswer_move | apply askDevice_move)
    | decide | intro u | split | dsimp only

theorem worksUnsubscribe_move (h : Move w s t) (k : Part.sub [.boot, .works, .host, .out] w) : Move w s (worksUnsubscribe a1 a2 t) := by
  refine Move.step h ?_ k
  unfold worksUnsubscribe
  repeat' first
    | with_reducible (first | exact Move.refl _ _ | apply Move.ite | apply runCmd_move | apply setWorks_move | apply sendCommand_move)
    | decide | intro u | split | dsimp only

theorem worksStatus_move (h : Move w s t) (k : Part.sub [.boot, .works, .host, .out] w) : Move w s (worksStatus a1 t) := by
  refine Move.step h ?_ k
  unfold worksStatus
  repeat' first
    | with_reducible (first | exact Move.refl _ _ | apply Move.ite | apply runCmd_move)
    | decide | intro u | split | dsimp only

theorem worksLedger_move (h : Move w s t) (k : Part.sub [.boot, .works, .host, .out] w) : Move w s (worksLedger a1 a2 t) := by
  refine Move.step h ?_ k
  unfold worksLedger
  repeat' first
    | with_reducible (first | exact Move.refl _ _ | apply Move.ite | apply runCmd_move)
    | decide | intro u | split | dsimp only

end Sys2Proof.Machine
end

