-- ==== Sys2Proof/Laws/MoveEngines.lean ====
section
/-! SUPPORT. The moves of the engine instructions, the flash memory, the Cone, the breaker and the Sitter: for each operation, the parts of the state that it may change; State.Wf is kept. -/
namespace Sys2Proof.Machine
open Sys2Proof

variable {s t u : State} {w : List Part}

theorem execOpNop_move (e : execOpNop a1 t = .next u) (h : Move w s t) (k : Part.sub [.engines] w) : Move w s u := by
  refine Move.step h ?_ k
  unfold execOpNop at e
  revert e
  repeat' first
    | (intro e; with_reducible refine Move.next e ?_) | (intro e; cases e; done) | split | dsimp only
    | with_reducible (first | exact Move.refl _ _ | apply Move.ite | apply updEngine_move)
    | decide | intro u | split | dsimp only

theorem execOpEnd_move (e : execOpEnd a1 t = .next u) (h : Move w s t) (k : Part.sub [.engines] w) : Move w s u := by
  refine Move.step h ?_ k
  unfold execOpEnd at e
  revert e
  repeat' first
    | (intro e; with_reducible refine Move.next e ?_) | (intro e; cases e; done) | split | dsimp only
    | with_reducible (first | exact Move.refl _ _ | apply Move.ite | apply updEngine_move)
    | decide | intro u | split | dsimp only

theorem execOpLdi_move (e : execOpLdi a1 a2 a3 t = .next u) (h : Move w s t) (k : Part.sub [.engines] w) : Move w s u := by
  refine Move.step h ?_ k
  unfold execOpLdi at e
  revert e
  repeat' first
    | (intro e; with_reducible refine Move.next e ?_) | (intro e; cases e; done) | split | dsimp only
    | with_reducible (first | exact Move.refl _ _ | apply Move.ite | apply updEngine_move)
    | decide | intro u | split | dsimp only

theorem execOpLui_move (e : execOpLui a1 a2 a3 t = .next u) (h : Move w s t) (k : Part.sub [.engines] w) : Move w s u := by
  refine Move.step h ?_ k
  unfold execOpLui at e
  revert e
  repeat' first
    | (intro e; with_reducible refine Move.next e ?_) | (intro e; cases e; done) | split | dsimp only
    | with_reducible (first | exact Move.refl _ _ | apply Move.ite | apply updEngine_move)
    | decide | intro u | split | dsimp only

theorem execOpMov_move (e : execOpMov a1 a2 a3 t = .next u) (h : Move w s t) (k : Part.sub [.engines] w) : Move w s u := by
  refine Move.step h ?_ k
  unfold execOpMov at e
  revert e
  repeat' first
    | (intro e; with_reducible refine Move.next e ?_) | (intro e; cases e; done) | split | dsimp only
    | with_reducible (first | exact Move.refl _ _ | apply Move.ite | apply updEngine_move)
    | decide | intro u | split | dsimp only

theorem readPort_move (h : Move w s t) (k : Part.sub [.engines, .free] w) : Move w s (readPort t a1 a2).2 := by
  refine Move.step h ?_ k
  unfold readPort
  split
  · dsimp only
    split
    · exact updEngine_move (Move.refl _ _) (by decide)
    · exact Move.refl _ _
  · exact freshFree_move (Move.refl _ _) (by decide)

theorem readPort_move_eq (e : readPort t a1 a2 = (b, u)) (h : Move w s t) (k : Part.sub [.engines, .free] w) : Move w s u := by
  have q := readPort_move (a1 := a1) (a2 := a2) h k
  rw [e] at q
  exact q

theorem rejects_move (e : rejects a1 a2 a0 t = .next u) (g : Move w s a0) (h : Move w s t) (k : Part.sub [.chans, .engines, .boot, .log, .coll, .host, .out] w) : Move w s u := by
  refine Move.next e ?_
  with_reducible apply Move.ite
  · exact failEngine_move g (Part.sub_trans (by decide) k)
  · exact h

theorem execOpInu_move (e : execOpInu a1 a2 a3 t = .next u) (h : Move w s t) (k : Part.sub [.chans, .engines, .boot, .log, .coll, .host, .out, .free] w) : Move w s u := by
  refine Move.step h ?_ k
  unfold execOpInu at e
  revert e
  repeat' first
    | (intro e; with_reducible refine Move.next e ?_) | (intro e; cases e; done) | split | dsimp only
    | with_reducible (first | exact Move.refl _ _ | apply Move.ite | apply rejects_move (by assumption) | apply updEngine_move
                            | apply readPort_move | apply readPort_move_eq (by assumption))
    | decide | intro u | split | dsimp only

theorem execOpIns_move (e : execOpIns a1 a2 a3 t = .next u) (h : Move w s t) (k : Part.sub [.chans, .engines, .boot, .log, .coll, .host, .out, .free] w) : Move w s u := by
  refine Move.step h ?_ k
  unfold execOpIns at e
  revert e
  repeat' first
    | (intro e; with_reducible refine Move.next e ?_) | (intro e; cases e; done) | split | dsimp only
    | with_reducible (first | exact Move.refl _ _ | apply Move.ite | apply rejects_move (by assumption) | apply updEngine_move
                            | apply readPort_move | apply readPort_move_eq (by assumption))
    | decide | intro u | split | dsimp only

theorem postEvent_move (h : Move w s t) (k : Part.sub [.engines] w) : Move w s (postEvent t a1 a2) := by
  refine Move.step h ?_ k
  unfold postEvent
  repeat' first
    | with_reducible (first | exact Move.refl _ _ | apply Move.ite | apply updEngine_move)
    | decide | intro u | split | dsimp only

theorem execOpOut_move (e : execOpOut a1 a2 a3 t = .next u) (h : Move w s t) (k : Part.sub [.chans, .engines, .boot, .log, .coll, .host, .out] w) : Move w s u := by
  refine Move.step h ?_ k
  unfold execOpOut at e
  revert e
  repeat' first
    | (intro e; with_reducible refine Move.next e ?_) | (intro e; cases e; done) | split | dsimp only
    | with_reducible (first | exact Move.refl _ _ | apply Move.ite | apply postEvent_move | apply failEngine_move | apply updEngine_move)
    | decide | intro u | split | dsimp only

theorem execOpLdp_move (e : execOpLdp a1 a2 a3 a4 t = .next u) (h : Move w s t) (k : Part.sub [.chans, .engines, .boot, .log, .coll, .host, .out] w) : Move w s u := by
  refine Move.step h ?_ k
  unfold execOpLdp at e
  revert e
  repeat' first
    | (intro e; with_reducible refine Move.next e ?_) | (intro e; cases e; done) | split | dsimp only
    | with_reducible (first | exact Move.refl _ _ | apply Move.ite | apply rejects_move (by assumption) | apply updEngine_move)
    | decide | intro u | split | dsimp only

theorem execOpLds_move (e : execOpLds a1 a2 a3 a4 t = .next u) (h : Move w s t) (k : Part.sub [.engines] w) : Move w s u := by
  refine Move.step h ?_ k
  unfold execOpLds at e
  revert e
  repeat' first
    | (intro e; with_reducible refine Move.next e ?_) | (intro e; cases e; done) | split | dsimp only
    | with_reducible (first | exact Move.refl _ _ | apply Move.ite | apply updEngine_move)
    | decide | intro u | split | dsimp only

theorem execOpSts_move (e : execOpSts a1 a2 a3 a4 t = .next u) (h : Move w s t) (k : Part.sub [.engines] w) : Move w s u := by
  refine Move.step h ?_ k
  unfold execOpSts at e
  revert e
  repeat' first
    | (intro e; with_reducible refine Move.next e ?_) | (intro e; cases e; done) | split | dsimp only
    | with_reducible (first | exact Move.refl _ _ | apply Move.ite | apply updEngine_move)
    | decide | intro u | split | dsimp only

theorem execOpLdm_move (e : execOpLdm a1 a2 a3 t = .next u) (h : Move w s t) (k : Part.sub [.chans, .engines, .boot, .log, .coll, .host, .out] w) : Move w s u := by
  refine Move.step h ?_ k
  unfold execOpLdm at e
  revert e
  repeat' first
    | (intro e; with_reducible refine Move.next e ?_) | (intro e; cases e; done) | split | dsimp only
    | with_reducible (first | exact Move.refl _ _ | apply Move.ite | apply rejects_move (by assumption) | apply updEngine_move)
    | decide | intro u | split | dsimp only

theorem execOpAdd_move (e : execOpAdd a1 a2 a3 a4 t = .next u) (h : Move w s t) (k : Part.sub [.engines] w) : Move w s u := by
  refine Move.step h ?_ k
  unfold execOpAdd at e
  revert e
  repeat' first
    | (intro e; with_reducible refine Move.next e ?_) | (intro e; cases e; done) | split | dsimp only
    | with_reducible (first | exact Move.refl _ _ | apply Move.ite | apply updEngine_move)
    | decide | intro u | split | dsimp only

theorem execOpSub_move (e : execOpSub a1 a2 a3 a4 t = .next u) (h : Move w s t) (k : Part.sub [.engines] w) : Move w s u := by
  refine Move.step h ?_ k
  unfold execOpSub at e
  revert e
  repeat' first
    | (intro e; with_reducible refine Move.next e ?_) | (intro e; cases e; done) | split | dsimp only
    | with_reducible (first | exact Move.refl _ _ | apply Move.ite | apply updEngine_move)
    | decide | intro u | split | dsimp only

theorem execOpAdds_move (e : execOpAdds a1 a2 a3 a4 t = .next u) (h : Move w s t) (k : Part.sub [.engines] w) : Move w s u := by
  refine Move.step h ?_ k
  unfold execOpAdds at e
  revert e
  repeat' first
    | (intro e; with_reducible refine Move.next e ?_) | (intro e; cases e; done) | split | dsimp only
    | with_reducible (first | exact Move.refl _ _ | apply Move.ite | apply updEngine_move)
    | decide | intro u | split | dsimp only

theorem execOpSubs_move (e : execOpSubs a1 a2 a3 a4 t = .next u) (h : Move w s t) (k : Part.sub [.engines] w) : Move w s u := by
  refine Move.step h ?_ k
  unfold execOpSubs at e
  revert e
  repeat' first
    | (intro e; with_reducible refine Move.next e ?_) | (intro e; cases e; done) | split | dsimp only
    | with_reducible (first | exact Move.refl _ _ | apply Move.ite | apply updEngine_move)
    | decide | intro u | split | dsimp only

theorem execOpAddi_move (e : execOpAddi a1 a2 a3 a4 t = .next u) (h : Move w s t) (k : Part.sub [.engines] w) : Move w s u := by
  refine Move.step h ?_ k
  unfold execOpAddi at e
  revert e
  repeat' first
    | (intro e; with_reducible refine Move.next e ?_) | (intro e; cases e; done) | split | dsimp only
    | with_reducible (first | exact Move.refl _ _ | apply Move.ite | apply updEngine_move)
    | decide | intro u | split | dsimp only

theorem execOpMin_move (e : execOpMin a1 a2 a3 a4 t = .next u) (h : Move w s t) (k : Part.sub [.engines] w) : Move w s u := by
  refine Move.step h ?_ k
  unfold execOpMin at e
  revert e
  repeat' first
    | (intro e; with_reducible refine Move.next e ?_) | (intro e; cases e; done) | split | dsimp only
    | with_reducible (first | exact Move.refl _ _ | apply Move.ite | apply updEngine_move)
    | decide | intro u | split | dsimp only

theorem execOpMax_move (e : execOpMax a1 a2 a3 a4 t = .next u) (h : Move w s t) (k : Part.sub [.engines] w) : Move w s u := by
  refine Move.step h ?_ k
  unfold execOpMax at e
  revert e
  repeat' first
    | (intro e; with_reducible refine Move.next e ?_) | (intro e; cases e; done) | split | dsimp only
    | with_reducible (first | exact Move.refl _ _ | apply Move.ite | apply updEngine_move)
    | decide | intro u | split | dsimp only

theorem execOpAbs_move (e : execOpAbs a1 a2 a3 t = .next u) (h : Move w s t) (k : Part.sub [.engines] w) : Move w s u := by
  refine Move.step h ?_ k
  unfold execOpAbs at e
  revert e
  repeat' first
    | (intro e; with_reducible refine Move.next e ?_) | (intro e; cases e; done) | split | dsimp only
    | with_reducible (first | exact Move.refl _ _ | apply Move.ite | apply updEngine_move)
    | decide | intro u | split | dsimp only

theorem execOpMul_move (e : execOpMul a1 a2 a3 a4 a5 a6 t = .next u) (h : Move w s t) (k : Part.sub [.engines] w) : Move w s u := by
  refine Move.step h ?_ k
  unfold execOpMul at e
  revert e
  repeat' first
    | (intro e; with_reducible refine Move.next e ?_) | (intro e; cases e; done) | split | dsimp only
    | with_reducible (first | exact Move.refl _ _ | apply Move.ite | apply updEngine_move)
    | decide | intro u | split | dsimp only

theorem execOpDiv_move (e : execOpDiv a1 a2 a3 a4 a5 a6 t = .next u) (h : Move w s t) (k : Part.sub [.engines] w) : Move w s u := by
  refine Move.step h ?_ k
  unfold execOpDiv at e
  revert e
  repeat' first
    | (intro e; with_reducible refine Move.next e ?_) | (intro e; cases e; done) | split | dsimp only
    | with_reducible (first | exact Move.refl _ _ | apply Move.ite | apply updEngine_move)
    | decide | intro u | split | dsimp only

theorem execOpShl_move (e : execOpShl a1 a2 a3 a4 t = .next u) (h : Move w s t) (k : Part.sub [.engines] w) : Move w s u := by
  refine Move.step h ?_ k
  unfold execOpShl at e
  revert e
  repeat' first
    | (intro e; with_reducible refine Move.next e ?_) | (intro e; cases e; done) | split | dsimp only
    | with_reducible (first | exact Move.refl _ _ | apply Move.ite | apply updEngine_move)
    | decide | intro u | split | dsimp only

theorem execOpShr_move (e : execOpShr a1 a2 a3 a4 t = .next u) (h : Move w s t) (k : Part.sub [.engines] w) : Move w s u := by
  refine Move.step h ?_ k
  unfold execOpShr at e
  revert e
  repeat' first
    | (intro e; with_reducible refine Move.next e ?_) | (intro e; cases e; done) | split | dsimp only
    | with_reducible (first | exact Move.refl _ _ | apply Move.ite | apply updEngine_move)
    | decide | intro u | split | dsimp only

theorem execOpShru_move (e : execOpShru a1 a2 a3 a4 t = .next u) (h : Move w s t) (k : Part.sub [.engines] w) : Move w s u := by
  refine Move.step h ?_ k
  unfold execOpShru at e
  revert e
  repeat' first
    | (intro e; with_reducible refine Move.next e ?_) | (intro e; cases e; done) | split | dsimp only
    | with_reducible (first | exact Move.refl _ _ | apply Move.ite | apply updEngine_move)
    | decide | intro u | split | dsimp only

theorem execOpAnd_move (e : execOpAnd a1 a2 a3 a4 t = .next u) (h : Move w s t) (k : Part.sub [.engines] w) : Move w s u := by
  refine Move.step h ?_ k
  unfold execOpAnd at e
  revert e
  repeat' first
    | (intro e; with_reducible refine Move.next e ?_) | (intro e; cases e; done) | split | dsimp only
    | with_reducible (first | exact Move.refl _ _ | apply Move.ite | apply updEngine_move)
    | decide | intro u | split | dsimp only

theorem execOpOr_move (e : execOpOr a1 a2 a3 a4 t = .next u) (h : Move w s t) (k : Part.sub [.engines] w) : Move w s u := by
  refine Move.step h ?_ k
  unfold execOpOr at e
  revert e
  repeat' first
    | (intro e; with_reducible refine Move.next e ?_) | (intro e; cases e; done) | split | dsimp only
    | with_reducible (first | exact Move.refl _ _ | apply Move.ite | apply updEngine_move)
    | decide | intro u | split | dsimp only

theorem execOpXor_move (e : execOpXor a1 a2 a3 a4 t = .next u) (h : Move w s t) (k : Part.sub [.engines] w) : Move w s u := by
  refine Move.step h ?_ k
  unfold execOpXor at e
  revert e
  repeat' first
    | (intro e; with_reducible refine Move.next e ?_) | (intro e; cases e; done) | split | dsimp only
    | with_reducible (first | exact Move.refl _ _ | apply Move.ite | apply updEngine_move)
    | decide | intro u | split | dsimp only

theorem execOpAndi_move (e : execOpAndi a1 a2 a3 a4 t = .next u) (h : Move w s t) (k : Part.sub [.engines] w) : Move w s u := by
  refine Move.step h ?_ k
  unfold execOpAndi at e
  revert e
  repeat' first
    | (intro e; with_reducible refine Move.next e ?_) | (intro e; cases e; done) | split | dsimp only
    | with_reducible (first | exact Move.refl _ _ | apply Move.ite | apply updEngine_move)
    | decide | intro u | split | dsimp only

theorem execOpCmp_move (e : execOpCmp a1 a2 a3 t = .next u) (h : Move w s t) (k : Part.sub [.engines] w) : Move w s u := by
  refine Move.step h ?_ k
  unfold execOpCmp at e
  revert e
  repeat' first
    | (intro e; with_reducible refine Move.next e ?_) | (intro e; cases e; done) | split | dsimp only
    | with_reducible (first | exact Move.refl _ _ | apply Move.ite | apply updEngine_move)
    | decide | intro u | split | dsimp only

theorem execOpCmpi_move (e : execOpCmpi a1 a2 a3 t = .next u) (h : Move w s t) (k : Part.sub [.engines] w) : Move w s u := by
  refine Move.step h ?_ k
  unfold execOpCmpi at e
  revert e
  repeat' first
    | (intro e; with_reducible refine Move.next e ?_) | (intro e; cases e; done) | split | dsimp only
    | with_reducible (first | exact Move.refl _ _ | apply Move.ite | apply updEngine_move)
    | decide | intro u | split | dsimp only

theorem execOpSel_move (e : execOpSel a1 a2 a3 a4 a5 t = .next u) (h : Move w s t) (k : Part.sub [.engines] w) : Move w s u := by
  refine Move.step h ?_ k
  unfold execOpSel at e
  revert e
  repeat' first
    | (intro e; with_reducible refine Move.next e ?_) | (intro e; cases e; done) | split | dsimp only
    | with_reducible (first | exact Move.refl _ _ | apply Move.ite | apply updEngine_move)
    | decide | intro u | split | dsimp only

theorem execOpAddw_move (e : execOpAddw a1 a2 a3 a4 t = .next u) (h : Move w s t) (k : Part.sub [.engines] w) : Move w s u := by
  refine Move.step h ?_ k
  unfold execOpAddw at e
  revert e
  repeat' first
    | (intro e; with_reducible refine Move.next e ?_) | (intro e; cases e; done) | split | dsimp only
    | with_reducible (first | exact Move.refl _ _ | apply Move.ite | apply updEngine_move)
    | decide | intro u | split | dsimp only

theorem execOpSubw_move (e : execOpSubw a1 a2 a3 a4 t = .next u) (h : Move w s t) (k : Part.sub [.engines] w) : Move w s u := by
  refine Move.step h ?_ k
  unfold execOpSubw at e
  revert e
  repeat' first
    | (intro e; with_reducible refine Move.next e ?_) | (intro e; cases e; done) | split | dsimp only
    | with_reducible (first | exact Move.refl _ _ | apply Move.ite | apply updEngine_move)
    | decide | intro u | split | dsimp only

theorem execOpSubwz_move (e : execOpSubwz a1 a2 a3 a4 t = .next u) (h : Move w s t) (k : Part.sub [.engines] w) : Move w s u := by
  refine Move.step h ?_ k
  unfold execOpSubwz at e
  revert e
  repeat' first
    | (intro e; with_reducible refine Move.next e ?_) | (intro e; cases e; done) | split | dsimp only
    | with_reducible (first | exact Move.refl _ _ | apply Move.ite | apply updEngine_move)
    | decide | intro u | split | dsimp only

theorem execOpAccf_move (e : execOpAccf a1 a2 a3 a4 t = .next u) (h : Move w s t) (k : Part.sub [.engines] w) : Move w s u := by
  refine Move.step h ?_ k
  unfold execOpAccf at e
  revert e
  repeat' first
    | (intro e; with_reducible refine Move.next e ?_) | (intro e; cases e; done) | split | dsimp only
    | with_reducible (first | exact Move.refl _ _ | apply Move.ite | apply updEngine_move)
    | decide | intro u | split | dsimp only

theorem execOpNarw_move (e : execOpNarw a1 a2 a3 a4 t = .next u) (h : Move w s t) (k : Part.sub [.engines, .free] w) : Move w s u := by
  refine Move.step h ?_ k
  unfold execOpNarw at e
  revert e
  repeat' first
    | (intro e; with_reducible refine Move.next e ?_) | (intro e; cases e; done) | split | dsimp only
    | with_reducible (first | exact Move.refl _ _ | apply Move.ite | apply freshFree_move | apply freshFree_move_eq (by assumption)
                            | apply updEngine_move)
    | decide | intro u | split | dsimp only

theorem execOpCmpw_move (e : execOpCmpw a1 a2 a3 t = .next u) (h : Move w s t) (k : Part.sub [.engines] w) : Move w s u := by
  refine Move.step h ?_ k
  unfold execOpCmpw at e
  revert e
  repeat' first
    | (intro e; with_reducible refine Move.next e ?_) | (intro e; cases e; done) | split | dsimp only
    | with_reducible (first | exact Move.refl _ _ | apply Move.ite | apply updEngine_move)
    | decide | intro u | split | dsimp only

theorem execOpPwl_move (e : execOpPwl a1 a2 a3 a4 a5 a6 t = .next u) (h : Move w s t) (k : Part.sub [.engines] w) : Move w s u := by
  refine Move.step h ?_ k
  unfold execOpPwl at e
  revert e
  repeat' first
    | (intro e; with_reducible refine Move.next e ?_) | (intro e; cases e; done) | split | dsimp only
    | with_reducible (first | exact Move.refl _ _ | apply Move.ite | apply updEngine_move)
    | decide | intro u | split | dsimp only

theorem execOpPacc_move (e : execOpPacc a1 a2 a3 t = .next u) (h : Move w s t) (k : Part.sub [.engines] w) : Move w s u := by
  refine Move.step h ?_ k
  unfold execOpPacc at e
  revert e
  repeat' first
    | (intro e; with_reducible refine Move.next e ?_) | (intro e; cases e; done) | split | dsimp only
    | with_reducible (first | exact Move.refl _ _ | apply Move.ite | apply updEngine_move | refine Move.foldl ?_ (fun u a => ?_))
    | decide | intro u | split | dsimp only

theorem execOpPole_move (e : execOpPole a1 a2 t = .next u) (h : Move w s t) (k : Part.sub [.engines] w) : Move w s u := by
  refine Move.step h ?_ k
  unfold execOpPole at e
  revert e
  repeat' first
    | (intro e; with_reducible refine Move.next e ?_) | (intro e; cases e; done) | split | dsimp only
    | with_reducible (first | exact Move.refl _ _ | apply Move.ite | apply updEngine_move)
    | decide | intro u | split | dsimp only

theorem execOpCheck_move (e : execOpCheck a1 t = .next u) (h : Move w s t) (k : Part.sub [.engines] w) : Move w s u := by
  refine Move.step h ?_ k
  unfold execOpCheck at e
  revert e
  repeat' first
    | (intro e; with_reducible refine Move.next e ?_) | (intro e; cases e; done) | split | dsimp only
    | with_reducible (first | exact Move.refl _ _ | apply Move.ite | apply updEngine_move)
    | decide | intro u | split | dsimp only

theorem execOpPeerchk_move (e : execOpPeerchk a1 t = .next u) (h : Move w s t) (k : Part.sub [.engines] w) : Move w s u := by
  refine Move.step h ?_ k
  unfold execOpPeerchk at e
  revert e
  repeat' first
    | (intro e; with_reducible refine Move.next e ?_) | (intro e; cases e; done) | split | dsimp only
    | with_reducible (first | exact Move.refl _ _ | apply Move.ite | apply updEngine_move)
    | decide | intro u | split | dsimp only

theorem execOpMism_move (e : execOpMism a1 a2 t = .next u) (h : Move w s t) (k : Part.sub [.cells, .hearths, .hks, .chans, .engines, .links, .boot, .log, .coll, .host, .out] w) : Move w s u := by
  refine Move.step h ?_ k
  unfold execOpMism at e
  revert e
  repeat' first
    | (intro e; with_reducible refine Move.next e ?_) | (intro e; cases e; done) | split | dsimp only
    | with_reducible (first | exact Move.refl _ _ | apply Move.ite | apply mismatch_move | apply sitterTrip_move | apply updEngine_move)
    | decide | intro u | split | dsimp only

theorem execOpBr_move (e : execOpBr a1 a2 a3 t = .next u) (h : Move w s t) (k : Part.sub [.engines] w) : Move w s u := by
  refine Move.step h ?_ k
  unfold execOpBr at e
  revert e
  repeat' first
    | (intro e; with_reducible refine Move.next e ?_) | (intro e; cases e; done) | split | dsimp only
    | with_reducible (first | exact Move.refl _ _ | apply Move.ite | apply updEngine_move)
    | decide | intro u | split | dsimp only

theorem execOpBbs_move (e : execOpBbs a1 a2 a3 a4 t = .next u) (h : Move w s t) (k : Part.sub [.engines] w) : Move w s u := by
  refine Move.step h ?_ k
  unfold execOpBbs at e
  revert e
  repeat' first
    | (intro e; with_reducible refine Move.next e ?_) | (intro e; cases e; done) | split | dsimp only
    | with_reducible (first | exact Move.refl _ _ | apply Move.ite | apply updEngine_move)
    | decide | intro u | split | dsimp only

theorem execOpBbc_move (e : execOpBbc a1 a2 a3 a4 t = .next u) (h : Move w s t) (k : Part.sub [.engines] w) : Move w s u := by
  refine Move.step h ?_ k
  unfold execOpBbc at e
  revert e
  repeat' first
    | (intro e; with_reducible refine Move.next e ?_) | (intro e; cases e; done) | split | dsimp only
    | with_reducible (first | exact Move.refl _ _ | apply Move.ite | apply updEngine_move)
    | decide | intro u | split | dsimp only

theorem execOpRloop_move (e : execOpRloop a1 a2 t = .next u) (h : Move w s t) (k : Part.sub [.engines] w) : Move w s u := by
  refine Move.step h ?_ k
  unfold execOpRloop at e
  revert e
  repeat' first
    | (intro e; with_reducible refine Move.next e ?_) | (intro e; cases e; done) | split | dsimp only
    | with_reducible (first | exact Move.refl _ _ | apply Move.ite | apply updEngine_move)
    | decide | intro u | split | dsimp only

theorem afterRes_move (h : Move w s t) (j : ∀ u, a1 = .next u → Move w s u) : Move w s (afterRes a1 t) := by
  unfold afterRes
  split
  · exact j _ rfl
  · exact h

theorem runOp_move (h : Move w s t) (k : Part.sub [.cells, .hearths, .hks, .chans, .engines, .links, .boot, .log, .coll, .host, .out, .free] w) : Move w s (runOp a1 t) := by
  refine Move.step h ?_ k
  unfold runOp
  split
  · exact afterRes_move (Move.refl _ _) fun _ e => execOpNop_move e (Move.refl _ _) (by decide)
  · exact afterRes_move (Move.refl _ _) fun _ e => execOpEnd_move e (Move.refl _ _) (by decide)
  · exact afterRes_move (Move.refl _ _) fun _ e => execOpLdi_move e (Move.refl _ _) (by decide)
  · exact afterRes_move (Move.refl _ _) fun _ e => execOpLui_move e (Move.refl _ _) (by decide)
  · exact afterRes_move (Move.refl _ _) fun _ e => execOpMov_move e (Move.refl _ _) (by decide)
  · exact afterRes_move (Move.refl _ _) fun _ e => execOpInu_move e (Move.refl _ _) (by decide)
  · exact afterRes_move (Move.refl _ _) fun _ e => execOpIns_move e (Move.refl _ _) (by decide)
  · exact afterRes_move (Move.refl _ _) fun _ e => execOpOut_move e (Move.refl _ _) (by decide)
  · exact afterRes_move (Move.refl _ _) fun _ e => execOpLdp_move e (Move.refl _ _) (by decide)
  · exact afterRes_move (Move.refl _ _) fun _ e => execOpLds_move e (Move.refl _ _) (by decide)
  · exact afterRes_move (Move.refl _ _) fun _ e => execOpSts_move e (Move.refl _ _) (by decide)
  · exact afterRes_move (Move.refl _ _) fun _ e => execOpLdm_move e (Move.refl _ _) (by decide)
  · exact afterRes_move (Move.refl _ _) fun _ e => execOpAdd_move e (Move.refl _ _) (by decide)
  · exact afterRes_move (Move.refl _ _) fun _ e => execOpSub_move e (Move.refl _ _) (by decide)
  · exact afterRes_move (Move.refl _ _) fun _ e => execOpAdds_move e (Move.refl _ _) (by decide)
  · exact afterRes_move (Move.refl _ _) fun _ e => execOpSubs_move e (Move.refl _ _) (by decide)
  · exact afterRes_move (Move.refl _ _) fun _ e => execOpAddi_move e (Move.refl _ _) (by decide)
  · exact afterRes_move (Move.refl _ _) fun _ e => execOpMin_move e (Move.refl _ _) (by decide)
  · exact afterRes_move (Move.refl _ _) fun _ e => execOpMax_move e (Move.refl _ _) (by decide)
  · exact afterRes_move (Move.refl _ _) fun _ e => execOpAbs_move e (Move.refl _ _) (by decide)
  · exact afterRes_move (Move.refl _ _) fun _ e => execOpMul_move e (Move.refl _ _) (by decide)
  · exact afterRes_move (Move.refl _ _) fun _ e => execOpDiv_move e (Move.refl _ _) (by decide)
  · exact afterRes_move (Move.refl _ _) fun _ e => execOpShl_move e (Move.refl _ _) (by decide)
  · exact afterRes_move (Move.refl _ _) fun _ e => execOpShr_move e (Move.refl _ _) (by decide)
  · exact afterRes_move (Move.refl _ _) fun _ e => execOpShru_move e (Move.refl _ _) (by decide)
  · exact afterRes_move (Move.refl _ _) fun _ e => execOpAnd_move e (Move.refl _ _) (by decide)
  · exact afterRes_move (Move.refl _ _) fun _ e => execOpOr_move e (Move.refl _ _) (by decide)
  · exact afterRes_move (Move.refl _ _) fun _ e => execOpXor_move e (Move.refl _ _) (by decide)
  · exact afterRes_move (Move.refl _ _) fun _ e => execOpAndi_move e (Move.refl _ _) (by decide)
  · exact afterRes_move (Move.refl _ _) fun _ e => execOpCmp_move e (Move.refl _ _) (by decide)
  · exact afterRes_move (Move.refl _ _) fun _ e => execOpCmpi_move e (Move.refl _ _) (by decide)
  · exact afterRes_move (Move.refl _ _) fun _ e => execOpSel_move e (Move.refl _ _) (by decide)
  · exact afterRes_move (Move.refl _ _) fun _ e => execOpAddw_move e (Move.refl _ _) (by decide)
  · exact afterRes_move (Move.refl _ _) fun _ e => execOpSubw_move e (Move.refl _ _) (by decide)
  · exact afterRes_move (Move.refl _ _) fun _ e => execOpSubwz_move e (Move.refl _ _) (by decide)
  · exact afterRes_move (Move.refl _ _) fun _ e => execOpAccf_move e (Move.refl _ _) (by decide)
  · exact afterRes_move (Move.refl _ _) fun _ e => execOpNarw_move e (Move.refl _ _) (by decide)
  · exact afterRes_move (Move.refl _ _) fun _ e => execOpCmpw_move e (Move.refl _ _) (by decide)
  · exact afterRes_move (Move.refl _ _) fun _ e => execOpPwl_move e (Move.refl _ _) (by decide)
  · exact afterRes_move (Move.refl _ _) fun _ e => execOpPacc_move e (Move.refl _ _) (by decide)
  · exact afterRes_move (Move.refl _ _) fun _ e => execOpPole_move e (Move.refl _ _) (by decide)
  · exact afterRes_move (Move.refl _ _) fun _ e => execOpCheck_move e (Move.refl _ _) (by decide)
  · exact afterRes_move (Move.refl _ _) fun _ e => execOpPeerchk_move e (Move.refl _ _) (by decide)
  · exact afterRes_move (Move.refl _ _) fun _ e => execOpMism_move e (Move.refl _ _) (by decide)
  · exact afterRes_move (Move.refl _ _) fun _ e => execOpBr_move e (Move.refl _ _) (by decide)
  · exact afterRes_move (Move.refl _ _) fun _ e => execOpBbs_move e (Move.refl _ _) (by decide)
  · exact afterRes_move (Move.refl _ _) fun _ e => execOpBbc_move e (Move.refl _ _) (by decide)
  · exact afterRes_move (Move.refl _ _) fun _ e => execOpRloop_move e (Move.refl _ _) (by decide)
  · exact Move.refl _ _

theorem engineLoop_move (h : Move w s t) (k : Part.sub [.cells, .hearths, .hks, .chans, .engines, .links, .boot, .log, .coll, .host, .out, .free] w) : Move w s (engineLoop a1 a2 t) := by
  refine Move.step h ?_ k
  clear h k
  induction a2 generalizing t with
  | zero =>
    unfold engineLoop
    with_reducible apply Move.ite
    · exact Move.refl _ _
    · exact failEngine_move (Move.refl _ _) (by decide)
  | succ n ih =>
    unfold engineLoop
    dsimp only
    with_reducible apply Move.ite
    · exact Move.refl _ _
    · with_reducible apply Move.ite
      · exact failEngine_move (Move.refl _ _) (by decide)
      · split
        · exact failEngine_move (Move.refl _ _) (by decide)
        · exact Move.step (runOp_move (Move.refl _ _) (by decide)) ih (by decide)

theorem engineTick_move (h : Move w s t) (k : Part.sub [.cells, .hearths, .hks, .chans, .engines, .links, .boot, .log, .coll, .host, .out, .free] w) : Move w s (engineTick a1 t) := by
  refine Move.step h ?_ k
  unfold engineTick
  repeat' first
    | with_reducible (first | exact Move.refl _ _ | apply Move.ite | apply updEngine_move | apply engineLoop_move)
    | decide | intro u | split | dsimp only

theorem flashWrite_move (h : Move w s t) (k : Part.sub [.flash] w) : Move w s (flashWrite t a1 a2) := by
  refine Move.step h ?_ k
  unfold flashWrite
  repeat' first
    | with_reducible (first | exact Move.refl _ _ | apply Move.ite | apply setFlash_move)
    | exact fun f => tabPut_wf _ _ f.flash | decide | intro u | split | dsimp only

theorem writeRec_move (h : Move w s t) (k : Part.sub [.flash] w) : Move w s (writeRec t a1) := by
  refine Move.step h ?_ k
  unfold writeRec
  repeat' first
    | with_reducible (first | exact Move.refl _ _ | apply Move.ite | apply flashWrite_move)
    | decide | intro u | split | dsimp only

theorem extendBytes_move (h : Move w s t) (k : Part.sub [.measured] w) : Move w s (extendBytes t a1 a2 a3 a4) := by
  refine Move.step h ?_ k
  unfold extendBytes
  repeat' first
    | with_reducible (first | exact Move.refl _ _ | apply Move.ite | apply measure_move)
    | decide | intro u | split | dsimp only

theorem extendSlot_move (h : Move w s t) (k : Part.sub [.measured] w) : Move w s (extendSlot t a1 a2 a3) := by
  refine Move.step h ?_ k
  unfold extendSlot
  repeat' first
    | with_reducible (first | exact Move.refl _ _ | apply Move.ite | apply extendBytes_move)
    | decide | intro u | split | dsimp only

theorem noteCause_move (h : Move w s t) (k : Part.sub [.boot] w) : Move w s (noteCause t a1) := by
  refine Move.step h ?_ k
  unfold noteCause
  repeat' first
    | with_reducible (first | exact Move.refl _ _ | apply Move.ite | apply setBoot_move | exact rfl)
    | exact rfl | decide | intro u | split | dsimp only

theorem startTsnsFault_move (h : Move w s t) (k : Part.sub [.cones, .boot, .log, .coll, .host, .out] w) : Move w s (startTsnsFault t a1 a2) := by
  refine Move.step h ?_ k
  unfold startTsnsFault
  repeat' first
    | with_reducible (first | exact Move.refl _ _ | apply Move.ite | apply updCone_move | apply raiseError_move)
    | decide | intro u | split | dsimp only

theorem noSensor_move (h : Move w s t) (k : Part.sub [.cones, .log, .coll, .host] w) : Move w s (noSensor t a1) := by
  refine Move.step h ?_ k
  unfold noSensor
  repeat' first
    | with_reducible (first | exact Move.refl _ _ | apply Move.ite | apply clearError_move | apply updCone_move)
    | decide | intro u | split | dsimp only

theorem anchorUpdate_move (h : Move w s t) (k : Part.sub [.cones, .boot, .log, .coll, .host, .out] w) : Move w s (anchorUpdate t a1) := by
  refine Move.step h ?_ k
  unfold anchorUpdate
  repeat' first
    | with_reducible (first | exact Move.refl _ _ | apply Move.ite | apply updCone_move | apply startTsnsFault_move | apply noSensor_move)
    | decide | intro u | split | dsimp only

theorem preBend_move (h : Move w s t) (k : Part.sub [.hearths, .cones, .links, .out] w) : Move w s (preBend t a1 a2) := by
  refine Move.step h ?_ k
  unfold preBend
  repeat' first
    | with_reducible (first | exact Move.refl _ _ | apply Move.ite | apply sitterEvent_move | apply updCone_move)
    | decide | intro u | split | dsimp only

theorem coneUpdateAt_move (h : Move w s t) (k : Part.sub [.hearths, .cones, .links, .boot, .log, .coll, .host, .out] w) : Move w s (coneUpdateAt t a1 a2 a3) := by
  refine Move.step h ?_ k
  unfold coneUpdateAt
  repeat' first
    | with_reducible (first | exact Move.refl _ _ | apply Move.ite | apply updCone_move | apply preBend_move | apply anchorUpdate_move)
    | decide | intro u | split | dsimp only

theorem coneUpdate_move (h : Move w s t) (k : Part.sub [.hearths, .cones, .engines, .clusters, .links, .boot, .log, .coll, .host, .out] w) : Move w s (coneUpdate a1 t) := by
  refine Move.step h ?_ k
  unfold coneUpdate
  repeat' first
    | with_reducible (first | exact Move.refl _ _ | apply Move.ite | apply coneUpdateAt_move | apply relatch_move)
    | decide | intro u | split | dsimp only

theorem prebendWarnTime_move (h : Move w s t) (k : Part.sub [.cones] w) : Move w s (prebendWarnTime a1 t) := by
  refine Move.step h ?_ k
  unfold prebendWarnTime
  repeat' first
    | with_reducible (first | exact Move.refl _ _ | apply Move.ite | apply updCone_move)
    | decide | intro u | split | dsimp only

theorem soaPersistence_move (h : Move w s t) (k : Part.sub [.cones] w) : Move w s (soaPersistence a1 t) := by
  refine Move.step h ?_ k
  unfold soaPersistence
  repeat' first
    | with_reducible (first | exact Move.refl _ _ | apply Move.ite | apply updCone_move)
    | decide | intro u | split | dsimp only

theorem tsnsTimeout_move (h : Move w s t) (k : Part.sub [.cones, .boot, .log, .coll, .host, .out] w) : Move w s (tsnsTimeout a1 t) := by
  refine Move.step h ?_ k
  unfold tsnsTimeout
  repeat' first
    | with_reducible (first | exact Move.refl _ _ | apply Move.ite | apply startTsnsFault_move)
    | decide | intro u | split | dsimp only

theorem tsnsFaultEnd_move (h : Move w s t) (k : Part.sub [.cones, .log, .coll, .host] w) : Move w s (tsnsFaultEnd a1 t) := by
  refine Move.step h ?_ k
  unfold tsnsFaultEnd
  repeat' first
    | with_reducible (first | exact Move.refl _ _ | apply Move.ite | apply clearError_move | apply updCone_move)
    | decide | intro u | split | dsimp only

theorem coneDivergence_move (h : Move w s t) (k : Part.sub [.cones, .boot, .log, .coll, .host, .out] w) : Move w s (coneDivergence a1 t) := by
  refine Move.step h ?_ k
  unfold coneDivergence
  repeat' first
    | with_reducible (first | exact Move.refl _ _ | apply Move.ite | apply clearError_move | apply updCone_move | apply raiseError_move)
    | decide | intro u | split | dsimp only

theorem soloEvent_move (h : Move w s t) (k : Part.sub [.hearths, .chans, .links, .out] w) : Move w s (soloEvent t a1 a2 a3) := by
  refine Move.step h ?_ k
  unfold soloEvent
  repeat' first
    | with_reducible (first | exact Move.refl _ _ | apply Move.ite | apply sitterEvent_move | apply updChan_move)
    | decide | intro u | split | dsimp only

theorem twinStep_move (h : Move w s t) (k : Part.sub [.hearths, .chans, .links, .log, .coll, .host, .out] w) : Move w s (twinStep t a1 a2) := by
  refine Move.step h ?_ k
  unfold twinStep
  repeat' first
    | with_reducible (first | exact Move.refl _ _ | apply Move.ite | apply updChan_move | apply clearError_move | apply soloEvent_move)
    | decide | intro u | split | dsimp only

theorem twinReturn_move (h : Move w s t) (k : Part.sub [.hearths, .chans, .links, .out] w) : Move w s (twinReturn a1 t) := by
  refine Move.step h ?_ k
  unfold twinReturn
  repeat' first
    | with_reducible (first | exact Move.refl _ _ | apply Move.ite | apply sitterEvent_move | apply updChan_move)
    | decide | intro u | split | dsimp only

theorem twinOpen_move (h : Move w s t) (k : Part.sub [.boot, .log, .coll, .host, .out] w) : Move w s (twinOpen a1 t) := by
  refine Move.step h ?_ k
  unfold twinOpen
  repeat' first
    | with_reducible (first | exact Move.refl _ _ | apply Move.ite | apply raiseError_move)
    | decide | intro u | split | dsimp only

theorem adoptState_move (h : Move w s t) (k : Part.sub [.chans, .log, .coll, .host] w) : Move w s (adoptState t a1) := by
  refine Move.step h ?_ k
  unfold adoptState
  repeat' first
    | with_reducible (first | exact Move.refl _ _ | apply Move.ite | apply updChan_move | apply clearError_move)
    | decide | intro u | split | dsimp only

theorem tripDue_move (h : Move w s t) (k : Part.sub [.cells, .hearths, .hks, .chans, .links, .out] w) : Move w s (tripDue t a1 a2) := by
  refine Move.step h ?_ k
  unfold tripDue
  repeat' first
    | with_reducible (first | exact Move.refl _ _ | apply Move.ite | apply sitterTrip_move)
    | decide | intro u | split | dsimp only

theorem rampBreak_move (h : Move w s t) (k : Part.sub [.chans] w) : Move w s (rampBreak t a1 a2) := by
  refine Move.step h ?_ k
  unfold rampBreak
  repeat' first
    | with_reducible (first | exact Move.refl _ _ | apply Move.ite | apply updChan_move)
    | decide | intro u | split | dsimp only

theorem rampTick_move (h : Move w s t) (k : Part.sub [.cells, .hearths, .hks, .chans, .links, .out] w) : Move w s (rampTick t a1 a2 a3 a4 a5) := by
  refine Move.step h ?_ k
  unfold rampTick
  repeat' first
    | with_reducible (first | exact Move.refl _ _ | apply Move.ite | apply updChan_move | apply rampBreak_move | apply sitterOut_move
                            | apply tripDue_move)
    | decide | intro u | split | dsimp only

theorem drainTick_move (h : Move w s t) (k : Part.sub [.chans] w) : Move w s (drainTick t a1) := by
  refine Move.step h ?_ k
  unfold drainTick
  repeat' first
    | with_reducible (first | exact Move.refl _ _ | apply Move.ite | apply updChan_move)
    | decide | intro u | split | dsimp only

theorem readyTick_move (h : Move w s t) (k : Part.sub [.cells, .hearths, .hks, .chans, .links, .out] w) : Move w s (readyTick t a1 a2 a3 a4) := by
  refine Move.step h ?_ k
  unfold readyTick
  repeat' first
    | with_reducible (first | exact Move.refl _ _ | apply Move.ite | apply updChan_move | apply rampTick_move | apply sitterOut_move
                            | apply drainTick_move)
    | decide | intro u | split | dsimp only

theorem uvTick_move (h : Move w s t) (k : Part.sub [.chans, .log, .coll, .host] w) : Move w s (uvTick t a1) := by
  refine Move.step h ?_ k
  unfold uvTick
  repeat' first
    | with_reducible (first | exact Move.refl _ _ | apply Move.ite | apply updChan_move | apply clearError_move)
    | decide | intro u | split | dsimp only

theorem fullBreak_move (h : Move w s t) (k : Part.sub [.chans] w) : Move w s (fullBreak t a1) := by
  refine Move.step h ?_ k
  unfold fullBreak
  repeat' first
    | with_reducible (first | exact Move.refl _ _ | apply Move.ite | apply updChan_move)
    | decide | intro u | split | dsimp only

theorem fullCount_move (h : Move w s t) (k : Part.sub [.chans] w) : Move w s (fullCount t a1 a2 a3) := by
  refine Move.step h ?_ k
  unfold fullCount
  repeat' first
    | with_reducible (first | exact Move.refl _ _ | apply Move.ite | apply updChan_move)
    | decide | intro u | split | dsimp only

theorem fullTick_move (h : Move w s t) (k : Part.sub [.cells, .hearths, .hks, .chans, .links, .out] w) : Move w s (fullTick t a1 a2 a3 a4) := by
  refine Move.step h ?_ k
  unfold fullTick
  repeat' first
    | with_reducible (first | exact Move.refl _ _ | apply Move.ite | apply fullBreak_move | apply sitterOut_move | apply fullCount_move
                            | apply tripDue_move)
    | decide | intro u | split | dsimp only

theorem answerChan_move (h : Move w s t) (k : Part.sub [.boot, .log, .coll, .host, .out] w) : Move w s (answerChan t a1 a2 a3 a4) := by
  refine Move.step h ?_ k
  unfold answerChan
  repeat' first
    | with_reducible (first | exact Move.refl _ _ | apply Move.ite | apply setHost_move | apply commandedReset_move
                            | refine Move.foldl ?_ (fun u a => ?_))
    | decide | intro u | split | dsimp only

theorem readRequests_move (h : Move w s t) (k : Part.sub [.cells, .hearths, .hks, .chans, .links, .boot, .log, .coll, .host, .out] w) : Move w s (readRequests t a1) := by
  refine Move.step h ?_ k
  unfold readRequests
  repeat' first
    | with_reducible (first | exact Move.refl _ _ | apply Move.ite | apply updChan_move | apply clearError_move | apply sitterOut_move
                            | apply answerChan_move)
    | decide | intro u | split | dsimp only

theorem bendOverride_move (h : Move w s t) (k : Part.sub [.cells, .hearths, .hks, .chans, .links, .boot, .log, .coll, .host, .out] w) : Move w s (bendOverride t a1 a2 a3) := by
  refine Move.step h ?_ k
  unfold bendOverride
  repeat' first
    | with_reducible (first | exact Move.refl _ _ | apply Move.ite | apply mismatch_move | apply sitterTrip_move)
    | decide | intro u | split | dsimp only

theorem coneChecks_move (h : Move w s t) (k : Part.sub [.cells, .hearths, .hks, .chans, .links, .boot, .log, .coll, .host, .out] w) : Move w s (coneChecks t a1 a2) := by
  refine Move.step h ?_ k
  unfold coneChecks
  repeat' first
    | with_reducible (first | exact Move.refl _ _ | apply Move.ite | apply mismatch_move | apply bendOverride_move)
    | decide | intro u | split | dsimp only

theorem peerChecks_move (h : Move w s t) (k : Part.sub [.cells, .hearths, .hks, .chans, .links, .boot, .log, .coll, .host, .out] w) : Move w s (peerChecks t a1 a2 a3) := by
  refine Move.step h ?_ k
  unfold peerChecks
  repeat' first
    | with_reducible (first | exact Move.refl _ _ | apply Move.ite | apply mismatch_move | apply coneChecks_move)
    | decide | intro u | split | dsimp only

theorem breakerNow_move (h : Move w s t) (k : Part.sub [.chans] w) : Move w s (breakerNow t a1 a2) := by
  refine Move.step h ?_ k
  unfold breakerNow
  repeat' first
    | with_reducible (first | exact Move.refl _ _ | apply Move.ite | apply updChan_move | apply rampBreak_move)
    | decide | intro u | split | dsimp only

theorem stateWord_move (h : Move w s t) (k : Part.sub [.cells, .hearths, .hks, .chans, .links, .out] w) : Move w s (stateWord t a1 a2 a3 a4 a5 a6) := by
  refine Move.step h ?_ k
  unfold stateWord
  repeat' first
    | with_reducible (first | exact Move.refl _ _ | apply Move.ite | apply rampTick_move | apply fullTick_move | apply gateOffDecision_move
                            | apply sitterOut_move | apply readyTick_move | apply tripDue_move | apply breakerNow_move
                            | apply drainTick_move)
    | decide | intro u | split | dsimp only

theorem sitterWord_move (h : Move w s t) (k : Part.sub [.cells, .hearths, .hks, .chans, .links, .boot, .log, .coll, .host, .out] w) : Move w s (sitterWord t a1 a2 a3 a4 a5) := by
  refine Move.step h ?_ k
  unfold sitterWord
  repeat' first
    | with_reducible (first | exact Move.refl _ _ | apply Move.ite | apply stateWord_move | apply breakerNow_move | apply readRequests_move)
    | decide | intro u | split | dsimp only

theorem noteHead_move (h : Move w s t) (k : Part.sub [.cones] w) : Move w s (noteHead t a1 a2) := by
  refine Move.step h ?_ k
  unfold noteHead
  repeat' first
    | with_reducible (first | exact Move.refl _ _ | apply Move.ite | apply updCone_move)
    | decide | intro u | split | dsimp only

theorem sitterTickAt_move (h : Move w s t) (k : Part.sub [.cells, .hearths, .hks, .chans, .cones, .links, .boot, .log, .coll, .host, .out] w) : Move w s (sitterTickAt t a1 a2 a3) := by
  refine Move.step h ?_ k
  unfold sitterTickAt
  repeat' first
    | with_reducible (first | exact Move.refl _ _ | apply Move.ite | apply updChan_move | apply twinStep_move | apply uvTick_move
                            | apply sitterWord_move | apply peerChecks_move | apply noteHead_move)
    | decide | intro u | split | dsimp only

theorem catchUpSitter_move (h : Move w s t) (k : Part.sub [.chans, .log, .coll, .host] w) : Move w s (catchUpSitter t a1 a2) := by
  refine Move.step h ?_ k
  unfold catchUpSitter
  repeat' first
    | with_reducible (first | exact Move.refl _ _ | apply Move.ite | apply updChan_move | apply fullBreak_move | apply uvTick_move
                            | apply rampBreak_move | apply fullCount_move | apply drainTick_move)
    | decide | intro u | split | dsimp only

theorem breakerTrip_move (h : Move w s t) (k : Part.sub [.cells, .hearths, .hks, .chans, .links, .out] w) : Move w s (breakerTrip a1 t) := by
  refine Move.step h ?_ k
  unfold breakerTrip
  repeat' first
    | with_reducible (first | exact Move.refl _ _ | apply Move.ite | apply updChan_move | apply soloEvent_move | apply tripDue_move)
    | decide | intro u | split | dsimp only

theorem tripIfDue_move (h : Move w s t) (k : Part.sub [.cells, .hearths, .hks, .chans, .links, .out] w) : Move w s (tripIfDue t a1 a2) := by
  refine Move.step h ?_ k
  unfold tripIfDue
  repeat' first
    | with_reducible (first | exact Move.refl _ _ | apply Move.ite | apply tripDue_move)
    | decide | intro u | split | dsimp only

theorem rampDeadline_move (h : Move w s t) (k : Part.sub [.cells, .hearths, .hks, .chans, .links, .out] w) : Move w s (rampDeadline a1 t) := by
  refine Move.step h ?_ k
  unfold rampDeadline
  repeat' first
    | with_reducible (first | exact Move.refl _ _ | apply Move.ite | apply tripIfDue_move)
    | decide | intro u | split | dsimp only

theorem gateHoldCheck_move (h : Move w s t) (k : Part.sub [.cells, .hearths, .hks, .chans, .links, .out] w) : Move w s (gateHoldCheck a1 t) := by
  refine Move.step h ?_ k
  unfold gateHoldCheck
  repeat' first
    | with_reducible (first | exact Move.refl _ _ | apply Move.ite | apply tripIfDue_move)
    | decide | intro u | split | dsimp only

theorem progressWindowEnd_move (h : Move w s t) (k : Part.sub [.cells, .hearths, .hks, .chans, .links, .out] w) : Move w s (progressWindowEnd a1 t) := by
  refine Move.step h ?_ k
  unfold progressWindowEnd
  repeat' first
    | with_reducible (first | exact Move.refl _ _ | apply Move.ite | apply updChan_move | apply tripDue_move)
    | decide | intro u | split | dsimp only

theorem soakDurationEnd_move (h : Move w s t) (k : Part.sub [.chans] w) : Move w s (soakDurationEnd a1 t) := by
  refine Move.step h ?_ k
  unfold soakDurationEnd
  repeat' first
    | with_reducible (first | exact Move.refl _ _ | apply Move.ite | apply updChan_move)
    | decide | intro u | split | dsimp only

theorem pgDwellComplete_move (h : Move w s t) (k : Part.sub [.cells, .hearths, .hks, .chans, .links, .out] w) : Move w s (pgDwellComplete a1 t) := by
  refine Move.step h ?_ k
  unfold pgDwellComplete
  repeat' first
    | with_reducible (first | exact Move.refl _ _ | apply Move.ite | apply updChan_move | apply sitterCmd_move)
    | decide | intro u | split | dsimp only

theorem backoffEnd_move (h : Move w s t) (k : Part.sub [.cells, .hearths, .hks, .chans, .links, .out] w) : Move w s (backoffEnd a1 t) := by
  refine Move.step h ?_ k
  unfold backoffEnd
  repeat' first
    | with_reducible (first | exact Move.refl _ _ | apply Move.ite | apply updChan_move | apply sitterCmd_move)
    | decide | intro u | split | dsimp only

theorem decayInterval_move (h : Move w s t) (k : Part.sub [.chans] w) : Move w s (decayInterval a1 t) := by
  refine Move.step h ?_ k
  unfold decayInterval
  repeat' first
    | with_reducible (first | exact Move.refl _ _ | apply Move.ite | apply updChan_move)
    | decide | intro u | split | dsimp only

theorem stateSkew_move (h : Move w s t) (k : Part.sub [.cells, .hearths, .hks, .chans, .links, .boot, .log, .coll, .host, .out] w) : Move w s (stateSkew a1 t) := by
  refine Move.step h ?_ k
  unfold stateSkew
  repeat' first
    | with_reducible (first | exact Move.refl _ _ | apply Move.ite | apply updChan_move | apply sitterCmd_move | apply raiseError_move)
    | decide | intro u | split | dsimp only

theorem uvTimeReached_move (h : Move w s t) (k : Part.sub [.hearths, .links, .boot, .log, .coll, .host, .out] w) : Move w s (uvTimeReached a1 t) := by
  refine Move.step h ?_ k
  unfold uvTimeReached
  repeat' first
    | with_reducible (first | exact Move.refl _ _ | apply Move.ite | apply sitterEvent_move | apply raiseError_move)
    | decide | intro u | split | dsimp only

theorem coneWaitEvent_move (h : Move w s t) (k : Part.sub [.hearths, .chans, .links, .out] w) : Move w s (coneWaitEvent a1 t) := by
  refine Move.step h ?_ k
  unfold coneWaitEvent
  repeat' first
    | with_reducible (first | exact Move.refl _ _ | apply Move.ite | apply sitterEvent_move | apply updChan_move)
    | decide | intro u | split | dsimp only

theorem startDelayElapsed_move (h : Move w s t) (k : Part.sub [.cells, .hearths, .hks, .chans, .links, .out] w) : Move w s (startDelayElapsed a1 t) := by
  refine Move.step h ?_ k
  unfold startDelayElapsed
  repeat' first
    | with_reducible (first | exact Move.refl _ _ | apply Move.ite | apply updChan_move | apply rampTick_move)
    | decide | intro u | split | dsimp only

end Sys2Proof.Machine
end

