-- ==== Sys2Proof/Laws/MoveTicks.lean ====
section
/-! SUPPORT. The moves of the ticks, engine service, the Kiln Book, the carry state, rails and resets: for each operation, the parts of the state that it may change; State.Wf is kept. -/
namespace Sys2Proof.Machine
open Sys2Proof

variable {s t u : State} {w : List Part}

theorem hkTimerTrigger_move (h : Move w s t) (k : Part.sub [.hks] w) : Move w s (hkTimerTrigger a1 t) := by
  refine Move.step h ?_ k
  unfold hkTimerTrigger
  repeat' first
    | with_reducible (first | exact Move.refl _ _ | apply Move.ite | apply seqTrigger_move)
    | decide | intro u | split | dsimp only

theorem hkStartEventTrigger_move (h : Move w s t) (k : Part.sub [.hks] w) : Move w s (hkStartEventTrigger a1 t) := by
  refine Move.step h ?_ k
  unfold hkStartEventTrigger
  repeat' first
    | with_reducible (first | exact Move.refl _ _ | apply Move.ite | apply updHk_move | apply seqTrigger_move)
    | decide | intro u | split | dsimp only

theorem hkUrgentTrigger_move (h : Move w s t) (k : Part.sub [.hks] w) : Move w s (hkUrgentTrigger a1 a2 a3 t) := by
  refine Move.step h ?_ k
  unfold hkUrgentTrigger
  repeat' first
    | with_reducible (first | exact Move.refl _ _ | apply Move.ite | apply updHk_move)
    | decide | intro u | split | dsimp only

theorem compareDac_move (h : Move w s t) (k : Part.sub [.hearths, .hks, .log, .coll, .host, .free] w) : Move w s (compareDac t a1 a2 a3 a4 a5) := by
  refine Move.step h ?_ k
  unfold compareDac
  repeat' first
    | with_reducible (first | exact Move.refl _ _ | apply Move.ite | apply updHk_move | apply groupDetail_move
                            | apply groupDetail_move_eq (by assumption) | apply endError_move | apply reportError_move)
    | decide | intro u | split | dsimp only

theorem hkAdvance_move (h : Move w s t) (k : Part.sub [.hks] w) : Move w s (hkAdvance t a1 a2 a3 a4) := by
  refine Move.step h ?_ k
  unfold hkAdvance
  repeat' first
    | with_reducible (first | exact Move.refl _ _ | apply Move.ite | apply updHk_move)
    | decide | intro u | split | dsimp only

theorem hkFinish_move (h : Move w s t) (k : Part.sub [.hearths, .hks, .log, .coll, .host, .free] w) : Move w s (hkFinish t a1 a2 a3 a4 a5 a6 a7 a8) := by
  refine Move.step h ?_ k
  unfold hkFinish
  repeat' first
    | with_reducible (first | exact Move.refl _ _ | apply Move.ite | apply updHk_move | apply endError_move | apply reportError_move
                            | apply compareDac_move)
    | decide | intro u | split | dsimp only

theorem hkDiodeStep_move (h : Move w s t) (k : Part.sub [.hks] w) : Move w s (hkDiodeStep t a1 a2 a3) := by
  refine Move.step h ?_ k
  unfold hkDiodeStep
  repeat' first
    | with_reducible (first | exact Move.refl _ _ | apply Move.ite | apply updHk_move)
    | decide | intro u | split | dsimp only

theorem hkConversionComplete_move (h : Move w s t) (k : Part.sub [.hearths, .hks, .log, .coll, .host, .free] w) : Move w s (hkConversionComplete a1 a2 t) := by
  refine Move.step h ?_ k
  unfold hkConversionComplete
  repeat' first
    | with_reducible (first | exact Move.refl _ _ | apply Move.ite | apply hkAdvance_move | apply hkFinish_move | apply updHk_move
                            | apply hkDiodeStep_move)
    | decide | intro u | split | dsimp only

theorem hkPassEnd_move (h : Move w s t) (k : Part.sub [.hks, .passes] w) : Move w s (hkPassEnd a1 t) := by
  refine Move.step h ?_ k
  unfold hkPassEnd
  repeat' first
    | with_reducible (first | exact Move.refl _ _ | apply Move.ite | apply updHk_move | apply startPass_move | apply putPasses_move)
    | decide | intro u | split | dsimp only

theorem sendUp_move (h : Move w s t) (k : Part.sub [.hearths, .out] w) : Move w s (sendUp t a1 a2 a3 a4 a5) := by
  refine Move.step h ?_ k
  unfold sendUp
  repeat' first
    | with_reducible (first | exact Move.refl _ _ | apply Move.ite | apply updHearth_move | apply emit_move)
    | decide | intro u | split | dsimp only

theorem sendUpIdle_move (h : Move w s t) (k : Part.sub [.out] w) : Move w s (sendUpIdle t a1 a2 a3 a4) := by
  refine Move.step h ?_ k
  unfold sendUpIdle
  repeat' first
    | with_reducible (first | exact Move.refl _ _ | apply Move.ite | apply emit_move)
    | decide | intro u | split | dsimp only

theorem sendStandby_move (h : Move w s t) (k : Part.sub [.out] w) : Move w s (sendStandby t a1 a2) := by
  refine Move.step h ?_ k
  unfold sendStandby
  repeat' first
    | with_reducible (first | exact Move.refl _ _ | apply Move.ite | apply sendUpIdle_move)
    | decide | intro u | split | dsimp only

theorem toldRefusal_move (h : Move w s t) (k : Part.sub [.hearths] w) : Move w s (toldRefusal t a1 a2) := by
  refine Move.step h ?_ k
  unfold toldRefusal
  repeat' first
    | with_reducible (first | exact Move.refl _ _ | apply Move.ite | apply updHearth_move)
    | decide | intro u | split | dsimp only

theorem sendEventFrames_move (h : Move w s t) (k : Part.sub [.hearths, .out] w) : Move w s (sendEventFrames t a1 a2 a3) := by
  refine Move.step h ?_ k
  unfold sendEventFrames
  repeat' first
    | with_reducible (first | exact Move.refl _ _ | apply Move.ite | apply sendUp_move | refine Move.forEach ?_ (fun u a => ?_))
    | decide | intro u | split | dsimp only

theorem sendHolder_move (h : Move w s t) (k : Part.sub [.hearths, .out] w) : Move w s (sendHolder t a1 a2 a3) := by
  refine Move.step h ?_ k
  unfold sendHolder
  repeat' first
    | with_reducible (first | exact Move.refl _ _ | apply Move.ite | apply sendEventFrames_move | apply sendUp_move | apply toldRefusal_move
                            | apply sendUpIdle_move | apply updHearth_move | apply sendStandby_move)
    | decide | intro u | split | dsimp only

theorem sendOther_move (h : Move w s t) (k : Part.sub [.hearths, .out] w) : Move w s (sendOther t a1 a2 a3) := by
  refine Move.step h ?_ k
  unfold sendOther
  repeat' first
    | with_reducible (first | exact Move.refl _ _ | apply Move.ite | apply sendUp_move | apply toldRefusal_move | apply sendUpIdle_move
                            | apply sendStandby_move)
    | decide | intro u | split | dsimp only

theorem sendFrames_move (h : Move w s t) (k : Part.sub [.hearths, .out] w) : Move w s (sendFrames t a1 a2) := by
  refine Move.step h ?_ k
  unfold sendFrames
  repeat' first
    | with_reducible (first | exact Move.refl _ _ | apply Move.ite | apply sendOther_move | apply sendHolder_move)
    | decide | intro u | split | dsimp only

theorem noteBends_move (h : Move w s t) (k : Part.sub [.pmb] w) : Move w s (noteBends t a1) := by
  refine Move.step h ?_ k
  unfold noteBends
  repeat' first
    | with_reducible (first | exact Move.refl _ _ | apply Move.ite | apply setPmb_move)
    | decide | intro u | split | dsimp only

theorem hearthTick_move (h : Move w s t) (k : Part.sub [.cells, .hearths, .slots, .spies, .captures, .groups, .hks, .host, .pmb, .out] w) : Move w s (hearthTick a1 a2 t) := by
  refine Move.step h ?_ k
  unfold hearthTick
  repeat' first
    | with_reducible (first | exact Move.refl _ _ | apply Move.ite | apply updHk_move | apply updGroup_move | apply sendFrames_move
                            | apply captureTick_move | apply returnTick_move | apply ledTick_move | apply updHearth_move
                            | apply spyNewWord_move | apply noteBends_move | apply updCell_move | refine Move.forEach ?_ (fun u a => ?_))
    | decide | intro u | split | dsimp only

theorem hkUse_move (h : Move w s t) (k : Part.sub [.chans, .gbus, .gbusNew] w) : Move w s (hkUse t a1 a2) := by
  refine Move.step h ?_ k
  unfold hkUse
  repeat' first
    | with_reducible (first | exact Move.refl _ _ | apply Move.ite | apply updChan_move | apply putGbusNew_move | apply putGbus_move)
    | decide | intro u | split | dsimp only

theorem hkArrive_move (h : Move w s t) (k : Part.sub [.chans, .gbus, .gbusNew, .hkRecs] w) : Move w s (hkArrive t a1 a2) := by
  refine Move.step h ?_ k
  unfold hkArrive
  repeat' first
    | with_reducible (first | exact Move.refl _ _ | apply Move.ite | apply putHkRec_move | apply hkUse_move)
    | decide | intro u | split | dsimp only

theorem recordIngress_move (h : Move w s t) (k : Part.sub [.clusters] w) : Move w s (recordIngress t a1 a2 a3 a4) := by
  refine Move.step h ?_ k
  unfold recordIngress
  repeat' first
    | with_reducible (first | exact Move.refl _ _ | apply Move.ite | apply updCluster_move | refine Move.forEach ?_ (fun u a => ?_))
    | decide | intro u | split | dsimp only

theorem sampleFrame_move (h : Move w s t) (k : Part.sub [.chans, .clusters, .links, .gbus, .frameShadow, .frameTick, .gbusNew, .hkRecs] w) : Move w s (sampleFrame a1 a2 a3 t) := by
  refine Move.step h ?_ k
  unfold sampleFrame
  repeat' first
    | with_reducible (first | exact Move.refl _ _ | apply Move.ite | apply updChan_move | apply hkArrive_move | apply putFrameShadow_move
                            | apply takeUp_move | apply putFrameTick_move | apply recordIngress_move | apply putGbusNew_move
                            | refine Move.forEach ?_ (fun u a => ?_))
    | decide | intro u | split | dsimp only

theorem loadPorts_move (h : Move w s t) (k : Part.sub [.engines] w) : Move w s (loadPorts t a1 a2 a3) := by
  refine Move.step h ?_ k
  unfold loadPorts
  repeat' first
    | with_reducible (first | exact Move.refl _ _ | apply Move.ite | apply updEngine_move)
    | decide | intro u | split | dsimp only

theorem conePower_move (h : Move w s t) (k : Part.sub [.cones] w) : Move w s (conePower t a1 a2) := by
  refine Move.step h ?_ k
  unfold conePower
  repeat' first
    | with_reducible (first | exact Move.refl _ _ | apply Move.ite | apply updCone_move)
    | decide | intro u | split | dsimp only

theorem sendRequest_move (h : Move w s t) (k : Part.sub [.hearths, .links, .out] w) : Move w s (sendRequest t a1 a2) := by
  refine Move.step h ?_ k
  unfold sendRequest
  repeat' first
    | with_reducible (first | exact Move.refl _ _ | apply Move.ite | apply sendEventReq_move | apply numberRequest_move)
    | decide | intro u | split | dsimp only

theorem latchCmd_move (h : Move w s t) (k : Part.sub [.cells, .hearths, .hks, .chans, .links, .boot, .log, .coll, .host, .out] w) : Move w s (latchCmd t a1 a2) := by
  refine Move.step h ?_ k
  unfold latchCmd
  repeat' first
    | with_reducible (first | exact Move.refl _ _ | apply Move.ite | apply updChan_move | apply sitterOut_move | apply answerChan_move)
    | decide | intro u | split | dsimp only

theorem latchHead_move (h : Move w s t) (k : Part.sub [.cones] w) : Move w s (latchHead t a1 a2 a3) := by
  refine Move.step h ?_ k
  unfold latchHead
  repeat' first
    | with_reducible (first | exact Move.refl _ _ | apply Move.ite | apply updCone_move)
    | decide | intro u | split | dsimp only

theorem endTick_move (h : Move w s t) (k : Part.sub [.hearths, .engines, .clusters, .links, .boot, .log, .coll, .host, .out] w) : Move w s (endTick t a1 a2 a3) := by
  refine Move.step h ?_ k
  unfold endTick
  repeat' first
    | with_reducible (first | exact Move.refl _ _ | apply Move.ite | apply updEngine_move | apply sendRequest_move | apply latchSlot_move
                            | apply raiseError_move | refine Move.foldl ?_ (fun u a => ?_))
    | decide | intro u | split | dsimp only

theorem customTick_move (h : Move w s t) (k : Part.sub [.cells, .hearths, .hks, .chans, .cones, .engines, .clusters, .links, .boot, .log, .coll, .host, .out, .free] w) : Move w s (customTick t a1 a2 a3 a4 a5) := by
  refine Move.step h ?_ k
  unfold customTick
  repeat' first
    | with_reducible (first | exact Move.refl _ _ | apply Move.ite | apply updChan_move | apply latchHead_move | apply updCone_move
                            | apply endTick_move | apply engineTick_move | apply latchCmd_move)
    | decide | intro u | split | dsimp only

theorem libTickEnd_move (h : Move w s t) (k : Part.sub [.engines, .clusters] w) : Move w s (libTickEnd t a1 a2 a3 a4 a5) := by
  refine Move.step h ?_ k
  unfold libTickEnd
  repeat' first
    | with_reducible (first | exact Move.refl _ _ | apply Move.ite | apply updEngine_move | apply latchSlot_move)
    | decide | intro u | split | dsimp only

theorem libTick_move (h : Move w s t) (k : Part.sub [.cells, .hearths, .hks, .chans, .cones, .engines, .clusters, .links, .boot, .log, .coll, .host, .out] w) : Move w s (libTick t a1 a2 a3 a4) := by
  refine Move.step h ?_ k
  unfold libTick
  repeat' first
    | with_reducible (first | exact Move.refl _ _ | apply Move.ite | apply sitterTickAt_move | apply libTickEnd_move)
    | decide | intro u | split | dsimp only

theorem roleTick_move (h : Move w s t) (k : Part.sub [.cells, .hearths, .hks, .chans, .cones, .engines, .clusters, .links, .boot, .log, .coll, .host, .out, .free] w) : Move w s (roleTick a1 a2 t a3) := by
  refine Move.step h ?_ k
  unfold roleTick
  repeat' first
    | with_reducible (first | exact Move.refl _ _ | apply Move.ite | apply conePower_move | apply loadPorts_move | apply customTick_move
                            | apply libTick_move)
    | decide | intro u | split | dsimp only

theorem freeRegions_move (h : Move w s t) (k : Part.sub [.clusters] w) : Move w s (freeRegions t a1) := by
  refine Move.step h ?_ k
  unfold freeRegions
  repeat' first
    | with_reducible (first | exact Move.refl _ _ | apply Move.ite | apply updCluster_move)
    | decide | intro u | split | dsimp only

theorem clusterRuns_move (h : Move w s t) (k : Part.sub [.cells, .hearths, .hks, .chans, .cones, .engines, .clusters, .links, .boot, .log, .coll, .host, .out, .free] w) : Move w s (clusterRuns a1 t) := by
  refine Move.step h ?_ k
  unfold clusterRuns
  repeat' first
    | with_reducible (first | exact Move.refl _ _ | apply Move.ite | apply freeRegions_move | apply fullCmd_move | apply roleTick_move
                            | apply updCluster_move | refine Move.forEach ?_ (fun u a => ?_))
    | decide | intro u | split | dsimp only

theorem parameterBankSwap_move (h : Move w s t) (k : Part.sub [.chans, .engines, .clusters] w) : Move w s (parameterBankSwap a1 t) := by
  refine Move.step h ?_ k
  unfold parameterBankSwap
  repeat' first
    | with_reducible (first | exact Move.refl _ _ | apply Move.ite | apply updChan_move | apply freeRegions_move | apply updEngine_move
                            | apply updCluster_move | refine Move.forEach ?_ (fun u a => ?_))
    | decide | intro u | split | dsimp only

theorem stateEntryIn_move (h : Move w s t) (k : Part.sub [.cells, .hearths, .hks, .chans, .links, .log, .coll, .host, .out] w) : Move w s (stateEntryIn t a1 a2) := by
  refine Move.step h ?_ k
  unfold stateEntryIn
  repeat' first
    | with_reducible (first | exact Move.refl _ _ | apply Move.ite | apply updChan_move | apply sitterCmd_move | apply adoptState_move)
    | decide | intro u | split | dsimp only

theorem seeState_move (h : Move w s t) (k : Part.sub [.links] w) : Move w s (seeState t a1) := by
  refine Move.step h ?_ k
  unfold seeState
  repeat' first
    | with_reducible (first | exact Move.refl _ _ | apply Move.ite | apply updLink_move)
    | decide | intro u | split | dsimp only

theorem stateFrameIn_move (h : Move w s t) (k : Part.sub [.cells, .hearths, .hks, .chans, .clusters, .links, .feedWord, .hblocks, .log, .coll, .host, .out] w) : Move w s (stateFrameIn t a1 a2 a3) := by
  refine Move.step h ?_ k
  unfold stateFrameIn
  repeat' first
    | with_reducible (first | exact Move.refl _ _ | apply Move.ite | apply stateEntryIn_move | apply putHblock_move | apply putFeedWord_move
                            | apply recordIngress_move | apply scheduleFirst_move | refine Move.forEach ?_ (fun u a => ?_))
    | decide | intro u | split | dsimp only

theorem checkUnitFailure_move (h : Move w s t) (k : Part.sub [.chans, .engines, .boot, .log, .coll, .host, .out] w) : Move w s (checkUnitFailure a1 t) := by
  refine Move.step h ?_ k
  unfold checkUnitFailure
  repeat' first
    | with_reducible (first | exact Move.refl _ _ | apply Move.ite | apply failEngine_move)
    | decide | intro u | split | dsimp only

theorem takeForm_move (h : Move w s t) (k : Part.sub [.engines] w) : Move w s (takeForm t a1 a2 a3 a4 a5) := by
  refine Move.step h ?_ k
  unfold takeForm
  repeat' first
    | with_reducible (first | exact Move.refl _ _ | apply Move.ite | apply updEngine_move)
    | decide | intro u | split | dsimp only

theorem presentFrame_move (h : Move w s t) (k : Part.sub [.chans, .gbus, .frameShadow, .frameTick, .gbusNew] w) : Move w s (presentFrame a1 t a2) := by
  refine Move.step h ?_ k
  unfold presentFrame
  repeat' first
    | with_reducible (first | exact Move.refl _ _ | apply Move.ite | apply updChan_move | apply putFrameShadow_move
                            | apply putFrameTick_move | apply putGbusNew_move | apply hkUse_move)
    | decide | intro u | split | dsimp only

theorem pastState_move (h : Move w s t) (k : Part.sub [.chans, .gbus, .frameShadow, .frameTick, .gbusNew] w) : Move w s (pastState t a1 a2 a3 a4) := by
  refine Move.step h ?_ k
  unfold pastState
  repeat' first
    | with_reducible (first | exact Move.refl _ _ | apply Move.ite | apply updChan_move | apply putFrameShadow_move | apply putGbus_move
                            | apply presentFrame_move | refine Move.foldl ?_ (fun u a => ?_))
    | decide | intro u | split | dsimp only

theorem sameInputs_move (h : Move w s t) (k : Part.sub [.chans, .gbus, .frameShadow, .frameTick, .gbusNew] w) : Move w s (sameInputs a0 t a1) := by
  refine Move.step h ?_ k
  unfold sameInputs
  repeat' first
    | with_reducible (first | exact Move.refl _ _ | apply Move.ite | apply updChan_move | apply putFrameShadow_move
                            | apply putFrameTick_move | apply putGbusNew_move | apply putGbus_move)
    | decide | intro u | split | dsimp only

theorem replayTick_move (h : Move w s t) (k : Part.sub [.chans, .cones, .gbus, .frameShadow, .frameTick, .gbusNew, .log, .coll, .host] w) : Move w s (replayTick a1 a2 a3 a4 a5 t a6) := by
  refine Move.step h ?_ k
  unfold replayTick
  repeat' first
    | with_reducible (first | exact Move.refl _ _ | apply Move.ite | apply catchUpSitter_move | apply sameInputs_move | apply conePower_move
                            | apply pastState_move)
    | decide | intro u | split | dsimp only

theorem takeOver_move (h : Move w s t) (k : Part.sub [.hearths, .chans, .cones, .engines, .links, .gbus, .frameShadow, .frameTick, .gbusNew, .log, .coll, .host, .out] w) : Move w s (takeOver t a1 a2 a3 a4 a5) := by
  refine Move.step h ?_ k
  unfold takeOver
  repeat' first
    | with_reducible (first | exact Move.refl _ _ | apply Move.ite | apply sitterEvent_move | apply updChan_move | apply scheduleEnd_move
                            | apply updEngine_move | apply pastState_move | apply takeForm_move | apply replayTick_move
                            | refine Move.forEach ?_ (fun u a => ?_))
    | decide | intro u | split | dsimp only

theorem engineTakeover_move (h : Move w s t) (k : Part.sub [.hearths, .chans, .cones, .engines, .links, .gbus, .frameShadow, .frameTick, .gbusNew, .boot, .log, .coll, .host, .out] w) : Move w s (engineTakeover a1 t) := by
  refine Move.step h ?_ k
  unfold engineTakeover
  repeat' first
    | with_reducible (first | exact Move.refl _ _ | apply Move.ite | apply takeOver_move | apply unhost_move)
    | decide | intro u | split | dsimp only

theorem unhostedRehost_move (h : Move w s t) (k : Part.sub [.hearths, .chans, .cones, .engines, .links, .gbus, .frameShadow, .frameTick, .gbusNew, .log, .coll, .host, .out] w) : Move w s (unhostedRehost a1 t) := by
  refine Move.step h ?_ k
  unfold unhostedRehost
  repeat' first
    | with_reducible (first | exact Move.refl _ _ | apply Move.ite | apply takeOver_move | apply clearError_move)
    | decide | intro u | split | dsimp only

theorem recomputationComplete_move (h : Move w s t) (k : Part.sub [.chans, .engines, .boot, .log, .coll, .host, .out] w) : Move w s (recomputationComplete a1 a2 t) := by
  refine Move.step h ?_ k
  unfold recomputationComplete
  repeat' first
    | with_reducible (first | exact Move.refl _ _ | apply Move.ite | apply updChan_move | apply clearError_move | apply failEngine_move
                            | apply raiseError_move)
    | decide | intro u | split | dsimp only

theorem clusterDown_move (h : Move w s t) (k : Part.sub [.chans, .engines, .clusters, .boot, .log, .coll, .host, .out] w) : Move w s (clusterDown t a1) := by
  refine Move.step h ?_ k
  unfold clusterDown
  repeat' first
    | with_reducible (first | exact Move.refl _ _ | apply Move.ite | apply failEngine_move | apply updCluster_move
                            | refine Move.forEach ?_ (fun u a => ?_))
    | decide | intro u | split | dsimp only

theorem failCluster_move (h : Move w s t) (k : Part.sub [.chans, .engines, .clusters, .boot, .log, .coll, .host, .out] w) : Move w s (failCluster t a1 a2 a3) := by
  refine Move.step h ?_ k
  unfold failCluster
  repeat' first
    | with_reducible (first | exact Move.refl _ _ | apply Move.ite | apply clusterDown_move | apply raiseError_move)
    | decide | intro u | split | dsimp only

theorem clusterClockLoss_move (h : Move w s t) (k : Part.sub [.chans, .engines, .clusters, .boot, .log, .coll, .host, .out, .free] w) : Move w s (clusterClockLoss a1 t) := by
  refine Move.step h ?_ k
  unfold clusterClockLoss
  repeat' first
    | with_reducible (first | exact Move.refl _ _ | apply Move.ite | apply freshFree_move | apply freshFree_move_eq (by assumption)
                            | apply failCluster_move)
    | decide | intro u | split | dsimp only

theorem packChan_move (h : Move w s t) (k : Part.sub [.chans, .engines] w) : Move w s (packChan t a1) := by
  refine Move.step h ?_ k
  unfold packChan
  repeat' first
    | with_reducible (first | exact Move.refl _ _ | apply Move.ite | apply updChan_move | apply updEngine_move | apply takeForm_move)
    | decide | intro u | split | dsimp only

theorem packNow_move (h : Move w s t) (k : Part.sub [.chans, .engines, .boot] w) : Move w s (packNow t) := by
  refine Move.step h ?_ k
  unfold packNow
  repeat' first
    | with_reducible (first | exact Move.refl _ _ | apply Move.ite | apply packChan_move | apply setBoot_move
                            | refine Move.forEach ?_ (fun u a => ?_) | exact rfl)
    | exact rfl | decide | intro u | split | dsimp only

theorem splitRoles_move (h : Move w s t) (k : Part.sub [.chans, .engines] w) : Move w s (splitRoles t a1 a2) := by
  refine Move.step h ?_ k
  unfold splitRoles
  repeat' first
    | with_reducible (first | exact Move.refl _ _ | apply Move.ite | apply updChan_move | apply updEngine_move | apply takeForm_move)
    | decide | intro u | split | dsimp only

theorem unpackChan_move (h : Move w s t) (k : Part.sub [.chans, .engines] w) : Move w s (unpackChan t a1) := by
  refine Move.step h ?_ k
  unfold unpackChan
  repeat' first
    | with_reducible (first | exact Move.refl _ _ | apply Move.ite | apply splitRoles_move)
    | decide | intro u | split | dsimp only

theorem returnChan_move (h : Move w s t) (k : Part.sub [.chans, .engines] w) : Move w s (returnChan t a1 a2) := by
  refine Move.step h ?_ k
  unfold returnChan
  repeat' first
    | with_reducible (first | exact Move.refl _ _ | apply Move.ite | apply updChan_move | apply splitRoles_move | apply updEngine_move
                            | apply takeForm_move)
    | decide | intro u | split | dsimp only

theorem returnChans_move (h : Move w s t) (k : Part.sub [.chans, .engines, .clusters, .coll] w) : Move w s (returnChans t a1) := by
  refine Move.step h ?_ k
  unfold returnChans
  repeat' first
    | with_reducible (first | exact Move.refl _ _ | apply Move.ite | apply returnChan_move | apply scheduleEnd_move | apply updCluster_move
                            | refine Move.forEach ?_ (fun u a => ?_))
    | decide | intro u | split | dsimp only

theorem clusterTick_move (h : Move w s t) (k : Part.sub [.cells, .hearths, .hks, .chans, .cones, .engines, .clusters, .links, .boot, .log, .coll, .host, .out, .free] w) : Move w s (clusterTick a1 t) := by
  refine Move.step h ?_ k
  unfold clusterTick
  repeat' first
    | with_reducible (first | exact Move.refl _ _ | apply Move.ite | apply clusterRuns_move | apply returnChans_move)
    | decide | intro u | split | dsimp only

theorem unpackingEdge_move (h : Move w s t) (k : Part.sub [.chans, .engines, .boot] w) : Move w s (unpackingEdge t) := by
  refine Move.step h ?_ k
  unfold unpackingEdge
  repeat' first
    | with_reducible (first | exact Move.refl _ _ | apply Move.ite | apply unpackChan_move | apply setBoot_move
                            | refine Move.forEach ?_ (fun u a => ?_) | exact rfl)
    | exact rfl | decide | intro u | split | dsimp only

theorem placeForm_move (e : placeForm t a1 a2 a3 a4 a5 = some u) (h : Move w s t) (k : Part.sub [.clusters] w) : Move w s u := by
  refine Move.step h ?_ k
  unfold placeForm at e
  dsimp only at e
  split at e
  · cases e
  · cases e
    exact updCluster_move (Move.refl _ _) (by decide)

theorem placeAll_move (e : placeAll a1 a2 a3 t = some u) (h : Move w s t) (k : Part.sub [.clusters] w) : Move w s u := by
  induction a3 generalizing t with
  | nil => cases e; exact h
  | cons p r ih =>
    unfold placeAll at e
    split at e
    · cases e
    · exact ih e (placeForm_move (by assumption) h k)

theorem placeSched_move (e : placeSched t a1 a2 a3 = some u) (h : Move w s t) (k : Part.sub [.clusters] w) : Move w s u := by
  refine Move.step h ?_ k
  unfold placeSched at e
  revert e
  repeat' first
    | (intro e; cases e)
    | with_reducible (first | exact Move.refl _ _ | apply Move.ite | apply placeAll_move (by assumption))
    | decide | intro u | split | dsimp only

theorem noteAs_move (h : Move w s t) (k : Part.sub [.books] w) : Move w s (noteAs t a1) := by
  refine Move.step h ?_ k
  unfold noteAs
  repeat' first
    | with_reducible (first | exact Move.refl _ _ | apply Move.ite | apply setBooks_move)
    | decide | intro u | split | dsimp only

theorem noteLoaded_move (h : Move w s t) (k : Part.sub [.books] w) : Move w s (noteLoaded t a1 a2 a3 a4 a5 a6 a7) := by
  refine Move.step h ?_ k
  unfold noteLoaded
  repeat' first
    | with_reducible (first | exact Move.refl _ _ | apply Move.ite | apply noteAs_move)
    | decide | intro u | split | dsimp only

theorem loadScheds_move (e : loadScheds a1 a2 a3 t = .ok u) (h : Move w s t) (k : Part.sub [.clusters, .books] w) : Move w s u := by
  induction a3 generalizing t with
  | nil => cases e; exact h
  | cons c r ih =>
    unfold loadScheds at e
    dsimp only at e
    split at e
    · exact ih e h
    · split at e
      · refine ih e ?_
        with_reducible apply Move.ite
        · exact h
        · exact noteAs_move h (Part.sub_trans (by decide) k)
      · split at e
        · cases e
        · split at e
          · cases e
          · exact ih e (noteLoaded_move (placeSched_move (by assumption) h (Part.sub_trans (by decide) k)) (Part.sub_trans (by decide) k))

theorem chanBanks_move (h : Move w s t) (k : Part.sub [.engines] w) : Move w s (chanBanks t a1 a2 a3) := by
  refine Move.step h ?_ k
  unfold chanBanks
  repeat' first
    | with_reducible (first | exact Move.refl _ _ | apply Move.ite | apply updEngine_move)
    | decide | intro u | split | dsimp only

theorem startHosts_move (h : Move w s t) (k : Part.sub [.chans, .engines] w) : Move w s (startHosts t a1) := by
  refine Move.step h ?_ k
  unfold startHosts
  repeat' first
    | with_reducible (first | exact Move.refl _ _ | apply Move.ite | apply updChan_move | apply updEngine_move)
    | decide | intro u | split | dsimp only

theorem prepareSwap_move (h : Move w s t) (k : Part.sub [.engines, .clusters] w) : Move w s (prepareSwap t) := by
  refine Move.step h ?_ k
  unfold prepareSwap
  repeat' first
    | with_reducible (first | exact Move.refl _ _ | apply Move.ite | apply updEngine_move | apply updCluster_move
                            | refine Move.forEach ?_ (fun u a => ?_))
    | decide | intro u | split | dsimp only

theorem putSpy_move (h : Move w s t) (k : Part.sub [.spies] w) : Move w s (putSpy t a1 a2 a3) := by
  refine Move.step h ?_ k
  unfold putSpy
  repeat' first
    | with_reducible (first | exact Move.refl _ _ | apply Move.ite | apply updSpy_move)
    | decide | intro u | split | dsimp only

theorem commitCell_move (h : Move w s t) (k : Part.sub [.cells, .hearths, .spies, .hks, .chans] w) : Move w s (commitCell a1 t a2) := by
  refine Move.step h ?_ k
  unfold commitCell
  repeat' first
    | with_reducible (first | exact Move.refl _ _ | apply Move.ite | apply writeEnvelope_move | apply enterState_move | apply putSpy_move
                            | apply updCell_move)
    | decide | intro u | split | dsimp only

theorem commitHearth_move (h : Move w s t) (k : Part.sub [.cells, .hearths, .slots, .spies, .captures, .groups, .hks, .chans, .log, .coll, .host] w) : Move w s (commitHearth a1 t a2) := by
  refine Move.step h ?_ k
  unfold commitHearth
  repeat' first
    | with_reducible (first | exact Move.refl _ _ | apply Move.ite | apply updHk_move | apply writeSlotWord_move | apply writeConfig_move
                            | apply updCapture_move | apply commitCell_move | apply putSpy_move | refine Move.forEach ?_ (fun u a => ?_)
                            | refine Move.foldl ?_ (fun u a => ?_))
    | decide | intro u | split | dsimp only

theorem setTimeWord_move (h : Move w s t) (k : Part.sub [.time] w) : Move w s (setTimeWord t a1) := by
  refine Move.step h ?_ k
  unfold setTimeWord
  repeat' first
    | with_reducible (first | exact Move.refl _ _ | apply Move.ite | apply setTime_move)
    | decide | intro u | split | dsimp only

theorem commitCrown_move (h : Move w s t) (k : Part.sub [.books, .time, .pair, .works] w) : Move w s (commitCrown a1 t) := by
  refine Move.step h ?_ k
  unfold commitCrown
  repeat' first
    | with_reducible (first | exact Move.refl _ _ | apply Move.ite | apply setTimeWord_move | apply setWorks_move | apply setPair_move
                            | apply setBooks_move | refine Move.foldl ?_ (fun u a => ?_))
    | decide | intro u | split | dsimp only

theorem commitChan_move (h : Move w s t) (k : Part.sub [.chans, .engines] w) : Move w s (commitChan a1 t a2) := by
  refine Move.step h ?_ k
  unfold commitChan
  repeat' first
    | with_reducible (first | exact Move.refl _ _ | apply Move.ite | apply chanBanks_move | apply updChan_move | apply startHosts_move)
    | decide | intro u | split | dsimp only

theorem applyBook_move (h : Move w s t) (k : Part.sub [.cells, .hearths, .slots, .spies, .captures, .groups, .hks, .chans, .engines, .clusters, .books, .time, .log, .coll, .pair, .works, .host] w) : Move w s (applyBook a1 t) := by
  refine Move.step h ?_ k
  unfold applyBook
  repeat' first
    | with_reducible (first | exact Move.refl _ _ | apply Move.ite | apply prepareSwap_move | apply commitHearth_move
                            | apply commitChan_move | apply commitCrown_move | refine Move.forEach ?_ (fun u a => ?_))
    | decide | intro u | split | dsimp only

theorem checkBook_move (e : checkBook t a1 a2 a3 = .ok (b, u)) (h : Move w s t) (k : Part.sub [.clusters, .books] w) : Move w s u := by
  unfold checkBook at e
  split at e
  · cases e
  · split at e
    · cases e
    · split at e
      · cases e
      · split at e
        · cases e
        · rename_i q
          cases e
          exact loadScheds_move q h k

theorem clearPeaks_move (h : Move w s t) (k : Part.sub [.cones] w) : Move w s (clearPeaks t a1) := by
  refine Move.step h ?_ k
  unfold clearPeaks
  repeat' first
    | with_reducible (first | exact Move.refl _ _ | apply Move.ite | apply updCone_move | refine Move.forEach ?_ (fun u a => ?_))
    | decide | intro u | split | dsimp only

theorem restoreChan_move (h : Move w s t) (k : Part.sub [.chans, .cones, .engines] w) : Move w s (restoreChan t a1 a2 a3) := by
  refine Move.step h ?_ k
  unfold restoreChan
  repeat' first
    | with_reducible (first | exact Move.refl _ _ | apply Move.ite | apply updChan_move | apply updCone_move | apply updEngine_move)
    | decide | intro u | split | dsimp only

theorem restoreBare_move (h : Move w s t) (k : Part.sub [.chans, .cones] w) : Move w s (restoreBare t a1) := by
  refine Move.step h ?_ k
  unfold restoreBare
  repeat' first
    | with_reducible (first | exact Move.refl _ _ | apply Move.ite | apply updChan_move | apply updCone_move)
    | decide | intro u | split | dsimp only

theorem restoreSeqs_move (h : Move w s t) (k : Part.sub [.log] w) : Move w s (restoreSeqs t a1 a2) := by
  refine Move.step h ?_ k
  unfold restoreSeqs
  repeat' first
    | with_reducible (first | exact Move.refl _ _ | apply Move.ite | apply setLog_move | refine Move.forEach ?_ (fun u a => ?_) | exact rfl)
    | exact rfl | decide | intro u | split | dsimp only

theorem alwaysOnPower_move (h : Move w s t) (k : Part.sub [.hearths, .slots] w) : Move w s (alwaysOnPower a1 t) := by
  refine Move.step h ?_ k
  unfold alwaysOnPower
  repeat' first
    | with_reducible (first | exact Move.refl _ _ | apply Move.ite | apply updSlot_move | apply stampNow_move | apply updHearth_move
                            | refine Move.forEach ?_ (fun u a => ?_))
    | decide | intro u | split | dsimp only

theorem stopHk_move (h : Move w s t) (k : Part.sub [.hks] w) : Move w s (stopHk t a1) := by
  refine Move.step h ?_ k
  unfold stopHk
  repeat' first
    | with_reducible (first | exact Move.refl _ _ | apply Move.ite | apply updHk_move)
    | decide | intro u | split | dsimp only

theorem logicRailsAbsent_move (h : Move w s t) (k : Part.sub [.cells, .hearths, .spies, .hks, .chans] w) : Move w s (logicRailsAbsent a1 t) := by
  refine Move.step h ?_ k
  unfold logicRailsAbsent
  repeat' first
    | with_reducible (first | exact Move.refl _ _ | apply Move.ite | apply stopHk_move | apply enterSaggar_move | apply dropFilters_move
                            | apply updHearth_move)
    | decide | intro u | split | dsimp only

theorem logicRailsPresent_move (h : Move w s t) (k : Part.sub [.hearths] w) : Move w s (logicRailsPresent a1 t) := by
  refine Move.step h ?_ k
  unfold logicRailsPresent
  repeat' first
    | with_reducible (first | exact Move.refl _ _ | apply Move.ite | apply updHearth_move)
    | decide | intro u | split | dsimp only

theorem sampledCompare_move (h : Move w s t) (k : Part.sub [.hearths, .spies, .captures, .groups, .hks, .boot, .host] w) : Move w s (sampledCompare a1 a2 t a3) := by
  refine Move.step h ?_ k
  unfold sampledCompare
  repeat' first
    | with_reducible (first | exact Move.refl _ _ | apply Move.ite | apply retractWarns_move | apply updSpy_move | apply crossWarning_move
                            | apply changeSpy_move | apply requestWake_move)
    | decide | intro u | split | dsimp only

theorem sampledTick_move (h : Move w s t) (k : Part.sub [.cells, .hearths, .spies, .captures, .groups, .hks, .boot, .host] w) : Move w s (sampledTick a1 a2 a3 a4 t) := by
  refine Move.step h ?_ k
  unfold sampledTick
  repeat' first
    | with_reducible (first | exact Move.refl _ _ | apply Move.ite | apply confirmLoss_move | apply sampledCompare_move | apply updCell_move
                            | refine Move.forEach ?_ (fun u a => ?_))
    | decide | intro u | split | dsimp only

theorem crownReset_move (h : Move w s t) (k : Part.sub [.chans, .cones, .engines, .clusters, .links, .gbus, .feedWord, .hblocks, .frameShadow, .frameTick, .gbusNew, .hkRecs, .passes, .measured, .boot, .books, .time, .log, .coll, .pair, .works, .host, .pmb] w) : Move w s (crownReset t) :=
  Move.step h ⟨fun p q => by cases p <;> first | rfl | exact absurd (by decide) q,
    fun f => by cases f; constructor <;> first | assumption | rfl | exact Nat.zero_le _⟩ k

theorem resetOwnHearth_move (h : Move w s t) (k : Part.sub [.cells, .hearths, .spies, .captures, .groups, .hks, .chans, .log, .coll, .host] w) : Move w s (resetOwnHearth t a1) := by
  refine Move.step h ?_ k
  unfold resetOwnHearth
  repeat' first
    | with_reducible (first | exact Move.refl _ _ | apply Move.ite | apply updHk_move | apply stopHk_move | apply hearthReset_move
                            | apply updHearth_move | apply updCell_move | refine Move.forEach ?_ (fun u a => ?_))
    | decide | intro u | split | dsimp only

theorem deviceReset_move (h : Move w s t) (k : Part.sub [.cells, .hearths, .slots, .spies, .captures, .groups, .hks, .chans, .cones, .engines, .clusters, .links, .gbus, .feedWord, .hblocks, .frameShadow, .frameTick, .gbusNew, .hkRecs, .passes, .measured, .boot, .books, .time, .log, .coll, .pair, .works, .host, .pmb] w) : Move w s (deviceReset t) := by
  refine Move.step h ?_ k
  unfold deviceReset
  repeat' first
    | with_reducible (first | exact Move.refl _ _ | apply Move.ite | apply setColl_move | apply updHk_move | apply updSlot_move
                            | apply crownReset_move | apply resetOwnHearth_move | refine Move.forEach ?_ (fun u a => ?_))
    | decide | intro u | split | dsimp only

theorem rstNLow_move (h : Move w s t) (k : Part.sub [.cells, .hearths, .slots, .spies, .captures, .groups, .hks, .chans, .cones, .engines, .clusters, .links, .gbus, .feedWord, .hblocks, .frameShadow, .frameTick, .gbusNew, .hkRecs, .passes, .measured, .boot, .books, .time, .log, .coll, .pair, .works, .host, .pmb] w) : Move w s (rstNLow a1 t) := by
  refine Move.step h ?_ k
  unfold rstNLow
  repeat' first
    | with_reducible (first | exact Move.refl _ _ | apply Move.ite | apply deviceReset_move | apply setBoot_move | exact rfl)
    | exact rfl | decide | intro u | split | dsimp only

theorem bar0ResetWrite_move (h : Move w s t) (k : Part.sub [.cells, .hearths, .slots, .spies, .captures, .groups, .hks, .chans, .cones, .engines, .clusters, .links, .gbus, .feedWord, .hblocks, .frameShadow, .frameTick, .gbusNew, .hkRecs, .passes, .measured, .boot, .books, .time, .log, .coll, .pair, .works, .host, .pmb] w) : Move w s (bar0ResetWrite a1 a2 t) := by
  refine Move.step h ?_ k
  unfold bar0ResetWrite
  repeat' first
    | with_reducible (first | exact Move.refl _ _ | apply Move.ite | apply deviceReset_move)
    | decide | intro u | split | dsimp only

end Sys2Proof.Machine
end

