-- ==== Sys2Proof/Laws/MoveDevice.lean ====
section
/-! SUPPORT. The moves of the pair, adoption, Banked, fault rows and boot: for each operation, the parts of the state that it may change; State.Wf is kept. -/
namespace Sys2Proof.Machine
open Sys2Proof

variable {s t u : State} {w : List Part}

theorem setPairState_move (h : Move w s t) (k : Part.sub [.log, .pair, .host] w) : Move w s (setPairState t a1) := by
  refine Move.step h ?_ k
  unfold setPairState
  repeat' first
    | with_reducible (first | exact Move.refl _ _ | apply Move.ite | apply crownStamp_move | apply setPair_move)
    | decide | intro u | split | dsimp only

theorem sendPair_move (h : Move w s t) (k : Part.sub [.pair, .out] w) : Move w s (sendPair t a1 a2 a3) := by
  refine Move.step h ?_ k
  unfold sendPair
  repeat' first
    | with_reducible (first | exact Move.refl _ _ | apply Move.ite | apply setPair_move | apply emit_move)
    | decide | intro u | split | dsimp only

theorem sendCheckpoint_move (h : Move w s t) (k : Part.sub [.pair, .out] w) : Move w s (sendCheckpoint t a1 a2) := by
  refine Move.step h ?_ k
  unfold sendCheckpoint
  repeat' first
    | with_reducible (first | exact Move.refl _ _ | apply Move.ite | apply sendPair_move | refine Move.forEach ?_ (fun u a => ?_))
    | decide | intro u | split | dsimp only

theorem sendNotice_move (h : Move w s t) (k : Part.sub [.pair, .out] w) : Move w s (sendNotice t a1 a2 a3) := by
  refine Move.step h ?_ k
  unfold sendNotice
  repeat' first
    | with_reducible (first | exact Move.refl _ _ | apply Move.ite | apply sendPair_move)
    | decide | intro u | split | dsimp only

theorem sendPairHello_move (h : Move w s t) (k : Part.sub [.pair, .out] w) : Move w s (sendPairHello t) := by
  refine Move.step h ?_ k
  unfold sendPairHello
  repeat' first
    | with_reducible (first | exact Move.refl _ _ | apply Move.ite | apply sendPair_move)
    | decide | intro u | split | dsimp only

theorem sendBook_move (h : Move w s t) (k : Part.sub [.pair, .out] w) : Move w s (sendBook t) := by
  refine Move.step h ?_ k
  unfold sendBook
  repeat' first
    | with_reducible (first | exact Move.refl _ _ | apply Move.ite | apply sendPair_move | refine Move.forEach ?_ (fun u a => ?_))
    | decide | intro u | split | dsimp only

theorem greet_move (h : Move w s t) (k : Part.sub [.pair, .out] w) : Move w s (greet t) := by
  refine Move.step h ?_ k
  unfold greet
  repeat' first
    | with_reducible (first | exact Move.refl _ _ | apply Move.ite | apply sendBook_move | apply sendPairHello_move | apply setPair_move)
    | decide | intro u | split | dsimp only

theorem pairStart_move (h : Move w s t) (k : Part.sub [.log, .pair, .host, .out] w) : Move w s (pairStart t) := by
  refine Move.step h ?_ k
  unfold pairStart
  repeat' first
    | with_reducible (first | exact Move.refl _ _ | apply Move.ite | apply setPairState_move | apply greet_move)
    | decide | intro u | split | dsimp only

theorem tryPaired_move (h : Move w s t) (k : Part.sub [.log, .pair, .host] w) : Move w s (tryPaired t) := by
  refine Move.step h ?_ k
  unfold tryPaired
  repeat' first
    | with_reducible (first | exact Move.refl _ _ | apply Move.ite | apply setPairState_move)
    | decide | intro u | split | dsimp only

theorem heartbeatEmit_move (h : Move w s t) (k : Part.sub [.pair, .out] w) : Move w s (heartbeatEmit t) := by
  refine Move.step h ?_ k
  unfold heartbeatEmit
  repeat' first
    | with_reducible (first | exact Move.refl _ _ | apply Move.ite | apply sendPair_move | apply setPair_move | apply emit_move)
    | decide | intro u | split | dsimp only

theorem pathLive_move (h : Move w s t) (k : Part.sub [.log, .coll, .pair, .host] w) : Move w s (pathLive t a1 a2) := by
  refine Move.step h ?_ k
  unfold pathLive
  repeat' first
    | with_reducible (first | exact Move.refl _ _ | apply Move.ite | apply crownStamp_move | apply clearError_move | apply tryPaired_move)
    | decide | intro u | split | dsimp only

theorem heartbeatFrame_move (h : Move w s t) (k : Part.sub [.log, .coll, .pair, .host] w) : Move w s (heartbeatFrame a1 a2 t) := by
  refine Move.step h ?_ k
  unfold heartbeatFrame
  repeat' first
    | with_reducible (first | exact Move.refl _ _ | apply Move.ite | apply pathLive_move | apply setPairState_move | apply setPair_move)
    | decide | intro u | split | dsimp only

theorem heartbeatPulse_move (h : Move w s t) (k : Part.sub [.log, .coll, .pair, .host] w) : Move w s (heartbeatPulse a1 t) := by
  refine Move.step h ?_ k
  unfold heartbeatPulse
  repeat' first
    | with_reducible (first | exact Move.refl _ _ | apply Move.ite | apply pathLive_move | apply setPair_move)
    | decide | intro u | split | dsimp only

theorem heartbeatPathSilent_move (h : Move w s t) (k : Part.sub [.boot, .log, .coll, .pair, .host, .out] w) : Move w s (heartbeatPathSilent a1 t) := by
  refine Move.step h ?_ k
  unfold heartbeatPathSilent
  repeat' first
    | with_reducible (first | exact Move.refl _ _ | apply Move.ite | apply crownStamp_move | apply setPair_move | apply raiseError_move)
    | decide | intro u | split | dsimp only

theorem pairHello_move (h : Move w s t) (k : Part.sub [.log, .pair, .host, .out] w) : Move w s (pairHello a1 t) := by
  refine Move.step h ?_ k
  unfold pairHello
  repeat' first
    | with_reducible (first | exact Move.refl _ _ | apply Move.ite | apply setPairState_move | apply tryPaired_move | apply greet_move
                            | apply setPair_move)
    | decide | intro u | split | dsimp only

theorem keepPartnerBook_move (h : Move w s t) (k : Part.sub [.measured, .books, .works] w) : Move w s (keepPartnerBook a1 a2 t) := by
  refine Move.step h ?_ k
  unfold keepPartnerBook
  repeat' first
    | with_reducible (first | exact Move.refl _ _ | apply Move.ite | apply setWorks_move | apply extendSlot_move | apply setBooks_move
                            | refine Move.foldl ?_ (fun u a => ?_))
    | decide | intro u | split | dsimp only

theorem judgePartnerBook_move (h : Move w s t) (k : Part.sub [.clusters, .measured, .books, .log, .pair, .works, .host] w) : Move w s (judgePartnerBook a1 t) := by
  refine Move.step h ?_ k
  unfold judgePartnerBook
  repeat' first
    | with_reducible (first | exact Move.refl _ _ | apply Move.ite | apply keepPartnerBook_move | apply setPairState_move
                            | apply tryPaired_move | apply checkBook_move (by assumption))
    | decide | intro u | split | dsimp only

theorem bookFrame_move (h : Move w s t) (k : Part.sub [.clusters, .measured, .books, .log, .pair, .works, .host] w) : Move w s (bookFrame a1 a2 t) := by
  refine Move.step h ?_ k
  unfold bookFrame
  repeat' first
    | with_reducible (first | exact Move.refl _ _ | apply Move.ite | apply judgePartnerBook_move | apply setBooks_move)
    | decide | intro u | split | dsimp only

theorem noticeBanked_move (h : Move w s t) (k : Part.sub [.pair] w) : Move w s (noticeBanked t) := by
  refine Move.step h ?_ k
  unfold noticeBanked
  repeat' first
    | with_reducible (first | exact Move.refl _ _ | apply Move.ite | apply setPair_move)
    | decide | intro u | split | dsimp only

theorem noticeAwake_move (h : Move w s t) (k : Part.sub [.pair] w) : Move w s (noticeAwake t) := by
  refine Move.step h ?_ k
  unfold noticeAwake
  repeat' first
    | with_reducible (first | exact Move.refl _ _ | apply Move.ite | apply setPair_move)
    | decide | intro u | split | dsimp only

theorem presentChan_move (h : Move w s t) (k : Part.sub [.chans] w) : Move w s (presentChan a1 a2 t a3) := by
  refine Move.step h ?_ k
  unfold presentChan
  repeat' first
    | with_reducible (first | exact Move.refl _ _ | apply Move.ite | apply updChan_move)
    | decide | intro u | split | dsimp only

theorem loadChan_move (h : Move w s t) (k : Part.sub [.chans, .cones, .engines, .boot, .log, .coll, .host, .out] w) : Move w s (loadChan a1 a2 t a3) := by
  refine Move.step h ?_ k
  unfold loadChan
  repeat' first
    | with_reducible (first | exact Move.refl _ _ | apply Move.ite | apply updChan_move | apply restoreChan_move | apply updEngine_move
                            | apply restoreBare_move | apply unhost_move)
    | decide | intro u | split | dsimp only

theorem loadHearth_move (h : Move w s t) (k : Part.sub [.spies, .hks, .chans, .cones, .engines, .boot, .log, .coll, .pair, .host, .out] w) : Move w s (loadHearth t a1) := by
  refine Move.step h ?_ k
  unfold loadHearth
  repeat' first
    | with_reducible (first | exact Move.refl _ _ | apply Move.ite | apply updHk_move | apply updSpy_move | apply setPair_move
                            | apply loadChan_move | apply presentChan_move | apply restoreSeqs_move
                            | refine Move.forEach ?_ (fun u a => ?_))
    | decide | intro u | split | dsimp only

theorem claimPartner_move (h : Move w s t) (k : Part.sub [.links, .pair, .out] w) : Move w s (claimPartner t a1) := by
  refine Move.step h ?_ k
  unfold claimPartner
  repeat' first
    | with_reducible (first | exact Move.refl _ _ | apply Move.ite | apply updCp_move | apply sendDown_move)
    | decide | intro u | split | dsimp only

theorem adoptHearth_move (h : Move w s t) (k : Part.sub [.spies, .hks, .chans, .cones, .engines, .links, .boot, .log, .coll, .pair, .host, .out] w) : Move w s (adoptHearth t a1) := by
  refine Move.step h ?_ k
  unfold adoptHearth
  repeat' first
    | with_reducible (first | exact Move.refl _ _ | apply Move.ite | apply claimPartner_move | apply loadHearth_move)
    | decide | intro u | split | dsimp only

theorem dropHearth_move (h : Move w s t) (k : Part.sub [.chans, .cones, .engines] w) : Move w s (dropHearth t a1) := by
  refine Move.step h ?_ k
  unfold dropHearth
  repeat' first
    | with_reducible (first | exact Move.refl _ _ | apply Move.ite | apply updChan_move | apply updCone_move | apply updEngine_move
                            | refine Move.forEach ?_ (fun u a => ?_))
    | decide | intro u | split | dsimp only

theorem unpack_move (h : Move w s t) (k : Part.sub [.boot] w) : Move w s (unpack t) := by
  refine Move.step h ?_ k
  unfold unpack
  repeat' first
    | with_reducible (first | exact Move.refl _ _ | apply Move.ite | apply setBoot_move | exact rfl)
    | exact rfl | decide | intro u | split | dsimp only

theorem noHearth_move (h : Move w s t) (k : Part.sub [.boot, .log, .coll, .pair, .host, .out] w) : Move w s (noHearth t) := by
  refine Move.step h ?_ k
  unfold noHearth
  repeat' first
    | with_reducible (first | exact Move.refl _ _ | apply Move.ite | apply setPairState_move | apply tryPaired_move | apply unpack_move
                            | apply raiseError_move)
    | decide | intro u | split | dsimp only

theorem endClaim_move (h : Move w s t) (k : Part.sub [.chans, .cones, .engines, .boot, .log, .coll, .pair, .host, .out] w) : Move w s (endClaim t a1) := by
  refine Move.step h ?_ k
  unfold endClaim
  repeat' first
    | with_reducible (first | exact Move.refl _ _ | apply Move.ite | apply updCp_move | apply noHearth_move | apply dropHearth_move
                            | apply setPair_move)
    | decide | intro u | split | dsimp only

theorem requestPack_move (h : Move w s t) (k : Part.sub [.boot] w) : Move w s (requestPack t) := by
  refine Move.step h ?_ k
  unfold requestPack
  repeat' first
    | with_reducible (first | exact Move.refl _ _ | apply Move.ite | apply setBoot_move | exact rfl)
    | exact rfl | decide | intro u | split | dsimp only

theorem startAdoption_move (h : Move w s t) (k : Part.sub [.spies, .hks, .chans, .cones, .engines, .links, .boot, .log, .coll, .pair, .host, .out] w) : Move w s (startAdoption t a1) := by
  refine Move.step h ?_ k
  unfold startAdoption
  repeat' first
    | with_reducible (first | exact Move.refl _ _ | apply Move.ite | apply noHearth_move | apply requestPack_move | apply setPair_move
                            | apply setBoot_move | apply adoptHearth_move | refine Move.foldl ?_ (fun u a => ?_) | exact rfl)
    | exact rfl | decide | intro u | split | dsimp only

theorem endHand_move (h : Move w s t) (k : Part.sub [.boot, .pair, .works, .host, .out] w) : Move w s (endHand t a1) := by
  refine Move.step h ?_ k
  unfold endHand
  repeat' first
    | with_reducible (first | exact Move.refl _ _ | apply Move.ite | apply setAnswer_move | apply setPair_move)
    | decide | intro u | split | dsimp only

theorem goSilent_move (h : Move w s t) (k : Part.sub [.spies, .hks, .chans, .cones, .engines, .links, .boot, .log, .coll, .pair, .works, .host, .out] w) : Move w s (goSilent t) := by
  refine Move.step h ?_ k
  unfold goSilent
  repeat' first
    | with_reducible (first | exact Move.refl _ _ | apply Move.ite | apply crownStamp_move | apply setPairState_move
                            | apply startAdoption_move | apply endHand_move | apply setPair_move)
    | decide | intro u | split | dsimp only

theorem partnerSilent_move (h : Move w s t) (k : Part.sub [.spies, .hks, .chans, .cones, .engines, .links, .boot, .log, .coll, .pair, .works, .host, .out] w) : Move w s (partnerSilent t) := by
  refine Move.step h ?_ k
  unfold partnerSilent
  repeat' first
    | with_reducible (first | exact Move.refl _ _ | apply Move.ite | apply goSilent_move | apply requestWake_move | apply setPair_move)
    | decide | intro u | split | dsimp only

theorem prepareHearth_move (h : Move w s t) (k : Part.sub [.spies, .hks, .chans, .cones, .engines, .boot, .log, .coll, .pair, .host, .out] w) : Move w s (prepareHearth t a1) := by
  refine Move.step h ?_ k
  unfold prepareHearth
  repeat' first
    | with_reducible (first | exact Move.refl _ _ | apply Move.ite | apply sendNotice_move | apply loadHearth_move | apply setPair_move)
    | decide | intro u | split | dsimp only

theorem packingEdge_move (h : Move w s t) (k : Part.sub [.spies, .hks, .chans, .cones, .engines, .links, .boot, .log, .coll, .pair, .host, .out] w) : Move w s (packingEdge t) := by
  refine Move.step h ?_ k
  unfold packingEdge
  repeat' first
    | with_reducible (first | exact Move.refl _ _ | apply Move.ite | apply prepareHearth_move | apply packNow_move | apply setPair_move
                            | apply adoptHearth_move | refine Move.foldl ?_ (fun u a => ?_))
    | decide | intro u | split | dsimp only

theorem adoptionClaimTimeout_move (h : Move w s t) (k : Part.sub [.chans, .cones, .engines, .boot, .log, .coll, .pair, .host, .out] w) : Move w s (adoptionClaimTimeout a1 t) := by
  refine Move.step h ?_ k
  unfold adoptionClaimTimeout
  repeat' first
    | with_reducible (first | exact Move.refl _ _ | apply Move.ite | apply endClaim_move)
    | decide | intro u | split | dsimp only

theorem moveLedger_move (h : Move w s t) (k : Part.sub [.hearths, .chans, .links, .log, .works, .host, .out] w) : Move w s (moveLedger t a1 a2 a3) := by
  refine Move.step h ?_ k
  unfold moveLedger
  repeat' first
    | with_reducible (first | exact Move.refl _ _ | apply Move.ite | apply ledgerSend_move | refine Move.forEach ?_ (fun u a => ?_))
    | decide | intro u | split | dsimp only

theorem admitted_move (h : Move w s t) (k : Part.sub [.hearths, .chans, .links, .log, .pair, .works, .host, .out] w) : Move w s (admitted t a1) := by
  refine Move.step h ?_ k
  unfold admitted
  repeat' first
    | with_reducible (first | exact Move.refl _ _ | apply Move.ite | apply updCp_move | apply crownStamp_move | apply setPairState_move
                            | apply moveLedger_move | apply setPair_move)
    | decide | intro u | split | dsimp only

theorem acceptAdopted_move (h : Move w s t) (k : Part.sub [.chans, .free] w) : Move w s (acceptAdopted t a1) := by
  refine Move.step h ?_ k
  unfold acceptAdopted
  repeat' first
    | with_reducible (first | exact Move.refl _ _ | apply Move.ite | apply updChan_move | apply freshFree_move
                            | apply freshFree_move_eq (by assumption))
    | decide | intro u | split | dsimp only

theorem acceptedPartner_move (h : Move w s t) (k : Part.sub [.chans, .links, .pair, .out, .free] w) : Move w s (acceptedPartner t a1) := by
  refine Move.step h ?_ k
  unfold acceptedPartner
  repeat' first
    | with_reducible (first | exact Move.refl _ _ | apply Move.ite | apply updCp_move | apply acceptAdopted_move | apply sendParam_move
                            | refine Move.forEach ?_ (fun u a => ?_))
    | decide | intro u | split | dsimp only

theorem partnerBlock_move (h : Move w s t) (k : Part.sub [.hearths, .spies, .hks, .chans, .cones, .engines, .links, .boot, .log, .coll, .pair, .works, .host, .out, .free] w) : Move w s (partnerBlock t a1 a2) := by
  refine Move.step h ?_ k
  unfold partnerBlock
  repeat' first
    | with_reducible (first | exact Move.refl _ _ | apply Move.ite | apply updCp_move | apply setPairState_move | apply startAdoption_move
                            | apply acceptedPartner_move | apply admitted_move | apply endClaim_move)
    | decide | intro u | split | dsimp only

theorem nextHand_move (h : Move w s t) (k : Part.sub [.boot, .log, .pair, .works, .host, .out] w) : Move w s (nextHand t) := by
  refine Move.step h ?_ k
  unfold nextHand
  repeat' first
    | with_reducible (first | exact Move.refl _ _ | apply Move.ite | apply updCp_move | apply setPairState_move | apply endHand_move
                            | apply unpack_move | apply setPair_move)
    | decide | intro u | split | dsimp only

theorem startHand_move (h : Move w s t) (k : Part.sub [.boot, .log, .pair, .works, .host, .out] w) : Move w s (startHand t a1 a2 a3) := by
  refine Move.step h ?_ k
  unfold startHand
  repeat' first
    | with_reducible (first | exact Move.refl _ _ | apply Move.ite | apply nextHand_move | apply setPair_move)
    | decide | intro u | split | dsimp only

theorem handedOne_move (h : Move w s t) (k : Part.sub [.boot, .log, .pair, .works, .host, .out] w) : Move w s (handedOne t a1) := by
  refine Move.step h ?_ k
  unfold handedOne
  repeat' first
    | with_reducible (first | exact Move.refl _ _ | apply Move.ite | apply nextHand_move | apply setPair_move)
    | decide | intro u | split | dsimp only

theorem takeCheckpoint_move (h : Move w s t) (k : Part.sub [.cones, .pair, .out] w) : Move w s (takeCheckpoint t a1 a2) := by
  refine Move.step h ?_ k
  unfold takeCheckpoint
  repeat' first
    | with_reducible (first | exact Move.refl _ _ | apply Move.ite | apply sendCheckpoint_move | apply clearPeaks_move | apply setPair_move)
    | decide | intro u | split | dsimp only

theorem takeReturn_move (h : Move w s t) (k : Part.sub [.cones, .pair, .out] w) : Move w s (takeReturn t) := by
  refine Move.step h ?_ k
  unfold takeReturn
  repeat' first
    | with_reducible (first | exact Move.refl _ _ | apply Move.ite | apply takeCheckpoint_move | apply setPair_move)
    | decide | intro u | split | dsimp only

theorem checkpointTick_move (h : Move w s t) (k : Part.sub [.cones, .pair, .out] w) : Move w s (checkpointTick a1 t) := by
  refine Move.step h ?_ k
  unfold checkpointTick
  repeat' first
    | with_reducible (first | exact Move.refl _ _ | apply Move.ite | apply takeCheckpoint_move)
    | decide | intro u | split | dsimp only

theorem missCheckpoint_move (h : Move w s t) (k : Part.sub [.boot, .log, .pair, .works, .host, .out] w) : Move w s (missCheckpoint t a1 a2 a3) := by
  refine Move.step h ?_ k
  unfold missCheckpoint
  repeat' first
    | with_reducible (first | exact Move.refl _ _ | apply Move.ite | apply sendNotice_move | apply crownStamp_move | apply endHand_move
                            | apply setPair_move)
    | decide | intro u | split | dsimp only

theorem readyOwn_move (h : Move w s t) (k : Part.sub [.chans, .cones, .engines, .log, .pair, .out] w) : Move w s (readyOwn t a1 a2) := by
  refine Move.step h ?_ k
  unfold readyOwn
  repeat' first
    | with_reducible (first | exact Move.refl _ _ | apply Move.ite | apply sendNotice_move | apply restoreChan_move | apply restoreBare_move
                            | apply setPair_move | apply restoreSeqs_move | refine Move.forEach ?_ (fun u a => ?_))
    | decide | intro u | split | dsimp only

theorem passCheckpoint_move (h : Move w s t) (k : Part.sub [.spies, .hks, .chans, .cones, .engines, .boot, .log, .coll, .pair, .host, .out] w) : Move w s (passCheckpoint t a1 a2 a3) := by
  refine Move.step h ?_ k
  unfold passCheckpoint
  repeat' first
    | with_reducible (first | exact Move.refl _ _ | apply Move.ite | apply updCp_move | apply readyOwn_move | apply tryPaired_move
                            | apply prepareHearth_move | apply requestPack_move | apply setPair_move)
    | decide | intro u | split | dsimp only

theorem judgeCheckpoint_move (h : Move w s t) (k : Part.sub [.spies, .hks, .chans, .cones, .engines, .boot, .log, .coll, .pair, .works, .host, .out] w) : Move w s (judgeCheckpoint t a1 a2) := by
  refine Move.step h ?_ k
  unfold judgeCheckpoint
  repeat' first
    | with_reducible (first | exact Move.refl _ _ | apply Move.ite | apply missCheckpoint_move | apply passCheckpoint_move)
    | decide | intro u | split | dsimp only

theorem checkpointFrame_move (h : Move w s t) (k : Part.sub [.spies, .hks, .chans, .cones, .engines, .boot, .log, .coll, .pair, .works, .host, .out] w) : Move w s (checkpointFrame a1 a2 a3 a4 t) := by
  refine Move.step h ?_ k
  unfold checkpointFrame
  repeat' first
    | with_reducible (first | exact Move.refl _ _ | apply Move.ite | apply updCp_move | apply judgeCheckpoint_move
                            | apply missCheckpoint_move)
    | decide | intro u | split | dsimp only

theorem giveHearth_move (h : Move w s t) (k : Part.sub [.cells, .hearths, .hks, .chans, .cones, .engines, .links, .log, .pair, .host, .out, .free] w) : Move w s (giveHearth t a1) := by
  refine Move.step h ?_ k
  unfold giveHearth
  repeat' first
    | with_reducible (first | exact Move.refl _ _ | apply Move.ite | apply sendNotice_move | apply updCp_move | apply crownStamp_move
                            | apply controlFrame_move | apply dropHearth_move | apply sendDown_move | apply releaseHearth_move)
    | decide | intro u | split | dsimp only

theorem retryReturn_move (h : Move w s t) (k : Part.sub [.boot, .pair, .works, .host, .out] w) : Move w s (retryReturn t a1) := by
  refine Move.step h ?_ k
  unfold retryReturn
  repeat' first
    | with_reducible (first | exact Move.refl _ _ | apply Move.ite | apply updCp_move | apply endHand_move | apply setPair_move)
    | decide | intro u | split | dsimp only

theorem noticeReady_move (h : Move w s t) (k : Part.sub [.cells, .hearths, .hks, .chans, .cones, .engines, .links, .boot, .log, .pair, .works, .host, .out, .free] w) : Move w s (noticeReady a1 a2 t) := by
  refine Move.step h ?_ k
  unfold noticeReady
  repeat' first
    | with_reducible (first | exact Move.refl _ _ | apply Move.ite | apply retryReturn_move | apply handedOne_move | apply giveHearth_move
                            | apply startHand_move)
    | decide | intro u | split | dsimp only

theorem noticeReleased_move (h : Move w s t) (k : Part.sub [.cells, .hearths, .hks, .chans, .links, .log, .pair, .works, .host, .out] w) : Move w s (noticeReleased a1 t) := by
  refine Move.step h ?_ k
  unfold noticeReleased
  repeat' first
    | with_reducible (first | exact Move.refl _ _ | apply Move.ite | apply claimPartner_move | apply moveLedger_move | apply claimOwn_move
                            | apply setPair_move)
    | decide | intro u | split | dsimp only

theorem noticeAdoptRequest_move (h : Move w s t) (k : Part.sub [.spies, .hks, .chans, .cones, .engines, .links, .boot, .log, .coll, .pair, .host, .out] w) : Move w s (noticeAdoptRequest a1 t) := by
  refine Move.step h ?_ k
  unfold noticeAdoptRequest
  repeat' first
    | with_reducible (first | exact Move.refl _ _ | apply Move.ite | apply startAdoption_move | apply requestWake_move | apply setPair_move)
    | decide | intro u | split | dsimp only

theorem pairResetFrame_move (h : Move w s t) (k : Part.sub [.cells, .hearths, .slots, .spies, .captures, .groups, .hks, .chans, .cones, .engines, .clusters, .links, .gbus, .feedWord, .hblocks, .frameShadow, .frameTick, .gbusNew, .hkRecs, .passes, .measured, .boot, .books, .time, .log, .coll, .pair, .works, .host, .pmb] w) : Move w s (pairResetFrame a1 t) := by
  refine Move.step h ?_ k
  unfold pairResetFrame
  repeat' first
    | with_reducible (first | exact Move.refl _ _ | apply Move.ite | apply deviceReset_move)
    | decide | intro u | split | dsimp only

theorem returnDelayExpiry_move (h : Move w s t) (k : Part.sub [.boot, .log, .pair, .works, .host, .out] w) : Move w s (returnDelayExpiry t) := by
  refine Move.step h ?_ k
  unfold returnDelayExpiry
  repeat' first
    | with_reducible (first | exact Move.refl _ _ | apply Move.ite | apply startHand_move)
    | decide | intro u | split | dsimp only

theorem sendReset_move (h : Move w s t) (k : Part.sub [.log, .pair, .host, .out] w) : Move w s (sendReset t a1) := by
  refine Move.step h ?_ k
  unfold sendReset
  repeat' first
    | with_reducible (first | exact Move.refl _ _ | apply Move.ite | apply crownStamp_move | apply sendPair_move)
    | decide | intro u | split | dsimp only

theorem resetDelayExpiry_move (h : Move w s t) (k : Part.sub [.log, .pair, .host, .out] w) : Move w s (resetDelayExpiry t) := by
  refine Move.step h ?_ k
  unfold resetDelayExpiry
  repeat' first
    | with_reducible (first | exact Move.refl _ _ | apply Move.ite | apply sendReset_move | apply setPair_move)
    | decide | intro u | split | dsimp only

theorem ownHearthSaggarNotice_move (h : Move w s t) (k : Part.sub [.pair, .out] w) : Move w s (ownHearthSaggarNotice a1 t) := by
  refine Move.step h ?_ k
  unfold ownHearthSaggarNotice
  repeat' first
    | with_reducible (first | exact Move.refl _ _ | apply Move.ite | apply sendNotice_move)
    | decide | intro u | split | dsimp only

theorem ownBlock_move (h : Move w s t) (k : Part.sub [.cells, .hearths, .slots, .spies, .captures, .groups, .hks, .chans, .boot, .log, .coll, .pair, .works, .host, .out] w) : Move w s (ownBlock t a1 a2 a3) := by
  refine Move.step h ?_ k
  unfold ownBlock
  repeat' first
    | with_reducible (first | exact Move.refl _ _ | apply Move.ite | apply endHand_move | apply commitHearth_move | apply releaseFlag_move
                            | apply handedOne_move | apply setPair_move)
    | decide | intro u | split | dsimp only

theorem stateFrame_move (h : Move w s t) (k : Part.sub [.cells, .hearths, .slots, .spies, .captures, .groups, .hks, .chans, .cones, .engines, .clusters, .links, .feedWord, .hblocks, .boot, .log, .coll, .pair, .works, .host, .out, .free] w) : Move w s (stateFrame a1 a2 a3 t) := by
  refine Move.step h ?_ k
  unfold stateFrame
  repeat' first
    | with_reducible (first | exact Move.refl _ _ | apply Move.ite | apply partnerBlock_move | apply takeUp_move | apply releaseAlloc_move
                            | apply stateFrameIn_move | apply ownBlock_move | apply seeState_move | refine Move.forEach ?_ (fun u a => ?_))
    | decide | intro u | split | dsimp only

theorem bankHearth_move (h : Move w s t) (k : Part.sub [.hearths, .spies, .hks] w) : Move w s (bankHearth t a1) := by
  refine Move.step h ?_ k
  unfold bankHearth
  repeat' first
    | with_reducible (first | exact Move.refl _ _ | apply Move.ite | apply stopHk_move | apply dropFilters_move | apply updHearth_move)
    | decide | intro u | split | dsimp only

theorem enterBank_move (h : Move w s t) (k : Part.sub [.cells, .hearths, .spies, .hks, .chans, .boot, .pair, .works, .out, .free] w) : Move w s (enterBank t) := by
  refine Move.step h ?_ k
  unfold enterBank
  repeat' first
    | with_reducible (first | exact Move.refl _ _ | apply Move.ite | apply sendNotice_move | apply controlFrame_move | apply bankHearth_move
                            | apply sendHello_move | apply releaseHearth_move | apply setBoot_move | refine Move.forEach ?_ (fun u a => ?_)
                            | exact rfl)
    | exact rfl | decide | intro u | split | dsimp only

theorem devBank_move (h : Move w s t) (k : Part.sub [.cells, .hearths, .spies, .hks, .chans, .boot, .pair, .works, .host, .out, .free] w) : Move w s (devBank a1 t) := by
  refine Move.step h ?_ k
  unfold devBank
  repeat' first
    | with_reducible (first | exact Move.refl _ _ | apply Move.ite | apply runCmd_move | apply setHost_move | apply enterBank_move)
    | decide | intro u | split | dsimp only

theorem reachBank_move (h : Move w s t) (k : Part.sub [.boot, .time, .log, .host] w) : Move w s (reachBank t) := by
  refine Move.step h ?_ k
  unfold reachBank
  repeat' first
    | with_reducible (first | exact Move.refl _ _ | apply Move.ite | apply setHost_move | apply toHoldover_move | apply setParent_move
                            | apply setBoot_move | exact rfl)
    | exact rfl | decide | intro u | split | dsimp only

theorem bankedReached_move (h : Move w s t) (k : Part.sub [.boot, .time, .log, .host] w) : Move w s (bankedReached t) := by
  refine Move.step h ?_ k
  unfold bankedReached
  repeat' first
    | with_reducible (first | exact Move.refl _ _ | apply Move.ite | apply reachBank_move)
    | decide | intro u | split | dsimp only

theorem wake1_move (h : Move w s t) (k : Part.sub [.spies, .hks, .chans, .cones, .engines, .links, .boot, .log, .coll, .pair, .works, .host, .out] w) : Move w s (wake1 t) := by
  refine Move.step h ?_ k
  unfold wake1
  repeat' first
    | with_reducible (first | exact Move.refl _ _ | apply Move.ite | apply startAdoption_move | apply updCone_move | apply goSilent_move
                            | apply setPair_move | refine Move.forEach ?_ (fun u a => ?_))
    | decide | intro u | split | dsimp only

theorem wake2_move (h : Move w s t) (k : Part.sub [.hearths] w) : Move w s (wake2 t) := by
  refine Move.step h ?_ k
  unfold wake2
  repeat' first
    | with_reducible (first | exact Move.refl _ _ | apply Move.ite | apply updHearth_move | refine Move.forEach ?_ (fun u a => ?_))
    | decide | intro u | split | dsimp only

theorem wake3_move (h : Move w s t) (k : Part.sub [.cells, .hearths, .hks, .chans] w) : Move w s (wake3 t) := by
  refine Move.step h ?_ k
  unfold wake3
  repeat' first
    | with_reducible (first | exact Move.refl _ _ | apply Move.ite | apply claimOwn_move | refine Move.forEach ?_ (fun u a => ?_))
    | decide | intro u | split | dsimp only

theorem wake4_move (h : Move w s t) (k : Part.sub [.cones, .clusters] w) : Move w s (wake4 t) := by
  refine Move.step h ?_ k
  unfold wake4
  repeat' first
    | with_reducible (first | exact Move.refl _ _ | apply Move.ite | apply updCone_move | apply updCluster_move
                            | refine Move.forEach ?_ (fun u a => ?_))
    | decide | intro u | split | dsimp only

theorem wake5_move (h : Move w s t) (k : Part.sub [.pair, .works, .out] w) : Move w s (wake5 t) := by
  refine Move.step h ?_ k
  unfold wake5
  repeat' first
    | with_reducible (first | exact Move.refl _ _ | apply Move.ite | apply sendNotice_move | apply sendHello_move
                            | refine Move.forEach ?_ (fun u a => ?_))
    | decide | intro u | split | dsimp only

theorem nextStage_move (h : Move w s t) (k : Part.sub [.host] w) : Move w s (nextStage t) := by
  refine Move.step h ?_ k
  unfold nextStage
  repeat' first
    | with_reducible (first | exact Move.refl _ _ | apply Move.ite | apply setHost_move)
    | decide | intro u | split | dsimp only

theorem wakeStep_move (h : Move w s t) (k : Part.sub [.cells, .hearths, .spies, .hks, .chans, .cones, .engines, .clusters, .links, .boot, .log, .coll, .pair, .works, .host, .out] w) : Move w s (wakeStep t) := by
  refine Move.step h ?_ k
  unfold wakeStep
  repeat' first
    | with_reducible (first | exact Move.refl _ _ | apply Move.ite | apply wake3_move | apply nextStage_move | apply wake2_move
                            | apply wake5_move | apply wake4_move | apply wake1_move)
    | decide | intro u | split | dsimp only

theorem wakeAdvance_move (h : Move w s t) (k : Part.sub [.cells, .hearths, .spies, .hks, .chans, .cones, .engines, .clusters, .links, .boot, .log, .coll, .pair, .works, .host, .out] w) : Move w s (wakeAdvance t) := by
  refine Move.step h ?_ k
  unfold wakeAdvance
  repeat' first
    | with_reducible (first | exact Move.refl _ _ | apply Move.ite | apply wakeStep_move)
    | decide | intro u | split | dsimp only

theorem lateBank_move (h : Move w s t) (k : Part.sub [.boot, .works, .host, .out] w) : Move w s (lateBank t a1) := by
  refine Move.step h ?_ k
  unfold lateBank
  repeat' first
    | with_reducible (first | exact Move.refl _ _ | apply Move.ite | apply beginCmd_move | apply updMbox_move | apply setAnswer_move)
    | decide | intro u | split | dsimp only

theorem wakeComplete_move (h : Move w s t) (k : Part.sub [.cells, .hearths, .spies, .hks, .chans, .cones, .engines, .clusters, .links, .boot, .log, .coll, .pair, .works, .host, .out] w) : Move w s (wakeComplete t) := by
  refine Move.step h ?_ k
  unfold wakeComplete
  repeat' first
    | with_reducible (first | exact Move.refl _ _ | apply Move.ite | apply releaseDoorbells_move | apply lateBank_move | apply spiIrq_move
                            | apply msix_move | apply setBoot_move | apply wakeAdvance_move | refine Move.forEach ?_ (fun u a => ?_)
                            | exact rfl)
    | exact rfl | decide | intro u | split | dsimp only

theorem errorDetected_move (h : Move w s t) (k : Part.sub [.chans, .engines, .clusters, .boot, .log, .coll, .host, .out] w) : Move w s (errorDetected a1 a2 a3 a4 a5 t) := by
  refine Move.step h ?_ k
  unfold errorDetected
  repeat' first
    | with_reducible (first | exact Move.refl _ _ | apply Move.ite | apply clusterDown_move | apply takeError_move | apply engineDown_move
                            | apply clearErrorAt_move)
    | decide | intro u | split | dsimp only

theorem fatal_move (h : Move w s t) (k : Part.sub [.boot, .log, .coll, .host, .out] w) : Move w s (fatal t a1 a2 a3) := by
  refine Move.step h ?_ k
  unfold fatal
  repeat' first
    | with_reducible (first | exact Move.refl _ _ | apply Move.ite | apply raiseError_move)
    | decide | intro u | split | dsimp only

theorem fatalFree_move (h : Move w s t) (k : Part.sub [.boot, .log, .coll, .host, .out, .free] w) : Move w s (fatalFree t a1 a2) := by
  refine Move.step h ?_ k
  unfold fatalFree
  repeat' first
    | with_reducible (first | exact Move.refl _ _ | apply Move.ite | apply fatal_move | apply freshFree_move
                            | apply freshFree_move_eq (by assumption))
    | decide | intro u | split | dsimp only

theorem watchdogExpired_move (h : Move w s t) (k : Part.sub [.boot, .log, .coll, .host, .out, .free] w) : Move w s (watchdogExpired t) := by
  refine Move.step h ?_ k
  unfold watchdogExpired
  repeat' first
    | with_reducible (first | exact Move.refl _ _ | apply Move.ite | apply fatalFree_move)
    | decide | intro u | split | dsimp only

theorem crashSectorCopy_move (h : Move w s t) (k : Part.sub [.coll] w) : Move w s (crashSectorCopy t) := by
  refine Move.step h ?_ k
  unfold crashSectorCopy
  repeat' first
    | with_reducible (first | exact Move.refl _ _ | apply Move.ite | apply setColl_move)
    | decide | intro u | split | dsimp only

theorem reactionShadowEnd_move (h : Move w s t) (k : Part.sub [.coll] w) : Move w s (reactionShadowEnd a1 t) := by
  refine Move.step h ?_ k
  unfold reactionShadowEnd
  repeat' first
    | with_reducible (first | exact Move.refl _ _ | apply Move.ite | apply setColl_move)
    | decide | intro u | split | dsimp only

theorem endWindow_move (h : Move w s t) (k : Part.sub [.log, .coll, .host] w) : Move w s (endWindow t a1) := by
  refine Move.step h ?_ k
  unfold endWindow
  repeat' first
    | with_reducible (first | exact Move.refl _ _ | apply Move.ite | apply noteChange_move)
    | decide | intro u | split | dsimp only

theorem faultEventWindowEnd_move (h : Move w s t) (k : Part.sub [.log, .coll, .host] w) : Move w s (faultEventWindowEnd t) := by
  refine Move.step h ?_ k
  unfold faultEventWindowEnd
  repeat' first
    | with_reducible (first | exact Move.refl _ _ | apply Move.ite | apply setColl_move | apply endWindow_move
                            | refine Move.foldl ?_ (fun u a => ?_))
    | decide | intro u | split | dsimp only

theorem setStage_move (h : Move w s t) (k : Part.sub [.boot, .host, .out] w) : Move w s (setStage t a1) := by
  refine Move.step h ?_ k
  unfold setStage
  repeat' first
    | with_reducible (first | exact Move.refl _ _ | apply Move.ite | apply spiIrq_move | apply msix_move | apply setBoot_move | exact rfl)
    | exact rfl | decide | intro u | split | dsimp only

theorem stall_move (h : Move w s t) (k : Part.sub [.boot, .host, .out] w) : Move w s (stall t a1 a2) := by
  refine Move.step h ?_ k
  unfold stall
  repeat' first
    | with_reducible (first | exact Move.refl _ _ | apply Move.ite | apply setStage_move | apply setBoot_move | exact rfl)
    | exact rfl | decide | intro u | split | dsimp only

theorem powerOn_move (h : Move w s t) (k : Part.sub [.cells, .hearths, .slots, .spies, .captures, .groups, .hks, .chans, .cones, .engines, .clusters, .links, .gbus, .feedWord, .hblocks, .frameShadow, .frameTick, .gbusNew, .hkRecs, .passes, .measured, .boot, .books, .time, .log, .coll, .pair, .works, .host, .pmb] w) : Move w s (powerOn a1 t) := by
  refine Move.step h ?_ k
  unfold powerOn
  repeat' first
    | with_reducible (first | exact Move.refl _ _ | apply Move.ite | apply setPmb_move | apply deviceReset_move | apply setBoot_move
                            | exact rfl)
    | exact rfl | decide | intro u | split | dsimp only

theorem rstNRelease_move (h : Move w s t) (k : Part.sub [.boot, .jtag] w) : Move w s (rstNRelease t) := by
  refine Move.step h ?_ k
  unfold rstNRelease
  repeat' first
    | with_reducible (first | exact Move.refl _ _ | apply Move.ite | apply setJtag_move | apply setBoot_move | exact rfl)
    | exact rfl | decide | intro u | split | dsimp only

theorem alignRollback_move (h : Move w s t) (k : Part.sub [.fuses, .boot, .log, .coll, .host, .out, .free] w) : Move w s (alignRollback t) := by
  refine Move.step h ?_ k
  unfold alignRollback
  repeat' first
    | with_reducible (first | exact Move.refl _ _ | apply Move.ite | apply setFuses_move | apply freshFree_move
                            | apply freshFree_move_eq (by assumption) | apply raiseError_move)
    | decide | intro u | split | dsimp only

theorem trainLanes_move (h : Move w s t) (k : Part.sub [.hearths] w) : Move w s (trainLanes a1 t) := by
  refine Move.step h ?_ k
  unfold trainLanes
  repeat' first
    | with_reducible (first | exact Move.refl _ _ | apply Move.ite | apply updHearth_move | refine Move.forEach ?_ (fun u a => ?_))
    | decide | intro u | split | dsimp only

theorem startGlaze_move (h : Move w s t) (k : Part.sub [.flash, .boot, .host, .out] w) : Move w s (startGlaze a1 t) := by
  refine Move.step h ?_ k
  unfold startGlaze
  repeat' first
    | with_reducible (first | exact Move.refl _ _ | apply Move.ite | apply setStage_move | apply writeRec_move | apply stall_move
                            | apply setBoot_move | exact rfl)
    | exact rfl | decide | intro u | split | dsimp only

theorem bisqueEnd_move (h : Move w s t) (k : Part.sub [.hearths, .flash, .fuses, .measured, .boot, .log, .coll, .host, .out, .free] w) : Move w s (bisqueEnd a1 t) := by
  refine Move.step h ?_ k
  unfold bisqueEnd
  repeat' first
    | with_reducible (first | exact Move.refl _ _ | apply Move.ite | apply setFuses_move | apply trainLanes_move | apply extendSlot_move
                            | apply startGlaze_move | apply stall_move | apply alignRollback_move)
    | decide | intro u | split | dsimp only

theorem setAttempts_move (h : Move w s t) (k : Part.sub [.flash] w) : Move w s (setAttempts t a1 a2) := by
  refine Move.step h ?_ k
  unfold setAttempts
  repeat' first
    | with_reducible (first | exact Move.refl _ _ | apply Move.ite | apply writeRec_move)
    | decide | intro u | split | dsimp only

theorem glazeClaim_move (h : Move w s t) (k : Part.sub [.cells, .hearths, .hks, .chans, .boot] w) : Move w s (glazeClaim a1 t a2) := by
  refine Move.step h ?_ k
  unfold glazeClaim
  repeat' first
    | with_reducible (first | exact Move.refl _ _ | apply Move.ite | apply controlFrame_move | apply noteCause_move | apply judgeClaim_move)
    | decide | intro u | split | dsimp only

theorem imageStart_move (h : Move w s t) (k : Part.sub [.cells, .hearths, .hks, .chans, .flash, .measured, .boot, .host, .out, .free] w) : Move w s (imageStart t) := by
  refine Move.step h ?_ k
  unfold imageStart
  repeat' first
    | with_reducible (first | exact Move.refl _ _ | apply Move.ite | apply setAttempts_move | apply glazeClaim_move | apply extendBytes_move
                            | apply freshFree_move | apply freshFree_move_eq (by assumption) | apply extendSlot_move | apply noteCause_move
                            | apply stall_move | apply setBoot_move | refine Move.forEach ?_ (fun u a => ?_) | exact rfl)
    | exact rfl | decide | intro u | split | dsimp only

theorem glazeTimerExpiry_move (h : Move w s t) (k : Part.sub [.boot] w) : Move w s (glazeTimerExpiry t) := by
  refine Move.step h ?_ k
  unfold glazeTimerExpiry
  repeat' first
    | with_reducible (first | exact Move.refl _ _ | apply Move.ite | apply setBoot_move | exact rfl)
    | exact rfl | decide | intro u | split | dsimp only

theorem glazeApply_move (h : Move w s t) (k : Part.sub [.cells, .hearths, .slots, .spies, .captures, .groups, .hks, .chans, .engines, .clusters, .measured, .boot, .books, .time, .log, .coll, .pair, .works, .host] w) : Move w s (glazeApply a1 a2 t) := by
  refine Move.step h ?_ k
  unfold glazeApply
  repeat' first
    | with_reducible (first | exact Move.refl _ _ | apply Move.ite | apply extendSlot_move | apply applyBook_move | apply setBoot_move
                            | refine Move.forEach ?_ (fun u a => ?_) | exact rfl)
    | exact rfl | decide | intro u | split | dsimp only

theorem glazeCommit_move (h : Move w s t) (k : Part.sub [.cells, .hearths, .slots, .spies, .captures, .groups, .hks, .chans, .engines, .clusters, .flash, .measured, .boot, .books, .time, .log, .coll, .pair, .works, .host] w) : Move w s (glazeCommit t) := by
  refine Move.step h ?_ k
  unfold glazeCommit
  repeat' first
    | with_reducible (first | exact Move.refl _ _ | apply Move.ite | apply extendSlot_move | apply writeRec_move | apply noteCause_move
                            | apply checkBook_move (by assumption) | apply setBoot_move | apply glazeApply_move | exact rfl)
    | exact rfl | decide | intro u | split | dsimp only

theorem chainGenesis_move (h : Move w s t) (k : Part.sub [.log, .host] w) : Move w s (chainGenesis t) := by
  refine Move.step h ?_ k
  unfold chainGenesis
  repeat' first
    | with_reducible (first | exact Move.refl _ _ | apply Move.ite | apply crownStamp_move | apply setLog_move | apply admitRec_move
                            | refine Move.forEach ?_ (fun u a => ?_) | exact rfl)
    | exact rfl | decide | intro u | split | dsimp only

theorem measureOffset_move (h : Move w s t) (k : Part.sub [.cells, .boot, .log, .coll, .host, .out] w) : Move w s (measureOffset t a1) := by
  refine Move.step h ?_ k
  unfold measureOffset
  repeat' first
    | with_reducible (first | exact Move.refl _ _ | apply Move.ite | apply updCell_move | apply raiseError_move)
    | decide | intro u | split | dsimp only

theorem glazeBookCommit_move (h : Move w s t) (k : Part.sub [.cells, .hearths, .slots, .spies, .captures, .groups, .hks, .chans, .engines, .clusters, .flash, .measured, .boot, .books, .time, .log, .coll, .pair, .works, .host, .out] w) : Move w s (glazeBookCommit a1 t) := by
  refine Move.step h ?_ k
  unfold glazeBookCommit
  repeat' first
    | with_reducible (first | exact Move.refl _ _ | apply Move.ite | apply chainGenesis_move | apply glazeCommit_move
                            | apply measureOffset_move | apply updCell_move | refine Move.forEach ?_ (fun u a => ?_))
    | decide | intro u | split | dsimp only

theorem draw_move (h : Move w s t) (k : Part.sub [.cells, .hearths, .slots, .hks, .chans, .flash, .boot, .time, .log, .coll, .pair, .works, .host, .out] w) : Move w s (draw t) := by
  refine Move.step h ?_ k
  unfold draw
  repeat' first
    | with_reducible (first | exact Move.refl _ _ | apply Move.ite | apply worksStart_move | apply setAttempts_move | apply setStage_move
                            | apply releaseFlag_move | apply releaseDoorbells_move | apply pairStart_move | apply setBoot_move
                            | refine Move.forEach ?_ (fun u a => ?_) | exact rfl)
    | exact rfl | decide | intro u | split | dsimp only

theorem fuseRecheck_move (h : Move w s t) (k : Part.sub [.boot, .log, .coll, .host, .out] w) : Move w s (fuseRecheck a1 t) := by
  refine Move.step h ?_ k
  unfold fuseRecheck
  repeat' first
    | with_reducible (first | exact Move.refl _ _ | apply Move.ite | apply fatal_move)
    | decide | intro u | split | dsimp only

end Sys2Proof.Machine
end

