-- ==== Sys2Proof/Laws/MoveHost.lean ====
section
/-! SUPPORT. The moves of the host registers, PMBus, the mailbox commands, JTAG and the time rows: for each operation, the parts of the state that it may change; State.Wf is kept. -/
namespace Sys2Proof.Machine
open Sys2Proof

variable {s t u : State} {w : List Part}

theorem readEffect_move (h : Move w s t) (k : Part.sub [.host] w) : Move w s (readEffect t a1) := by
  refine Move.step h ?_ k
  unfold readEffect
  repeat' first
    | with_reducible (first | exact Move.refl _ _ | apply Move.ite | apply setHost_move)
    | decide | intro u | split | dsimp only

theorem readReg_move (h : Move w s t) (k : Part.sub [.host, .out] w) : Move w s (readReg a1 a2 t) := by
  refine Move.step h ?_ k
  unfold readReg
  repeat' first
    | with_reducible (first | exact Move.refl _ _ | apply Move.ite | apply readEffect_move | apply emit_move)
    | decide | intro u | split | dsimp only

theorem evtwEntryRead_move (h : Move w s t) (k : Part.sub [.host, .out] w) : Move w s (evtwEntryRead a1 a2 t) := by
  refine Move.step h ?_ k
  unfold evtwEntryRead
  repeat' first
    | with_reducible (first | exact Move.refl _ _ | apply Move.ite | apply readEffect_move | apply emit_move)
    | decide | intro u | split | dsimp only

theorem startRing_move (h : Move w s t) (k : Part.sub [.host] w) : Move w s (startRing t) := by
  refine Move.step h ?_ k
  unfold startRing
  repeat' first
    | with_reducible (first | exact Move.refl _ _ | apply Move.ite | apply setHost_move)
    | decide | intro u | split | dsimp only

theorem writeEnable_move (h : Move w s t) (k : Part.sub [.host] w) : Move w s (writeEnable a1 t) := by
  refine Move.step h ?_ k
  unfold writeEnable
  repeat' first
    | with_reducible (first | exact Move.refl _ _ | apply Move.ite | apply setHost_move | apply startRing_move)
    | decide | intro u | split | dsimp only

theorem writeCons_move (h : Move w s t) (k : Part.sub [.host] w) : Move w s (writeCons a1 t) := by
  refine Move.step h ?_ k
  unfold writeCons
  repeat' first
    | with_reducible (first | exact Move.refl _ _ | apply Move.ite | apply setHost_move)
    | decide | intro u | split | dsimp only

theorem writeRing_move (h : Move w s t) (k : Part.sub [.host] w) : Move w s (writeRing a1 a2 t) := by
  refine Move.step h ?_ k
  unfold writeRing
  repeat' first
    | with_reducible (first | exact Move.refl _ _ | apply Move.ite | apply setHost_move | apply writeCons_move | apply writeEnable_move)
    | decide | intro u | split | dsimp only

theorem writeMsix_move (h : Move w s t) (k : Part.sub [.host, .out] w) : Move w s (writeMsix a1 a2 t) := by
  refine Move.step h ?_ k
  unfold writeMsix
  repeat' first
    | with_reducible (first | exact Move.refl _ _ | apply Move.ite | apply setHost_move | apply msix_move)
    | decide | intro u | split | dsimp only

theorem writeMbox_move (h : Move w s t) (k : Part.sub [.boot, .host, .out] w) : Move w s (writeMbox a1 a2 a3 a4 t) := by
  refine Move.step h ?_ k
  unfold writeMbox
  repeat' first
    | with_reducible (first | exact Move.refl _ _ | apply Move.ite | apply lockWrite_move | apply updMbox_move | apply doorbell_move)
    | decide | intro u | split | dsimp only

theorem writeWord_move (h : Move w s t) (k : Part.sub [.cells, .hearths, .slots, .spies, .captures, .groups, .hks, .chans, .cones, .engines, .clusters, .links, .gbus, .feedWord, .hblocks, .frameShadow, .frameTick, .gbusNew, .hkRecs, .passes, .measured, .boot, .books, .time, .log, .coll, .pair, .works, .host, .pmb, .out] w) : Move w s (writeWord a1 a2 a3 t) := by
  refine Move.step h ?_ k
  unfold writeWord
  repeat' first
    | with_reducible (first | exact Move.refl _ _ | apply Move.ite | apply writeMbox_move | apply setHost_move | apply writeMsix_move
                            | apply bar0ResetWrite_move | apply writeRing_move)
    | decide | intro u | split | dsimp only

theorem registerWrite_move (h : Move w s t) (k : Part.sub [.cells, .hearths, .slots, .spies, .captures, .groups, .hks, .chans, .cones, .engines, .clusters, .links, .gbus, .feedWord, .hblocks, .frameShadow, .frameTick, .gbusNew, .hkRecs, .passes, .measured, .boot, .books, .time, .log, .coll, .pair, .works, .host, .pmb, .out] w) : Move w s (registerWrite a1 a2 a3 t) := by
  refine Move.step h ?_ k
  unfold registerWrite
  repeat' first
    | with_reducible (first | exact Move.refl _ _ | apply Move.ite | apply writeWord_move)
    | decide | intro u | split | dsimp only

theorem completeLost_move (h : Move w s t) (k : Part.sub [.boot, .host, .out] w) : Move w s (completeLost t a1) := by
  refine Move.step h ?_ k
  unfold completeLost
  repeat' first
    | with_reducible (first | exact Move.refl _ _ | apply Move.ite | apply endCommand_move)
    | decide | intro u | split | dsimp only

theorem hostLost_move (h : Move w s t) (k : Part.sub [.boot, .log, .coll, .host, .out] w) : Move w s (hostLost a1 t) := by
  refine Move.step h ?_ k
  unfold hostLost
  repeat' first
    | with_reducible (first | exact Move.refl _ _ | apply Move.ite | apply setHost_move | apply completeLost_move | apply raiseError_move
                            | refine Move.forEach ?_ (fun u a => ?_))
    | decide | intro u | split | dsimp only

theorem hostReturn_move (h : Move w s t) (k : Part.sub [.log, .coll, .host] w) : Move w s (hostReturn t) := by
  refine Move.step h ?_ k
  unfold hostReturn
  repeat' first
    | with_reducible (first | exact Move.refl _ _ | apply Move.ite | apply clearError_move | apply setHost_move)
    | decide | intro u | split | dsimp only

theorem ringPut_move (h : Move w s t) (k : Part.sub [.host, .out] w) : Move w s (ringPut t a1) := by
  refine Move.step h ?_ k
  unfold ringPut
  repeat' first
    | with_reducible (first | exact Move.refl _ _ | apply Move.ite | apply setHost_move | apply emit_move)
    | decide | intro u | split | dsimp only

theorem ringOwn_move (h : Move w s t) (k : Part.sub [.host, .out] w) : Move w s (ringOwn t a1) := by
  refine Move.step h ?_ k
  unfold ringOwn
  repeat' first
    | with_reducible (first | exact Move.refl _ _ | apply Move.ite | apply setHost_move | apply ringPut_move)
    | decide | intro u | split | dsimp only

theorem ringForwarded_move (h : Move w s t) (k : Part.sub [.works, .host, .out] w) : Move w s (ringForwarded t a1) := by
  refine Move.step h ?_ k
  unfold ringForwarded
  repeat' first
    | with_reducible (first | exact Move.refl _ _ | apply Move.ite | apply setWorks_move | apply ringPut_move)
    | decide | intro u | split | dsimp only

theorem ringDelivery_move (h : Move w s t) (k : Part.sub [.works, .host, .out] w) : Move w s (ringDelivery t) := by
  refine Move.step h ?_ k
  unfold ringDelivery
  repeat' first
    | with_reducible (first | exact Move.refl _ _ | apply Move.ite | apply ringOwn_move | apply setHost_move | apply ringForwarded_move
                            | apply msix_move | apply emit_move | refine Move.forEach ?_ (fun u a => ?_)
                            | refine Move.foldl ?_ (fun u a => ?_))
    | decide | intro u | split | dsimp only

theorem coalesceTimer_move (h : Move w s t) (k : Part.sub [.host, .out] w) : Move w s (coalesceTimer t) := by
  refine Move.step h ?_ k
  unfold coalesceTimer
  repeat' first
    | with_reducible (first | exact Move.refl _ _ | apply Move.ite | apply setHost_move | apply msix_move)
    | decide | intro u | split | dsimp only

theorem ringDmaError_move (h : Move w s t) (k : Part.sub [.host, .out] w) : Move w s (ringDmaError t) := by
  refine Move.step h ?_ k
  unfold ringDmaError
  repeat' first
    | with_reducible (first | exact Move.refl _ _ | apply Move.ite | apply setHost_move | apply msix_move)
    | decide | intro u | split | dsimp only

theorem spiFail_move (h : Move w s t) (k : Part.sub [.host] w) : Move w s (spiFail t) := by
  refine Move.step h ?_ k
  unfold spiFail
  repeat' first
    | with_reducible (first | exact Move.refl _ _ | apply Move.ite | apply setHost_move)
    | decide | intro u | split | dsimp only

theorem spiByteEffect_move (h : Move w s t) (k : Part.sub [.host] w) : Move w s (spiByteEffect a1 t a2) := by
  refine Move.step h ?_ k
  unfold spiByteEffect
  repeat' first
    | with_reducible (first | exact Move.refl _ _ | apply Move.ite | apply readEffect_move)
    | decide | intro u | split | dsimp only

theorem spiBytes_move (h : Move w s t) (k : Part.sub [.host] w) : Move w s (spiBytes a1 a2 a3 t).2 := by
  refine Move.step h ?_ k
  clear h k
  induction a2 generalizing a3 t with
  | zero => exact Move.refl _ _
  | succ n ih =>
    unfold spiBytes
    exact Move.step (spiByteEffect_move (Move.refl _ _) (by decide)) ih (by decide)

theorem spiBytes_move_eq (e : spiBytes a1 a2 a3 t = (b, u)) (h : Move w s t) (k : Part.sub [.host] w) : Move w s u := by
  have q := spiBytes_move (a1 := a1) (a2 := a2) (a3 := a3) h k
  rw [e] at q
  exact q

theorem spiRead_move (h : Move w s t) (k : Part.sub [.host, .out, .free] w) : Move w s (spiRead a1 a2 t) := by
  refine Move.step h ?_ k
  unfold spiRead
  repeat' first
    | with_reducible (first | exact Move.refl _ _ | apply Move.ite | apply spiFail_move | apply freshFree_move
                            | apply freshFree_move_eq (by assumption) | apply spiBytes_move | apply spiBytes_move_eq (by assumption)
                            | apply emit_move)
    | decide | intro u | split | dsimp only

theorem writeReqByte_move (h : Move w s t) (k : Part.sub [.host] w) : Move w s (writeReqByte a1 a2 a3 t) := by
  refine Move.step h ?_ k
  unfold writeReqByte
  repeat' first
    | with_reducible (first | exact Move.refl _ _ | apply Move.ite | apply updMbox_move)
    | decide | intro u | split | dsimp only

theorem spiPut_move (h : Move w s t) (k : Part.sub [.cells, .hearths, .slots, .spies, .captures, .groups, .hks, .chans, .cones, .engines, .clusters, .links, .gbus, .feedWord, .hblocks, .frameShadow, .frameTick, .gbusNew, .hkRecs, .passes, .measured, .boot, .books, .time, .log, .coll, .pair, .works, .host, .pmb, .out] w) : Move w s (spiPut a1 a2 a3 t) := by
  refine Move.step h ?_ k
  clear h k
  induction a1 generalizing a2 a3 t with
  | zero => exact Move.refl _ _
  | succ n ih =>
    unfold spiPut
    split
    · exact Move.refl _ _
    · repeat' with_reducible apply Move.ite
      · exact Move.step (writeReqByte_move (Move.refl _ _) (by decide)) ih (by decide)
      · exact Move.step (writeWord_move (Move.refl _ _) (by decide)) ih (by decide)
      · exact Move.step (spiFail_move (Move.refl _ _) (by decide)) ih (by decide)

theorem spiWrite_move (h : Move w s t) (k : Part.sub [.cells, .hearths, .slots, .spies, .captures, .groups, .hks, .chans, .cones, .engines, .clusters, .links, .gbus, .feedWord, .hblocks, .frameShadow, .frameTick, .gbusNew, .hkRecs, .passes, .measured, .boot, .books, .time, .log, .coll, .pair, .works, .host, .pmb, .out] w) : Move w s (spiWrite a1 a2 t) := by
  refine Move.step h ?_ k
  unfold spiWrite
  repeat' first
    | with_reducible (first | exact Move.refl _ _ | apply Move.ite | apply spiPut_move)
    | decide | intro u | split | dsimp only

theorem spiReadStatus_move (h : Move w s t) (k : Part.sub [.host, .out] w) : Move w s (spiReadStatus t) := by
  refine Move.step h ?_ k
  unfold spiReadStatus
  repeat' first
    | with_reducible (first | exact Move.refl _ _ | apply Move.ite | apply setHost_move | apply emit_move)
    | decide | intro u | split | dsimp only

theorem spiUnknown_move (h : Move w s t) (k : Part.sub [.host] w) : Move w s (spiUnknown a1 t) := by
  refine Move.step h ?_ k
  unfold spiUnknown
  repeat' first
    | with_reducible (first | exact Move.refl _ _ | apply Move.ite | apply spiFail_move)
    | decide | intro u | split | dsimp only

theorem pmbWatch_move (h : Move w s t) (k : Part.sub [.pmb] w) : Move w s (pmbWatch t) := by
  refine Move.step h ?_ k
  unfold pmbWatch
  repeat' first
    | with_reducible (first | exact Move.refl _ _ | apply Move.ite | apply setPmb_move | refine Move.foldl ?_ (fun u a => ?_))
    | decide | intro u | split | dsimp only

theorem cmlSet_move (h : Move w s t) (k : Part.sub [.pmb] w) : Move w s (cmlSet t a1) := by
  refine Move.step h ?_ k
  unfold cmlSet
  repeat' first
    | with_reducible (first | exact Move.refl _ _ | apply Move.ite | apply setPmb_move)
    | decide | intro u | split | dsimp only

theorem pmbReply_move (h : Move w s t) (k : Part.sub [.pmb] w) : Move w s (pmbReply t a1 a2 a3) := by
  refine Move.step h ?_ k
  unfold pmbReply
  repeat' first
    | with_reducible (first | exact Move.refl _ _ | apply Move.ite | apply setPmb_move)
    | decide | intro u | split | dsimp only

theorem pmbRead_move (h : Move w s t) (k : Part.sub [.pmb] w) : Move w s (pmbRead a1 a2 a3 a4 t) := by
  refine Move.step h ?_ k
  unfold pmbRead
  repeat' first
    | with_reducible (first | exact Move.refl _ _ | apply Move.ite | apply pmbReply_move | apply cmlSet_move | apply pmbWatch_move)
    | decide | intro u | split | dsimp only

theorem pmbPage_move (h : Move w s t) (k : Part.sub [.pmb] w) : Move w s (pmbPage a1 t) := by
  refine Move.step h ?_ k
  unfold pmbPage
  repeat' first
    | with_reducible (first | exact Move.refl _ _ | apply Move.ite | apply pmbReply_move | apply setPmb_move | apply cmlSet_move
                            | apply pmbWatch_move)
    | decide | intro u | split | dsimp only

theorem clearFaults_move (h : Move w s t) (k : Part.sub [.pmb] w) : Move w s (clearFaults a1 t) := by
  refine Move.step h ?_ k
  unfold clearFaults
  repeat' first
    | with_reducible (first | exact Move.refl _ _ | apply Move.ite | apply setPmb_move | apply cmlSet_move | apply pmbWatch_move)
    | decide | intro u | split | dsimp only

theorem pmbUnsupported_move (h : Move w s t) (k : Part.sub [.pmb] w) : Move w s (pmbUnsupported a1 t) := by
  refine Move.step h ?_ k
  unfold pmbUnsupported
  repeat' first
    | with_reducible (first | exact Move.refl _ _ | apply Move.ite | apply cmlSet_move | apply pmbWatch_move)
    | decide | intro u | split | dsimp only

theorem alertResponse_move (h : Move w s t) (k : Part.sub [.pmb] w) : Move w s (alertResponse t) := by
  refine Move.step h ?_ k
  unfold alertResponse
  repeat' first
    | with_reducible (first | exact Move.refl _ _ | apply Move.ite | apply setPmb_move | apply pmbWatch_move)
    | decide | intro u | split | dsimp only

theorem pmbUpdate_move (h : Move w s t) (k : Part.sub [.pmb, .free] w) : Move w s (pmbUpdate a1 t) := by
  refine Move.step h ?_ k
  unfold pmbUpdate
  repeat' first
    | with_reducible (first | exact Move.refl _ _ | apply Move.ite | apply setFree_move | apply setPmb_move
                            | refine Move.foldl ?_ (fun u a => ?_))
    | decide | intro u | split | dsimp only

theorem readHearth_move (h : Move w s t) (j : ∀ u, Move w u (a2 u).1) : Move w s (readHearth t a1 a2).1 := by
  unfold readHearth
  split
  · exact Move.step h (j _) (Part.sub_refl w)
  · exact h

theorem readChan_move (h : Move w s t) (j : ∀ u, Move w u (a2 u).1) : Move w s (readChan t a1 a2).1 := by
  unfold readChan
  refine readHearth_move h (fun u => ?_)
  split
  · exact j u
  · exact Move.refl _ _

theorem devSummary_move (h : Move w s t) (k : Part.sub [.boot, .works, .host, .out] w) : Move w s (devSummary a1 a2 t) := by
  refine Move.step h ?_ k
  unfold devSummary
  repeat' first
    | with_reducible (first | exact Move.refl _ _ | apply Move.ite | apply runCmd_move | apply updBox_move)
    | decide | intro u | split | dsimp only

theorem devFence_move (h : Move w s t) (k : Part.sub [.boot, .works, .host, .out] w) : Move w s (devFence a1 t) := by
  refine Move.step h ?_ k
  unfold devFence
  repeat' first
    | with_reducible (first | exact Move.refl _ _ | apply Move.ite | apply runCmd_move)
    | decide | intro u | split | dsimp only

theorem devReset_move (h : Move w s t) (k : Part.sub [.boot, .works, .host, .out] w) : Move w s (devReset a1 a2 a3 t) := by
  refine Move.step h ?_ k
  unfold devReset
  repeat' first
    | with_reducible (first | exact Move.refl _ _ | apply Move.ite | apply runCmd_move)
    | decide | intro u | split | dsimp only

theorem devResetDelayExpiry_move (h : Move w s t) (k : Part.sub [.cells, .hearths, .slots, .spies, .captures, .groups, .hks, .chans, .cones, .engines, .clusters, .links, .gbus, .feedWord, .hblocks, .frameShadow, .frameTick, .gbusNew, .hkRecs, .passes, .measured, .boot, .books, .time, .log, .coll, .pair, .works, .host, .pmb] w) : Move w s (devResetDelayExpiry t) := by
  refine Move.step h ?_ k
  unfold devResetDelayExpiry
  repeat' first
    | with_reducible (first | exact Move.refl _ _ | apply Move.ite | apply deviceReset_move)
    | decide | intro u | split | dsimp only

theorem postRequest_move (h : Move w s t) (k : Part.sub [.chans, .host] w) : Move w s (postRequest t a1 a2 a3) := by
  refine Move.step h ?_ k
  unfold postRequest
  repeat' first
    | with_reducible (first | exact Move.refl _ _ | apply Move.ite | apply updChan_move | apply updBox_move)
    | decide | intro u | split | dsimp only

theorem chanCmd_move (h : Move w s t) (k : Part.sub [.boot, .works, .host, .out] w) (j : ∀ x u, Move w u (a4 x u)) : Move w s (chanCmd a1 a2 a3 a4 t) := by
  unfold chanCmd
  refine runLater_move h (fun u => ?_)
  with_reducible apply Move.ite
  · exact setAnswer_move (Move.refl _ _) (Part.sub_trans (by decide) k)
  · with_reducible apply Move.ite
    · exact setAnswer_move (Move.refl _ _) (Part.sub_trans (by decide) k)
    · exact j _ _

theorem notActed_move (h : Move w s t) (k : Part.sub [.boot, .works, .host, .out] w) : Move w s (notActed t a1 a2) := by
  refine Move.step h ?_ k
  unfold notActed
  repeat' first
    | with_reducible (first | exact Move.refl _ _ | apply Move.ite | apply setAnswer_move)
    | decide | intro u | split | dsimp only

theorem chanOn_move (h : Move w s t) (k : Part.sub [.chans, .boot, .works, .host, .out] w) : Move w s (chanOn a1 a2 t) := by
  refine Move.step h ?_ k
  unfold chanOn
  repeat' first
    | with_reducible (first | exact Move.refl _ _ | apply Move.ite | apply updChan_move | apply chanCmd_move | apply setAnswer_move
                            | apply notActed_move | apply postRequest_move)
    | decide | intro u | split | dsimp only

theorem chanOff_move (h : Move w s t) (k : Part.sub [.chans, .boot, .works, .host, .out] w) : Move w s (chanOff a1 a2 t) := by
  refine Move.step h ?_ k
  unfold chanOff
  repeat' first
    | with_reducible (first | exact Move.refl _ _ | apply Move.ite | apply updChan_move | apply chanCmd_move | apply setAnswer_move
                            | apply notActed_move | apply postRequest_move)
    | decide | intro u | split | dsimp only

theorem chanReset_move (h : Move w s t) (k : Part.sub [.chans, .boot, .works, .host, .out] w) : Move w s (chanReset a1 a2 t) := by
  refine Move.step h ?_ k
  unfold chanReset
  repeat' first
    | with_reducible (first | exact Move.refl _ _ | apply Move.ite | apply chanCmd_move | apply setAnswer_move | apply postRequest_move)
    | decide | intro u | split | dsimp only

theorem chanStatus_move (h : Move w s t) (k : Part.sub [.boot, .works, .host, .out, .free] w) : Move w s (chanStatus a1 a2 t) := by
  refine Move.step h ?_ k
  unfold chanStatus
  repeat' first
    | with_reducible (first | exact Move.refl _ _ | apply Move.ite | apply runCmd_move | apply freshFree_move
                            | apply freshFree_move_eq (by assumption) | apply readChan_move)
    | decide | intro u | split | dsimp only

theorem coneStatus_move (h : Move w s t) (k : Part.sub [.cones, .boot, .works, .host, .out, .free] w) : Move w s (coneStatus a1 a2 t) := by
  refine Move.step h ?_ k
  unfold coneStatus
  repeat' first
    | with_reducible (first | exact Move.refl _ _ | apply Move.ite | apply runCmd_move | apply freshFree_move
                            | apply freshFree_move_eq (by assumption) | apply updCone_move | apply readChan_move)
    | decide | intro u | split | dsimp only

theorem slotStatus_move (h : Move w s t) (k : Part.sub [.boot, .works, .host, .out, .free] w) : Move w s (slotStatus a1 a2 t) := by
  refine Move.step h ?_ k
  unfold slotStatus
  repeat' first
    | with_reducible (first | exact Move.refl _ _ | apply Move.ite | apply runCmd_move | apply freshFree_move
                            | apply freshFree_move_eq (by assumption) | apply readHearth_move)
    | decide | intro u | split | dsimp only

theorem feedStatusCmd_move (h : Move w s t) (k : Part.sub [.boot, .works, .host, .out, .free] w) : Move w s (feedStatusCmd a1 a2 t) := by
  refine Move.step h ?_ k
  unfold feedStatusCmd
  repeat' first
    | with_reducible (first | exact Move.refl _ _ | apply Move.ite | apply runCmd_move | apply freshFree_move
                            | apply freshFree_move_eq (by assumption) | apply readHearth_move)
    | decide | intro u | split | dsimp only

theorem feedEligible_move (h : Move w s t) (k : Part.sub [.free] w) : Move w s (feedEligible t a1 a2).2 := by
  refine Move.step h ?_ k
  unfold feedEligible
  repeat' first
    | with_reducible (first | exact Move.refl _ _ | apply Move.ite | apply freshFree_move | apply freshFree_move_eq (by assumption))
    | decide | intro u | split | dsimp only

theorem feedEligible_move_eq (e : feedEligible t a1 a2 = (b, u)) (h : Move w s t) (k : Part.sub [.free] w) : Move w s u := by
  have q := feedEligible_move (a1 := a1) (a2 := a2) h k
  rw [e] at q
  exact q

theorem feedSelectCmd_move (h : Move w s t) (k : Part.sub [.hearths, .groups, .links, .boot, .works, .host, .out, .free] w) : Move w s (feedSelectCmd a1 a2 a3 t) := by
  refine Move.step h ?_ k
  unfold feedSelectCmd
  repeat' first
    | with_reducible (first | exact Move.refl _ _ | apply Move.ite | apply runCmd_move | apply onHearth_move | apply feedEligible_move
                            | apply feedEligible_move_eq (by assumption) | apply sendParam_move | apply feedSelectWrite_move)
    | decide | intro u | split | dsimp only

theorem feedClearCmd_move (h : Move w s t) (k : Part.sub [.hearths, .groups, .links, .boot, .log, .coll, .works, .host, .out, .free] w) : Move w s (feedClearCmd a1 a2 a3 t) := by
  refine Move.step h ?_ k
  unfold feedClearCmd
  repeat' first
    | with_reducible (first | exact Move.refl _ _ | apply Move.ite | apply runCmd_move | apply feedClearWrite_move | apply freshFree_move
                            | apply freshFree_move_eq (by assumption) | apply onHearth_move | apply sendParam_move)
    | decide | intro u | split | dsimp only

theorem feedWarn_move (h : Move w s t) (k : Part.sub [.cells, .hearths, .slots, .spies, .captures, .groups, .hks, .chans, .links, .boot, .log, .coll, .works, .host, .out] w) : Move w s (feedWarn a1 a2 a3 t) := by
  refine Move.step h ?_ k
  unfold feedWarn
  repeat' first
    | with_reducible (first | exact Move.refl _ _ | apply Move.ite | apply runCmd_move | apply writeConfig_move | apply onHearth_move
                            | apply sendParam_move)
    | decide | intro u | split | dsimp only

theorem twinStatus_move (h : Move w s t) (k : Part.sub [.boot, .works, .host, .out] w) : Move w s (twinStatus a1 a2 t) := by
  refine Move.step h ?_ k
  unfold twinStatus
  repeat' first
    | with_reducible (first | exact Move.refl _ _ | apply Move.ite | apply runCmd_move)
    | decide | intro u | split | dsimp only

theorem flashFailed_move (h : Move w s t) (k : Part.sub [.boot, .log, .coll, .host, .out] w) : Move w s (flashFailed t a1).1 := by
  refine Move.step h ?_ k
  unfold flashFailed
  repeat' first
    | with_reducible (first | exact Move.refl _ _ | apply Move.ite | apply raiseError_move)
    | decide | intro u | split | dsimp only

theorem flashFailed_move_eq (e : flashFailed t a1 = (u, b)) (h : Move w s t) (k : Part.sub [.boot, .log, .coll, .host, .out] w) : Move w s u := by
  have q := flashFailed_move (a1 := a1) h k
  rw [e] at q
  exact q

theorem schedWrite_move (h : Move w s t) (k : Part.sub [.flash, .boot, .log, .coll, .works, .host, .out] w) : Move w s (schedWrite a1 a2 a3 a4 t) := by
  refine Move.step h ?_ k
  unfold schedWrite
  repeat' first
    | with_reducible (first | exact Move.refl _ _ | apply Move.ite | apply runCmd_move | apply flashWrite_move | apply flashFailed_move
                            | apply flashFailed_move_eq (by assumption))
    | decide | intro u | split | dsimp only

theorem schedJudge_move (e : schedJudge t a1 a2 a3 a4 = .ok (b, u)) (h : Move w s t) (k : Part.sub [.clusters, .books] w) : Move w s u := by
  unfold schedJudge at e
  split at e
  · cases e
  · split at e
    · cases e
    · rename_i q
      cases e
      exact noteLoaded_move (placeSched_move q h (Part.sub_trans (by decide) k)) (Part.sub_trans (by decide) k)

theorem schedCheck_move (h : Move w s t) (k : Part.sub [.boot, .works, .host, .out] w) : Move w s (schedCheck a1 a2 a3 a4 a5 t) := by
  refine Move.step h ?_ k
  unfold schedCheck
  repeat' first
    | with_reducible (first | exact Move.refl _ _ | apply Move.ite | apply runCmd_move | apply schedJudge_move (by assumption))
    | decide | intro u | split | dsimp only

theorem takeSched_move (h : Move w s t) (k : Part.sub [.engines, .clusters] w) : Move w s (takeSched t a1) := by
  refine Move.step h ?_ k
  unfold takeSched
  repeat' first
    | with_reducible (first | exact Move.refl _ _ | apply Move.ite | apply chanBanks_move | apply prepareSwap_move | apply freeRegions_move
                            | refine Move.forEach ?_ (fun u a => ?_))
    | decide | intro u | split | dsimp only

theorem schedLoad_move (h : Move w s t) (k : Part.sub [.engines, .clusters, .measured, .boot, .books, .works, .host, .out] w) : Move w s (schedLoad a1 a2 a3 a4 a5 t) := by
  refine Move.step h ?_ k
  unfold schedLoad
  repeat' first
    | with_reducible (first | exact Move.refl _ _ | apply Move.ite | apply runCmd_move | apply takeSched_move
                            | apply schedJudge_move (by assumption) | apply extendSlot_move)
    | decide | intro u | split | dsimp only

theorem schedStatusCmd_move (h : Move w s t) (k : Part.sub [.boot, .works, .host, .out, .free] w) : Move w s (schedStatusCmd a1 a2 t) := by
  refine Move.step h ?_ k
  unfold schedStatusCmd
  repeat' first
    | with_reducible (first | exact Move.refl _ _ | apply Move.ite | apply runCmd_move | apply freshFree_move
                            | apply freshFree_move_eq (by assumption))
    | decide | intro u | split | dsimp only

theorem hkcStatus_move (h : Move w s t) (k : Part.sub [.hks, .links, .boot, .works, .host, .out, .free] w) : Move w s (hkcStatus a1 a2 t) := by
  refine Move.step h ?_ k
  unfold hkcStatus
  repeat' first
    | with_reducible (first | exact Move.refl _ _ | apply Move.ite | apply runCmd_move | apply updHk_move | apply freshFree_move
                            | apply freshFree_move_eq (by assumption) | apply readHearth_move | apply sendParam_move)
    | decide | intro u | split | dsimp only

theorem hkcSet_move (h : Move w s t) (k : Part.sub [.cells, .hearths, .slots, .spies, .captures, .groups, .hks, .chans, .links, .boot, .log, .coll, .works, .host, .out] w) : Move w s (hkcSet a1 a2 a3 a4 t) := by
  refine Move.step h ?_ k
  unfold hkcSet
  repeat' first
    | with_reducible (first | exact Move.refl _ _ | apply Move.ite | apply runCmd_move | apply writeConfig_move | apply onHearth_move
                            | apply sendParam_move)
    | decide | intro u | split | dsimp only

theorem hkcRead_move (h : Move w s t) (k : Part.sub [.boot, .works, .host, .out] w) : Move w s (hkcRead a1 a2 a3 t) := by
  refine Move.step h ?_ k
  unfold hkcRead
  repeat' first
    | with_reducible (first | exact Move.refl _ _ | apply Move.ite | apply runCmd_move | apply readHearth_move)
    | decide | intro u | split | dsimp only

theorem hkcTrigger_move (h : Move w s t) (k : Part.sub [.hks, .links, .boot, .works, .host, .out] w) : Move w s (hkcTrigger a1 a2 t) := by
  refine Move.step h ?_ k
  unfold hkcTrigger
  repeat' first
    | with_reducible (first | exact Move.refl _ _ | apply Move.ite | apply runCmd_move | apply onHearth_move | apply sendParam_move
                            | apply gateEvent_move)
    | decide | intro u | split | dsimp only

theorem spySet_move (h : Move w s t) (k : Part.sub [.cells, .hearths, .slots, .spies, .captures, .groups, .hks, .chans, .links, .boot, .log, .coll, .works, .host, .out] w) : Move w s (spySet a1 a2 a3 a4 t) := by
  refine Move.step h ?_ k
  unfold spySet
  repeat' first
    | with_reducible (first | exact Move.refl _ _ | apply Move.ite | apply runCmd_move | apply writeConfig_move | apply onHearth_move
                            | apply sendParam_move)
    | decide | intro u | split | dsimp only

theorem spyCapture_move (h : Move w s t) (k : Part.sub [.captures, .links, .boot, .works, .host, .out, .free] w) : Move w s (spyCapture a1 a2 a3 t) := by
  refine Move.step h ?_ k
  unfold spyCapture
  repeat' first
    | with_reducible (first | exact Move.refl _ _ | apply Move.ite | apply freshFree_move | apply freshFree_move_eq (by assumption)
                            | apply updBox_move | apply runLater_move | apply sendParam_move | apply setAnswer_move
                            | apply captureRead_move)
    | decide | intro u | split | dsimp only

theorem spyStatus_move (h : Move w s t) (k : Part.sub [.boot, .works, .host, .out, .free] w) : Move w s (spyStatus a1 a2 a3 t) := by
  refine Move.step h ?_ k
  unfold spyStatus
  repeat' first
    | with_reducible (first | exact Move.refl _ _ | apply Move.ite | apply runCmd_move | apply freshFree_move
                            | apply freshFree_move_eq (by assumption) | apply readHearth_move)
    | decide | intro u | split | dsimp only

theorem faultStatus_move (h : Move w s t) (k : Part.sub [.boot, .works, .host, .out] w) : Move w s (faultStatus a1 t) := by
  refine Move.step h ?_ k
  unfold faultStatus
  repeat' first
    | with_reducible (first | exact Move.refl _ _ | apply Move.ite | apply runCmd_move)
    | decide | intro u | split | dsimp only

theorem faultClear_move (h : Move w s t) (k : Part.sub [.boot, .coll, .works, .host, .out] w) : Move w s (faultClear a1 a2 t) := by
  refine Move.step h ?_ k
  unfold faultClear
  repeat' first
    | with_reducible (first | exact Move.refl _ _ | apply Move.ite | apply runCmd_move | apply setColl_move)
    | decide | intro u | split | dsimp only

theorem faultRead_move (h : Move w s t) (k : Part.sub [.boot, .works, .host, .out] w) : Move w s (faultRead a1 a2 a3 a4 t) := by
  refine Move.step h ?_ k
  unfold faultRead
  repeat' first
    | with_reducible (first | exact Move.refl _ _ | apply Move.ite | apply runCmd_move | refine Move.foldl ?_ (fun u a => ?_))
    | decide | intro u | split | dsimp only

theorem faultAck_move (h : Move w s t) (k : Part.sub [.boot, .coll, .works, .host, .out] w) : Move w s (faultAck a1 a2 t) := by
  refine Move.step h ?_ k
  unfold faultAck
  repeat' first
    | with_reducible (first | exact Move.refl _ _ | apply Move.ite | apply runCmd_move | apply setColl_move)
    | decide | intro u | split | dsimp only

theorem resetCluster_move (h : Move w s t) (k : Part.sub [.engines, .clusters, .log, .coll, .host] w) : Move w s (resetCluster t a1) := by
  refine Move.step h ?_ k
  unfold resetCluster
  repeat' first
    | with_reducible (first | exact Move.refl _ _ | apply Move.ite | apply clearError_move | apply updEngine_move | apply updCluster_move
                            | refine Move.forEach ?_ (fun u a => ?_))
    | decide | intro u | split | dsimp only

theorem faultResetCluster_move (h : Move w s t) (k : Part.sub [.engines, .clusters, .log, .coll, .host] w) (j : ∀ u, Move w u (a1 u)) : Move w s (faultResetCluster t a1 a2).1 := by
  unfold faultResetCluster
  have q := resetCluster_move (a1 := a2) (Move.step h (j t) (Part.sub_refl w)) (Part.sub_trans (by decide) k)
  generalize resetCluster (a1 t) a2 = x at *
  split
  · exact h
  · split
    · exact h
    · exact q

theorem faultResetHearth_move (h : Move w s t) (k : Part.sub [.cells, .hearths, .spies, .captures, .groups, .hks, .chans, .links, .log, .coll, .pair, .host, .out] w) (j : ∀ u, Move w u (a1 u)) : Move w s (faultResetHearth t a1 a2 a3).1 := by
  unfold faultResetHearth
  have m := Move.step h (j t) (Part.sub_refl w)
  have q := claimOwn_move (a1 := a2) (hearthReset_move (a1 := a2) (controlFrame_move (a1 := a2) (a2 := .loc) m (Part.sub_trans (by decide) k)) (Part.sub_trans (by decide) k)) (Part.sub_trans (by decide) k)
  have r := claimPartner_move (a1 := a2 - 8) (sendParam_move (a1 := a2) (a2 := 15) (a3 := 0) (a4 := [1]) m (Part.sub_trans (by decide) k)) (Part.sub_trans (by decide) k)
  generalize a1 t = v at *
  generalize claimOwn _ _ = x at *
  generalize claimPartner _ _ = y at *
  simp only
  split <;> repeat' split
  all_goals assumption

theorem faultResetLane_move (h : Move w s t) (k : Part.sub [.hearths] w) (j : ∀ u, Move w u (a1 u)) : Move w s (faultResetLane t a1 a2).1 := by
  unfold faultResetLane
  have q : ∀ f, Move w s ((a1 t).updHearth (a2 / 2) f) :=
    fun f => updHearth_move (Move.step h (j t) (Part.sub_refl w)) (Part.sub_trans (by decide) k)
  dsimp only
  split
  · exact h
  · split <;> split <;> first | exact h | (dsimp only; exact q _)

theorem faultReset_move (h : Move w s t) (k : Part.sub [.cells, .hearths, .spies, .captures, .groups, .hks, .chans, .engines, .clusters, .links, .boot, .log, .coll, .pair, .works, .host, .out] w) : Move w s (faultReset a1 a2 a3 t) := by
  refine Move.step h ?_ k
  unfold faultReset
  repeat' first
    | with_reducible (first | exact Move.refl _ _ | apply Move.ite | apply runCmd_move | apply faultResetHearth_move
                            | apply commandedReset_move | apply faultResetCluster_move | apply faultResetLane_move)
    | decide | intro u | split | dsimp only

theorem faultCrash_move (h : Move w s t) (k : Part.sub [.boot, .coll, .works, .host, .out] w) : Move w s (faultCrash a1 a2 t) := by
  refine Move.step h ?_ k
  unfold faultCrash
  repeat' first
    | with_reducible (first | exact Move.refl _ _ | apply Move.ite | apply runCmd_move | apply setColl_move)
    | decide | intro u | split | dsimp only

theorem faultCount_move (h : Move w s t) (k : Part.sub [.boot, .works, .host, .out] w) : Move w s (faultCount a1 a2 t) := by
  refine Move.step h ?_ k
  unfold faultCount
  repeat' first
    | with_reducible (first | exact Move.refl _ _ | apply Move.ite | apply runCmd_move)
    | decide | intro u | split | dsimp only

theorem timeSet_move (h : Move w s t) (k : Part.sub [.boot, .time, .log, .works, .host, .out] w) : Move w s (timeSet a1 a2 a3 t) := by
  refine Move.step h ?_ k
  unfold timeSet
  repeat' first
    | with_reducible (first | exact Move.refl _ _ | apply Move.ite | apply runCmd_move | apply applyTimeSet_move | apply setTime_move)
    | decide | intro u | split | dsimp only

theorem timeStatus_move (h : Move w s t) (k : Part.sub [.boot, .works, .host, .out] w) : Move w s (timeStatus a1 t) := by
  refine Move.step h ?_ k
  unfold timeStatus
  repeat' first
    | with_reducible (first | exact Move.refl _ _ | apply Move.ite | apply runCmd_move)
    | decide | intro u | split | dsimp only

theorem evtResume_move (h : Move w s t) (k : Part.sub [.boot, .works, .host, .out] w) : Move w s (evtResume a1 a2 a3 a4 t) := by
  refine Move.step h ?_ k
  unfold evtResume
  repeat' first
    | with_reducible (first | exact Move.refl _ _ | apply Move.ite | apply runCmd_move | apply setHost_move)
    | decide | intro u | split | dsimp only

theorem evtAudit_move (h : Move w s t) (k : Part.sub [.boot, .works, .host, .out] w) : Move w s (evtAudit a1 a2 t) := by
  refine Move.step h ?_ k
  unfold evtAudit
  repeat' first
    | with_reducible (first | exact Move.refl _ _ | apply Move.ite | apply runCmd_move)
    | decide | intro u | split | dsimp only

theorem evtStatus_move (h : Move w s t) (k : Part.sub [.boot, .works, .host, .out] w) : Move w s (evtStatus a1 t) := by
  refine Move.step h ?_ k
  unfold evtStatus
  repeat' first
    | with_reducible (first | exact Move.refl _ _ | apply Move.ite | apply runCmd_move)
    | decide | intro u | split | dsimp only

theorem partStatus_move (h : Move w s t) (k : Part.sub [.boot, .works, .host, .out, .free] w) : Move w s (partStatus a1 t) := by
  refine Move.step h ?_ k
  unfold partStatus
  repeat' first
    | with_reducible (first | exact Move.refl _ _ | apply Move.ite | apply runCmd_move | apply freshFree_move
                            | apply freshFree_move_eq (by assumption))
    | decide | intro u | split | dsimp only

theorem partReturn_move (h : Move w s t) (k : Part.sub [.boot, .log, .pair, .works, .host, .out] w) : Move w s (partReturn a1 t) := by
  refine Move.step h ?_ k
  unfold partReturn
  repeat' first
    | with_reducible (first | exact Move.refl _ _ | apply Move.ite | apply sendNotice_move | apply runLater_move | apply startHand_move
                            | apply setAnswer_move | apply setPair_move)
    | decide | intro u | split | dsimp only

theorem partTransfer_move (h : Move w s t) (k : Part.sub [.boot, .log, .pair, .works, .host, .out] w) : Move w s (partTransfer a1 a2 t) := by
  refine Move.step h ?_ k
  unfold partTransfer
  repeat' first
    | with_reducible (first | exact Move.refl _ _ | apply Move.ite | apply runLater_move | apply startHand_move | apply setAnswer_move)
    | decide | intro u | split | dsimp only

theorem partReset_move (h : Move w s t) (k : Part.sub [.boot, .log, .pair, .works, .host, .out] w) : Move w s (partReset a1 t) := by
  refine Move.step h ?_ k
  unfold partReset
  repeat' first
    | with_reducible (first | exact Move.refl _ _ | apply Move.ite | apply runCmd_move | apply sendReset_move)
    | decide | intro u | split | dsimp only

theorem bookStage_move (h : Move w s t) (k : Part.sub [.boot, .books, .works, .host, .out] w) : Move w s (bookStage a1 a2 a3 a4 t) := by
  refine Move.step h ?_ k
  unfold bookStage
  repeat' first
    | with_reducible (first | exact Move.refl _ _ | apply Move.ite | apply runCmd_move | apply setBooks_move)
    | decide | intro u | split | dsimp only

theorem commitBook_move (h : Move w s t) (k : Part.sub [.cells, .hearths, .slots, .spies, .captures, .groups, .hks, .chans, .engines, .clusters, .hkRecs, .passes, .flash, .measured, .boot, .books, .time, .log, .coll, .pair, .works, .host, .out] w) : Move w s (commitBook a0 t a1) := by
  refine Move.step h ?_ k
  unfold commitBook
  repeat' first
    | with_reducible (first | exact Move.refl _ _ | apply Move.ite | apply worksStart_move | apply flashWrite_move | apply extendSlot_move
                            | apply writeRec_move | apply applyBook_move | apply restartHk_move | apply pairStart_move)
    | decide | intro u | split | dsimp only

theorem bookCommit_move (h : Move w s t) (k : Part.sub [.cells, .hearths, .slots, .spies, .captures, .groups, .hks, .chans, .engines, .clusters, .hkRecs, .passes, .flash, .measured, .boot, .books, .time, .log, .coll, .pair, .works, .host, .out, .free] w) : Move w s (bookCommit a1 a2 a3 t) := by
  refine Move.step h ?_ k
  unfold bookCommit
  repeat' first
    | with_reducible (first | exact Move.refl _ _ | apply Move.ite | apply runCmd_move | apply freshFree_move
                            | apply freshFree_move_eq (by assumption) | apply commitBook_move | apply checkBook_move (by assumption)
                            | apply raiseError_move)
    | decide | intro u | split | dsimp only

theorem bookRead_move (h : Move w s t) (k : Part.sub [.boot, .works, .host, .out] w) : Move w s (bookRead a1 a2 a3 a4 t) := by
  refine Move.step h ?_ k
  unfold bookRead
  repeat' first
    | with_reducible (first | exact Move.refl _ _ | apply Move.ite | apply runCmd_move)
    | decide | intro u | split | dsimp only

theorem bookStatus_move (h : Move w s t) (k : Part.sub [.boot, .works, .host, .out] w) : Move w s (bookStatus a1 t) := by
  refine Move.step h ?_ k
  unfold bookStatus
  repeat' first
    | with_reducible (first | exact Move.refl _ _ | apply Move.ite | apply runCmd_move)
    | decide | intro u | split | dsimp only

theorem markImage_move (h : Move w s t) (k : Part.sub [.boot] w) : Move w s (markImage t a1 a2) := by
  refine Move.step h ?_ k
  unfold markImage
  repeat' first
    | with_reducible (first | exact Move.refl _ _ | apply Move.ite | apply setBoot_move | exact rfl)
    | exact rfl | decide | intro u | split | dsimp only

theorem fwWrite_move (h : Move w s t) (k : Part.sub [.flash, .boot, .log, .coll, .works, .host, .out] w) : Move w s (fwWrite a1 a2 a3 a4 t) := by
  refine Move.step h ?_ k
  unfold fwWrite
  repeat' first
    | with_reducible (first | exact Move.refl _ _ | apply Move.ite | apply runCmd_move | apply markImage_move | apply flashWrite_move
                            | apply flashFailed_move | apply flashFailed_move_eq (by assumption))
    | decide | intro u | split | dsimp only

theorem fwVerify_move (h : Move w s t) (k : Part.sub [.boot, .works, .host, .out] w) : Move w s (fwVerify a1 t) := by
  refine Move.step h ?_ k
  unfold fwVerify
  repeat' first
    | with_reducible (first | exact Move.refl _ _ | apply Move.ite | apply runCmd_move | apply setBoot_move | exact rfl)
    | exact rfl | decide | intro u | split | dsimp only

theorem fwActivate_move (h : Move w s t) (k : Part.sub [.flash, .boot, .works, .host, .out] w) : Move w s (fwActivate a1 a2 a3 t) := by
  refine Move.step h ?_ k
  unfold fwActivate
  repeat' first
    | with_reducible (first | exact Move.refl _ _ | apply Move.ite | apply runCmd_move | apply writeRec_move)
    | decide | intro u | split | dsimp only

theorem fwRatchet_move (h : Move w s t) (k : Part.sub [.fuses, .boot, .works, .host, .out] w) : Move w s (fwRatchet a1 a2 t) := by
  refine Move.step h ?_ k
  unfold fwRatchet
  repeat' first
    | with_reducible (first | exact Move.refl _ _ | apply Move.ite | apply setFuses_move | apply runCmd_move)
    | decide | intro u | split | dsimp only

theorem fwStatus_move (h : Move w s t) (k : Part.sub [.boot, .works, .host, .out] w) : Move w s (fwStatus a1 t) := by
  refine Move.step h ?_ k
  unfold fwStatus
  repeat' first
    | with_reducible (first | exact Move.refl _ _ | apply Move.ite | apply runCmd_move)
    | decide | intro u | split | dsimp only

theorem attestIdentity_move (h : Move w s t) (k : Part.sub [.boot, .works, .host, .out] w) : Move w s (attestIdentity a1 t) := by
  refine Move.step h ?_ k
  unfold attestIdentity
  repeat' first
    | with_reducible (first | exact Move.refl _ _ | apply Move.ite | apply runCmd_move)
    | decide | intro u | split | dsimp only

theorem attestReport_move (h : Move w s t) (k : Part.sub [.boot, .works, .host, .out] w) : Move w s (attestReport a1 a2 t) := by
  refine Move.step h ?_ k
  unfold attestReport
  repeat' first
    | with_reducible (first | exact Move.refl _ _ | apply Move.ite | apply runCmd_move)
    | decide | intro u | split | dsimp only

theorem attestExtend_move (h : Move w s t) (k : Part.sub [.measured, .boot, .works, .host, .out] w) : Move w s (attestExtend a1 a2 t) := by
  refine Move.step h ?_ k
  unfold attestExtend
  repeat' first
    | with_reducible (first | exact Move.refl _ _ | apply Move.ite | apply runCmd_move | apply extendSlot_move)
    | decide | intro u | split | dsimp only

theorem attestLog_move (h : Move w s t) (k : Part.sub [.boot, .works, .host, .out] w) : Move w s (attestLog a1 a2 a3 t) := by
  refine Move.step h ?_ k
  unfold attestLog
  repeat' first
    | with_reducible (first | exact Move.refl _ _ | apply Move.ite | apply runCmd_move)
    | decide | intro u | split | dsimp only

theorem jtagIdcode_move (h : Move w s t) (k : Part.sub [.jtag] w) : Move w s (jtagIdcode t) := by
  refine Move.step h ?_ k
  unfold jtagIdcode
  repeat' first
    | with_reducible (first | exact Move.refl _ _ | apply Move.ite | apply setJtag_move)
    | decide | intro u | split | dsimp only

theorem resetOnly_move (h : Move w s t) (k : Part.sub [.jtag] w) : Move w s (resetOnly a1 t) := by
  refine Move.step h ?_ k
  unfold resetOnly
  repeat' first
    | with_reducible (first | exact Move.refl _ _ | apply Move.ite | apply setJtag_move)
    | decide | intro u | split | dsimp only

theorem jtagBypass_move (h : Move w s t) (k : Part.sub [.jtag] w) : Move w s (jtagBypass a1 t) := by
  refine Move.step h ?_ k
  unfold jtagBypass
  repeat' first
    | with_reducible (first | exact Move.refl _ _ | apply Move.ite | apply setJtag_move)
    | decide | intro u | split | dsimp only

theorem downStandby_move (h : Move w s t) (k : Part.sub [.out] w) : Move w s (downStandby t a1 a2 a3) := by
  refine Move.step h ?_ k
  unfold downStandby
  repeat' first
    | with_reducible (first | exact Move.refl _ _ | apply Move.ite | apply sendDownIdle_move)
    | decide | intro u | split | dsimp only

theorem sendAck_move (h : Move w s t) (k : Part.sub [.out] w) : Move w s (sendAck t a1) := by
  refine Move.step h ?_ k
  unfold sendAck
  repeat' first
    | with_reducible (first | exact Move.refl _ _ | apply Move.ite | apply sendDownIdle_move)
    | decide | intro u | split | dsimp only

theorem sendControl_move (h : Move w s t) (k : Part.sub [.links, .out] w) : Move w s (sendControl t a1) := by
  refine Move.step h ?_ k
  unfold sendControl
  repeat' first
    | with_reducible (first | exact Move.refl _ _ | apply Move.ite | apply sendCmd_move | apply sendAck_move | apply sendDown_move
                            | apply updLink_move | apply downStandby_move)
    | decide | intro u | split | dsimp only

theorem missState_move (h : Move w s t) (k : Part.sub [.links] w) : Move w s (missState t a1) := by
  refine Move.step h ?_ k
  unfold missState
  repeat' first
    | with_reducible (first | exact Move.refl _ _ | apply Move.ite | apply updLink_move)
    | decide | intro u | split | dsimp only

theorem sendTick_move (h : Move w s t) (k : Part.sub [.links, .out] w) : Move w s (sendTick t a1) := by
  refine Move.step h ?_ k
  unfold sendTick
  repeat' first
    | with_reducible (first | exact Move.refl _ _ | apply Move.ite | apply missState_move | apply sendAck_move | apply sendDownIdle_move
                            | apply sendControl_move | apply downStandby_move)
    | decide | intro u | split | dsimp only

theorem sendTicks_move (h : Move w s t) (k : Part.sub [.links, .out] w) : Move w s (sendTicks t) := by
  refine Move.step h ?_ k
  unfold sendTicks
  repeat' first
    | with_reducible (first | exact Move.refl _ _ | apply Move.ite | apply sendTick_move | refine Move.forEach ?_ (fun u a => ?_))
    | decide | intro u | split | dsimp only

theorem endStorms_move (h : Move w s t) (k : Part.sub [.log, .coll, .host] w) : Move w s (endStorms t) := by
  refine Move.step h ?_ k
  unfold endStorms
  repeat' first
    | with_reducible (first | exact Move.refl _ _ | apply Move.ite | apply clearError_move | refine Move.forEach ?_ (fun u a => ?_))
    | decide | intro u | split | dsimp only

theorem flushAll_move (h : Move w s t) (k : Part.sub [.boot, .works, .host, .out] w) : Move w s (flushAll t) := by
  refine Move.step h ?_ k
  unfold flushAll
  repeat' first
    | with_reducible (first | exact Move.refl _ _ | apply Move.ite | apply flushFwd_move | refine Move.forEach ?_ (fun u a => ?_))
    | decide | intro u | split | dsimp only

theorem timeIslandTick_move (h : Move w s t) (k : Part.sub [.cells, .hearths, .spies, .hks, .chans, .cones, .engines, .clusters, .links, .boot, .time, .log, .coll, .pair, .works, .host, .pmb, .out] w) : Move w s (timeIslandTick t) := by
  refine Move.step h ?_ k
  unfold timeIslandTick
  repeat' first
    | with_reducible (first | exact Move.refl _ _ | apply Move.ite | apply takeReturn_move | apply endStorms_move | apply sendTicks_move
                            | apply setTime_move | apply flushAll_move | apply serveSubscribers_move | apply pmbWatch_move
                            | apply wakeAdvance_move)
    | decide | intro u | split | dsimp only

theorem timesyncSend_move (h : Move w s t) (k : Part.sub [.works, .out] w) : Move w s (timesyncSend a1 a2 t) := by
  refine Move.step h ?_ k
  unfold timesyncSend
  repeat' first
    | with_reducible (first | exact Move.refl _ _ | apply Move.ite | apply updWlane_move | apply sendLocal_move)
    | decide | intro u | split | dsimp only

theorem takeParent_move (h : Move w s t) (k : Part.sub [.time, .log, .host] w) : Move w s (takeParent t a1) := by
  refine Move.step h ?_ k
  unfold takeParent
  repeat' first
    | with_reducible (first | exact Move.refl _ _ | apply Move.ite | apply setParent_move)
    | decide | intro u | split | dsimp only

theorem chooseParent_move (h : Move w s t) (k : Part.sub [.time, .log, .host] w) : Move w s (chooseParent t) := by
  refine Move.step h ?_ k
  unfold chooseParent
  repeat' first
    | with_reducible (first | exact Move.refl _ _ | apply Move.ite | apply takeParent_move | apply toHoldover_move | apply setParent_move)
    | decide | intro u | split | dsimp only

theorem servo_move (h : Move w s t) (k : Part.sub [.time, .free] w) : Move w s (servo t a1) := by
  refine Move.step h ?_ k
  unfold servo
  repeat' first
    | with_reducible (first | exact Move.refl _ _ | apply Move.ite | apply freshFree_move | apply freshFree_move_eq (by assumption)
                            | apply setTime_move | apply correct_move)
    | decide | intro u | split | dsimp only

theorem parentExchange_move (h : Move w s t) (k : Part.sub [.time, .log, .host, .free] w) : Move w s (parentExchange t a1 a2) := by
  refine Move.step h ?_ k
  unfold parentExchange
  repeat' first
    | with_reducible (first | exact Move.refl _ _ | apply Move.ite | apply servo_move | apply setTimeState_move | apply toHoldover_move
                            | apply setTime_move)
    | decide | intro u | split | dsimp only

theorem timesync_move (h : Move w s t) (k : Part.sub [.time, .log, .works, .host, .out, .free] w) : Move w s (timesync a1 a2 a3 t) := by
  refine Move.step h ?_ k
  unfold timesync
  repeat' first
    | with_reducible (first | exact Move.refl _ _ | apply Move.ite | apply acceptNext_move | apply updWlane_move | apply parentExchange_move
                            | apply chooseParent_move)
    | decide | intro u | split | dsimp only

end Sys2Proof.Machine
end

