-- ==== Sys2Proof/Laws/Reads.lean ====
section
/-! SUPPORT. Reading a part of the state after an operation that leaves it alone. -/
namespace Sys2Proof.Machine
open Sys2Proof

variable {w : List Part} {s t : State}

/-- A part that a move does not name is the same after it. -/
theorem Move.part (h : Move w s t) (p : Part) (k : w.contains p = false) : p.same s t :=
  h.1 p fun m => by
    have c := List.elem_eq_true_of_mem m
    rw [List.contains] at k
    rw [k] at c
    cases c

theorem Move.cell (h : Move w s t) (k : w.contains .cells = false) (j : Nat) : t.cell j = s.cell j := by
  unfold State.cell
  rw [show t.cells = s.cells from h.part .cells k]

theorem Move.hearth (h : Move w s t) (k : w.contains .hearths = false) (j : Nat) : t.hearth j = s.hearth j := by
  unfold State.hearth
  rw [show t.hearths = s.hearths from h.part .hearths k]

theorem Move.slot (h : Move w s t) (k : w.contains .slots = false) (j : Nat) : t.slot j = s.slot j := by
  unfold State.slot
  rw [show t.slots = s.slots from h.part .slots k]

theorem Move.spy (h : Move w s t) (k : w.contains .spies = false) (j : Nat) : t.spy j = s.spy j := by
  unfold State.spy
  rw [show t.spies = s.spies from h.part .spies k]

theorem Move.capture (h : Move w s t) (k : w.contains .captures = false) (j : Nat) : t.capture j = s.capture j := by
  unfold State.capture
  rw [show t.captures = s.captures from h.part .captures k]

theorem Move.group (h : Move w s t) (k : w.contains .groups = false) (j : Nat) : t.group j = s.group j := by
  unfold State.group
  rw [show t.groups = s.groups from h.part .groups k]

theorem Move.hk (h : Move w s t) (k : w.contains .hks = false) (j : Nat) : t.hk j = s.hk j := by
  unfold State.hk
  rw [show t.hks = s.hks from h.part .hks k]

theorem Move.chan (h : Move w s t) (k : w.contains .chans = false) (j : Nat) : t.chan j = s.chan j := by
  unfold State.chan
  rw [show t.chans = s.chans from h.part .chans k]

theorem Move.cone (h : Move w s t) (k : w.contains .cones = false) (j : Nat) : t.cone j = s.cone j := by
  unfold State.cone
  rw [show t.cones = s.cones from h.part .cones k]

theorem Move.engine (h : Move w s t) (k : w.contains .engines = false) (j : Nat) : t.engine j = s.engine j := by
  unfold State.engine
  rw [show t.engines = s.engines from h.part .engines k]

theorem Move.cluster (h : Move w s t) (k : w.contains .clusters = false) (j : Nat) : t.cluster j = s.cluster j := by
  unfold State.cluster
  rw [show t.clusters = s.clusters from h.part .clusters k]

theorem Move.link (h : Move w s t) (k : w.contains .links = false) (j : Nat) : t.link j = s.link j := by
  unfold State.link
  rw [show t.links = s.links from h.part .links k]

theorem Move.time (h : Move w s t) (k : w.contains .time = false) : t.time = s.time := h.part .time k

theorem Move.log (h : Move w s t) (k : w.contains .log = false) : t.log = s.log := h.part .log k

theorem Move.coll (h : Move w s t) (k : w.contains .coll = false) : t.coll = s.coll := h.part .coll k

theorem Move.pair (h : Move w s t) (k : w.contains .pair = false) : t.pair = s.pair := h.part .pair k

theorem Move.works (h : Move w s t) (k : w.contains .works = false) : t.works = s.works := h.part .works k

theorem Move.host (h : Move w s t) (k : w.contains .host = false) : t.host = s.host := h.part .host k

theorem Move.pmb (h : Move w s t) (k : w.contains .pmb = false) : t.pmb = s.pmb := h.part .pmb k

theorem Move.jtag (h : Move w s t) (k : w.contains .jtag = false) : t.jtag = s.jtag := h.part .jtag k

theorem Move.out (h : Move w s t) (k : w.contains .out = false) : t.out = s.out := h.part .out k

theorem Move.free (h : Move w s t) (k : w.contains .free = false) : t.free = s.free := h.part .free k

theorem Move.books (h : Move w s t) (k : w.contains .books = false) : t.books = s.books := h.part .books k

theorem Move.boot (h : Move w s t) (k : w.contains .boot = false) (k1 : w.contains .flash = false) (k2 : w.contains .fuses = false)
    (k3 : w.contains .measured = false) : t.boot = s.boot := by
  have a : { t.boot with flash := [], fuses := 0, slots := [], mlog := [], mcount := 0 } =
      { s.boot with flash := [], fuses := 0, slots := [], mlog := [], mcount := 0 } := h.part .boot k
  have b : t.boot.flash = s.boot.flash := h.part .flash k1
  have c : t.boot.fuses = s.boot.fuses := h.part .fuses k2
  obtain ⟨d, e, f⟩ : t.boot.slots = s.boot.slots ∧ t.boot.mlog = s.boot.mlog ∧ t.boot.mcount = s.boot.mcount := h.part .measured k3
  cases hb : t.boot
  cases hc : s.boot
  simp_all

theorem Move.pending (h : Move w s t) (k : w.contains .pending = false) : t.pending = s.pending := h.part .pending k

@[simp] theorem sendDown_reads {a1 a2 a3} (s : State) (j : Nat) :
    (sendDown s a1 a2 a3).cell j = s.cell j ∧ (sendDown s a1 a2 a3).hearth j = s.hearth j ∧ (sendDown s a1 a2 a3).slot j = s.slot j ∧
    (sendDown s a1 a2 a3).spy j = s.spy j ∧ (sendDown s a1 a2 a3).capture j = s.capture j ∧ (sendDown s a1 a2 a3).group j = s.group j ∧
    (sendDown s a1 a2 a3).hk j = s.hk j ∧ (sendDown s a1 a2 a3).chan j = s.chan j ∧ (sendDown s a1 a2 a3).cone j = s.cone j ∧
    (sendDown s a1 a2 a3).engine j = s.engine j ∧ (sendDown s a1 a2 a3).cluster j = s.cluster j ∧ (sendDown s a1 a2 a3).time = s.time ∧
    (sendDown s a1 a2 a3).log = s.log ∧ (sendDown s a1 a2 a3).coll = s.coll ∧ (sendDown s a1 a2 a3).pair = s.pair ∧
    (sendDown s a1 a2 a3).works = s.works ∧ (sendDown s a1 a2 a3).host = s.host ∧ (sendDown s a1 a2 a3).pmb = s.pmb ∧
    (sendDown s a1 a2 a3).jtag = s.jtag ∧ (sendDown s a1 a2 a3).free = s.free ∧ (sendDown s a1 a2 a3).books = s.books ∧
    (sendDown s a1 a2 a3).boot = s.boot ∧ (sendDown s a1 a2 a3).pending = s.pending :=
  have m := sendDown_move (Move.refl [.links, .out] s) rfl
  ⟨m.cell rfl j, m.hearth rfl j, m.slot rfl j, m.spy rfl j, m.capture rfl j, m.group rfl j, m.hk rfl j, m.chan rfl j, m.cone rfl j, m.engine rfl j, m.cluster rfl j, m.time rfl, m.log rfl, m.coll rfl, m.pair rfl, m.works rfl, m.host rfl, m.pmb rfl, m.jtag rfl, m.free rfl, m.books rfl, m.boot rfl rfl rfl rfl, m.pending rfl⟩

@[simp] theorem sendDownIdle_reads {a1 a2 a3 a4} (s : State) (j : Nat) :
    (sendDownIdle s a1 a2 a3 a4).cell j = s.cell j ∧ (sendDownIdle s a1 a2 a3 a4).hearth j = s.hearth j ∧
    (sendDownIdle s a1 a2 a3 a4).slot j = s.slot j ∧ (sendDownIdle s a1 a2 a3 a4).spy j = s.spy j ∧
    (sendDownIdle s a1 a2 a3 a4).capture j = s.capture j ∧ (sendDownIdle s a1 a2 a3 a4).group j = s.group j ∧
    (sendDownIdle s a1 a2 a3 a4).hk j = s.hk j ∧ (sendDownIdle s a1 a2 a3 a4).chan j = s.chan j ∧
    (sendDownIdle s a1 a2 a3 a4).cone j = s.cone j ∧ (sendDownIdle s a1 a2 a3 a4).engine j = s.engine j ∧
    (sendDownIdle s a1 a2 a3 a4).cluster j = s.cluster j ∧ (sendDownIdle s a1 a2 a3 a4).link j = s.link j ∧
    (sendDownIdle s a1 a2 a3 a4).time = s.time ∧ (sendDownIdle s a1 a2 a3 a4).log = s.log ∧ (sendDownIdle s a1 a2 a3 a4).coll = s.coll ∧
    (sendDownIdle s a1 a2 a3 a4).pair = s.pair ∧ (sendDownIdle s a1 a2 a3 a4).works = s.works ∧ (sendDownIdle s a1 a2 a3 a4).host = s.host ∧
    (sendDownIdle s a1 a2 a3 a4).pmb = s.pmb ∧ (sendDownIdle s a1 a2 a3 a4).jtag = s.jtag ∧ (sendDownIdle s a1 a2 a3 a4).free = s.free ∧
    (sendDownIdle s a1 a2 a3 a4).books = s.books ∧ (sendDownIdle s a1 a2 a3 a4).boot = s.boot ∧
    (sendDownIdle s a1 a2 a3 a4).pending = s.pending :=
  have m := sendDownIdle_move (Move.refl [.out] s) rfl
  ⟨m.cell rfl j, m.hearth rfl j, m.slot rfl j, m.spy rfl j, m.capture rfl j, m.group rfl j, m.hk rfl j, m.chan rfl j, m.cone rfl j, m.engine rfl j, m.cluster rfl j, m.link rfl j, m.time rfl, m.log rfl, m.coll rfl, m.pair rfl, m.works rfl, m.host rfl, m.pmb rfl, m.jtag rfl, m.free rfl, m.books rfl, m.boot rfl rfl rfl rfl, m.pending rfl⟩

@[simp] theorem takeUp_reads {a1} (s : State) (j : Nat) :
    (takeUp s a1).cell j = s.cell j ∧ (takeUp s a1).hearth j = s.hearth j ∧ (takeUp s a1).slot j = s.slot j ∧ (takeUp s a1).spy j = s.spy j ∧
    (takeUp s a1).capture j = s.capture j ∧ (takeUp s a1).group j = s.group j ∧ (takeUp s a1).hk j = s.hk j ∧
    (takeUp s a1).chan j = s.chan j ∧ (takeUp s a1).cone j = s.cone j ∧ (takeUp s a1).engine j = s.engine j ∧
    (takeUp s a1).cluster j = s.cluster j ∧ (takeUp s a1).time = s.time ∧ (takeUp s a1).log = s.log ∧ (takeUp s a1).coll = s.coll ∧
    (takeUp s a1).pair = s.pair ∧ (takeUp s a1).works = s.works ∧ (takeUp s a1).host = s.host ∧ (takeUp s a1).pmb = s.pmb ∧
    (takeUp s a1).jtag = s.jtag ∧ (takeUp s a1).out = s.out ∧ (takeUp s a1).free = s.free ∧ (takeUp s a1).books = s.books ∧
    (takeUp s a1).boot = s.boot ∧ (takeUp s a1).pending = s.pending :=
  have m := takeUp_move (Move.refl [.links] s) rfl
  ⟨m.cell rfl j, m.hearth rfl j, m.slot rfl j, m.spy rfl j, m.capture rfl j, m.group rfl j, m.hk rfl j, m.chan rfl j, m.cone rfl j, m.engine rfl j, m.cluster rfl j, m.time rfl, m.log rfl, m.coll rfl, m.pair rfl, m.works rfl, m.host rfl, m.pmb rfl, m.jtag rfl, m.out rfl, m.free rfl, m.books rfl, m.boot rfl rfl rfl rfl, m.pending rfl⟩

@[simp] theorem sendParam_reads {a1 a2 a3 a4} (s : State) (j : Nat) :
    (sendParam s a1 a2 a3 a4).cell j = s.cell j ∧ (sendParam s a1 a2 a3 a4).hearth j = s.hearth j ∧
    (sendParam s a1 a2 a3 a4).slot j = s.slot j ∧ (sendParam s a1 a2 a3 a4).spy j = s.spy j ∧
    (sendParam s a1 a2 a3 a4).capture j = s.capture j ∧ (sendParam s a1 a2 a3 a4).group j = s.group j ∧
    (sendParam s a1 a2 a3 a4).hk j = s.hk j ∧ (sendParam s a1 a2 a3 a4).chan j = s.chan j ∧ (sendParam s a1 a2 a3 a4).cone j = s.cone j ∧
    (sendParam s a1 a2 a3 a4).engine j = s.engine j ∧ (sendParam s a1 a2 a3 a4).cluster j = s.cluster j ∧
    (sendParam s a1 a2 a3 a4).time = s.time ∧ (sendParam s a1 a2 a3 a4).log = s.log ∧ (sendParam s a1 a2 a3 a4).coll = s.coll ∧
    (sendParam s a1 a2 a3 a4).pair = s.pair ∧ (sendParam s a1 a2 a3 a4).works = s.works ∧ (sendParam s a1 a2 a3 a4).host = s.host ∧
    (sendParam s a1 a2 a3 a4).pmb = s.pmb ∧ (sendParam s a1 a2 a3 a4).jtag = s.jtag ∧ (sendParam s a1 a2 a3 a4).free = s.free ∧
    (sendParam s a1 a2 a3 a4).books = s.books ∧ (sendParam s a1 a2 a3 a4).boot = s.boot ∧ (sendParam s a1 a2 a3 a4).pending = s.pending :=
  have m := sendParam_move (Move.refl [.links, .out] s) rfl
  ⟨m.cell rfl j, m.hearth rfl j, m.slot rfl j, m.spy rfl j, m.capture rfl j, m.group rfl j, m.hk rfl j, m.chan rfl j, m.cone rfl j, m.engine rfl j, m.cluster rfl j, m.time rfl, m.log rfl, m.coll rfl, m.pair rfl, m.works rfl, m.host rfl, m.pmb rfl, m.jtag rfl, m.free rfl, m.books rfl, m.boot rfl rfl rfl rfl, m.pending rfl⟩

@[simp] theorem stampRec_reads {a1 a2 a3 a4 a5 a6 a7 a8 a9} (s : State) (j : Nat) :
    (stampRec s a1 a2 a3 a4 a5 a6 a7 a8 a9).cell j = s.cell j ∧ (stampRec s a1 a2 a3 a4 a5 a6 a7 a8 a9).slot j = s.slot j ∧
    (stampRec s a1 a2 a3 a4 a5 a6 a7 a8 a9).spy j = s.spy j ∧ (stampRec s a1 a2 a3 a4 a5 a6 a7 a8 a9).capture j = s.capture j ∧
    (stampRec s a1 a2 a3 a4 a5 a6 a7 a8 a9).group j = s.group j ∧ (stampRec s a1 a2 a3 a4 a5 a6 a7 a8 a9).hk j = s.hk j ∧
    (stampRec s a1 a2 a3 a4 a5 a6 a7 a8 a9).chan j = s.chan j ∧ (stampRec s a1 a2 a3 a4 a5 a6 a7 a8 a9).cone j = s.cone j ∧
    (stampRec s a1 a2 a3 a4 a5 a6 a7 a8 a9).engine j = s.engine j ∧ (stampRec s a1 a2 a3 a4 a5 a6 a7 a8 a9).cluster j = s.cluster j ∧
    (stampRec s a1 a2 a3 a4 a5 a6 a7 a8 a9).link j = s.link j ∧ (stampRec s a1 a2 a3 a4 a5 a6 a7 a8 a9).time = s.time ∧
    (stampRec s a1 a2 a3 a4 a5 a6 a7 a8 a9).log = s.log ∧ (stampRec s a1 a2 a3 a4 a5 a6 a7 a8 a9).coll = s.coll ∧
    (stampRec s a1 a2 a3 a4 a5 a6 a7 a8 a9).pair = s.pair ∧ (stampRec s a1 a2 a3 a4 a5 a6 a7 a8 a9).works = s.works ∧
    (stampRec s a1 a2 a3 a4 a5 a6 a7 a8 a9).host = s.host ∧ (stampRec s a1 a2 a3 a4 a5 a6 a7 a8 a9).pmb = s.pmb ∧
    (stampRec s a1 a2 a3 a4 a5 a6 a7 a8 a9).jtag = s.jtag ∧ (stampRec s a1 a2 a3 a4 a5 a6 a7 a8 a9).out = s.out ∧
    (stampRec s a1 a2 a3 a4 a5 a6 a7 a8 a9).free = s.free ∧ (stampRec s a1 a2 a3 a4 a5 a6 a7 a8 a9).books = s.books ∧
    (stampRec s a1 a2 a3 a4 a5 a6 a7 a8 a9).boot = s.boot ∧ (stampRec s a1 a2 a3 a4 a5 a6 a7 a8 a9).pending = s.pending :=
  have m := stampRec_move (Move.refl [.hearths] s) rfl
  ⟨m.cell rfl j, m.slot rfl j, m.spy rfl j, m.capture rfl j, m.group rfl j, m.hk rfl j, m.chan rfl j, m.cone rfl j, m.engine rfl j, m.cluster rfl j, m.link rfl j, m.time rfl, m.log rfl, m.coll rfl, m.pair rfl, m.works rfl, m.host rfl, m.pmb rfl, m.jtag rfl, m.out rfl, m.free rfl, m.books rfl, m.boot rfl rfl rfl rfl, m.pending rfl⟩

@[simp] theorem stampNow_reads {a1 a2 a3 a4 a5} (s : State) (j : Nat) :
    (stampNow s a1 a2 a3 a4 a5).cell j = s.cell j ∧ (stampNow s a1 a2 a3 a4 a5).slot j = s.slot j ∧
    (stampNow s a1 a2 a3 a4 a5).spy j = s.spy j ∧ (stampNow s a1 a2 a3 a4 a5).capture j = s.capture j ∧
    (stampNow s a1 a2 a3 a4 a5).group j = s.group j ∧ (stampNow s a1 a2 a3 a4 a5).hk j = s.hk j ∧
    (stampNow s a1 a2 a3 a4 a5).chan j = s.chan j ∧ (stampNow s a1 a2 a3 a4 a5).cone j = s.cone j ∧
    (stampNow s a1 a2 a3 a4 a5).engine j = s.engine j ∧ (stampNow s a1 a2 a3 a4 a5).cluster j = s.cluster j ∧
    (stampNow s a1 a2 a3 a4 a5).link j = s.link j ∧ (stampNow s a1 a2 a3 a4 a5).time = s.time ∧ (stampNow s a1 a2 a3 a4 a5).log = s.log ∧
    (stampNow s a1 a2 a3 a4 a5).coll = s.coll ∧ (stampNow s a1 a2 a3 a4 a5).pair = s.pair ∧ (stampNow s a1 a2 a3 a4 a5).works = s.works ∧
    (stampNow s a1 a2 a3 a4 a5).host = s.host ∧ (stampNow s a1 a2 a3 a4 a5).pmb = s.pmb ∧ (stampNow s a1 a2 a3 a4 a5).jtag = s.jtag ∧
    (stampNow s a1 a2 a3 a4 a5).out = s.out ∧ (stampNow s a1 a2 a3 a4 a5).free = s.free ∧ (stampNow s a1 a2 a3 a4 a5).books = s.books ∧
    (stampNow s a1 a2 a3 a4 a5).boot = s.boot ∧ (stampNow s a1 a2 a3 a4 a5).pending = s.pending :=
  have m := stampNow_move (Move.refl [.hearths] s) rfl
  ⟨m.cell rfl j, m.slot rfl j, m.spy rfl j, m.capture rfl j, m.group rfl j, m.hk rfl j, m.chan rfl j, m.cone rfl j, m.engine rfl j, m.cluster rfl j, m.link rfl j, m.time rfl, m.log rfl, m.coll rfl, m.pair rfl, m.works rfl, m.host rfl, m.pmb rfl, m.jtag rfl, m.out rfl, m.free rfl, m.books rfl, m.boot rfl rfl rfl rfl, m.pending rfl⟩

@[simp] theorem stampError_reads {a1 a2 a3 a4 a5} (s : State) (j : Nat) :
    (stampError s a1 a2 a3 a4 a5).cell j = s.cell j ∧ (stampError s a1 a2 a3 a4 a5).slot j = s.slot j ∧
    (stampError s a1 a2 a3 a4 a5).spy j = s.spy j ∧ (stampError s a1 a2 a3 a4 a5).capture j = s.capture j ∧
    (stampError s a1 a2 a3 a4 a5).group j = s.group j ∧ (stampError s a1 a2 a3 a4 a5).hk j = s.hk j ∧
    (stampError s a1 a2 a3 a4 a5).chan j = s.chan j ∧ (stampError s a1 a2 a3 a4 a5).cone j = s.cone j ∧
    (stampError s a1 a2 a3 a4 a5).engine j = s.engine j ∧ (stampError s a1 a2 a3 a4 a5).cluster j = s.cluster j ∧
    (stampError s a1 a2 a3 a4 a5).link j = s.link j ∧ (stampError s a1 a2 a3 a4 a5).time = s.time ∧
    (stampError s a1 a2 a3 a4 a5).log = s.log ∧ (stampError s a1 a2 a3 a4 a5).coll = s.coll ∧ (stampError s a1 a2 a3 a4 a5).pair = s.pair ∧
    (stampError s a1 a2 a3 a4 a5).works = s.works ∧ (stampError s a1 a2 a3 a4 a5).host = s.host ∧ (stampError s a1 a2 a3 a4 a5).pmb = s.pmb ∧
    (stampError s a1 a2 a3 a4 a5).jtag = s.jtag ∧ (stampError s a1 a2 a3 a4 a5).out = s.out ∧ (stampError s a1 a2 a3 a4 a5).free = s.free ∧
    (stampError s a1 a2 a3 a4 a5).books = s.books ∧ (stampError s a1 a2 a3 a4 a5).boot = s.boot ∧
    (stampError s a1 a2 a3 a4 a5).pending = s.pending :=
  have m := stampError_move (Move.refl [.hearths] s) rfl
  ⟨m.cell rfl j, m.slot rfl j, m.spy rfl j, m.capture rfl j, m.group rfl j, m.hk rfl j, m.chan rfl j, m.cone rfl j, m.engine rfl j, m.cluster rfl j, m.link rfl j, m.time rfl, m.log rfl, m.coll rfl, m.pair rfl, m.works rfl, m.host rfl, m.pmb rfl, m.jtag rfl, m.out rfl, m.free rfl, m.books rfl, m.boot rfl rfl rfl rfl, m.pending rfl⟩

@[simp] theorem msix_reads {a1} (s : State) (j : Nat) :
    (msix s a1).cell j = s.cell j ∧ (msix s a1).hearth j = s.hearth j ∧ (msix s a1).slot j = s.slot j ∧ (msix s a1).spy j = s.spy j ∧
    (msix s a1).capture j = s.capture j ∧ (msix s a1).group j = s.group j ∧ (msix s a1).hk j = s.hk j ∧ (msix s a1).chan j = s.chan j ∧
    (msix s a1).cone j = s.cone j ∧ (msix s a1).engine j = s.engine j ∧ (msix s a1).cluster j = s.cluster j ∧ (msix s a1).link j = s.link j ∧
    (msix s a1).time = s.time ∧ (msix s a1).log = s.log ∧ (msix s a1).coll = s.coll ∧ (msix s a1).pair = s.pair ∧
    (msix s a1).works = s.works ∧ (msix s a1).pmb = s.pmb ∧ (msix s a1).jtag = s.jtag ∧ (msix s a1).free = s.free ∧
    (msix s a1).books = s.books ∧ (msix s a1).boot = s.boot ∧ (msix s a1).pending = s.pending :=
  have m := msix_move (Move.refl [.host, .out] s) rfl
  ⟨m.cell rfl j, m.hearth rfl j, m.slot rfl j, m.spy rfl j, m.capture rfl j, m.group rfl j, m.hk rfl j, m.chan rfl j, m.cone rfl j, m.engine rfl j, m.cluster rfl j, m.link rfl j, m.time rfl, m.log rfl, m.coll rfl, m.pair rfl, m.works rfl, m.pmb rfl, m.jtag rfl, m.free rfl, m.books rfl, m.boot rfl rfl rfl rfl, m.pending rfl⟩

@[simp] theorem spiIrq_reads {a1} (s : State) (j : Nat) :
    (spiIrq s a1).cell j = s.cell j ∧ (spiIrq s a1).hearth j = s.hearth j ∧ (spiIrq s a1).slot j = s.slot j ∧ (spiIrq s a1).spy j = s.spy j ∧
    (spiIrq s a1).capture j = s.capture j ∧ (spiIrq s a1).group j = s.group j ∧ (spiIrq s a1).hk j = s.hk j ∧
    (spiIrq s a1).chan j = s.chan j ∧ (spiIrq s a1).cone j = s.cone j ∧ (spiIrq s a1).engine j = s.engine j ∧
    (spiIrq s a1).cluster j = s.cluster j ∧ (spiIrq s a1).link j = s.link j ∧ (spiIrq s a1).time = s.time ∧ (spiIrq s a1).log = s.log ∧
    (spiIrq s a1).coll = s.coll ∧ (spiIrq s a1).pair = s.pair ∧ (spiIrq s a1).works = s.works ∧ (spiIrq s a1).pmb = s.pmb ∧
    (spiIrq s a1).jtag = s.jtag ∧ (spiIrq s a1).out = s.out ∧ (spiIrq s a1).free = s.free ∧ (spiIrq s a1).books = s.books ∧
    (spiIrq s a1).boot = s.boot ∧ (spiIrq s a1).pending = s.pending :=
  have m := spiIrq_move (Move.refl [.host] s) rfl
  ⟨m.cell rfl j, m.hearth rfl j, m.slot rfl j, m.spy rfl j, m.capture rfl j, m.group rfl j, m.hk rfl j, m.chan rfl j, m.cone rfl j, m.engine rfl j, m.cluster rfl j, m.link rfl j, m.time rfl, m.log rfl, m.coll rfl, m.pair rfl, m.works rfl, m.pmb rfl, m.jtag rfl, m.out rfl, m.free rfl, m.books rfl, m.boot rfl rfl rfl rfl, m.pending rfl⟩

@[simp] theorem admitRec_reads {a1} (s : State) (j : Nat) :
    (admitRec s a1).cell j = s.cell j ∧ (admitRec s a1).hearth j = s.hearth j ∧ (admitRec s a1).slot j = s.slot j ∧
    (admitRec s a1).spy j = s.spy j ∧ (admitRec s a1).capture j = s.capture j ∧ (admitRec s a1).group j = s.group j ∧
    (admitRec s a1).hk j = s.hk j ∧ (admitRec s a1).chan j = s.chan j ∧ (admitRec s a1).cone j = s.cone j ∧
    (admitRec s a1).engine j = s.engine j ∧ (admitRec s a1).cluster j = s.cluster j ∧ (admitRec s a1).link j = s.link j ∧
    (admitRec s a1).time = s.time ∧ (admitRec s a1).coll = s.coll ∧ (admitRec s a1).pair = s.pair ∧ (admitRec s a1).works = s.works ∧
    (admitRec s a1).pmb = s.pmb ∧ (admitRec s a1).jtag = s.jtag ∧ (admitRec s a1).out = s.out ∧ (admitRec s a1).free = s.free ∧
    (admitRec s a1).books = s.books ∧ (admitRec s a1).boot = s.boot ∧ (admitRec s a1).pending = s.pending :=
  have m := admitRec_move (Move.refl [.log, .host] s) rfl
  ⟨m.cell rfl j, m.hearth rfl j, m.slot rfl j, m.spy rfl j, m.capture rfl j, m.group rfl j, m.hk rfl j, m.chan rfl j, m.cone rfl j, m.engine rfl j, m.cluster rfl j, m.link rfl j, m.time rfl, m.coll rfl, m.pair rfl, m.works rfl, m.pmb rfl, m.jtag rfl, m.out rfl, m.free rfl, m.books rfl, m.boot rfl rfl rfl rfl, m.pending rfl⟩

@[simp] theorem numberAdmit_reads {a1} (s : State) (j : Nat) :
    (numberAdmit s a1).cell j = s.cell j ∧ (numberAdmit s a1).hearth j = s.hearth j ∧ (numberAdmit s a1).slot j = s.slot j ∧
    (numberAdmit s a1).spy j = s.spy j ∧ (numberAdmit s a1).capture j = s.capture j ∧ (numberAdmit s a1).group j = s.group j ∧
    (numberAdmit s a1).hk j = s.hk j ∧ (numberAdmit s a1).chan j = s.chan j ∧ (numberAdmit s a1).cone j = s.cone j ∧
    (numberAdmit s a1).engine j = s.engine j ∧ (numberAdmit s a1).cluster j = s.cluster j ∧ (numberAdmit s a1).link j = s.link j ∧
    (numberAdmit s a1).time = s.time ∧ (numberAdmit s a1).coll = s.coll ∧ (numberAdmit s a1).pair = s.pair ∧
    (numberAdmit s a1).works = s.works ∧ (numberAdmit s a1).pmb = s.pmb ∧ (numberAdmit s a1).jtag = s.jtag ∧ (numberAdmit s a1).out = s.out ∧
    (numberAdmit s a1).free = s.free ∧ (numberAdmit s a1).books = s.books ∧ (numberAdmit s a1).boot = s.boot ∧
    (numberAdmit s a1).pending = s.pending :=
  have m := numberAdmit_move (Move.refl [.log, .host] s) rfl
  ⟨m.cell rfl j, m.hearth rfl j, m.slot rfl j, m.spy rfl j, m.capture rfl j, m.group rfl j, m.hk rfl j, m.chan rfl j, m.cone rfl j, m.engine rfl j, m.cluster rfl j, m.link rfl j, m.time rfl, m.coll rfl, m.pair rfl, m.works rfl, m.pmb rfl, m.jtag rfl, m.out rfl, m.free rfl, m.books rfl, m.boot rfl rfl rfl rfl, m.pending rfl⟩

@[simp] theorem crownStamp_reads {a1 a2 a3} (s : State) (j : Nat) :
    (crownStamp s a1 a2 a3).cell j = s.cell j ∧ (crownStamp s a1 a2 a3).hearth j = s.hearth j ∧ (crownStamp s a1 a2 a3).slot j = s.slot j ∧
    (crownStamp s a1 a2 a3).spy j = s.spy j ∧ (crownStamp s a1 a2 a3).capture j = s.capture j ∧ (crownStamp s a1 a2 a3).group j = s.group j ∧
    (crownStamp s a1 a2 a3).hk j = s.hk j ∧ (crownStamp s a1 a2 a3).chan j = s.chan j ∧ (crownStamp s a1 a2 a3).cone j = s.cone j ∧
    (crownStamp s a1 a2 a3).engine j = s.engine j ∧ (crownStamp s a1 a2 a3).cluster j = s.cluster j ∧
    (crownStamp s a1 a2 a3).link j = s.link j ∧ (crownStamp s a1 a2 a3).time = s.time ∧ (crownStamp s a1 a2 a3).coll = s.coll ∧
    (crownStamp s a1 a2 a3).pair = s.pair ∧ (crownStamp s a1 a2 a3).works = s.works ∧ (crownStamp s a1 a2 a3).pmb = s.pmb ∧
    (crownStamp s a1 a2 a3).jtag = s.jtag ∧ (crownStamp s a1 a2 a3).out = s.out ∧ (crownStamp s a1 a2 a3).free = s.free ∧
    (crownStamp s a1 a2 a3).books = s.books ∧ (crownStamp s a1 a2 a3).boot = s.boot ∧ (crownStamp s a1 a2 a3).pending = s.pending :=
  have m := crownStamp_move (Move.refl [.log, .host] s) rfl
  ⟨m.cell rfl j, m.hearth rfl j, m.slot rfl j, m.spy rfl j, m.capture rfl j, m.group rfl j, m.hk rfl j, m.chan rfl j, m.cone rfl j, m.engine rfl j, m.cluster rfl j, m.link rfl j, m.time rfl, m.coll rfl, m.pair rfl, m.works rfl, m.pmb rfl, m.jtag rfl, m.out rfl, m.free rfl, m.books rfl, m.boot rfl rfl rfl rfl, m.pending rfl⟩

@[simp] theorem releaseHeld_reads (s : State) (j : Nat) :
    (releaseHeld s).cell j = s.cell j ∧ (releaseHeld s).hearth j = s.hearth j ∧ (releaseHeld s).slot j = s.slot j ∧
    (releaseHeld s).spy j = s.spy j ∧ (releaseHeld s).capture j = s.capture j ∧ (releaseHeld s).group j = s.group j ∧
    (releaseHeld s).hk j = s.hk j ∧ (releaseHeld s).chan j = s.chan j ∧ (releaseHeld s).cone j = s.cone j ∧
    (releaseHeld s).engine j = s.engine j ∧ (releaseHeld s).cluster j = s.cluster j ∧ (releaseHeld s).link j = s.link j ∧
    (releaseHeld s).time = s.time ∧ (releaseHeld s).pair = s.pair ∧ (releaseHeld s).works = s.works ∧ (releaseHeld s).pmb = s.pmb ∧
    (releaseHeld s).jtag = s.jtag ∧ (releaseHeld s).out = s.out ∧ (releaseHeld s).free = s.free ∧ (releaseHeld s).books = s.books ∧
    (releaseHeld s).boot = s.boot ∧ (releaseHeld s).pending = s.pending :=
  have m := releaseHeld_move (Move.refl [.log, .coll, .host] s) rfl
  ⟨m.cell rfl j, m.hearth rfl j, m.slot rfl j, m.spy rfl j, m.capture rfl j, m.group rfl j, m.hk rfl j, m.chan rfl j, m.cone rfl j, m.engine rfl j, m.cluster rfl j, m.link rfl j, m.time rfl, m.pair rfl, m.works rfl, m.pmb rfl, m.jtag rfl, m.out rfl, m.free rfl, m.books rfl, m.boot rfl rfl rfl rfl, m.pending rfl⟩

@[simp] theorem drainWaiting_reads {a1} (s : State) (j : Nat) :
    (drainWaiting a1 s).cell j = s.cell j ∧ (drainWaiting a1 s).hearth j = s.hearth j ∧ (drainWaiting a1 s).slot j = s.slot j ∧
    (drainWaiting a1 s).spy j = s.spy j ∧ (drainWaiting a1 s).capture j = s.capture j ∧ (drainWaiting a1 s).group j = s.group j ∧
    (drainWaiting a1 s).hk j = s.hk j ∧ (drainWaiting a1 s).chan j = s.chan j ∧ (drainWaiting a1 s).cone j = s.cone j ∧
    (drainWaiting a1 s).engine j = s.engine j ∧ (drainWaiting a1 s).cluster j = s.cluster j ∧ (drainWaiting a1 s).link j = s.link j ∧
    (drainWaiting a1 s).time = s.time ∧ (drainWaiting a1 s).coll = s.coll ∧ (drainWaiting a1 s).pair = s.pair ∧
    (drainWaiting a1 s).works = s.works ∧ (drainWaiting a1 s).pmb = s.pmb ∧ (drainWaiting a1 s).jtag = s.jtag ∧
    (drainWaiting a1 s).out = s.out ∧ (drainWaiting a1 s).free = s.free ∧ (drainWaiting a1 s).books = s.books ∧
    (drainWaiting a1 s).boot = s.boot ∧ (drainWaiting a1 s).pending = s.pending :=
  have m := drainWaiting_move (Move.refl [.log, .host] s) rfl
  ⟨m.cell rfl j, m.hearth rfl j, m.slot rfl j, m.spy rfl j, m.capture rfl j, m.group rfl j, m.hk rfl j, m.chan rfl j, m.cone rfl j, m.engine rfl j, m.cluster rfl j, m.link rfl j, m.time rfl, m.coll rfl, m.pair rfl, m.works rfl, m.pmb rfl, m.jtag rfl, m.out rfl, m.free rfl, m.books rfl, m.boot rfl rfl rfl rfl, m.pending rfl⟩

@[simp] theorem noteChange_reads {a1 a2} (s : State) (j : Nat) :
    (noteChange s a1 a2).cell j = s.cell j ∧ (noteChange s a1 a2).hearth j = s.hearth j ∧ (noteChange s a1 a2).slot j = s.slot j ∧
    (noteChange s a1 a2).spy j = s.spy j ∧ (noteChange s a1 a2).capture j = s.capture j ∧ (noteChange s a1 a2).group j = s.group j ∧
    (noteChange s a1 a2).hk j = s.hk j ∧ (noteChange s a1 a2).chan j = s.chan j ∧ (noteChange s a1 a2).cone j = s.cone j ∧
    (noteChange s a1 a2).engine j = s.engine j ∧ (noteChange s a1 a2).cluster j = s.cluster j ∧ (noteChange s a1 a2).link j = s.link j ∧
    (noteChange s a1 a2).time = s.time ∧ (noteChange s a1 a2).pair = s.pair ∧ (noteChange s a1 a2).works = s.works ∧
    (noteChange s a1 a2).pmb = s.pmb ∧ (noteChange s a1 a2).jtag = s.jtag ∧ (noteChange s a1 a2).out = s.out ∧
    (noteChange s a1 a2).free = s.free ∧ (noteChange s a1 a2).books = s.books ∧ (noteChange s a1 a2).boot = s.boot ∧
    (noteChange s a1 a2).pending = s.pending :=
  have m := noteChange_move (Move.refl [.log, .coll, .host] s) rfl
  ⟨m.cell rfl j, m.hearth rfl j, m.slot rfl j, m.spy rfl j, m.capture rfl j, m.group rfl j, m.hk rfl j, m.chan rfl j, m.cone rfl j, m.engine rfl j, m.cluster rfl j, m.link rfl j, m.time rfl, m.pair rfl, m.works rfl, m.pmb rfl, m.jtag rfl, m.out rfl, m.free rfl, m.books rfl, m.boot rfl rfl rfl rfl, m.pending rfl⟩

@[simp] theorem openShadow_reads {a1 a2} (s : State) (j : Nat) :
    (openShadow s a1 a2).cell j = s.cell j ∧ (openShadow s a1 a2).hearth j = s.hearth j ∧ (openShadow s a1 a2).slot j = s.slot j ∧
    (openShadow s a1 a2).spy j = s.spy j ∧ (openShadow s a1 a2).capture j = s.capture j ∧ (openShadow s a1 a2).group j = s.group j ∧
    (openShadow s a1 a2).hk j = s.hk j ∧ (openShadow s a1 a2).chan j = s.chan j ∧ (openShadow s a1 a2).cone j = s.cone j ∧
    (openShadow s a1 a2).engine j = s.engine j ∧ (openShadow s a1 a2).cluster j = s.cluster j ∧ (openShadow s a1 a2).link j = s.link j ∧
    (openShadow s a1 a2).time = s.time ∧ (openShadow s a1 a2).log = s.log ∧ (openShadow s a1 a2).pair = s.pair ∧
    (openShadow s a1 a2).works = s.works ∧ (openShadow s a1 a2).host = s.host ∧ (openShadow s a1 a2).pmb = s.pmb ∧
    (openShadow s a1 a2).jtag = s.jtag ∧ (openShadow s a1 a2).out = s.out ∧ (openShadow s a1 a2).free = s.free ∧
    (openShadow s a1 a2).books = s.books ∧ (openShadow s a1 a2).boot = s.boot ∧ (openShadow s a1 a2).pending = s.pending :=
  have m := openShadow_move (Move.refl [.coll] s) rfl
  ⟨m.cell rfl j, m.hearth rfl j, m.slot rfl j, m.spy rfl j, m.capture rfl j, m.group rfl j, m.hk rfl j, m.chan rfl j, m.cone rfl j, m.engine rfl j, m.cluster rfl j, m.link rfl j, m.time rfl, m.log rfl, m.pair rfl, m.works rfl, m.host rfl, m.pmb rfl, m.jtag rfl, m.out rfl, m.free rfl, m.books rfl, m.boot rfl rfl rfl rfl, m.pending rfl⟩

@[simp] theorem takeError_reads {a1} (s : State) (j : Nat) :
    (takeError s a1).cell j = s.cell j ∧ (takeError s a1).hearth j = s.hearth j ∧ (takeError s a1).slot j = s.slot j ∧
    (takeError s a1).spy j = s.spy j ∧ (takeError s a1).capture j = s.capture j ∧ (takeError s a1).group j = s.group j ∧
    (takeError s a1).hk j = s.hk j ∧ (takeError s a1).chan j = s.chan j ∧ (takeError s a1).cone j = s.cone j ∧
    (takeError s a1).engine j = s.engine j ∧ (takeError s a1).cluster j = s.cluster j ∧ (takeError s a1).link j = s.link j ∧
    (takeError s a1).time = s.time ∧ (takeError s a1).pair = s.pair ∧ (takeError s a1).works = s.works ∧ (takeError s a1).pmb = s.pmb ∧
    (takeError s a1).jtag = s.jtag ∧ (takeError s a1).free = s.free ∧ (takeError s a1).books = s.books ∧
    (takeError s a1).pending = s.pending :=
  have m := takeError_move (Move.refl [.boot, .log, .coll, .host, .out] s) rfl
  ⟨m.cell rfl j, m.hearth rfl j, m.slot rfl j, m.spy rfl j, m.capture rfl j, m.group rfl j, m.hk rfl j, m.chan rfl j, m.cone rfl j, m.engine rfl j, m.cluster rfl j, m.link rfl j, m.time rfl, m.pair rfl, m.works rfl, m.pmb rfl, m.jtag rfl, m.free rfl, m.books rfl, m.pending rfl⟩

@[simp] theorem raiseError_reads {a1 a2 a3} (s : State) (j : Nat) :
    (raiseError s a1 a2 a3).cell j = s.cell j ∧ (raiseError s a1 a2 a3).hearth j = s.hearth j ∧ (raiseError s a1 a2 a3).slot j = s.slot j ∧
    (raiseError s a1 a2 a3).spy j = s.spy j ∧ (raiseError s a1 a2 a3).capture j = s.capture j ∧ (raiseError s a1 a2 a3).group j = s.group j ∧
    (raiseError s a1 a2 a3).hk j = s.hk j ∧ (raiseError s a1 a2 a3).chan j = s.chan j ∧ (raiseError s a1 a2 a3).cone j = s.cone j ∧
    (raiseError s a1 a2 a3).engine j = s.engine j ∧ (raiseError s a1 a2 a3).cluster j = s.cluster j ∧
    (raiseError s a1 a2 a3).link j = s.link j ∧ (raiseError s a1 a2 a3).time = s.time ∧ (raiseError s a1 a2 a3).pair = s.pair ∧
    (raiseError s a1 a2 a3).works = s.works ∧ (raiseError s a1 a2 a3).pmb = s.pmb ∧ (raiseError s a1 a2 a3).jtag = s.jtag ∧
    (raiseError s a1 a2 a3).free = s.free ∧ (raiseError s a1 a2 a3).books = s.books ∧ (raiseError s a1 a2 a3).pending = s.pending :=
  have m := raiseError_move (Move.refl [.boot, .log, .coll, .host, .out] s) rfl
  ⟨m.cell rfl j, m.hearth rfl j, m.slot rfl j, m.spy rfl j, m.capture rfl j, m.group rfl j, m.hk rfl j, m.chan rfl j, m.cone rfl j, m.engine rfl j, m.cluster rfl j, m.link rfl j, m.time rfl, m.pair rfl, m.works rfl, m.pmb rfl, m.jtag rfl, m.free rfl, m.books rfl, m.pending rfl⟩

@[simp] theorem clearErrorAt_reads {a1 a2 a3} (s : State) (j : Nat) :
    (clearErrorAt s a1 a2 a3).cell j = s.cell j ∧ (clearErrorAt s a1 a2 a3).hearth j = s.hearth j ∧
    (clearErrorAt s a1 a2 a3).slot j = s.slot j ∧ (clearErrorAt s a1 a2 a3).spy j = s.spy j ∧
    (clearErrorAt s a1 a2 a3).capture j = s.capture j ∧ (clearErrorAt s a1 a2 a3).group j = s.group j ∧
    (clearErrorAt s a1 a2 a3).hk j = s.hk j ∧ (clearErrorAt s a1 a2 a3).chan j = s.chan j ∧ (clearErrorAt s a1 a2 a3).cone j = s.cone j ∧
    (clearErrorAt s a1 a2 a3).engine j = s.engine j ∧ (clearErrorAt s a1 a2 a3).cluster j = s.cluster j ∧
    (clearErrorAt s a1 a2 a3).link j = s.link j ∧ (clearErrorAt s a1 a2 a3).time = s.time ∧ (clearErrorAt s a1 a2 a3).pair = s.pair ∧
    (clearErrorAt s a1 a2 a3).works = s.works ∧ (clearErrorAt s a1 a2 a3).pmb = s.pmb ∧ (clearErrorAt s a1 a2 a3).jtag = s.jtag ∧
    (clearErrorAt s a1 a2 a3).out = s.out ∧ (clearErrorAt s a1 a2 a3).free = s.free ∧ (clearErrorAt s a1 a2 a3).books = s.books ∧
    (clearErrorAt s a1 a2 a3).boot = s.boot ∧ (clearErrorAt s a1 a2 a3).pending = s.pending :=
  have m := clearErrorAt_move (Move.refl [.log, .coll, .host] s) rfl
  ⟨m.cell rfl j, m.hearth rfl j, m.slot rfl j, m.spy rfl j, m.capture rfl j, m.group rfl j, m.hk rfl j, m.chan rfl j, m.cone rfl j, m.engine rfl j, m.cluster rfl j, m.link rfl j, m.time rfl, m.pair rfl, m.works rfl, m.pmb rfl, m.jtag rfl, m.out rfl, m.free rfl, m.books rfl, m.boot rfl rfl rfl rfl, m.pending rfl⟩

@[simp] theorem clearError_reads {a1 a2} (s : State) (j : Nat) :
    (clearError s a1 a2).cell j = s.cell j ∧ (clearError s a1 a2).hearth j = s.hearth j ∧ (clearError s a1 a2).slot j = s.slot j ∧
    (clearError s a1 a2).spy j = s.spy j ∧ (clearError s a1 a2).capture j = s.capture j ∧ (clearError s a1 a2).group j = s.group j ∧
    (clearError s a1 a2).hk j = s.hk j ∧ (clearError s a1 a2).chan j = s.chan j ∧ (clearError s a1 a2).cone j = s.cone j ∧
    (clearError s a1 a2).engine j = s.engine j ∧ (clearError s a1 a2).cluster j = s.cluster j ∧ (clearError s a1 a2).link j = s.link j ∧
    (clearError s a1 a2).time = s.time ∧ (clearError s a1 a2).pair = s.pair ∧ (clearError s a1 a2).works = s.works ∧
    (clearError s a1 a2).pmb = s.pmb ∧ (clearError s a1 a2).jtag = s.jtag ∧ (clearError s a1 a2).out = s.out ∧
    (clearError s a1 a2).free = s.free ∧ (clearError s a1 a2).books = s.books ∧ (clearError s a1 a2).boot = s.boot ∧
    (clearError s a1 a2).pending = s.pending :=
  have m := clearError_move (Move.refl [.log, .coll, .host] s) rfl
  ⟨m.cell rfl j, m.hearth rfl j, m.slot rfl j, m.spy rfl j, m.capture rfl j, m.group rfl j, m.hk rfl j, m.chan rfl j, m.cone rfl j, m.engine rfl j, m.cluster rfl j, m.link rfl j, m.time rfl, m.pair rfl, m.works rfl, m.pmb rfl, m.jtag rfl, m.out rfl, m.free rfl, m.books rfl, m.boot rfl rfl rfl rfl, m.pending rfl⟩

@[simp] theorem reportError_reads {a1 a2 a3 a4 a5} (s : State) (j : Nat) :
    (reportError s a1 a2 a3 a4 a5).cell j = s.cell j ∧ (reportError s a1 a2 a3 a4 a5).slot j = s.slot j ∧
    (reportError s a1 a2 a3 a4 a5).spy j = s.spy j ∧ (reportError s a1 a2 a3 a4 a5).capture j = s.capture j ∧
    (reportError s a1 a2 a3 a4 a5).group j = s.group j ∧ (reportError s a1 a2 a3 a4 a5).hk j = s.hk j ∧
    (reportError s a1 a2 a3 a4 a5).chan j = s.chan j ∧ (reportError s a1 a2 a3 a4 a5).cone j = s.cone j ∧
    (reportError s a1 a2 a3 a4 a5).engine j = s.engine j ∧ (reportError s a1 a2 a3 a4 a5).cluster j = s.cluster j ∧
    (reportError s a1 a2 a3 a4 a5).link j = s.link j ∧ (reportError s a1 a2 a3 a4 a5).time = s.time ∧
    (reportError s a1 a2 a3 a4 a5).log = s.log ∧ (reportError s a1 a2 a3 a4 a5).coll = s.coll ∧ (reportError s a1 a2 a3 a4 a5).pair = s.pair ∧
    (reportError s a1 a2 a3 a4 a5).works = s.works ∧ (reportError s a1 a2 a3 a4 a5).host = s.host ∧
    (reportError s a1 a2 a3 a4 a5).pmb = s.pmb ∧ (reportError s a1 a2 a3 a4 a5).jtag = s.jtag ∧ (reportError s a1 a2 a3 a4 a5).out = s.out ∧
    (reportError s a1 a2 a3 a4 a5).free = s.free ∧ (reportError s a1 a2 a3 a4 a5).books = s.books ∧
    (reportError s a1 a2 a3 a4 a5).boot = s.boot ∧ (reportError s a1 a2 a3 a4 a5).pending = s.pending :=
  have m := reportError_move (Move.refl [.hearths] s) rfl
  ⟨m.cell rfl j, m.slot rfl j, m.spy rfl j, m.capture rfl j, m.group rfl j, m.hk rfl j, m.chan rfl j, m.cone rfl j, m.engine rfl j, m.cluster rfl j, m.link rfl j, m.time rfl, m.log rfl, m.coll rfl, m.pair rfl, m.works rfl, m.host rfl, m.pmb rfl, m.jtag rfl, m.out rfl, m.free rfl, m.books rfl, m.boot rfl rfl rfl rfl, m.pending rfl⟩

@[simp] theorem endError_reads {a1 a2 a3} (s : State) (j : Nat) :
    (endError s a1 a2 a3).cell j = s.cell j ∧ (endError s a1 a2 a3).slot j = s.slot j ∧ (endError s a1 a2 a3).spy j = s.spy j ∧
    (endError s a1 a2 a3).capture j = s.capture j ∧ (endError s a1 a2 a3).group j = s.group j ∧ (endError s a1 a2 a3).hk j = s.hk j ∧
    (endError s a1 a2 a3).chan j = s.chan j ∧ (endError s a1 a2 a3).cone j = s.cone j ∧ (endError s a1 a2 a3).engine j = s.engine j ∧
    (endError s a1 a2 a3).cluster j = s.cluster j ∧ (endError s a1 a2 a3).link j = s.link j ∧ (endError s a1 a2 a3).time = s.time ∧
    (endError s a1 a2 a3).pair = s.pair ∧ (endError s a1 a2 a3).works = s.works ∧ (endError s a1 a2 a3).pmb = s.pmb ∧
    (endError s a1 a2 a3).jtag = s.jtag ∧ (endError s a1 a2 a3).out = s.out ∧ (endError s a1 a2 a3).free = s.free ∧
    (endError s a1 a2 a3).books = s.books ∧ (endError s a1 a2 a3).boot = s.boot ∧ (endError s a1 a2 a3).pending = s.pending :=
  have m := endError_move (Move.refl [.hearths, .log, .coll, .host] s) rfl
  ⟨m.cell rfl j, m.slot rfl j, m.spy rfl j, m.capture rfl j, m.group rfl j, m.hk rfl j, m.chan rfl j, m.cone rfl j, m.engine rfl j, m.cluster rfl j, m.link rfl j, m.time rfl, m.pair rfl, m.works rfl, m.pmb rfl, m.jtag rfl, m.out rfl, m.free rfl, m.books rfl, m.boot rfl rfl rfl rfl, m.pending rfl⟩

@[simp] theorem commandedReset_reads {a1 a2 a3} (s : State) (j : Nat) :
    (commandedReset s a1 a2 a3).cell j = s.cell j ∧ (commandedReset s a1 a2 a3).hearth j = s.hearth j ∧
    (commandedReset s a1 a2 a3).slot j = s.slot j ∧ (commandedReset s a1 a2 a3).spy j = s.spy j ∧
    (commandedReset s a1 a2 a3).capture j = s.capture j ∧ (commandedReset s a1 a2 a3).group j = s.group j ∧
    (commandedReset s a1 a2 a3).hk j = s.hk j ∧ (commandedReset s a1 a2 a3).chan j = s.chan j ∧
    (commandedReset s a1 a2 a3).cone j = s.cone j ∧ (commandedReset s a1 a2 a3).engine j = s.engine j ∧
    (commandedReset s a1 a2 a3).cluster j = s.cluster j ∧ (commandedReset s a1 a2 a3).link j = s.link j ∧
    (commandedReset s a1 a2 a3).time = s.time ∧ (commandedReset s a1 a2 a3).pair = s.pair ∧ (commandedReset s a1 a2 a3).works = s.works ∧
    (commandedReset s a1 a2 a3).pmb = s.pmb ∧ (commandedReset s a1 a2 a3).jtag = s.jtag ∧ (commandedReset s a1 a2 a3).free = s.free ∧
    (commandedReset s a1 a2 a3).books = s.books ∧ (commandedReset s a1 a2 a3).pending = s.pending :=
  have m := commandedReset_move (Move.refl [.boot, .log, .coll, .host, .out] s) rfl
  ⟨m.cell rfl j, m.hearth rfl j, m.slot rfl j, m.spy rfl j, m.capture rfl j, m.group rfl j, m.hk rfl j, m.chan rfl j, m.cone rfl j, m.engine rfl j, m.cluster rfl j, m.link rfl j, m.time rfl, m.pair rfl, m.works rfl, m.pmb rfl, m.jtag rfl, m.free rfl, m.books rfl, m.pending rfl⟩

@[simp] theorem scheduleEnd_reads {a1 a2 a3} (s : State) (j : Nat) :
    (scheduleEnd s a1 a2 a3).cell j = s.cell j ∧ (scheduleEnd s a1 a2 a3).hearth j = s.hearth j ∧ (scheduleEnd s a1 a2 a3).slot j = s.slot j ∧
    (scheduleEnd s a1 a2 a3).spy j = s.spy j ∧ (scheduleEnd s a1 a2 a3).capture j = s.capture j ∧
    (scheduleEnd s a1 a2 a3).group j = s.group j ∧ (scheduleEnd s a1 a2 a3).hk j = s.hk j ∧ (scheduleEnd s a1 a2 a3).chan j = s.chan j ∧
    (scheduleEnd s a1 a2 a3).cone j = s.cone j ∧ (scheduleEnd s a1 a2 a3).engine j = s.engine j ∧
    (scheduleEnd s a1 a2 a3).cluster j = s.cluster j ∧ (scheduleEnd s a1 a2 a3).link j = s.link j ∧ (scheduleEnd s a1 a2 a3).time = s.time ∧
    (scheduleEnd s a1 a2 a3).log = s.log ∧ (scheduleEnd s a1 a2 a3).pair = s.pair ∧ (scheduleEnd s a1 a2 a3).works = s.works ∧
    (scheduleEnd s a1 a2 a3).host = s.host ∧ (scheduleEnd s a1 a2 a3).pmb = s.pmb ∧ (scheduleEnd s a1 a2 a3).jtag = s.jtag ∧
    (scheduleEnd s a1 a2 a3).out = s.out ∧ (scheduleEnd s a1 a2 a3).free = s.free ∧ (scheduleEnd s a1 a2 a3).books = s.books ∧
    (scheduleEnd s a1 a2 a3).boot = s.boot ∧ (scheduleEnd s a1 a2 a3).pending = s.pending :=
  have m := scheduleEnd_move (Move.refl [.coll] s) rfl
  ⟨m.cell rfl j, m.hearth rfl j, m.slot rfl j, m.spy rfl j, m.capture rfl j, m.group rfl j, m.hk rfl j, m.chan rfl j, m.cone rfl j, m.engine rfl j, m.cluster rfl j, m.link rfl j, m.time rfl, m.log rfl, m.pair rfl, m.works rfl, m.host rfl, m.pmb rfl, m.jtag rfl, m.out rfl, m.free rfl, m.books rfl, m.boot rfl rfl rfl rfl, m.pending rfl⟩

@[simp] theorem setTimeState_reads {a1 a2 a3} (s : State) (j : Nat) :
    (setTimeState s a1 a2 a3).cell j = s.cell j ∧ (setTimeState s a1 a2 a3).hearth j = s.hearth j ∧
    (setTimeState s a1 a2 a3).slot j = s.slot j ∧ (setTimeState s a1 a2 a3).spy j = s.spy j ∧
    (setTimeState s a1 a2 a3).capture j = s.capture j ∧ (setTimeState s a1 a2 a3).group j = s.group j ∧
    (setTimeState s a1 a2 a3).hk j = s.hk j ∧ (setTimeState s a1 a2 a3).chan j = s.chan j ∧ (setTimeState s a1 a2 a3).cone j = s.cone j ∧
    (setTimeState s a1 a2 a3).engine j = s.engine j ∧ (setTimeState s a1 a2 a3).cluster j = s.cluster j ∧
    (setTimeState s a1 a2 a3).link j = s.link j ∧ (setTimeState s a1 a2 a3).coll = s.coll ∧ (setTimeState s a1 a2 a3).pair = s.pair ∧
    (setTimeState s a1 a2 a3).works = s.works ∧ (setTimeState s a1 a2 a3).pmb = s.pmb ∧ (setTimeState s a1 a2 a3).jtag = s.jtag ∧
    (setTimeState s a1 a2 a3).out = s.out ∧ (setTimeState s a1 a2 a3).free = s.free ∧ (setTimeState s a1 a2 a3).books = s.books ∧
    (setTimeState s a1 a2 a3).boot = s.boot ∧ (setTimeState s a1 a2 a3).pending = s.pending :=
  have m := setTimeState_move (Move.refl [.time, .log, .host] s) rfl
  ⟨m.cell rfl j, m.hearth rfl j, m.slot rfl j, m.spy rfl j, m.capture rfl j, m.group rfl j, m.hk rfl j, m.chan rfl j, m.cone rfl j, m.engine rfl j, m.cluster rfl j, m.link rfl j, m.coll rfl, m.pair rfl, m.works rfl, m.pmb rfl, m.jtag rfl, m.out rfl, m.free rfl, m.books rfl, m.boot rfl rfl rfl rfl, m.pending rfl⟩

@[simp] theorem setParent_reads {a1 a2} (s : State) (j : Nat) :
    (setParent s a1 a2).cell j = s.cell j ∧ (setParent s a1 a2).hearth j = s.hearth j ∧ (setParent s a1 a2).slot j = s.slot j ∧
    (setParent s a1 a2).spy j = s.spy j ∧ (setParent s a1 a2).capture j = s.capture j ∧ (setParent s a1 a2).group j = s.group j ∧
    (setParent s a1 a2).hk j = s.hk j ∧ (setParent s a1 a2).chan j = s.chan j ∧ (setParent s a1 a2).cone j = s.cone j ∧
    (setParent s a1 a2).engine j = s.engine j ∧ (setParent s a1 a2).cluster j = s.cluster j ∧ (setParent s a1 a2).link j = s.link j ∧
    (setParent s a1 a2).coll = s.coll ∧ (setParent s a1 a2).pair = s.pair ∧ (setParent s a1 a2).works = s.works ∧
    (setParent s a1 a2).pmb = s.pmb ∧ (setParent s a1 a2).jtag = s.jtag ∧ (setParent s a1 a2).out = s.out ∧
    (setParent s a1 a2).free = s.free ∧ (setParent s a1 a2).books = s.books ∧ (setParent s a1 a2).boot = s.boot ∧
    (setParent s a1 a2).pending = s.pending :=
  have m := setParent_move (Move.refl [.time, .log, .host] s) rfl
  ⟨m.cell rfl j, m.hearth rfl j, m.slot rfl j, m.spy rfl j, m.capture rfl j, m.group rfl j, m.hk rfl j, m.chan rfl j, m.cone rfl j, m.engine rfl j, m.cluster rfl j, m.link rfl j, m.coll rfl, m.pair rfl, m.works rfl, m.pmb rfl, m.jtag rfl, m.out rfl, m.free rfl, m.books rfl, m.boot rfl rfl rfl rfl, m.pending rfl⟩

@[simp] theorem toHoldover_reads (s : State) (j : Nat) :
    (toHoldover s).cell j = s.cell j ∧ (toHoldover s).hearth j = s.hearth j ∧ (toHoldover s).slot j = s.slot j ∧
    (toHoldover s).spy j = s.spy j ∧ (toHoldover s).capture j = s.capture j ∧ (toHoldover s).group j = s.group j ∧
    (toHoldover s).hk j = s.hk j ∧ (toHoldover s).chan j = s.chan j ∧ (toHoldover s).cone j = s.cone j ∧
    (toHoldover s).engine j = s.engine j ∧ (toHoldover s).cluster j = s.cluster j ∧ (toHoldover s).link j = s.link j ∧
    (toHoldover s).coll = s.coll ∧ (toHoldover s).pair = s.pair ∧ (toHoldover s).works = s.works ∧ (toHoldover s).pmb = s.pmb ∧
    (toHoldover s).jtag = s.jtag ∧ (toHoldover s).out = s.out ∧ (toHoldover s).free = s.free ∧ (toHoldover s).books = s.books ∧
    (toHoldover s).boot = s.boot ∧ (toHoldover s).pending = s.pending :=
  have m := toHoldover_move (Move.refl [.time, .log, .host] s) rfl
  ⟨m.cell rfl j, m.hearth rfl j, m.slot rfl j, m.spy rfl j, m.capture rfl j, m.group rfl j, m.hk rfl j, m.chan rfl j, m.cone rfl j, m.engine rfl j, m.cluster rfl j, m.link rfl j, m.coll rfl, m.pair rfl, m.works rfl, m.pmb rfl, m.jtag rfl, m.out rfl, m.free rfl, m.books rfl, m.boot rfl rfl rfl rfl, m.pending rfl⟩

@[simp] theorem correct_reads {a1} (s : State) (j : Nat) :
    (correct s a1).cell j = s.cell j ∧ (correct s a1).hearth j = s.hearth j ∧ (correct s a1).slot j = s.slot j ∧
    (correct s a1).spy j = s.spy j ∧ (correct s a1).capture j = s.capture j ∧ (correct s a1).group j = s.group j ∧
    (correct s a1).hk j = s.hk j ∧ (correct s a1).chan j = s.chan j ∧ (correct s a1).cone j = s.cone j ∧
    (correct s a1).engine j = s.engine j ∧ (correct s a1).cluster j = s.cluster j ∧ (correct s a1).link j = s.link j ∧
    (correct s a1).log = s.log ∧ (correct s a1).coll = s.coll ∧ (correct s a1).pair = s.pair ∧ (correct s a1).works = s.works ∧
    (correct s a1).host = s.host ∧ (correct s a1).pmb = s.pmb ∧ (correct s a1).jtag = s.jtag ∧ (correct s a1).out = s.out ∧
    (correct s a1).free = s.free ∧ (correct s a1).books = s.books ∧ (correct s a1).boot = s.boot ∧ (correct s a1).pending = s.pending :=
  have m := correct_move (Move.refl [.time] s) rfl
  ⟨m.cell rfl j, m.hearth rfl j, m.slot rfl j, m.spy rfl j, m.capture rfl j, m.group rfl j, m.hk rfl j, m.chan rfl j, m.cone rfl j, m.engine rfl j, m.cluster rfl j, m.link rfl j, m.log rfl, m.coll rfl, m.pair rfl, m.works rfl, m.host rfl, m.pmb rfl, m.jtag rfl, m.out rfl, m.free rfl, m.books rfl, m.boot rfl rfl rfl rfl, m.pending rfl⟩

@[simp] theorem applyTimeSet_reads {a1 a2} (s : State) (j : Nat) :
    (applyTimeSet s a1 a2).cell j = s.cell j ∧ (applyTimeSet s a1 a2).hearth j = s.hearth j ∧ (applyTimeSet s a1 a2).slot j = s.slot j ∧
    (applyTimeSet s a1 a2).spy j = s.spy j ∧ (applyTimeSet s a1 a2).capture j = s.capture j ∧ (applyTimeSet s a1 a2).group j = s.group j ∧
    (applyTimeSet s a1 a2).hk j = s.hk j ∧ (applyTimeSet s a1 a2).chan j = s.chan j ∧ (applyTimeSet s a1 a2).cone j = s.cone j ∧
    (applyTimeSet s a1 a2).engine j = s.engine j ∧ (applyTimeSet s a1 a2).cluster j = s.cluster j ∧ (applyTimeSet s a1 a2).link j = s.link j ∧
    (applyTimeSet s a1 a2).coll = s.coll ∧ (applyTimeSet s a1 a2).pair = s.pair ∧ (applyTimeSet s a1 a2).works = s.works ∧
    (applyTimeSet s a1 a2).pmb = s.pmb ∧ (applyTimeSet s a1 a2).jtag = s.jtag ∧ (applyTimeSet s a1 a2).out = s.out ∧
    (applyTimeSet s a1 a2).free = s.free ∧ (applyTimeSet s a1 a2).books = s.books ∧ (applyTimeSet s a1 a2).boot = s.boot ∧
    (applyTimeSet s a1 a2).pending = s.pending :=
  have m := applyTimeSet_move (Move.refl [.time, .log, .host] s) rfl
  ⟨m.cell rfl j, m.hearth rfl j, m.slot rfl j, m.spy rfl j, m.capture rfl j, m.group rfl j, m.hk rfl j, m.chan rfl j, m.cone rfl j, m.engine rfl j, m.cluster rfl j, m.link rfl j, m.coll rfl, m.pair rfl, m.works rfl, m.pmb rfl, m.jtag rfl, m.out rfl, m.free rfl, m.books rfl, m.boot rfl rfl rfl rfl, m.pending rfl⟩

@[simp] theorem clearTimeInput_reads (s : State) (j : Nat) :
    (clearTimeInput s).cell j = s.cell j ∧ (clearTimeInput s).hearth j = s.hearth j ∧ (clearTimeInput s).slot j = s.slot j ∧
    (clearTimeInput s).spy j = s.spy j ∧ (clearTimeInput s).capture j = s.capture j ∧ (clearTimeInput s).group j = s.group j ∧
    (clearTimeInput s).hk j = s.hk j ∧ (clearTimeInput s).chan j = s.chan j ∧ (clearTimeInput s).cone j = s.cone j ∧
    (clearTimeInput s).engine j = s.engine j ∧ (clearTimeInput s).cluster j = s.cluster j ∧ (clearTimeInput s).link j = s.link j ∧
    (clearTimeInput s).time = s.time ∧ (clearTimeInput s).pair = s.pair ∧ (clearTimeInput s).works = s.works ∧
    (clearTimeInput s).pmb = s.pmb ∧ (clearTimeInput s).jtag = s.jtag ∧ (clearTimeInput s).out = s.out ∧ (clearTimeInput s).free = s.free ∧
    (clearTimeInput s).books = s.books ∧ (clearTimeInput s).boot = s.boot ∧ (clearTimeInput s).pending = s.pending :=
  have m := clearTimeInput_move (Move.refl [.log, .coll, .host] s) rfl
  ⟨m.cell rfl j, m.hearth rfl j, m.slot rfl j, m.spy rfl j, m.capture rfl j, m.group rfl j, m.hk rfl j, m.chan rfl j, m.cone rfl j, m.engine rfl j, m.cluster rfl j, m.link rfl j, m.time rfl, m.pair rfl, m.works rfl, m.pmb rfl, m.jtag rfl, m.out rfl, m.free rfl, m.books rfl, m.boot rfl rfl rfl rfl, m.pending rfl⟩

@[simp] theorem setLaneState_reads {a1 a2} (s : State) (j : Nat) :
    (setLaneState s a1 a2).cell j = s.cell j ∧ (setLaneState s a1 a2).hearth j = s.hearth j ∧ (setLaneState s a1 a2).slot j = s.slot j ∧
    (setLaneState s a1 a2).spy j = s.spy j ∧ (setLaneState s a1 a2).capture j = s.capture j ∧ (setLaneState s a1 a2).group j = s.group j ∧
    (setLaneState s a1 a2).hk j = s.hk j ∧ (setLaneState s a1 a2).chan j = s.chan j ∧ (setLaneState s a1 a2).cone j = s.cone j ∧
    (setLaneState s a1 a2).engine j = s.engine j ∧ (setLaneState s a1 a2).cluster j = s.cluster j ∧ (setLaneState s a1 a2).link j = s.link j ∧
    (setLaneState s a1 a2).time = s.time ∧ (setLaneState s a1 a2).pair = s.pair ∧ (setLaneState s a1 a2).pmb = s.pmb ∧
    (setLaneState s a1 a2).jtag = s.jtag ∧ (setLaneState s a1 a2).free = s.free ∧ (setLaneState s a1 a2).books = s.books ∧
    (setLaneState s a1 a2).pending = s.pending :=
  have m := setLaneState_move (Move.refl [.boot, .log, .coll, .works, .host, .out] s) rfl
  ⟨m.cell rfl j, m.hearth rfl j, m.slot rfl j, m.spy rfl j, m.capture rfl j, m.group rfl j, m.hk rfl j, m.chan rfl j, m.cone rfl j, m.engine rfl j, m.cluster rfl j, m.link rfl j, m.time rfl, m.pair rfl, m.pmb rfl, m.jtag rfl, m.free rfl, m.books rfl, m.pending rfl⟩

@[simp] theorem transmit_reads {a1 a2} (s : State) (j : Nat) :
    (transmit s a1 a2).cell j = s.cell j ∧ (transmit s a1 a2).hearth j = s.hearth j ∧ (transmit s a1 a2).slot j = s.slot j ∧
    (transmit s a1 a2).spy j = s.spy j ∧ (transmit s a1 a2).capture j = s.capture j ∧ (transmit s a1 a2).group j = s.group j ∧
    (transmit s a1 a2).hk j = s.hk j ∧ (transmit s a1 a2).chan j = s.chan j ∧ (transmit s a1 a2).cone j = s.cone j ∧
    (transmit s a1 a2).engine j = s.engine j ∧ (transmit s a1 a2).cluster j = s.cluster j ∧ (transmit s a1 a2).link j = s.link j ∧
    (transmit s a1 a2).time = s.time ∧ (transmit s a1 a2).log = s.log ∧ (transmit s a1 a2).coll = s.coll ∧ (transmit s a1 a2).pair = s.pair ∧
    (transmit s a1 a2).host = s.host ∧ (transmit s a1 a2).pmb = s.pmb ∧ (transmit s a1 a2).jtag = s.jtag ∧ (transmit s a1 a2).free = s.free ∧
    (transmit s a1 a2).books = s.books ∧ (transmit s a1 a2).boot = s.boot ∧ (transmit s a1 a2).pending = s.pending :=
  have m := transmit_move (Move.refl [.works, .out] s) rfl
  ⟨m.cell rfl j, m.hearth rfl j, m.slot rfl j, m.spy rfl j, m.capture rfl j, m.group rfl j, m.hk rfl j, m.chan rfl j, m.cone rfl j, m.engine rfl j, m.cluster rfl j, m.link rfl j, m.time rfl, m.log rfl, m.coll rfl, m.pair rfl, m.host rfl, m.pmb rfl, m.jtag rfl, m.free rfl, m.books rfl, m.boot rfl rfl rfl rfl, m.pending rfl⟩

@[simp] theorem sendRaw_reads {a1 a2 a3 a4 a5 a6 a7} (s : State) (j : Nat) :
    (sendRaw s a1 a2 a3 a4 a5 a6 a7).cell j = s.cell j ∧ (sendRaw s a1 a2 a3 a4 a5 a6 a7).hearth j = s.hearth j ∧
    (sendRaw s a1 a2 a3 a4 a5 a6 a7).slot j = s.slot j ∧ (sendRaw s a1 a2 a3 a4 a5 a6 a7).spy j = s.spy j ∧
    (sendRaw s a1 a2 a3 a4 a5 a6 a7).capture j = s.capture j ∧ (sendRaw s a1 a2 a3 a4 a5 a6 a7).group j = s.group j ∧
    (sendRaw s a1 a2 a3 a4 a5 a6 a7).hk j = s.hk j ∧ (sendRaw s a1 a2 a3 a4 a5 a6 a7).chan j = s.chan j ∧
    (sendRaw s a1 a2 a3 a4 a5 a6 a7).cone j = s.cone j ∧ (sendRaw s a1 a2 a3 a4 a5 a6 a7).engine j = s.engine j ∧
    (sendRaw s a1 a2 a3 a4 a5 a6 a7).cluster j = s.cluster j ∧ (sendRaw s a1 a2 a3 a4 a5 a6 a7).link j = s.link j ∧
    (sendRaw s a1 a2 a3 a4 a5 a6 a7).time = s.time ∧ (sendRaw s a1 a2 a3 a4 a5 a6 a7).log = s.log ∧
    (sendRaw s a1 a2 a3 a4 a5 a6 a7).coll = s.coll ∧ (sendRaw s a1 a2 a3 a4 a5 a6 a7).pair = s.pair ∧
    (sendRaw s a1 a2 a3 a4 a5 a6 a7).host = s.host ∧ (sendRaw s a1 a2 a3 a4 a5 a6 a7).pmb = s.pmb ∧
    (sendRaw s a1 a2 a3 a4 a5 a6 a7).jtag = s.jtag ∧ (sendRaw s a1 a2 a3 a4 a5 a6 a7).free = s.free ∧
    (sendRaw s a1 a2 a3 a4 a5 a6 a7).books = s.books ∧ (sendRaw s a1 a2 a3 a4 a5 a6 a7).boot = s.boot ∧
    (sendRaw s a1 a2 a3 a4 a5 a6 a7).pending = s.pending :=
  have m := sendRaw_move (Move.refl [.works, .out] s) rfl
  ⟨m.cell rfl j, m.hearth rfl j, m.slot rfl j, m.spy rfl j, m.capture rfl j, m.group rfl j, m.hk rfl j, m.chan rfl j, m.cone rfl j, m.engine rfl j, m.cluster rfl j, m.link rfl j, m.time rfl, m.log rfl, m.coll rfl, m.pair rfl, m.host rfl, m.pmb rfl, m.jtag rfl, m.free rfl, m.books rfl, m.boot rfl rfl rfl rfl, m.pending rfl⟩

@[simp] theorem sendLocal_reads {a1 a2 a3} (s : State) (j : Nat) :
    (sendLocal s a1 a2 a3).cell j = s.cell j ∧ (sendLocal s a1 a2 a3).hearth j = s.hearth j ∧ (sendLocal s a1 a2 a3).slot j = s.slot j ∧
    (sendLocal s a1 a2 a3).spy j = s.spy j ∧ (sendLocal s a1 a2 a3).capture j = s.capture j ∧ (sendLocal s a1 a2 a3).group j = s.group j ∧
    (sendLocal s a1 a2 a3).hk j = s.hk j ∧ (sendLocal s a1 a2 a3).chan j = s.chan j ∧ (sendLocal s a1 a2 a3).cone j = s.cone j ∧
    (sendLocal s a1 a2 a3).engine j = s.engine j ∧ (sendLocal s a1 a2 a3).cluster j = s.cluster j ∧ (sendLocal s a1 a2 a3).link j = s.link j ∧
    (sendLocal s a1 a2 a3).time = s.time ∧ (sendLocal s a1 a2 a3).log = s.log ∧ (sendLocal s a1 a2 a3).coll = s.coll ∧
    (sendLocal s a1 a2 a3).pair = s.pair ∧ (sendLocal s a1 a2 a3).host = s.host ∧ (sendLocal s a1 a2 a3).pmb = s.pmb ∧
    (sendLocal s a1 a2 a3).jtag = s.jtag ∧ (sendLocal s a1 a2 a3).free = s.free ∧ (sendLocal s a1 a2 a3).books = s.books ∧
    (sendLocal s a1 a2 a3).boot = s.boot ∧ (sendLocal s a1 a2 a3).pending = s.pending :=
  have m := sendLocal_move (Move.refl [.works, .out] s) rfl
  ⟨m.cell rfl j, m.hearth rfl j, m.slot rfl j, m.spy rfl j, m.capture rfl j, m.group rfl j, m.hk rfl j, m.chan rfl j, m.cone rfl j, m.engine rfl j, m.cluster rfl j, m.link rfl j, m.time rfl, m.log rfl, m.coll rfl, m.pair rfl, m.host rfl, m.pmb rfl, m.jtag rfl, m.free rfl, m.books rfl, m.boot rfl rfl rfl rfl, m.pending rfl⟩

@[simp] theorem sendPlain_reads {a1 a2 a3} (s : State) (j : Nat) :
    (sendPlain s a1 a2 a3).cell j = s.cell j ∧ (sendPlain s a1 a2 a3).hearth j = s.hearth j ∧ (sendPlain s a1 a2 a3).slot j = s.slot j ∧
    (sendPlain s a1 a2 a3).spy j = s.spy j ∧ (sendPlain s a1 a2 a3).capture j = s.capture j ∧ (sendPlain s a1 a2 a3).group j = s.group j ∧
    (sendPlain s a1 a2 a3).hk j = s.hk j ∧ (sendPlain s a1 a2 a3).chan j = s.chan j ∧ (sendPlain s a1 a2 a3).cone j = s.cone j ∧
    (sendPlain s a1 a2 a3).engine j = s.engine j ∧ (sendPlain s a1 a2 a3).cluster j = s.cluster j ∧ (sendPlain s a1 a2 a3).link j = s.link j ∧
    (sendPlain s a1 a2 a3).time = s.time ∧ (sendPlain s a1 a2 a3).log = s.log ∧ (sendPlain s a1 a2 a3).coll = s.coll ∧
    (sendPlain s a1 a2 a3).pair = s.pair ∧ (sendPlain s a1 a2 a3).works = s.works ∧ (sendPlain s a1 a2 a3).host = s.host ∧
    (sendPlain s a1 a2 a3).pmb = s.pmb ∧ (sendPlain s a1 a2 a3).jtag = s.jtag ∧ (sendPlain s a1 a2 a3).free = s.free ∧
    (sendPlain s a1 a2 a3).books = s.books ∧ (sendPlain s a1 a2 a3).boot = s.boot ∧ (sendPlain s a1 a2 a3).pending = s.pending :=
  have m := sendPlain_move (Move.refl [.out] s) rfl
  ⟨m.cell rfl j, m.hearth rfl j, m.slot rfl j, m.spy rfl j, m.capture rfl j, m.group rfl j, m.hk rfl j, m.chan rfl j, m.cone rfl j, m.engine rfl j, m.cluster rfl j, m.link rfl j, m.time rfl, m.log rfl, m.coll rfl, m.pair rfl, m.works rfl, m.host rfl, m.pmb rfl, m.jtag rfl, m.free rfl, m.books rfl, m.boot rfl rfl rfl rfl, m.pending rfl⟩

@[simp] theorem loseFrame_reads {a1} (s : State) (j : Nat) :
    (loseFrame s a1).cell j = s.cell j ∧ (loseFrame s a1).hearth j = s.hearth j ∧ (loseFrame s a1).slot j = s.slot j ∧
    (loseFrame s a1).spy j = s.spy j ∧ (loseFrame s a1).capture j = s.capture j ∧ (loseFrame s a1).group j = s.group j ∧
    (loseFrame s a1).hk j = s.hk j ∧ (loseFrame s a1).chan j = s.chan j ∧ (loseFrame s a1).cone j = s.cone j ∧
    (loseFrame s a1).engine j = s.engine j ∧ (loseFrame s a1).cluster j = s.cluster j ∧ (loseFrame s a1).link j = s.link j ∧
    (loseFrame s a1).time = s.time ∧ (loseFrame s a1).log = s.log ∧ (loseFrame s a1).coll = s.coll ∧ (loseFrame s a1).pair = s.pair ∧
    (loseFrame s a1).host = s.host ∧ (loseFrame s a1).pmb = s.pmb ∧ (loseFrame s a1).jtag = s.jtag ∧ (loseFrame s a1).out = s.out ∧
    (loseFrame s a1).free = s.free ∧ (loseFrame s a1).books = s.books ∧ (loseFrame s a1).boot = s.boot ∧
    (loseFrame s a1).pending = s.pending :=
  have m := loseFrame_move (Move.refl [.works] s) rfl
  ⟨m.cell rfl j, m.hearth rfl j, m.slot rfl j, m.spy rfl j, m.capture rfl j, m.group rfl j, m.hk rfl j, m.chan rfl j, m.cone rfl j, m.engine rfl j, m.cluster rfl j, m.link rfl j, m.time rfl, m.log rfl, m.coll rfl, m.pair rfl, m.host rfl, m.pmb rfl, m.jtag rfl, m.out rfl, m.free rfl, m.books rfl, m.boot rfl rfl rfl rfl, m.pending rfl⟩

@[simp] theorem routeFrame_reads {a1 a2 a3 a4 a5 a6} (s : State) (j : Nat) :
    (routeFrame s a1 a2 a3 a4 a5 a6).cell j = s.cell j ∧ (routeFrame s a1 a2 a3 a4 a5 a6).hearth j = s.hearth j ∧
    (routeFrame s a1 a2 a3 a4 a5 a6).slot j = s.slot j ∧ (routeFrame s a1 a2 a3 a4 a5 a6).spy j = s.spy j ∧
    (routeFrame s a1 a2 a3 a4 a5 a6).capture j = s.capture j ∧ (routeFrame s a1 a2 a3 a4 a5 a6).group j = s.group j ∧
    (routeFrame s a1 a2 a3 a4 a5 a6).hk j = s.hk j ∧ (routeFrame s a1 a2 a3 a4 a5 a6).chan j = s.chan j ∧
    (routeFrame s a1 a2 a3 a4 a5 a6).cone j = s.cone j ∧ (routeFrame s a1 a2 a3 a4 a5 a6).engine j = s.engine j ∧
    (routeFrame s a1 a2 a3 a4 a5 a6).cluster j = s.cluster j ∧ (routeFrame s a1 a2 a3 a4 a5 a6).link j = s.link j ∧
    (routeFrame s a1 a2 a3 a4 a5 a6).time = s.time ∧ (routeFrame s a1 a2 a3 a4 a5 a6).log = s.log ∧
    (routeFrame s a1 a2 a3 a4 a5 a6).coll = s.coll ∧ (routeFrame s a1 a2 a3 a4 a5 a6).pair = s.pair ∧
    (routeFrame s a1 a2 a3 a4 a5 a6).host = s.host ∧ (routeFrame s a1 a2 a3 a4 a5 a6).pmb = s.pmb ∧
    (routeFrame s a1 a2 a3 a4 a5 a6).jtag = s.jtag ∧ (routeFrame s a1 a2 a3 a4 a5 a6).free = s.free ∧
    (routeFrame s a1 a2 a3 a4 a5 a6).books = s.books ∧ (routeFrame s a1 a2 a3 a4 a5 a6).boot = s.boot ∧
    (routeFrame s a1 a2 a3 a4 a5 a6).pending = s.pending :=
  have m := routeFrame_move (Move.refl [.works, .out] s) rfl
  ⟨m.cell rfl j, m.hearth rfl j, m.slot rfl j, m.spy rfl j, m.capture rfl j, m.group rfl j, m.hk rfl j, m.chan rfl j, m.cone rfl j, m.engine rfl j, m.cluster rfl j, m.link rfl j, m.time rfl, m.log rfl, m.coll rfl, m.pair rfl, m.host rfl, m.pmb rfl, m.jtag rfl, m.free rfl, m.books rfl, m.boot rfl rfl rfl rfl, m.pending rfl⟩

@[simp] theorem originate_reads {a1 a2 a3} (s : State) (j : Nat) :
    (originate s a1 a2 a3).cell j = s.cell j ∧ (originate s a1 a2 a3).hearth j = s.hearth j ∧ (originate s a1 a2 a3).slot j = s.slot j ∧
    (originate s a1 a2 a3).spy j = s.spy j ∧ (originate s a1 a2 a3).capture j = s.capture j ∧ (originate s a1 a2 a3).group j = s.group j ∧
    (originate s a1 a2 a3).hk j = s.hk j ∧ (originate s a1 a2 a3).chan j = s.chan j ∧ (originate s a1 a2 a3).cone j = s.cone j ∧
    (originate s a1 a2 a3).engine j = s.engine j ∧ (originate s a1 a2 a3).cluster j = s.cluster j ∧ (originate s a1 a2 a3).link j = s.link j ∧
    (originate s a1 a2 a3).time = s.time ∧ (originate s a1 a2 a3).log = s.log ∧ (originate s a1 a2 a3).coll = s.coll ∧
    (originate s a1 a2 a3).pair = s.pair ∧ (originate s a1 a2 a3).host = s.host ∧ (originate s a1 a2 a3).pmb = s.pmb ∧
    (originate s a1 a2 a3).jtag = s.jtag ∧ (originate s a1 a2 a3).free = s.free ∧ (originate s a1 a2 a3).books = s.books ∧
    (originate s a1 a2 a3).boot = s.boot ∧ (originate s a1 a2 a3).pending = s.pending :=
  have m := originate_move (Move.refl [.works, .out] s) rfl
  ⟨m.cell rfl j, m.hearth rfl j, m.slot rfl j, m.spy rfl j, m.capture rfl j, m.group rfl j, m.hk rfl j, m.chan rfl j, m.cone rfl j, m.engine rfl j, m.cluster rfl j, m.link rfl j, m.time rfl, m.log rfl, m.coll rfl, m.pair rfl, m.host rfl, m.pmb rfl, m.jtag rfl, m.free rfl, m.books rfl, m.boot rfl rfl rfl rfl, m.pending rfl⟩

@[simp] theorem forward_reads {a1 a2 a3 a4} (s : State) (j : Nat) :
    (forward s a1 a2 a3 a4).cell j = s.cell j ∧ (forward s a1 a2 a3 a4).hearth j = s.hearth j ∧ (forward s a1 a2 a3 a4).slot j = s.slot j ∧
    (forward s a1 a2 a3 a4).spy j = s.spy j ∧ (forward s a1 a2 a3 a4).capture j = s.capture j ∧ (forward s a1 a2 a3 a4).group j = s.group j ∧
    (forward s a1 a2 a3 a4).hk j = s.hk j ∧ (forward s a1 a2 a3 a4).chan j = s.chan j ∧ (forward s a1 a2 a3 a4).cone j = s.cone j ∧
    (forward s a1 a2 a3 a4).engine j = s.engine j ∧ (forward s a1 a2 a3 a4).cluster j = s.cluster j ∧
    (forward s a1 a2 a3 a4).link j = s.link j ∧ (forward s a1 a2 a3 a4).time = s.time ∧ (forward s a1 a2 a3 a4).log = s.log ∧
    (forward s a1 a2 a3 a4).coll = s.coll ∧ (forward s a1 a2 a3 a4).pair = s.pair ∧ (forward s a1 a2 a3 a4).host = s.host ∧
    (forward s a1 a2 a3 a4).pmb = s.pmb ∧ (forward s a1 a2 a3 a4).jtag = s.jtag ∧ (forward s a1 a2 a3 a4).free = s.free ∧
    (forward s a1 a2 a3 a4).books = s.books ∧ (forward s a1 a2 a3 a4).boot = s.boot ∧ (forward s a1 a2 a3 a4).pending = s.pending :=
  have m := forward_move (Move.refl [.works, .out] s) rfl
  ⟨m.cell rfl j, m.hearth rfl j, m.slot rfl j, m.spy rfl j, m.capture rfl j, m.group rfl j, m.hk rfl j, m.chan rfl j, m.cone rfl j, m.engine rfl j, m.cluster rfl j, m.link rfl j, m.time rfl, m.log rfl, m.coll rfl, m.pair rfl, m.host rfl, m.pmb rfl, m.jtag rfl, m.free rfl, m.books rfl, m.boot rfl rfl rfl rfl, m.pending rfl⟩

@[simp] theorem acceptNext_reads {a1} (s : State) (j : Nat) :
    (acceptNext s a1).cell j = s.cell j ∧ (acceptNext s a1).hearth j = s.hearth j ∧ (acceptNext s a1).slot j = s.slot j ∧
    (acceptNext s a1).spy j = s.spy j ∧ (acceptNext s a1).capture j = s.capture j ∧ (acceptNext s a1).group j = s.group j ∧
    (acceptNext s a1).hk j = s.hk j ∧ (acceptNext s a1).chan j = s.chan j ∧ (acceptNext s a1).cone j = s.cone j ∧
    (acceptNext s a1).engine j = s.engine j ∧ (acceptNext s a1).cluster j = s.cluster j ∧ (acceptNext s a1).link j = s.link j ∧
    (acceptNext s a1).time = s.time ∧ (acceptNext s a1).log = s.log ∧ (acceptNext s a1).coll = s.coll ∧ (acceptNext s a1).pair = s.pair ∧
    (acceptNext s a1).host = s.host ∧ (acceptNext s a1).pmb = s.pmb ∧ (acceptNext s a1).jtag = s.jtag ∧ (acceptNext s a1).free = s.free ∧
    (acceptNext s a1).books = s.books ∧ (acceptNext s a1).boot = s.boot ∧ (acceptNext s a1).pending = s.pending :=
  have m := acceptNext_move (Move.refl [.works, .out] s) rfl
  ⟨m.cell rfl j, m.hearth rfl j, m.slot rfl j, m.spy rfl j, m.capture rfl j, m.group rfl j, m.hk rfl j, m.chan rfl j, m.cone rfl j, m.engine rfl j, m.cluster rfl j, m.link rfl j, m.time rfl, m.log rfl, m.coll rfl, m.pair rfl, m.host rfl, m.pmb rfl, m.jtag rfl, m.free rfl, m.books rfl, m.boot rfl rfl rfl rfl, m.pending rfl⟩

@[simp] theorem computeRoutes_reads (s : State) (j : Nat) :
    (computeRoutes s).cell j = s.cell j ∧ (computeRoutes s).hearth j = s.hearth j ∧ (computeRoutes s).slot j = s.slot j ∧
    (computeRoutes s).spy j = s.spy j ∧ (computeRoutes s).capture j = s.capture j ∧ (computeRoutes s).group j = s.group j ∧
    (computeRoutes s).hk j = s.hk j ∧ (computeRoutes s).chan j = s.chan j ∧ (computeRoutes s).cone j = s.cone j ∧
    (computeRoutes s).engine j = s.engine j ∧ (computeRoutes s).cluster j = s.cluster j ∧ (computeRoutes s).link j = s.link j ∧
    (computeRoutes s).time = s.time ∧ (computeRoutes s).log = s.log ∧ (computeRoutes s).coll = s.coll ∧ (computeRoutes s).pair = s.pair ∧
    (computeRoutes s).host = s.host ∧ (computeRoutes s).pmb = s.pmb ∧ (computeRoutes s).jtag = s.jtag ∧ (computeRoutes s).out = s.out ∧
    (computeRoutes s).free = s.free ∧ (computeRoutes s).books = s.books ∧ (computeRoutes s).boot = s.boot ∧
    (computeRoutes s).pending = s.pending :=
  have m := computeRoutes_move (Move.refl [.works] s) rfl
  ⟨m.cell rfl j, m.hearth rfl j, m.slot rfl j, m.spy rfl j, m.capture rfl j, m.group rfl j, m.hk rfl j, m.chan rfl j, m.cone rfl j, m.engine rfl j, m.cluster rfl j, m.link rfl j, m.time rfl, m.log rfl, m.coll rfl, m.pair rfl, m.host rfl, m.pmb rfl, m.jtag rfl, m.out rfl, m.free rfl, m.books rfl, m.boot rfl rfl rfl rfl, m.pending rfl⟩

@[simp] theorem sendRoutes_reads (s : State) (j : Nat) :
    (sendRoutes s).cell j = s.cell j ∧ (sendRoutes s).hearth j = s.hearth j ∧ (sendRoutes s).slot j = s.slot j ∧
    (sendRoutes s).spy j = s.spy j ∧ (sendRoutes s).capture j = s.capture j ∧ (sendRoutes s).group j = s.group j ∧
    (sendRoutes s).hk j = s.hk j ∧ (sendRoutes s).chan j = s.chan j ∧ (sendRoutes s).cone j = s.cone j ∧
    (sendRoutes s).engine j = s.engine j ∧ (sendRoutes s).cluster j = s.cluster j ∧ (sendRoutes s).link j = s.link j ∧
    (sendRoutes s).time = s.time ∧ (sendRoutes s).log = s.log ∧ (sendRoutes s).coll = s.coll ∧ (sendRoutes s).pair = s.pair ∧
    (sendRoutes s).host = s.host ∧ (sendRoutes s).pmb = s.pmb ∧ (sendRoutes s).jtag = s.jtag ∧ (sendRoutes s).free = s.free ∧
    (sendRoutes s).books = s.books ∧ (sendRoutes s).boot = s.boot ∧ (sendRoutes s).pending = s.pending :=
  have m := sendRoutes_move (Move.refl [.works, .out] s) rfl
  ⟨m.cell rfl j, m.hearth rfl j, m.slot rfl j, m.spy rfl j, m.capture rfl j, m.group rfl j, m.hk rfl j, m.chan rfl j, m.cone rfl j, m.engine rfl j, m.cluster rfl j, m.link rfl j, m.time rfl, m.log rfl, m.coll rfl, m.pair rfl, m.host rfl, m.pmb rfl, m.jtag rfl, m.free rfl, m.books rfl, m.boot rfl rfl rfl rfl, m.pending rfl⟩

@[simp] theorem sendHello_reads {a1 a2} (s : State) (j : Nat) :
    (sendHello s a1 a2).cell j = s.cell j ∧ (sendHello s a1 a2).hearth j = s.hearth j ∧ (sendHello s a1 a2).slot j = s.slot j ∧
    (sendHello s a1 a2).spy j = s.spy j ∧ (sendHello s a1 a2).capture j = s.capture j ∧ (sendHello s a1 a2).group j = s.group j ∧
    (sendHello s a1 a2).hk j = s.hk j ∧ (sendHello s a1 a2).chan j = s.chan j ∧ (sendHello s a1 a2).cone j = s.cone j ∧
    (sendHello s a1 a2).engine j = s.engine j ∧ (sendHello s a1 a2).cluster j = s.cluster j ∧ (sendHello s a1 a2).link j = s.link j ∧
    (sendHello s a1 a2).time = s.time ∧ (sendHello s a1 a2).log = s.log ∧ (sendHello s a1 a2).coll = s.coll ∧
    (sendHello s a1 a2).pair = s.pair ∧ (sendHello s a1 a2).host = s.host ∧ (sendHello s a1 a2).pmb = s.pmb ∧
    (sendHello s a1 a2).jtag = s.jtag ∧ (sendHello s a1 a2).free = s.free ∧ (sendHello s a1 a2).books = s.books ∧
    (sendHello s a1 a2).boot = s.boot ∧ (sendHello s a1 a2).pending = s.pending :=
  have m := sendHello_move (Move.refl [.works, .out] s) rfl
  ⟨m.cell rfl j, m.hearth rfl j, m.slot rfl j, m.spy rfl j, m.capture rfl j, m.group rfl j, m.hk rfl j, m.chan rfl j, m.cone rfl j, m.engine rfl j, m.cluster rfl j, m.link rfl j, m.time rfl, m.log rfl, m.coll rfl, m.pair rfl, m.host rfl, m.pmb rfl, m.jtag rfl, m.free rfl, m.books rfl, m.boot rfl rfl rfl rfl, m.pending rfl⟩

@[simp] theorem leaveUp_reads {a1 a2} (s : State) (j : Nat) :
    (leaveUp s a1 a2).cell j = s.cell j ∧ (leaveUp s a1 a2).hearth j = s.hearth j ∧ (leaveUp s a1 a2).slot j = s.slot j ∧
    (leaveUp s a1 a2).spy j = s.spy j ∧ (leaveUp s a1 a2).capture j = s.capture j ∧ (leaveUp s a1 a2).group j = s.group j ∧
    (leaveUp s a1 a2).hk j = s.hk j ∧ (leaveUp s a1 a2).chan j = s.chan j ∧ (leaveUp s a1 a2).cone j = s.cone j ∧
    (leaveUp s a1 a2).engine j = s.engine j ∧ (leaveUp s a1 a2).cluster j = s.cluster j ∧ (leaveUp s a1 a2).link j = s.link j ∧
    (leaveUp s a1 a2).pair = s.pair ∧ (leaveUp s a1 a2).pmb = s.pmb ∧ (leaveUp s a1 a2).jtag = s.jtag ∧ (leaveUp s a1 a2).free = s.free ∧
    (leaveUp s a1 a2).books = s.books ∧ (leaveUp s a1 a2).pending = s.pending :=
  have m := leaveUp_move (Move.refl [.boot, .time, .log, .coll, .works, .host, .out] s) rfl
  ⟨m.cell rfl j, m.hearth rfl j, m.slot rfl j, m.spy rfl j, m.capture rfl j, m.group rfl j, m.hk rfl j, m.chan rfl j, m.cone rfl j, m.engine rfl j, m.cluster rfl j, m.link rfl j, m.pair rfl, m.pmb rfl, m.jtag rfl, m.free rfl, m.books rfl, m.pending rfl⟩

@[simp] theorem worksStart_reads (s : State) (j : Nat) :
    (worksStart s).cell j = s.cell j ∧ (worksStart s).hearth j = s.hearth j ∧ (worksStart s).slot j = s.slot j ∧
    (worksStart s).spy j = s.spy j ∧ (worksStart s).capture j = s.capture j ∧ (worksStart s).group j = s.group j ∧
    (worksStart s).hk j = s.hk j ∧ (worksStart s).chan j = s.chan j ∧ (worksStart s).cone j = s.cone j ∧
    (worksStart s).engine j = s.engine j ∧ (worksStart s).cluster j = s.cluster j ∧ (worksStart s).link j = s.link j ∧
    (worksStart s).pair = s.pair ∧ (worksStart s).pmb = s.pmb ∧ (worksStart s).jtag = s.jtag ∧ (worksStart s).free = s.free ∧
    (worksStart s).books = s.books ∧ (worksStart s).pending = s.pending :=
  have m := worksStart_move (Move.refl [.boot, .time, .log, .coll, .works, .host, .out] s) rfl
  ⟨m.cell rfl j, m.hearth rfl j, m.slot rfl j, m.spy rfl j, m.capture rfl j, m.group rfl j, m.hk rfl j, m.chan rfl j, m.cone rfl j, m.engine rfl j, m.cluster rfl j, m.link rfl j, m.pair rfl, m.pmb rfl, m.jtag rfl, m.free rfl, m.books rfl, m.pending rfl⟩

@[simp] theorem tryUp_reads {a1} (s : State) (j : Nat) :
    (tryUp s a1).cell j = s.cell j ∧ (tryUp s a1).hearth j = s.hearth j ∧ (tryUp s a1).slot j = s.slot j ∧ (tryUp s a1).spy j = s.spy j ∧
    (tryUp s a1).capture j = s.capture j ∧ (tryUp s a1).group j = s.group j ∧ (tryUp s a1).hk j = s.hk j ∧ (tryUp s a1).chan j = s.chan j ∧
    (tryUp s a1).cone j = s.cone j ∧ (tryUp s a1).engine j = s.engine j ∧ (tryUp s a1).cluster j = s.cluster j ∧
    (tryUp s a1).link j = s.link j ∧ (tryUp s a1).time = s.time ∧ (tryUp s a1).pair = s.pair ∧ (tryUp s a1).pmb = s.pmb ∧
    (tryUp s a1).jtag = s.jtag ∧ (tryUp s a1).free = s.free ∧ (tryUp s a1).books = s.books ∧ (tryUp s a1).pending = s.pending :=
  have m := tryUp_move (Move.refl [.boot, .log, .coll, .works, .host, .out] s) rfl
  ⟨m.cell rfl j, m.hearth rfl j, m.slot rfl j, m.spy rfl j, m.capture rfl j, m.group rfl j, m.hk rfl j, m.chan rfl j, m.cone rfl j, m.engine rfl j, m.cluster rfl j, m.link rfl j, m.time rfl, m.pair rfl, m.pmb rfl, m.jtag rfl, m.free rfl, m.books rfl, m.pending rfl⟩

@[simp] theorem addressConflict_reads {a1} (s : State) (j : Nat) :
    (addressConflict s a1).cell j = s.cell j ∧ (addressConflict s a1).hearth j = s.hearth j ∧ (addressConflict s a1).slot j = s.slot j ∧
    (addressConflict s a1).spy j = s.spy j ∧ (addressConflict s a1).capture j = s.capture j ∧ (addressConflict s a1).group j = s.group j ∧
    (addressConflict s a1).hk j = s.hk j ∧ (addressConflict s a1).chan j = s.chan j ∧ (addressConflict s a1).cone j = s.cone j ∧
    (addressConflict s a1).engine j = s.engine j ∧ (addressConflict s a1).cluster j = s.cluster j ∧ (addressConflict s a1).link j = s.link j ∧
    (addressConflict s a1).time = s.time ∧ (addressConflict s a1).coll = s.coll ∧ (addressConflict s a1).pair = s.pair ∧
    (addressConflict s a1).pmb = s.pmb ∧ (addressConflict s a1).jtag = s.jtag ∧ (addressConflict s a1).out = s.out ∧
    (addressConflict s a1).free = s.free ∧ (addressConflict s a1).books = s.books ∧ (addressConflict s a1).boot = s.boot ∧
    (addressConflict s a1).pending = s.pending :=
  have m := addressConflict_move (Move.refl [.log, .works, .host] s) rfl
  ⟨m.cell rfl j, m.hearth rfl j, m.slot rfl j, m.spy rfl j, m.capture rfl j, m.group rfl j, m.hk rfl j, m.chan rfl j, m.cone rfl j, m.engine rfl j, m.cluster rfl j, m.link rfl j, m.time rfl, m.coll rfl, m.pair rfl, m.pmb rfl, m.jtag rfl, m.out rfl, m.free rfl, m.books rfl, m.boot rfl rfl rfl rfl, m.pending rfl⟩

@[simp] theorem gateEvent_reads {a1 a2 a3} (s : State) (j : Nat) :
    (gateEvent s a1 a2 a3).cell j = s.cell j ∧ (gateEvent s a1 a2 a3).hearth j = s.hearth j ∧ (gateEvent s a1 a2 a3).slot j = s.slot j ∧
    (gateEvent s a1 a2 a3).spy j = s.spy j ∧ (gateEvent s a1 a2 a3).capture j = s.capture j ∧ (gateEvent s a1 a2 a3).group j = s.group j ∧
    (gateEvent s a1 a2 a3).chan j = s.chan j ∧ (gateEvent s a1 a2 a3).cone j = s.cone j ∧ (gateEvent s a1 a2 a3).engine j = s.engine j ∧
    (gateEvent s a1 a2 a3).cluster j = s.cluster j ∧ (gateEvent s a1 a2 a3).link j = s.link j ∧ (gateEvent s a1 a2 a3).time = s.time ∧
    (gateEvent s a1 a2 a3).log = s.log ∧ (gateEvent s a1 a2 a3).coll = s.coll ∧ (gateEvent s a1 a2 a3).pair = s.pair ∧
    (gateEvent s a1 a2 a3).works = s.works ∧ (gateEvent s a1 a2 a3).host = s.host ∧ (gateEvent s a1 a2 a3).pmb = s.pmb ∧
    (gateEvent s a1 a2 a3).jtag = s.jtag ∧ (gateEvent s a1 a2 a3).out = s.out ∧ (gateEvent s a1 a2 a3).free = s.free ∧
    (gateEvent s a1 a2 a3).books = s.books ∧ (gateEvent s a1 a2 a3).boot = s.boot ∧ (gateEvent s a1 a2 a3).pending = s.pending :=
  have m := gateEvent_move (Move.refl [.hks] s) rfl
  ⟨m.cell rfl j, m.hearth rfl j, m.slot rfl j, m.spy rfl j, m.capture rfl j, m.group rfl j, m.chan rfl j, m.cone rfl j, m.engine rfl j, m.cluster rfl j, m.link rfl j, m.time rfl, m.log rfl, m.coll rfl, m.pair rfl, m.works rfl, m.host rfl, m.pmb rfl, m.jtag rfl, m.out rfl, m.free rfl, m.books rfl, m.boot rfl rfl rfl rfl, m.pending rfl⟩

@[simp] theorem startPass_reads {a1 a2} (s : State) (j : Nat) :
    (startPass s a1 a2).cell j = s.cell j ∧ (startPass s a1 a2).hearth j = s.hearth j ∧ (startPass s a1 a2).slot j = s.slot j ∧
    (startPass s a1 a2).spy j = s.spy j ∧ (startPass s a1 a2).capture j = s.capture j ∧ (startPass s a1 a2).group j = s.group j ∧
    (startPass s a1 a2).chan j = s.chan j ∧ (startPass s a1 a2).cone j = s.cone j ∧ (startPass s a1 a2).engine j = s.engine j ∧
    (startPass s a1 a2).cluster j = s.cluster j ∧ (startPass s a1 a2).link j = s.link j ∧ (startPass s a1 a2).time = s.time ∧
    (startPass s a1 a2).log = s.log ∧ (startPass s a1 a2).coll = s.coll ∧ (startPass s a1 a2).pair = s.pair ∧
    (startPass s a1 a2).works = s.works ∧ (startPass s a1 a2).host = s.host ∧ (startPass s a1 a2).pmb = s.pmb ∧
    (startPass s a1 a2).jtag = s.jtag ∧ (startPass s a1 a2).out = s.out ∧ (startPass s a1 a2).free = s.free ∧
    (startPass s a1 a2).books = s.books ∧ (startPass s a1 a2).boot = s.boot ∧ (startPass s a1 a2).pending = s.pending :=
  have m := startPass_move (Move.refl [.hks] s) rfl
  ⟨m.cell rfl j, m.hearth rfl j, m.slot rfl j, m.spy rfl j, m.capture rfl j, m.group rfl j, m.chan rfl j, m.cone rfl j, m.engine rfl j, m.cluster rfl j, m.link rfl j, m.time rfl, m.log rfl, m.coll rfl, m.pair rfl, m.works rfl, m.host rfl, m.pmb rfl, m.jtag rfl, m.out rfl, m.free rfl, m.books rfl, m.boot rfl rfl rfl rfl, m.pending rfl⟩

@[simp] theorem seqTrigger_reads {a1} (s : State) (j : Nat) :
    (seqTrigger s a1).cell j = s.cell j ∧ (seqTrigger s a1).hearth j = s.hearth j ∧ (seqTrigger s a1).slot j = s.slot j ∧
    (seqTrigger s a1).spy j = s.spy j ∧ (seqTrigger s a1).capture j = s.capture j ∧ (seqTrigger s a1).group j = s.group j ∧
    (seqTrigger s a1).chan j = s.chan j ∧ (seqTrigger s a1).cone j = s.cone j ∧ (seqTrigger s a1).engine j = s.engine j ∧
    (seqTrigger s a1).cluster j = s.cluster j ∧ (seqTrigger s a1).link j = s.link j ∧ (seqTrigger s a1).time = s.time ∧
    (seqTrigger s a1).log = s.log ∧ (seqTrigger s a1).coll = s.coll ∧ (seqTrigger s a1).pair = s.pair ∧ (seqTrigger s a1).works = s.works ∧
    (seqTrigger s a1).host = s.host ∧ (seqTrigger s a1).pmb = s.pmb ∧ (seqTrigger s a1).jtag = s.jtag ∧ (seqTrigger s a1).out = s.out ∧
    (seqTrigger s a1).free = s.free ∧ (seqTrigger s a1).books = s.books ∧ (seqTrigger s a1).boot = s.boot ∧
    (seqTrigger s a1).pending = s.pending :=
  have m := seqTrigger_move (Move.refl [.hks] s) rfl
  ⟨m.cell rfl j, m.hearth rfl j, m.slot rfl j, m.spy rfl j, m.capture rfl j, m.group rfl j, m.chan rfl j, m.cone rfl j, m.engine rfl j, m.cluster rfl j, m.link rfl j, m.time rfl, m.log rfl, m.coll rfl, m.pair rfl, m.works rfl, m.host rfl, m.pmb rfl, m.jtag rfl, m.out rfl, m.free rfl, m.books rfl, m.boot rfl rfl rfl rfl, m.pending rfl⟩

@[simp] theorem enterState_reads {a1 a2 a3 a4} (s : State) (j : Nat) :
    (enterState s a1 a2 a3 a4).slot j = s.slot j ∧ (enterState s a1 a2 a3 a4).spy j = s.spy j ∧
    (enterState s a1 a2 a3 a4).capture j = s.capture j ∧ (enterState s a1 a2 a3 a4).group j = s.group j ∧
    (enterState s a1 a2 a3 a4).cone j = s.cone j ∧ (enterState s a1 a2 a3 a4).engine j = s.engine j ∧
    (enterState s a1 a2 a3 a4).cluster j = s.cluster j ∧ (enterState s a1 a2 a3 a4).link j = s.link j ∧
    (enterState s a1 a2 a3 a4).time = s.time ∧ (enterState s a1 a2 a3 a4).log = s.log ∧ (enterState s a1 a2 a3 a4).coll = s.coll ∧
    (enterState s a1 a2 a3 a4).pair = s.pair ∧ (enterState s a1 a2 a3 a4).works = s.works ∧ (enterState s a1 a2 a3 a4).host = s.host ∧
    (enterState s a1 a2 a3 a4).pmb = s.pmb ∧ (enterState s a1 a2 a3 a4).jtag = s.jtag ∧ (enterState s a1 a2 a3 a4).out = s.out ∧
    (enterState s a1 a2 a3 a4).free = s.free ∧ (enterState s a1 a2 a3 a4).books = s.books ∧ (enterState s a1 a2 a3 a4).boot = s.boot ∧
    (enterState s a1 a2 a3 a4).pending = s.pending :=
  have m := enterState_move (Move.refl [.cells, .hearths, .hks, .chans] s) rfl
  ⟨m.slot rfl j, m.spy rfl j, m.capture rfl j, m.group rfl j, m.cone rfl j, m.engine rfl j, m.cluster rfl j, m.link rfl j, m.time rfl, m.log rfl, m.coll rfl, m.pair rfl, m.works rfl, m.host rfl, m.pmb rfl, m.jtag rfl, m.out rfl, m.free rfl, m.books rfl, m.boot rfl rfl rfl rfl, m.pending rfl⟩

@[simp] theorem takeTrip_reads {a1 a2 a3 a4 a5 a6 a7} (s : State) (j : Nat) :
    (takeTrip s a1 a2 a3 a4 a5 a6 a7).slot j = s.slot j ∧ (takeTrip s a1 a2 a3 a4 a5 a6 a7).spy j = s.spy j ∧
    (takeTrip s a1 a2 a3 a4 a5 a6 a7).capture j = s.capture j ∧ (takeTrip s a1 a2 a3 a4 a5 a6 a7).group j = s.group j ∧
    (takeTrip s a1 a2 a3 a4 a5 a6 a7).cone j = s.cone j ∧ (takeTrip s a1 a2 a3 a4 a5 a6 a7).engine j = s.engine j ∧
    (takeTrip s a1 a2 a3 a4 a5 a6 a7).cluster j = s.cluster j ∧ (takeTrip s a1 a2 a3 a4 a5 a6 a7).link j = s.link j ∧
    (takeTrip s a1 a2 a3 a4 a5 a6 a7).time = s.time ∧ (takeTrip s a1 a2 a3 a4 a5 a6 a7).log = s.log ∧
    (takeTrip s a1 a2 a3 a4 a5 a6 a7).coll = s.coll ∧ (takeTrip s a1 a2 a3 a4 a5 a6 a7).pair = s.pair ∧
    (takeTrip s a1 a2 a3 a4 a5 a6 a7).works = s.works ∧ (takeTrip s a1 a2 a3 a4 a5 a6 a7).host = s.host ∧
    (takeTrip s a1 a2 a3 a4 a5 a6 a7).pmb = s.pmb ∧ (takeTrip s a1 a2 a3 a4 a5 a6 a7).jtag = s.jtag ∧
    (takeTrip s a1 a2 a3 a4 a5 a6 a7).out = s.out ∧ (takeTrip s a1 a2 a3 a4 a5 a6 a7).free = s.free ∧
    (takeTrip s a1 a2 a3 a4 a5 a6 a7).books = s.books ∧ (takeTrip s a1 a2 a3 a4 a5 a6 a7).boot = s.boot ∧
    (takeTrip s a1 a2 a3 a4 a5 a6 a7).pending = s.pending :=
  have m := takeTrip_move (Move.refl [.cells, .hearths, .hks, .chans] s) rfl
  ⟨m.slot rfl j, m.spy rfl j, m.capture rfl j, m.group rfl j, m.cone rfl j, m.engine rfl j, m.cluster rfl j, m.link rfl j, m.time rfl, m.log rfl, m.coll rfl, m.pair rfl, m.works rfl, m.host rfl, m.pmb rfl, m.jtag rfl, m.out rfl, m.free rfl, m.books rfl, m.boot rfl rfl rfl rfl, m.pending rfl⟩

@[simp] theorem tripNow_reads {a1 a2 a3 a4 a5} (s : State) (j : Nat) :
    (tripNow s a1 a2 a3 a4 a5).slot j = s.slot j ∧ (tripNow s a1 a2 a3 a4 a5).spy j = s.spy j ∧
    (tripNow s a1 a2 a3 a4 a5).capture j = s.capture j ∧ (tripNow s a1 a2 a3 a4 a5).group j = s.group j ∧
    (tripNow s a1 a2 a3 a4 a5).cone j = s.cone j ∧ (tripNow s a1 a2 a3 a4 a5).engine j = s.engine j ∧
    (tripNow s a1 a2 a3 a4 a5).cluster j = s.cluster j ∧ (tripNow s a1 a2 a3 a4 a5).link j = s.link j ∧
    (tripNow s a1 a2 a3 a4 a5).time = s.time ∧ (tripNow s a1 a2 a3 a4 a5).log = s.log ∧ (tripNow s a1 a2 a3 a4 a5).coll = s.coll ∧
    (tripNow s a1 a2 a3 a4 a5).pair = s.pair ∧ (tripNow s a1 a2 a3 a4 a5).works = s.works ∧ (tripNow s a1 a2 a3 a4 a5).host = s.host ∧
    (tripNow s a1 a2 a3 a4 a5).pmb = s.pmb ∧ (tripNow s a1 a2 a3 a4 a5).jtag = s.jtag ∧ (tripNow s a1 a2 a3 a4 a5).out = s.out ∧
    (tripNow s a1 a2 a3 a4 a5).free = s.free ∧ (tripNow s a1 a2 a3 a4 a5).books = s.books ∧ (tripNow s a1 a2 a3 a4 a5).boot = s.boot ∧
    (tripNow s a1 a2 a3 a4 a5).pending = s.pending :=
  have m := tripNow_move (Move.refl [.cells, .hearths, .hks, .chans] s) rfl
  ⟨m.slot rfl j, m.spy rfl j, m.capture rfl j, m.group rfl j, m.cone rfl j, m.engine rfl j, m.cluster rfl j, m.link rfl j, m.time rfl, m.log rfl, m.coll rfl, m.pair rfl, m.works rfl, m.host rfl, m.pmb rfl, m.jtag rfl, m.out rfl, m.free rfl, m.books rfl, m.boot rfl rfl rfl rfl, m.pending rfl⟩

@[simp] theorem noteUndo_reads {a1} (s : State) (j : Nat) :
    (noteUndo s a1).hearth j = s.hearth j ∧ (noteUndo s a1).slot j = s.slot j ∧ (noteUndo s a1).spy j = s.spy j ∧
    (noteUndo s a1).capture j = s.capture j ∧ (noteUndo s a1).group j = s.group j ∧ (noteUndo s a1).hk j = s.hk j ∧
    (noteUndo s a1).chan j = s.chan j ∧ (noteUndo s a1).cone j = s.cone j ∧ (noteUndo s a1).engine j = s.engine j ∧
    (noteUndo s a1).cluster j = s.cluster j ∧ (noteUndo s a1).link j = s.link j ∧ (noteUndo s a1).time = s.time ∧
    (noteUndo s a1).log = s.log ∧ (noteUndo s a1).coll = s.coll ∧ (noteUndo s a1).pair = s.pair ∧ (noteUndo s a1).works = s.works ∧
    (noteUndo s a1).host = s.host ∧ (noteUndo s a1).pmb = s.pmb ∧ (noteUndo s a1).jtag = s.jtag ∧ (noteUndo s a1).out = s.out ∧
    (noteUndo s a1).free = s.free ∧ (noteUndo s a1).books = s.books ∧ (noteUndo s a1).boot = s.boot ∧ (noteUndo s a1).pending = s.pending :=
  have m := noteUndo_move (Move.refl [.cells] s) rfl
  ⟨m.hearth rfl j, m.slot rfl j, m.spy rfl j, m.capture rfl j, m.group rfl j, m.hk rfl j, m.chan rfl j, m.cone rfl j, m.engine rfl j, m.cluster rfl j, m.link rfl j, m.time rfl, m.log rfl, m.coll rfl, m.pair rfl, m.works rfl, m.host rfl, m.pmb rfl, m.jtag rfl, m.out rfl, m.free rfl, m.books rfl, m.boot rfl rfl rfl rfl, m.pending rfl⟩

@[simp] theorem writeIgReg_reads {a1 a2} (s : State) (j : Nat) :
    (writeIgReg s a1 a2).hearth j = s.hearth j ∧ (writeIgReg s a1 a2).slot j = s.slot j ∧ (writeIgReg s a1 a2).spy j = s.spy j ∧
    (writeIgReg s a1 a2).capture j = s.capture j ∧ (writeIgReg s a1 a2).group j = s.group j ∧ (writeIgReg s a1 a2).hk j = s.hk j ∧
    (writeIgReg s a1 a2).chan j = s.chan j ∧ (writeIgReg s a1 a2).cone j = s.cone j ∧ (writeIgReg s a1 a2).engine j = s.engine j ∧
    (writeIgReg s a1 a2).cluster j = s.cluster j ∧ (writeIgReg s a1 a2).link j = s.link j ∧ (writeIgReg s a1 a2).time = s.time ∧
    (writeIgReg s a1 a2).log = s.log ∧ (writeIgReg s a1 a2).coll = s.coll ∧ (writeIgReg s a1 a2).pair = s.pair ∧
    (writeIgReg s a1 a2).works = s.works ∧ (writeIgReg s a1 a2).host = s.host ∧ (writeIgReg s a1 a2).pmb = s.pmb ∧
    (writeIgReg s a1 a2).jtag = s.jtag ∧ (writeIgReg s a1 a2).out = s.out ∧ (writeIgReg s a1 a2).free = s.free ∧
    (writeIgReg s a1 a2).books = s.books ∧ (writeIgReg s a1 a2).boot = s.boot ∧ (writeIgReg s a1 a2).pending = s.pending :=
  have m := writeIgReg_move (Move.refl [.cells] s) rfl
  ⟨m.hearth rfl j, m.slot rfl j, m.spy rfl j, m.capture rfl j, m.group rfl j, m.hk rfl j, m.chan rfl j, m.cone rfl j, m.engine rfl j, m.cluster rfl j, m.link rfl j, m.time rfl, m.log rfl, m.coll rfl, m.pair rfl, m.works rfl, m.host rfl, m.pmb rfl, m.jtag rfl, m.out rfl, m.free rfl, m.books rfl, m.boot rfl rfl rfl rfl, m.pending rfl⟩

@[simp] theorem hearthReceive_reads {a1 a2 a3} (s : State) (j : Nat) :
    (hearthReceive s a1 a2 a3).slot j = s.slot j ∧ (hearthReceive s a1 a2 a3).spy j = s.spy j ∧
    (hearthReceive s a1 a2 a3).capture j = s.capture j ∧ (hearthReceive s a1 a2 a3).group j = s.group j ∧
    (hearthReceive s a1 a2 a3).cone j = s.cone j ∧ (hearthReceive s a1 a2 a3).engine j = s.engine j ∧
    (hearthReceive s a1 a2 a3).cluster j = s.cluster j ∧ (hearthReceive s a1 a2 a3).link j = s.link j ∧
    (hearthReceive s a1 a2 a3).time = s.time ∧ (hearthReceive s a1 a2 a3).log = s.log ∧ (hearthReceive s a1 a2 a3).coll = s.coll ∧
    (hearthReceive s a1 a2 a3).pair = s.pair ∧ (hearthReceive s a1 a2 a3).works = s.works ∧ (hearthReceive s a1 a2 a3).host = s.host ∧
    (hearthReceive s a1 a2 a3).pmb = s.pmb ∧ (hearthReceive s a1 a2 a3).jtag = s.jtag ∧ (hearthReceive s a1 a2 a3).out = s.out ∧
    (hearthReceive s a1 a2 a3).free = s.free ∧ (hearthReceive s a1 a2 a3).books = s.books ∧ (hearthReceive s a1 a2 a3).boot = s.boot ∧
    (hearthReceive s a1 a2 a3).pending = s.pending :=
  have m := hearthReceive_move (Move.refl [.cells, .hearths, .hks, .chans] s) rfl
  ⟨m.slot rfl j, m.spy rfl j, m.capture rfl j, m.group rfl j, m.cone rfl j, m.engine rfl j, m.cluster rfl j, m.link rfl j, m.time rfl, m.log rfl, m.coll rfl, m.pair rfl, m.works rfl, m.host rfl, m.pmb rfl, m.jtag rfl, m.out rfl, m.free rfl, m.books rfl, m.boot rfl rfl rfl rfl, m.pending rfl⟩

@[simp] theorem holdChannel_reads {a1} (s : State) (j : Nat) :
    (holdChannel s a1).slot j = s.slot j ∧ (holdChannel s a1).spy j = s.spy j ∧ (holdChannel s a1).capture j = s.capture j ∧
    (holdChannel s a1).group j = s.group j ∧ (holdChannel s a1).cone j = s.cone j ∧ (holdChannel s a1).engine j = s.engine j ∧
    (holdChannel s a1).cluster j = s.cluster j ∧ (holdChannel s a1).link j = s.link j ∧ (holdChannel s a1).time = s.time ∧
    (holdChannel s a1).log = s.log ∧ (holdChannel s a1).coll = s.coll ∧ (holdChannel s a1).pair = s.pair ∧
    (holdChannel s a1).works = s.works ∧ (holdChannel s a1).host = s.host ∧ (holdChannel s a1).pmb = s.pmb ∧
    (holdChannel s a1).jtag = s.jtag ∧ (holdChannel s a1).out = s.out ∧ (holdChannel s a1).free = s.free ∧
    (holdChannel s a1).books = s.books ∧ (holdChannel s a1).boot = s.boot ∧ (holdChannel s a1).pending = s.pending :=
  have m := holdChannel_move (Move.refl [.cells, .hearths, .hks, .chans] s) rfl
  ⟨m.slot rfl j, m.spy rfl j, m.capture rfl j, m.group rfl j, m.cone rfl j, m.engine rfl j, m.cluster rfl j, m.link rfl j, m.time rfl, m.log rfl, m.coll rfl, m.pair rfl, m.works rfl, m.host rfl, m.pmb rfl, m.jtag rfl, m.out rfl, m.free rfl, m.books rfl, m.boot rfl rfl rfl rfl, m.pending rfl⟩

@[simp] theorem enterSaggar_reads {a1} (s : State) (j : Nat) :
    (enterSaggar s a1).slot j = s.slot j ∧ (enterSaggar s a1).spy j = s.spy j ∧ (enterSaggar s a1).capture j = s.capture j ∧
    (enterSaggar s a1).group j = s.group j ∧ (enterSaggar s a1).cone j = s.cone j ∧ (enterSaggar s a1).engine j = s.engine j ∧
    (enterSaggar s a1).cluster j = s.cluster j ∧ (enterSaggar s a1).link j = s.link j ∧ (enterSaggar s a1).time = s.time ∧
    (enterSaggar s a1).log = s.log ∧ (enterSaggar s a1).coll = s.coll ∧ (enterSaggar s a1).pair = s.pair ∧
    (enterSaggar s a1).works = s.works ∧ (enterSaggar s a1).host = s.host ∧ (enterSaggar s a1).pmb = s.pmb ∧
    (enterSaggar s a1).jtag = s.jtag ∧ (enterSaggar s a1).out = s.out ∧ (enterSaggar s a1).free = s.free ∧
    (enterSaggar s a1).books = s.books ∧ (enterSaggar s a1).boot = s.boot ∧ (enterSaggar s a1).pending = s.pending :=
  have m := enterSaggar_move (Move.refl [.cells, .hearths, .hks, .chans] s) rfl
  ⟨m.slot rfl j, m.spy rfl j, m.capture rfl j, m.group rfl j, m.cone rfl j, m.engine rfl j, m.cluster rfl j, m.link rfl j, m.time rfl, m.log rfl, m.coll rfl, m.pair rfl, m.works rfl, m.host rfl, m.pmb rfl, m.jtag rfl, m.out rfl, m.free rfl, m.books rfl, m.boot rfl rfl rfl rfl, m.pending rfl⟩

@[simp] theorem stampGroup_reads {a1 a2 a3 a4} (s : State) (j : Nat) :
    (stampGroup s a1 a2 a3 a4).cell j = s.cell j ∧ (stampGroup s a1 a2 a3 a4).slot j = s.slot j ∧ (stampGroup s a1 a2 a3 a4).spy j = s.spy j ∧
    (stampGroup s a1 a2 a3 a4).capture j = s.capture j ∧ (stampGroup s a1 a2 a3 a4).group j = s.group j ∧
    (stampGroup s a1 a2 a3 a4).hk j = s.hk j ∧ (stampGroup s a1 a2 a3 a4).chan j = s.chan j ∧ (stampGroup s a1 a2 a3 a4).cone j = s.cone j ∧
    (stampGroup s a1 a2 a3 a4).engine j = s.engine j ∧ (stampGroup s a1 a2 a3 a4).cluster j = s.cluster j ∧
    (stampGroup s a1 a2 a3 a4).link j = s.link j ∧ (stampGroup s a1 a2 a3 a4).time = s.time ∧ (stampGroup s a1 a2 a3 a4).log = s.log ∧
    (stampGroup s a1 a2 a3 a4).coll = s.coll ∧ (stampGroup s a1 a2 a3 a4).pair = s.pair ∧ (stampGroup s a1 a2 a3 a4).works = s.works ∧
    (stampGroup s a1 a2 a3 a4).host = s.host ∧ (stampGroup s a1 a2 a3 a4).pmb = s.pmb ∧ (stampGroup s a1 a2 a3 a4).jtag = s.jtag ∧
    (stampGroup s a1 a2 a3 a4).out = s.out ∧ (stampGroup s a1 a2 a3 a4).free = s.free ∧ (stampGroup s a1 a2 a3 a4).books = s.books ∧
    (stampGroup s a1 a2 a3 a4).boot = s.boot ∧ (stampGroup s a1 a2 a3 a4).pending = s.pending :=
  have m := stampGroup_move (Move.refl [.hearths] s) rfl
  ⟨m.cell rfl j, m.slot rfl j, m.spy rfl j, m.capture rfl j, m.group rfl j, m.hk rfl j, m.chan rfl j, m.cone rfl j, m.engine rfl j, m.cluster rfl j, m.link rfl j, m.time rfl, m.log rfl, m.coll rfl, m.pair rfl, m.works rfl, m.host rfl, m.pmb rfl, m.jtag rfl, m.out rfl, m.free rfl, m.books rfl, m.boot rfl rfl rfl rfl, m.pending rfl⟩

@[simp] theorem raiseWarn_reads {a1 a2 a3} (s : State) (j : Nat) :
    (raiseWarn s a1 a2 a3).cell j = s.cell j ∧ (raiseWarn s a1 a2 a3).slot j = s.slot j ∧ (raiseWarn s a1 a2 a3).spy j = s.spy j ∧
    (raiseWarn s a1 a2 a3).capture j = s.capture j ∧ (raiseWarn s a1 a2 a3).hk j = s.hk j ∧ (raiseWarn s a1 a2 a3).chan j = s.chan j ∧
    (raiseWarn s a1 a2 a3).cone j = s.cone j ∧ (raiseWarn s a1 a2 a3).engine j = s.engine j ∧ (raiseWarn s a1 a2 a3).cluster j = s.cluster j ∧
    (raiseWarn s a1 a2 a3).link j = s.link j ∧ (raiseWarn s a1 a2 a3).time = s.time ∧ (raiseWarn s a1 a2 a3).log = s.log ∧
    (raiseWarn s a1 a2 a3).coll = s.coll ∧ (raiseWarn s a1 a2 a3).pair = s.pair ∧ (raiseWarn s a1 a2 a3).works = s.works ∧
    (raiseWarn s a1 a2 a3).host = s.host ∧ (raiseWarn s a1 a2 a3).pmb = s.pmb ∧ (raiseWarn s a1 a2 a3).jtag = s.jtag ∧
    (raiseWarn s a1 a2 a3).out = s.out ∧ (raiseWarn s a1 a2 a3).free = s.free ∧ (raiseWarn s a1 a2 a3).books = s.books ∧
    (raiseWarn s a1 a2 a3).boot = s.boot ∧ (raiseWarn s a1 a2 a3).pending = s.pending :=
  have m := raiseWarn_move (Move.refl [.hearths, .groups] s) rfl
  ⟨m.cell rfl j, m.slot rfl j, m.spy rfl j, m.capture rfl j, m.hk rfl j, m.chan rfl j, m.cone rfl j, m.engine rfl j, m.cluster rfl j, m.link rfl j, m.time rfl, m.log rfl, m.coll rfl, m.pair rfl, m.works rfl, m.host rfl, m.pmb rfl, m.jtag rfl, m.out rfl, m.free rfl, m.books rfl, m.boot rfl rfl rfl rfl, m.pending rfl⟩

@[simp] theorem confirmWarns_reads {a1 a2 a3} (s : State) (j : Nat) :
    (confirmWarns s a1 a2 a3).cell j = s.cell j ∧ (confirmWarns s a1 a2 a3).slot j = s.slot j ∧ (confirmWarns s a1 a2 a3).spy j = s.spy j ∧
    (confirmWarns s a1 a2 a3).capture j = s.capture j ∧ (confirmWarns s a1 a2 a3).hk j = s.hk j ∧
    (confirmWarns s a1 a2 a3).chan j = s.chan j ∧ (confirmWarns s a1 a2 a3).cone j = s.cone j ∧
    (confirmWarns s a1 a2 a3).engine j = s.engine j ∧ (confirmWarns s a1 a2 a3).cluster j = s.cluster j ∧
    (confirmWarns s a1 a2 a3).link j = s.link j ∧ (confirmWarns s a1 a2 a3).time = s.time ∧ (confirmWarns s a1 a2 a3).log = s.log ∧
    (confirmWarns s a1 a2 a3).coll = s.coll ∧ (confirmWarns s a1 a2 a3).pair = s.pair ∧ (confirmWarns s a1 a2 a3).works = s.works ∧
    (confirmWarns s a1 a2 a3).host = s.host ∧ (confirmWarns s a1 a2 a3).pmb = s.pmb ∧ (confirmWarns s a1 a2 a3).jtag = s.jtag ∧
    (confirmWarns s a1 a2 a3).out = s.out ∧ (confirmWarns s a1 a2 a3).free = s.free ∧ (confirmWarns s a1 a2 a3).books = s.books ∧
    (confirmWarns s a1 a2 a3).boot = s.boot ∧ (confirmWarns s a1 a2 a3).pending = s.pending :=
  have m := confirmWarns_move (Move.refl [.hearths, .groups] s) rfl
  ⟨m.cell rfl j, m.slot rfl j, m.spy rfl j, m.capture rfl j, m.hk rfl j, m.chan rfl j, m.cone rfl j, m.engine rfl j, m.cluster rfl j, m.link rfl j, m.time rfl, m.log rfl, m.coll rfl, m.pair rfl, m.works rfl, m.host rfl, m.pmb rfl, m.jtag rfl, m.out rfl, m.free rfl, m.books rfl, m.boot rfl rfl rfl rfl, m.pending rfl⟩

@[simp] theorem retractWarns_reads {a1 a2} (s : State) (j : Nat) :
    (retractWarns s a1 a2).cell j = s.cell j ∧ (retractWarns s a1 a2).slot j = s.slot j ∧ (retractWarns s a1 a2).spy j = s.spy j ∧
    (retractWarns s a1 a2).capture j = s.capture j ∧ (retractWarns s a1 a2).hk j = s.hk j ∧ (retractWarns s a1 a2).chan j = s.chan j ∧
    (retractWarns s a1 a2).cone j = s.cone j ∧ (retractWarns s a1 a2).engine j = s.engine j ∧ (retractWarns s a1 a2).cluster j = s.cluster j ∧
    (retractWarns s a1 a2).link j = s.link j ∧ (retractWarns s a1 a2).time = s.time ∧ (retractWarns s a1 a2).log = s.log ∧
    (retractWarns s a1 a2).coll = s.coll ∧ (retractWarns s a1 a2).pair = s.pair ∧ (retractWarns s a1 a2).works = s.works ∧
    (retractWarns s a1 a2).host = s.host ∧ (retractWarns s a1 a2).pmb = s.pmb ∧ (retractWarns s a1 a2).jtag = s.jtag ∧
    (retractWarns s a1 a2).out = s.out ∧ (retractWarns s a1 a2).free = s.free ∧ (retractWarns s a1 a2).books = s.books ∧
    (retractWarns s a1 a2).boot = s.boot ∧ (retractWarns s a1 a2).pending = s.pending :=
  have m := retractWarns_move (Move.refl [.hearths, .groups] s) rfl
  ⟨m.cell rfl j, m.slot rfl j, m.spy rfl j, m.capture rfl j, m.hk rfl j, m.chan rfl j, m.cone rfl j, m.engine rfl j, m.cluster rfl j, m.link rfl j, m.time rfl, m.log rfl, m.coll rfl, m.pair rfl, m.works rfl, m.host rfl, m.pmb rfl, m.jtag rfl, m.out rfl, m.free rfl, m.books rfl, m.boot rfl rfl rfl rfl, m.pending rfl⟩

@[simp] theorem dueWarns_reads {a1 a2} (s : State) (j : Nat) :
    (dueWarns s a1 a2).cell j = s.cell j ∧ (dueWarns s a1 a2).hearth j = s.hearth j ∧ (dueWarns s a1 a2).slot j = s.slot j ∧
    (dueWarns s a1 a2).spy j = s.spy j ∧ (dueWarns s a1 a2).capture j = s.capture j ∧ (dueWarns s a1 a2).hk j = s.hk j ∧
    (dueWarns s a1 a2).chan j = s.chan j ∧ (dueWarns s a1 a2).cone j = s.cone j ∧ (dueWarns s a1 a2).engine j = s.engine j ∧
    (dueWarns s a1 a2).cluster j = s.cluster j ∧ (dueWarns s a1 a2).link j = s.link j ∧ (dueWarns s a1 a2).time = s.time ∧
    (dueWarns s a1 a2).log = s.log ∧ (dueWarns s a1 a2).coll = s.coll ∧ (dueWarns s a1 a2).pair = s.pair ∧
    (dueWarns s a1 a2).works = s.works ∧ (dueWarns s a1 a2).host = s.host ∧ (dueWarns s a1 a2).pmb = s.pmb ∧
    (dueWarns s a1 a2).jtag = s.jtag ∧ (dueWarns s a1 a2).out = s.out ∧ (dueWarns s a1 a2).free = s.free ∧
    (dueWarns s a1 a2).books = s.books ∧ (dueWarns s a1 a2).boot = s.boot ∧ (dueWarns s a1 a2).pending = s.pending :=
  have m := dueWarns_move (Move.refl [.groups] s) rfl
  ⟨m.cell rfl j, m.hearth rfl j, m.slot rfl j, m.spy rfl j, m.capture rfl j, m.hk rfl j, m.chan rfl j, m.cone rfl j, m.engine rfl j, m.cluster rfl j, m.link rfl j, m.time rfl, m.log rfl, m.coll rfl, m.pair rfl, m.works rfl, m.host rfl, m.pmb rfl, m.jtag rfl, m.out rfl, m.free rfl, m.books rfl, m.boot rfl rfl rfl rfl, m.pending rfl⟩

@[simp] theorem groupError_reads {a1 a2 a3 a4 a5} (s : State) (j : Nat) :
    (groupError s a1 a2 a3 a4 a5).cell j = s.cell j ∧ (groupError s a1 a2 a3 a4 a5).slot j = s.slot j ∧
    (groupError s a1 a2 a3 a4 a5).spy j = s.spy j ∧ (groupError s a1 a2 a3 a4 a5).capture j = s.capture j ∧
    (groupError s a1 a2 a3 a4 a5).group j = s.group j ∧ (groupError s a1 a2 a3 a4 a5).hk j = s.hk j ∧
    (groupError s a1 a2 a3 a4 a5).chan j = s.chan j ∧ (groupError s a1 a2 a3 a4 a5).cone j = s.cone j ∧
    (groupError s a1 a2 a3 a4 a5).engine j = s.engine j ∧ (groupError s a1 a2 a3 a4 a5).cluster j = s.cluster j ∧
    (groupError s a1 a2 a3 a4 a5).link j = s.link j ∧ (groupError s a1 a2 a3 a4 a5).time = s.time ∧
    (groupError s a1 a2 a3 a4 a5).log = s.log ∧ (groupError s a1 a2 a3 a4 a5).coll = s.coll ∧ (groupError s a1 a2 a3 a4 a5).pair = s.pair ∧
    (groupError s a1 a2 a3 a4 a5).works = s.works ∧ (groupError s a1 a2 a3 a4 a5).host = s.host ∧ (groupError s a1 a2 a3 a4 a5).pmb = s.pmb ∧
    (groupError s a1 a2 a3 a4 a5).jtag = s.jtag ∧ (groupError s a1 a2 a3 a4 a5).out = s.out ∧ (groupError s a1 a2 a3 a4 a5).books = s.books ∧
    (groupError s a1 a2 a3 a4 a5).boot = s.boot ∧ (groupError s a1 a2 a3 a4 a5).pending = s.pending :=
  have m := groupError_move (Move.refl [.hearths, .free] s) rfl
  ⟨m.cell rfl j, m.slot rfl j, m.spy rfl j, m.capture rfl j, m.group rfl j, m.hk rfl j, m.chan rfl j, m.cone rfl j, m.engine rfl j, m.cluster rfl j, m.link rfl j, m.time rfl, m.log rfl, m.coll rfl, m.pair rfl, m.works rfl, m.host rfl, m.pmb rfl, m.jtag rfl, m.out rfl, m.books rfl, m.boot rfl rfl rfl rfl, m.pending rfl⟩

@[simp] theorem groupEnd_reads {a1 a2} (s : State) (j : Nat) :
    (groupEnd s a1 a2).cell j = s.cell j ∧ (groupEnd s a1 a2).slot j = s.slot j ∧ (groupEnd s a1 a2).spy j = s.spy j ∧
    (groupEnd s a1 a2).capture j = s.capture j ∧ (groupEnd s a1 a2).group j = s.group j ∧ (groupEnd s a1 a2).hk j = s.hk j ∧
    (groupEnd s a1 a2).chan j = s.chan j ∧ (groupEnd s a1 a2).cone j = s.cone j ∧ (groupEnd s a1 a2).engine j = s.engine j ∧
    (groupEnd s a1 a2).cluster j = s.cluster j ∧ (groupEnd s a1 a2).link j = s.link j ∧ (groupEnd s a1 a2).time = s.time ∧
    (groupEnd s a1 a2).pair = s.pair ∧ (groupEnd s a1 a2).works = s.works ∧ (groupEnd s a1 a2).pmb = s.pmb ∧
    (groupEnd s a1 a2).jtag = s.jtag ∧ (groupEnd s a1 a2).out = s.out ∧ (groupEnd s a1 a2).free = s.free ∧
    (groupEnd s a1 a2).books = s.books ∧ (groupEnd s a1 a2).boot = s.boot ∧ (groupEnd s a1 a2).pending = s.pending :=
  have m := groupEnd_move (Move.refl [.hearths, .log, .coll, .host] s) rfl
  ⟨m.cell rfl j, m.slot rfl j, m.spy rfl j, m.capture rfl j, m.group rfl j, m.hk rfl j, m.chan rfl j, m.cone rfl j, m.engine rfl j, m.cluster rfl j, m.link rfl j, m.time rfl, m.pair rfl, m.works rfl, m.pmb rfl, m.jtag rfl, m.out rfl, m.free rfl, m.books rfl, m.boot rfl rfl rfl rfl, m.pending rfl⟩

@[simp] theorem planned_reads {a1 a2 a3 a4} (s : State) (j : Nat) :
    (planned s a1 a2 a3 a4).cell j = s.cell j ∧ (planned s a1 a2 a3 a4).slot j = s.slot j ∧ (planned s a1 a2 a3 a4).spy j = s.spy j ∧
    (planned s a1 a2 a3 a4).capture j = s.capture j ∧ (planned s a1 a2 a3 a4).hk j = s.hk j ∧ (planned s a1 a2 a3 a4).chan j = s.chan j ∧
    (planned s a1 a2 a3 a4).cone j = s.cone j ∧ (planned s a1 a2 a3 a4).engine j = s.engine j ∧
    (planned s a1 a2 a3 a4).cluster j = s.cluster j ∧ (planned s a1 a2 a3 a4).link j = s.link j ∧ (planned s a1 a2 a3 a4).time = s.time ∧
    (planned s a1 a2 a3 a4).log = s.log ∧ (planned s a1 a2 a3 a4).coll = s.coll ∧ (planned s a1 a2 a3 a4).pair = s.pair ∧
    (planned s a1 a2 a3 a4).works = s.works ∧ (planned s a1 a2 a3 a4).host = s.host ∧ (planned s a1 a2 a3 a4).pmb = s.pmb ∧
    (planned s a1 a2 a3 a4).jtag = s.jtag ∧ (planned s a1 a2 a3 a4).out = s.out ∧ (planned s a1 a2 a3 a4).free = s.free ∧
    (planned s a1 a2 a3 a4).books = s.books ∧ (planned s a1 a2 a3 a4).boot = s.boot ∧ (planned s a1 a2 a3 a4).pending = s.pending :=
  have m := planned_move (Move.refl [.hearths, .groups] s) rfl
  ⟨m.cell rfl j, m.slot rfl j, m.spy rfl j, m.capture rfl j, m.hk rfl j, m.chan rfl j, m.cone rfl j, m.engine rfl j, m.cluster rfl j, m.link rfl j, m.time rfl, m.log rfl, m.coll rfl, m.pair rfl, m.works rfl, m.host rfl, m.pmb rfl, m.jtag rfl, m.out rfl, m.free rfl, m.books rfl, m.boot rfl rfl rfl rfl, m.pending rfl⟩

@[simp] theorem applySelect_reads {a1 a2 a3} (s : State) (j : Nat) :
    (applySelect s a1 a2 a3).cell j = s.cell j ∧ (applySelect s a1 a2 a3).slot j = s.slot j ∧ (applySelect s a1 a2 a3).spy j = s.spy j ∧
    (applySelect s a1 a2 a3).capture j = s.capture j ∧ (applySelect s a1 a2 a3).hk j = s.hk j ∧ (applySelect s a1 a2 a3).chan j = s.chan j ∧
    (applySelect s a1 a2 a3).cone j = s.cone j ∧ (applySelect s a1 a2 a3).engine j = s.engine j ∧
    (applySelect s a1 a2 a3).cluster j = s.cluster j ∧ (applySelect s a1 a2 a3).link j = s.link j ∧ (applySelect s a1 a2 a3).time = s.time ∧
    (applySelect s a1 a2 a3).log = s.log ∧ (applySelect s a1 a2 a3).coll = s.coll ∧ (applySelect s a1 a2 a3).pair = s.pair ∧
    (applySelect s a1 a2 a3).works = s.works ∧ (applySelect s a1 a2 a3).host = s.host ∧ (applySelect s a1 a2 a3).pmb = s.pmb ∧
    (applySelect s a1 a2 a3).jtag = s.jtag ∧ (applySelect s a1 a2 a3).out = s.out ∧ (applySelect s a1 a2 a3).free = s.free ∧
    (applySelect s a1 a2 a3).books = s.books ∧ (applySelect s a1 a2 a3).boot = s.boot ∧ (applySelect s a1 a2 a3).pending = s.pending :=
  have m := applySelect_move (Move.refl [.hearths, .groups] s) rfl
  ⟨m.cell rfl j, m.slot rfl j, m.spy rfl j, m.capture rfl j, m.hk rfl j, m.chan rfl j, m.cone rfl j, m.engine rfl j, m.cluster rfl j, m.link rfl j, m.time rfl, m.log rfl, m.coll rfl, m.pair rfl, m.works rfl, m.host rfl, m.pmb rfl, m.jtag rfl, m.out rfl, m.free rfl, m.books rfl, m.boot rfl rfl rfl rfl, m.pending rfl⟩

@[simp] theorem takePending_reads {a1 a2} (s : State) (j : Nat) :
    (takePending s a1 a2).cell j = s.cell j ∧ (takePending s a1 a2).slot j = s.slot j ∧ (takePending s a1 a2).spy j = s.spy j ∧
    (takePending s a1 a2).capture j = s.capture j ∧ (takePending s a1 a2).hk j = s.hk j ∧ (takePending s a1 a2).chan j = s.chan j ∧
    (takePending s a1 a2).cone j = s.cone j ∧ (takePending s a1 a2).engine j = s.engine j ∧ (takePending s a1 a2).cluster j = s.cluster j ∧
    (takePending s a1 a2).link j = s.link j ∧ (takePending s a1 a2).time = s.time ∧ (takePending s a1 a2).log = s.log ∧
    (takePending s a1 a2).coll = s.coll ∧ (takePending s a1 a2).pair = s.pair ∧ (takePending s a1 a2).works = s.works ∧
    (takePending s a1 a2).host = s.host ∧ (takePending s a1 a2).pmb = s.pmb ∧ (takePending s a1 a2).jtag = s.jtag ∧
    (takePending s a1 a2).out = s.out ∧ (takePending s a1 a2).free = s.free ∧ (takePending s a1 a2).books = s.books ∧
    (takePending s a1 a2).boot = s.boot ∧ (takePending s a1 a2).pending = s.pending :=
  have m := takePending_move (Move.refl [.hearths, .groups] s) rfl
  ⟨m.cell rfl j, m.slot rfl j, m.spy rfl j, m.capture rfl j, m.hk rfl j, m.chan rfl j, m.cone rfl j, m.engine rfl j, m.cluster rfl j, m.link rfl j, m.time rfl, m.log rfl, m.coll rfl, m.pair rfl, m.works rfl, m.host rfl, m.pmb rfl, m.jtag rfl, m.out rfl, m.free rfl, m.books rfl, m.boot rfl rfl rfl rfl, m.pending rfl⟩

@[simp] theorem enterSteady_reads {a1 a2} (s : State) (j : Nat) :
    (enterSteady s a1 a2).cell j = s.cell j ∧ (enterSteady s a1 a2).slot j = s.slot j ∧ (enterSteady s a1 a2).spy j = s.spy j ∧
    (enterSteady s a1 a2).capture j = s.capture j ∧ (enterSteady s a1 a2).hk j = s.hk j ∧ (enterSteady s a1 a2).chan j = s.chan j ∧
    (enterSteady s a1 a2).cone j = s.cone j ∧ (enterSteady s a1 a2).engine j = s.engine j ∧ (enterSteady s a1 a2).cluster j = s.cluster j ∧
    (enterSteady s a1 a2).link j = s.link j ∧ (enterSteady s a1 a2).time = s.time ∧ (enterSteady s a1 a2).log = s.log ∧
    (enterSteady s a1 a2).coll = s.coll ∧ (enterSteady s a1 a2).pair = s.pair ∧ (enterSteady s a1 a2).works = s.works ∧
    (enterSteady s a1 a2).host = s.host ∧ (enterSteady s a1 a2).pmb = s.pmb ∧ (enterSteady s a1 a2).jtag = s.jtag ∧
    (enterSteady s a1 a2).out = s.out ∧ (enterSteady s a1 a2).free = s.free ∧ (enterSteady s a1 a2).books = s.books ∧
    (enterSteady s a1 a2).boot = s.boot ∧ (enterSteady s a1 a2).pending = s.pending :=
  have m := enterSteady_move (Move.refl [.hearths, .groups] s) rfl
  ⟨m.cell rfl j, m.slot rfl j, m.spy rfl j, m.capture rfl j, m.hk rfl j, m.chan rfl j, m.cone rfl j, m.engine rfl j, m.cluster rfl j, m.link rfl j, m.time rfl, m.log rfl, m.coll rfl, m.pair rfl, m.works rfl, m.host rfl, m.pmb rfl, m.jtag rfl, m.out rfl, m.free rfl, m.books rfl, m.boot rfl rfl rfl rfl, m.pending rfl⟩

@[simp] theorem dueHandover_reads {a1} (s : State) (j : Nat) :
    (dueHandover s a1).cell j = s.cell j ∧ (dueHandover s a1).hearth j = s.hearth j ∧ (dueHandover s a1).slot j = s.slot j ∧
    (dueHandover s a1).spy j = s.spy j ∧ (dueHandover s a1).capture j = s.capture j ∧ (dueHandover s a1).hk j = s.hk j ∧
    (dueHandover s a1).chan j = s.chan j ∧ (dueHandover s a1).cone j = s.cone j ∧ (dueHandover s a1).engine j = s.engine j ∧
    (dueHandover s a1).cluster j = s.cluster j ∧ (dueHandover s a1).link j = s.link j ∧ (dueHandover s a1).time = s.time ∧
    (dueHandover s a1).log = s.log ∧ (dueHandover s a1).coll = s.coll ∧ (dueHandover s a1).pair = s.pair ∧
    (dueHandover s a1).works = s.works ∧ (dueHandover s a1).host = s.host ∧ (dueHandover s a1).pmb = s.pmb ∧
    (dueHandover s a1).jtag = s.jtag ∧ (dueHandover s a1).out = s.out ∧ (dueHandover s a1).free = s.free ∧
    (dueHandover s a1).books = s.books ∧ (dueHandover s a1).boot = s.boot ∧ (dueHandover s a1).pending = s.pending :=
  have m := dueHandover_move (Move.refl [.groups] s) rfl
  ⟨m.cell rfl j, m.hearth rfl j, m.slot rfl j, m.spy rfl j, m.capture rfl j, m.hk rfl j, m.chan rfl j, m.cone rfl j, m.engine rfl j, m.cluster rfl j, m.link rfl j, m.time rfl, m.log rfl, m.coll rfl, m.pair rfl, m.works rfl, m.host rfl, m.pmb rfl, m.jtag rfl, m.out rfl, m.free rfl, m.books rfl, m.boot rfl rfl rfl rfl, m.pending rfl⟩

@[simp] theorem endShadow_reads {a1 a2} (s : State) (j : Nat) :
    (endShadow s a1 a2).cell j = s.cell j ∧ (endShadow s a1 a2).slot j = s.slot j ∧ (endShadow s a1 a2).spy j = s.spy j ∧
    (endShadow s a1 a2).capture j = s.capture j ∧ (endShadow s a1 a2).hk j = s.hk j ∧ (endShadow s a1 a2).chan j = s.chan j ∧
    (endShadow s a1 a2).cone j = s.cone j ∧ (endShadow s a1 a2).engine j = s.engine j ∧ (endShadow s a1 a2).cluster j = s.cluster j ∧
    (endShadow s a1 a2).link j = s.link j ∧ (endShadow s a1 a2).time = s.time ∧ (endShadow s a1 a2).log = s.log ∧
    (endShadow s a1 a2).coll = s.coll ∧ (endShadow s a1 a2).pair = s.pair ∧ (endShadow s a1 a2).works = s.works ∧
    (endShadow s a1 a2).host = s.host ∧ (endShadow s a1 a2).pmb = s.pmb ∧ (endShadow s a1 a2).jtag = s.jtag ∧
    (endShadow s a1 a2).out = s.out ∧ (endShadow s a1 a2).free = s.free ∧ (endShadow s a1 a2).books = s.books ∧
    (endShadow s a1 a2).boot = s.boot ∧ (endShadow s a1 a2).pending = s.pending :=
  have m := endShadow_move (Move.refl [.hearths, .groups] s) rfl
  ⟨m.cell rfl j, m.slot rfl j, m.spy rfl j, m.capture rfl j, m.hk rfl j, m.chan rfl j, m.cone rfl j, m.engine rfl j, m.cluster rfl j, m.link rfl j, m.time rfl, m.log rfl, m.coll rfl, m.pair rfl, m.works rfl, m.host rfl, m.pmb rfl, m.jtag rfl, m.out rfl, m.free rfl, m.books rfl, m.boot rfl rfl rfl rfl, m.pending rfl⟩

@[simp] theorem pullOutgoing_reads {a1 a2} (s : State) (j : Nat) :
    (pullOutgoing s a1 a2).cell j = s.cell j ∧ (pullOutgoing s a1 a2).hearth j = s.hearth j ∧ (pullOutgoing s a1 a2).slot j = s.slot j ∧
    (pullOutgoing s a1 a2).spy j = s.spy j ∧ (pullOutgoing s a1 a2).capture j = s.capture j ∧ (pullOutgoing s a1 a2).hk j = s.hk j ∧
    (pullOutgoing s a1 a2).chan j = s.chan j ∧ (pullOutgoing s a1 a2).cone j = s.cone j ∧ (pullOutgoing s a1 a2).engine j = s.engine j ∧
    (pullOutgoing s a1 a2).cluster j = s.cluster j ∧ (pullOutgoing s a1 a2).link j = s.link j ∧ (pullOutgoing s a1 a2).time = s.time ∧
    (pullOutgoing s a1 a2).log = s.log ∧ (pullOutgoing s a1 a2).coll = s.coll ∧ (pullOutgoing s a1 a2).pair = s.pair ∧
    (pullOutgoing s a1 a2).works = s.works ∧ (pullOutgoing s a1 a2).host = s.host ∧ (pullOutgoing s a1 a2).pmb = s.pmb ∧
    (pullOutgoing s a1 a2).jtag = s.jtag ∧ (pullOutgoing s a1 a2).out = s.out ∧ (pullOutgoing s a1 a2).free = s.free ∧
    (pullOutgoing s a1 a2).books = s.books ∧ (pullOutgoing s a1 a2).boot = s.boot ∧ (pullOutgoing s a1 a2).pending = s.pending :=
  have m := pullOutgoing_move (Move.refl [.groups] s) rfl
  ⟨m.cell rfl j, m.hearth rfl j, m.slot rfl j, m.spy rfl j, m.capture rfl j, m.hk rfl j, m.chan rfl j, m.cone rfl j, m.engine rfl j, m.cluster rfl j, m.link rfl j, m.time rfl, m.log rfl, m.coll rfl, m.pair rfl, m.works rfl, m.host rfl, m.pmb rfl, m.jtag rfl, m.out rfl, m.free rfl, m.books rfl, m.boot rfl rfl rfl rfl, m.pending rfl⟩

@[simp] theorem loss_reads {a1 a2 a3} (s : State) (j : Nat) :
    (loss s a1 a2 a3).cell j = s.cell j ∧ (loss s a1 a2 a3).slot j = s.slot j ∧ (loss s a1 a2 a3).spy j = s.spy j ∧
    (loss s a1 a2 a3).capture j = s.capture j ∧ (loss s a1 a2 a3).hk j = s.hk j ∧ (loss s a1 a2 a3).chan j = s.chan j ∧
    (loss s a1 a2 a3).cone j = s.cone j ∧ (loss s a1 a2 a3).engine j = s.engine j ∧ (loss s a1 a2 a3).cluster j = s.cluster j ∧
    (loss s a1 a2 a3).link j = s.link j ∧ (loss s a1 a2 a3).time = s.time ∧ (loss s a1 a2 a3).log = s.log ∧ (loss s a1 a2 a3).coll = s.coll ∧
    (loss s a1 a2 a3).pair = s.pair ∧ (loss s a1 a2 a3).works = s.works ∧ (loss s a1 a2 a3).host = s.host ∧ (loss s a1 a2 a3).pmb = s.pmb ∧
    (loss s a1 a2 a3).jtag = s.jtag ∧ (loss s a1 a2 a3).out = s.out ∧ (loss s a1 a2 a3).free = s.free ∧ (loss s a1 a2 a3).books = s.books ∧
    (loss s a1 a2 a3).boot = s.boot ∧ (loss s a1 a2 a3).pending = s.pending :=
  have m := loss_move (Move.refl [.hearths, .groups] s) rfl
  ⟨m.cell rfl j, m.slot rfl j, m.spy rfl j, m.capture rfl j, m.hk rfl j, m.chan rfl j, m.cone rfl j, m.engine rfl j, m.cluster rfl j, m.link rfl j, m.time rfl, m.log rfl, m.coll rfl, m.pair rfl, m.works rfl, m.host rfl, m.pmb rfl, m.jtag rfl, m.out rfl, m.free rfl, m.books rfl, m.boot rfl rfl rfl rfl, m.pending rfl⟩

@[simp] theorem standingCheck_reads {a1 a2} (s : State) (j : Nat) :
    (standingCheck s a1 a2).cell j = s.cell j ∧ (standingCheck s a1 a2).hearth j = s.hearth j ∧ (standingCheck s a1 a2).slot j = s.slot j ∧
    (standingCheck s a1 a2).spy j = s.spy j ∧ (standingCheck s a1 a2).capture j = s.capture j ∧ (standingCheck s a1 a2).hk j = s.hk j ∧
    (standingCheck s a1 a2).chan j = s.chan j ∧ (standingCheck s a1 a2).cone j = s.cone j ∧ (standingCheck s a1 a2).engine j = s.engine j ∧
    (standingCheck s a1 a2).cluster j = s.cluster j ∧ (standingCheck s a1 a2).link j = s.link j ∧ (standingCheck s a1 a2).time = s.time ∧
    (standingCheck s a1 a2).log = s.log ∧ (standingCheck s a1 a2).coll = s.coll ∧ (standingCheck s a1 a2).pair = s.pair ∧
    (standingCheck s a1 a2).works = s.works ∧ (standingCheck s a1 a2).host = s.host ∧ (standingCheck s a1 a2).pmb = s.pmb ∧
    (standingCheck s a1 a2).jtag = s.jtag ∧ (standingCheck s a1 a2).out = s.out ∧ (standingCheck s a1 a2).free = s.free ∧
    (standingCheck s a1 a2).books = s.books ∧ (standingCheck s a1 a2).boot = s.boot ∧ (standingCheck s a1 a2).pending = s.pending :=
  have m := standingCheck_move (Move.refl [.groups] s) rfl
  ⟨m.cell rfl j, m.hearth rfl j, m.slot rfl j, m.spy rfl j, m.capture rfl j, m.hk rfl j, m.chan rfl j, m.cone rfl j, m.engine rfl j, m.cluster rfl j, m.link rfl j, m.time rfl, m.log rfl, m.coll rfl, m.pair rfl, m.works rfl, m.host rfl, m.pmb rfl, m.jtag rfl, m.out rfl, m.free rfl, m.books rfl, m.boot rfl rfl rfl rfl, m.pending rfl⟩

@[simp] theorem makeFeed_reads {a1 a2 a3 a4} (s : State) (j : Nat) :
    (makeFeed s a1 a2 a3 a4).cell j = s.cell j ∧ (makeFeed s a1 a2 a3 a4).slot j = s.slot j ∧ (makeFeed s a1 a2 a3 a4).spy j = s.spy j ∧
    (makeFeed s a1 a2 a3 a4).capture j = s.capture j ∧ (makeFeed s a1 a2 a3 a4).chan j = s.chan j ∧
    (makeFeed s a1 a2 a3 a4).cone j = s.cone j ∧ (makeFeed s a1 a2 a3 a4).engine j = s.engine j ∧
    (makeFeed s a1 a2 a3 a4).cluster j = s.cluster j ∧ (makeFeed s a1 a2 a3 a4).link j = s.link j ∧ (makeFeed s a1 a2 a3 a4).time = s.time ∧
    (makeFeed s a1 a2 a3 a4).log = s.log ∧ (makeFeed s a1 a2 a3 a4).coll = s.coll ∧ (makeFeed s a1 a2 a3 a4).pair = s.pair ∧
    (makeFeed s a1 a2 a3 a4).works = s.works ∧ (makeFeed s a1 a2 a3 a4).host = s.host ∧ (makeFeed s a1 a2 a3 a4).pmb = s.pmb ∧
    (makeFeed s a1 a2 a3 a4).jtag = s.jtag ∧ (makeFeed s a1 a2 a3 a4).out = s.out ∧ (makeFeed s a1 a2 a3 a4).free = s.free ∧
    (makeFeed s a1 a2 a3 a4).books = s.books ∧ (makeFeed s a1 a2 a3 a4).boot = s.boot ∧ (makeFeed s a1 a2 a3 a4).pending = s.pending :=
  have m := makeFeed_move (Move.refl [.hearths, .groups, .hks] s) rfl
  ⟨m.cell rfl j, m.slot rfl j, m.spy rfl j, m.capture rfl j, m.chan rfl j, m.cone rfl j, m.engine rfl j, m.cluster rfl j, m.link rfl j, m.time rfl, m.log rfl, m.coll rfl, m.pair rfl, m.works rfl, m.host rfl, m.pmb rfl, m.jtag rfl, m.out rfl, m.free rfl, m.books rfl, m.boot rfl rfl rfl rfl, m.pending rfl⟩

@[simp] theorem confirmLoss_reads {a1} (s : State) (j : Nat) :
    (confirmLoss a1 s).cell j = s.cell j ∧ (confirmLoss a1 s).slot j = s.slot j ∧ (confirmLoss a1 s).spy j = s.spy j ∧
    (confirmLoss a1 s).capture j = s.capture j ∧ (confirmLoss a1 s).hk j = s.hk j ∧ (confirmLoss a1 s).chan j = s.chan j ∧
    (confirmLoss a1 s).cone j = s.cone j ∧ (confirmLoss a1 s).engine j = s.engine j ∧ (confirmLoss a1 s).cluster j = s.cluster j ∧
    (confirmLoss a1 s).link j = s.link j ∧ (confirmLoss a1 s).time = s.time ∧ (confirmLoss a1 s).log = s.log ∧
    (confirmLoss a1 s).coll = s.coll ∧ (confirmLoss a1 s).pair = s.pair ∧ (confirmLoss a1 s).works = s.works ∧
    (confirmLoss a1 s).host = s.host ∧ (confirmLoss a1 s).pmb = s.pmb ∧ (confirmLoss a1 s).jtag = s.jtag ∧ (confirmLoss a1 s).out = s.out ∧
    (confirmLoss a1 s).free = s.free ∧ (confirmLoss a1 s).books = s.books ∧ (confirmLoss a1 s).boot = s.boot ∧
    (confirmLoss a1 s).pending = s.pending :=
  have m := confirmLoss_move (Move.refl [.hearths, .groups] s) rfl
  ⟨m.cell rfl j, m.slot rfl j, m.spy rfl j, m.capture rfl j, m.hk rfl j, m.chan rfl j, m.cone rfl j, m.engine rfl j, m.cluster rfl j, m.link rfl j, m.time rfl, m.log rfl, m.coll rfl, m.pair rfl, m.works rfl, m.host rfl, m.pmb rfl, m.jtag rfl, m.out rfl, m.free rfl, m.books rfl, m.boot rfl rfl rfl rfl, m.pending rfl⟩

@[simp] theorem feedSelectWrite_reads {a1 a2} (s : State) (j : Nat) :
    (feedSelectWrite s a1 a2).cell j = s.cell j ∧ (feedSelectWrite s a1 a2).slot j = s.slot j ∧ (feedSelectWrite s a1 a2).spy j = s.spy j ∧
    (feedSelectWrite s a1 a2).capture j = s.capture j ∧ (feedSelectWrite s a1 a2).hk j = s.hk j ∧
    (feedSelectWrite s a1 a2).chan j = s.chan j ∧ (feedSelectWrite s a1 a2).cone j = s.cone j ∧
    (feedSelectWrite s a1 a2).engine j = s.engine j ∧ (feedSelectWrite s a1 a2).cluster j = s.cluster j ∧
    (feedSelectWrite s a1 a2).link j = s.link j ∧ (feedSelectWrite s a1 a2).time = s.time ∧ (feedSelectWrite s a1 a2).log = s.log ∧
    (feedSelectWrite s a1 a2).coll = s.coll ∧ (feedSelectWrite s a1 a2).pair = s.pair ∧ (feedSelectWrite s a1 a2).works = s.works ∧
    (feedSelectWrite s a1 a2).host = s.host ∧ (feedSelectWrite s a1 a2).pmb = s.pmb ∧ (feedSelectWrite s a1 a2).jtag = s.jtag ∧
    (feedSelectWrite s a1 a2).out = s.out ∧ (feedSelectWrite s a1 a2).free = s.free ∧ (feedSelectWrite s a1 a2).books = s.books ∧
    (feedSelectWrite s a1 a2).boot = s.boot ∧ (feedSelectWrite s a1 a2).pending = s.pending :=
  have m := feedSelectWrite_move (Move.refl [.hearths, .groups] s) rfl
  ⟨m.cell rfl j, m.slot rfl j, m.spy rfl j, m.capture rfl j, m.hk rfl j, m.chan rfl j, m.cone rfl j, m.engine rfl j, m.cluster rfl j, m.link rfl j, m.time rfl, m.log rfl, m.coll rfl, m.pair rfl, m.works rfl, m.host rfl, m.pmb rfl, m.jtag rfl, m.out rfl, m.free rfl, m.books rfl, m.boot rfl rfl rfl rfl, m.pending rfl⟩

@[simp] theorem feedClearWrite_reads {a1 a2} (s : State) (j : Nat) :
    (feedClearWrite s a1 a2).cell j = s.cell j ∧ (feedClearWrite s a1 a2).slot j = s.slot j ∧ (feedClearWrite s a1 a2).spy j = s.spy j ∧
    (feedClearWrite s a1 a2).capture j = s.capture j ∧ (feedClearWrite s a1 a2).hk j = s.hk j ∧ (feedClearWrite s a1 a2).chan j = s.chan j ∧
    (feedClearWrite s a1 a2).cone j = s.cone j ∧ (feedClearWrite s a1 a2).engine j = s.engine j ∧
    (feedClearWrite s a1 a2).cluster j = s.cluster j ∧ (feedClearWrite s a1 a2).link j = s.link j ∧ (feedClearWrite s a1 a2).time = s.time ∧
    (feedClearWrite s a1 a2).pair = s.pair ∧ (feedClearWrite s a1 a2).works = s.works ∧ (feedClearWrite s a1 a2).pmb = s.pmb ∧
    (feedClearWrite s a1 a2).jtag = s.jtag ∧ (feedClearWrite s a1 a2).out = s.out ∧ (feedClearWrite s a1 a2).free = s.free ∧
    (feedClearWrite s a1 a2).books = s.books ∧ (feedClearWrite s a1 a2).boot = s.boot ∧ (feedClearWrite s a1 a2).pending = s.pending :=
  have m := feedClearWrite_move (Move.refl [.hearths, .groups, .log, .coll, .host] s) rfl
  ⟨m.cell rfl j, m.slot rfl j, m.spy rfl j, m.capture rfl j, m.hk rfl j, m.chan rfl j, m.cone rfl j, m.engine rfl j, m.cluster rfl j, m.link rfl j, m.time rfl, m.pair rfl, m.works rfl, m.pmb rfl, m.jtag rfl, m.out rfl, m.free rfl, m.books rfl, m.boot rfl rfl rfl rfl, m.pending rfl⟩

@[simp] theorem changeSpy_reads {a1 a2 a3 a4 a5 a6} (s : State) (j : Nat) :
    (changeSpy s a1 a2 a3 a4 a5 a6).cell j = s.cell j ∧ (changeSpy s a1 a2 a3 a4 a5 a6).slot j = s.slot j ∧
    (changeSpy s a1 a2 a3 a4 a5 a6).chan j = s.chan j ∧ (changeSpy s a1 a2 a3 a4 a5 a6).cone j = s.cone j ∧
    (changeSpy s a1 a2 a3 a4 a5 a6).engine j = s.engine j ∧ (changeSpy s a1 a2 a3 a4 a5 a6).cluster j = s.cluster j ∧
    (changeSpy s a1 a2 a3 a4 a5 a6).link j = s.link j ∧ (changeSpy s a1 a2 a3 a4 a5 a6).time = s.time ∧
    (changeSpy s a1 a2 a3 a4 a5 a6).log = s.log ∧ (changeSpy s a1 a2 a3 a4 a5 a6).coll = s.coll ∧
    (changeSpy s a1 a2 a3 a4 a5 a6).pair = s.pair ∧ (changeSpy s a1 a2 a3 a4 a5 a6).works = s.works ∧
    (changeSpy s a1 a2 a3 a4 a5 a6).host = s.host ∧ (changeSpy s a1 a2 a3 a4 a5 a6).pmb = s.pmb ∧
    (changeSpy s a1 a2 a3 a4 a5 a6).jtag = s.jtag ∧ (changeSpy s a1 a2 a3 a4 a5 a6).out = s.out ∧
    (changeSpy s a1 a2 a3 a4 a5 a6).free = s.free ∧ (changeSpy s a1 a2 a3 a4 a5 a6).books = s.books ∧
    (changeSpy s a1 a2 a3 a4 a5 a6).boot = s.boot ∧ (changeSpy s a1 a2 a3 a4 a5 a6).pending = s.pending :=
  have m := changeSpy_move (Move.refl [.hearths, .spies, .captures, .groups, .hks] s) rfl
  ⟨m.cell rfl j, m.slot rfl j, m.chan rfl j, m.cone rfl j, m.engine rfl j, m.cluster rfl j, m.link rfl j, m.time rfl, m.log rfl, m.coll rfl, m.pair rfl, m.works rfl, m.host rfl, m.pmb rfl, m.jtag rfl, m.out rfl, m.free rfl, m.books rfl, m.boot rfl rfl rfl rfl, m.pending rfl⟩

@[simp] theorem spyStart_reads {a1} (s : State) (j : Nat) :
    (spyStart s a1).cell j = s.cell j ∧ (spyStart s a1).hearth j = s.hearth j ∧ (spyStart s a1).slot j = s.slot j ∧
    (spyStart s a1).capture j = s.capture j ∧ (spyStart s a1).group j = s.group j ∧ (spyStart s a1).hk j = s.hk j ∧
    (spyStart s a1).chan j = s.chan j ∧ (spyStart s a1).cone j = s.cone j ∧ (spyStart s a1).engine j = s.engine j ∧
    (spyStart s a1).cluster j = s.cluster j ∧ (spyStart s a1).link j = s.link j ∧ (spyStart s a1).time = s.time ∧
    (spyStart s a1).log = s.log ∧ (spyStart s a1).coll = s.coll ∧ (spyStart s a1).pair = s.pair ∧ (spyStart s a1).works = s.works ∧
    (spyStart s a1).host = s.host ∧ (spyStart s a1).pmb = s.pmb ∧ (spyStart s a1).jtag = s.jtag ∧ (spyStart s a1).out = s.out ∧
    (spyStart s a1).free = s.free ∧ (spyStart s a1).books = s.books ∧ (spyStart s a1).boot = s.boot ∧ (spyStart s a1).pending = s.pending :=
  have m := spyStart_move (Move.refl [.spies] s) rfl
  ⟨m.cell rfl j, m.hearth rfl j, m.slot rfl j, m.capture rfl j, m.group rfl j, m.hk rfl j, m.chan rfl j, m.cone rfl j, m.engine rfl j, m.cluster rfl j, m.link rfl j, m.time rfl, m.log rfl, m.coll rfl, m.pair rfl, m.works rfl, m.host rfl, m.pmb rfl, m.jtag rfl, m.out rfl, m.free rfl, m.books rfl, m.boot rfl rfl rfl rfl, m.pending rfl⟩

@[simp] theorem crossWarning_reads {a1 a2 a3 a4 a5} (s : State) (j : Nat) :
    (crossWarning s a1 a2 a3 a4 a5).cell j = s.cell j ∧ (crossWarning s a1 a2 a3 a4 a5).slot j = s.slot j ∧
    (crossWarning s a1 a2 a3 a4 a5).spy j = s.spy j ∧ (crossWarning s a1 a2 a3 a4 a5).capture j = s.capture j ∧
    (crossWarning s a1 a2 a3 a4 a5).hk j = s.hk j ∧ (crossWarning s a1 a2 a3 a4 a5).chan j = s.chan j ∧
    (crossWarning s a1 a2 a3 a4 a5).cone j = s.cone j ∧ (crossWarning s a1 a2 a3 a4 a5).engine j = s.engine j ∧
    (crossWarning s a1 a2 a3 a4 a5).cluster j = s.cluster j ∧ (crossWarning s a1 a2 a3 a4 a5).link j = s.link j ∧
    (crossWarning s a1 a2 a3 a4 a5).time = s.time ∧ (crossWarning s a1 a2 a3 a4 a5).log = s.log ∧
    (crossWarning s a1 a2 a3 a4 a5).coll = s.coll ∧ (crossWarning s a1 a2 a3 a4 a5).pair = s.pair ∧
    (crossWarning s a1 a2 a3 a4 a5).works = s.works ∧ (crossWarning s a1 a2 a3 a4 a5).host = s.host ∧
    (crossWarning s a1 a2 a3 a4 a5).pmb = s.pmb ∧ (crossWarning s a1 a2 a3 a4 a5).jtag = s.jtag ∧
    (crossWarning s a1 a2 a3 a4 a5).out = s.out ∧ (crossWarning s a1 a2 a3 a4 a5).free = s.free ∧
    (crossWarning s a1 a2 a3 a4 a5).books = s.books ∧ (crossWarning s a1 a2 a3 a4 a5).boot = s.boot ∧
    (crossWarning s a1 a2 a3 a4 a5).pending = s.pending :=
  have m := crossWarning_move (Move.refl [.hearths, .groups] s) rfl
  ⟨m.cell rfl j, m.slot rfl j, m.spy rfl j, m.capture rfl j, m.hk rfl j, m.chan rfl j, m.cone rfl j, m.engine rfl j, m.cluster rfl j, m.link rfl j, m.time rfl, m.log rfl, m.coll rfl, m.pair rfl, m.works rfl, m.host rfl, m.pmb rfl, m.jtag rfl, m.out rfl, m.free rfl, m.books rfl, m.boot rfl rfl rfl rfl, m.pending rfl⟩

@[simp] theorem throttleEnd_reads {a1} (s : State) (j : Nat) :
    (throttleEnd s a1).cell j = s.cell j ∧ (throttleEnd s a1).slot j = s.slot j ∧ (throttleEnd s a1).capture j = s.capture j ∧
    (throttleEnd s a1).group j = s.group j ∧ (throttleEnd s a1).hk j = s.hk j ∧ (throttleEnd s a1).chan j = s.chan j ∧
    (throttleEnd s a1).cone j = s.cone j ∧ (throttleEnd s a1).engine j = s.engine j ∧ (throttleEnd s a1).cluster j = s.cluster j ∧
    (throttleEnd s a1).link j = s.link j ∧ (throttleEnd s a1).time = s.time ∧ (throttleEnd s a1).log = s.log ∧
    (throttleEnd s a1).coll = s.coll ∧ (throttleEnd s a1).pair = s.pair ∧ (throttleEnd s a1).works = s.works ∧
    (throttleEnd s a1).host = s.host ∧ (throttleEnd s a1).pmb = s.pmb ∧ (throttleEnd s a1).jtag = s.jtag ∧ (throttleEnd s a1).out = s.out ∧
    (throttleEnd s a1).free = s.free ∧ (throttleEnd s a1).books = s.books ∧ (throttleEnd s a1).boot = s.boot ∧
    (throttleEnd s a1).pending = s.pending :=
  have m := throttleEnd_move (Move.refl [.hearths, .spies] s) rfl
  ⟨m.cell rfl j, m.slot rfl j, m.capture rfl j, m.group rfl j, m.hk rfl j, m.chan rfl j, m.cone rfl j, m.engine rfl j, m.cluster rfl j, m.link rfl j, m.time rfl, m.log rfl, m.coll rfl, m.pair rfl, m.works rfl, m.host rfl, m.pmb rfl, m.jtag rfl, m.out rfl, m.free rfl, m.books rfl, m.boot rfl rfl rfl rfl, m.pending rfl⟩

@[simp] theorem dropFilters_reads {a1} (s : State) (j : Nat) :
    (dropFilters s a1).cell j = s.cell j ∧ (dropFilters s a1).hearth j = s.hearth j ∧ (dropFilters s a1).slot j = s.slot j ∧
    (dropFilters s a1).capture j = s.capture j ∧ (dropFilters s a1).group j = s.group j ∧ (dropFilters s a1).hk j = s.hk j ∧
    (dropFilters s a1).chan j = s.chan j ∧ (dropFilters s a1).cone j = s.cone j ∧ (dropFilters s a1).engine j = s.engine j ∧
    (dropFilters s a1).cluster j = s.cluster j ∧ (dropFilters s a1).link j = s.link j ∧ (dropFilters s a1).time = s.time ∧
    (dropFilters s a1).log = s.log ∧ (dropFilters s a1).coll = s.coll ∧ (dropFilters s a1).pair = s.pair ∧
    (dropFilters s a1).works = s.works ∧ (dropFilters s a1).host = s.host ∧ (dropFilters s a1).pmb = s.pmb ∧
    (dropFilters s a1).jtag = s.jtag ∧ (dropFilters s a1).out = s.out ∧ (dropFilters s a1).free = s.free ∧
    (dropFilters s a1).books = s.books ∧ (dropFilters s a1).boot = s.boot ∧ (dropFilters s a1).pending = s.pending :=
  have m := dropFilters_move (Move.refl [.spies] s) rfl
  ⟨m.cell rfl j, m.hearth rfl j, m.slot rfl j, m.capture rfl j, m.group rfl j, m.hk rfl j, m.chan rfl j, m.cone rfl j, m.engine rfl j, m.cluster rfl j, m.link rfl j, m.time rfl, m.log rfl, m.coll rfl, m.pair rfl, m.works rfl, m.host rfl, m.pmb rfl, m.jtag rfl, m.out rfl, m.free rfl, m.books rfl, m.boot rfl rfl rfl rfl, m.pending rfl⟩

@[simp] theorem captureRead_reads {a1 a2 a3} (s : State) (j : Nat) :
    (captureRead s a1 a2 a3).cell j = s.cell j ∧ (captureRead s a1 a2 a3).hearth j = s.hearth j ∧ (captureRead s a1 a2 a3).slot j = s.slot j ∧
    (captureRead s a1 a2 a3).spy j = s.spy j ∧ (captureRead s a1 a2 a3).group j = s.group j ∧ (captureRead s a1 a2 a3).hk j = s.hk j ∧
    (captureRead s a1 a2 a3).chan j = s.chan j ∧ (captureRead s a1 a2 a3).cone j = s.cone j ∧ (captureRead s a1 a2 a3).engine j = s.engine j ∧
    (captureRead s a1 a2 a3).cluster j = s.cluster j ∧ (captureRead s a1 a2 a3).link j = s.link j ∧ (captureRead s a1 a2 a3).time = s.time ∧
    (captureRead s a1 a2 a3).log = s.log ∧ (captureRead s a1 a2 a3).coll = s.coll ∧ (captureRead s a1 a2 a3).pair = s.pair ∧
    (captureRead s a1 a2 a3).works = s.works ∧ (captureRead s a1 a2 a3).host = s.host ∧ (captureRead s a1 a2 a3).pmb = s.pmb ∧
    (captureRead s a1 a2 a3).jtag = s.jtag ∧ (captureRead s a1 a2 a3).out = s.out ∧ (captureRead s a1 a2 a3).free = s.free ∧
    (captureRead s a1 a2 a3).books = s.books ∧ (captureRead s a1 a2 a3).boot = s.boot ∧ (captureRead s a1 a2 a3).pending = s.pending :=
  have m := captureRead_move (Move.refl [.captures] s) rfl
  ⟨m.cell rfl j, m.hearth rfl j, m.slot rfl j, m.spy rfl j, m.group rfl j, m.hk rfl j, m.chan rfl j, m.cone rfl j, m.engine rfl j, m.cluster rfl j, m.link rfl j, m.time rfl, m.log rfl, m.coll rfl, m.pair rfl, m.works rfl, m.host rfl, m.pmb rfl, m.jtag rfl, m.out rfl, m.free rfl, m.books rfl, m.boot rfl rfl rfl rfl, m.pending rfl⟩

@[simp] theorem requestWake_reads {a1 a2} (s : State) (j : Nat) :
    (requestWake s a1 a2).cell j = s.cell j ∧ (requestWake s a1 a2).hearth j = s.hearth j ∧ (requestWake s a1 a2).slot j = s.slot j ∧
    (requestWake s a1 a2).spy j = s.spy j ∧ (requestWake s a1 a2).capture j = s.capture j ∧ (requestWake s a1 a2).group j = s.group j ∧
    (requestWake s a1 a2).hk j = s.hk j ∧ (requestWake s a1 a2).chan j = s.chan j ∧ (requestWake s a1 a2).cone j = s.cone j ∧
    (requestWake s a1 a2).engine j = s.engine j ∧ (requestWake s a1 a2).cluster j = s.cluster j ∧ (requestWake s a1 a2).link j = s.link j ∧
    (requestWake s a1 a2).time = s.time ∧ (requestWake s a1 a2).log = s.log ∧ (requestWake s a1 a2).coll = s.coll ∧
    (requestWake s a1 a2).pair = s.pair ∧ (requestWake s a1 a2).works = s.works ∧ (requestWake s a1 a2).pmb = s.pmb ∧
    (requestWake s a1 a2).jtag = s.jtag ∧ (requestWake s a1 a2).out = s.out ∧ (requestWake s a1 a2).free = s.free ∧
    (requestWake s a1 a2).books = s.books ∧ (requestWake s a1 a2).pending = s.pending :=
  have m := requestWake_move (Move.refl [.boot, .host] s) rfl
  ⟨m.cell rfl j, m.hearth rfl j, m.slot rfl j, m.spy rfl j, m.capture rfl j, m.group rfl j, m.hk rfl j, m.chan rfl j, m.cone rfl j, m.engine rfl j, m.cluster rfl j, m.link rfl j, m.time rfl, m.log rfl, m.coll rfl, m.pair rfl, m.works rfl, m.pmb rfl, m.jtag rfl, m.out rfl, m.free rfl, m.books rfl, m.pending rfl⟩

@[simp] theorem seatChannels_reads {a1 a2} (s : State) (j : Nat) :
    (seatChannels s a1 a2).slot j = s.slot j ∧ (seatChannels s a1 a2).spy j = s.spy j ∧ (seatChannels s a1 a2).capture j = s.capture j ∧
    (seatChannels s a1 a2).group j = s.group j ∧ (seatChannels s a1 a2).cone j = s.cone j ∧ (seatChannels s a1 a2).engine j = s.engine j ∧
    (seatChannels s a1 a2).cluster j = s.cluster j ∧ (seatChannels s a1 a2).link j = s.link j ∧ (seatChannels s a1 a2).time = s.time ∧
    (seatChannels s a1 a2).log = s.log ∧ (seatChannels s a1 a2).coll = s.coll ∧ (seatChannels s a1 a2).pair = s.pair ∧
    (seatChannels s a1 a2).works = s.works ∧ (seatChannels s a1 a2).host = s.host ∧ (seatChannels s a1 a2).pmb = s.pmb ∧
    (seatChannels s a1 a2).jtag = s.jtag ∧ (seatChannels s a1 a2).out = s.out ∧ (seatChannels s a1 a2).free = s.free ∧
    (seatChannels s a1 a2).books = s.books ∧ (seatChannels s a1 a2).boot = s.boot ∧ (seatChannels s a1 a2).pending = s.pending :=
  have m := seatChannels_move (Move.refl [.cells, .hearths, .hks, .chans] s) rfl
  ⟨m.slot rfl j, m.spy rfl j, m.capture rfl j, m.group rfl j, m.cone rfl j, m.engine rfl j, m.cluster rfl j, m.link rfl j, m.time rfl, m.log rfl, m.coll rfl, m.pair rfl, m.works rfl, m.host rfl, m.pmb rfl, m.jtag rfl, m.out rfl, m.free rfl, m.books rfl, m.boot rfl rfl rfl rfl, m.pending rfl⟩

@[simp] theorem stampSeat_reads {a1 a2} (s : State) (j : Nat) :
    (stampSeat s a1 a2).cell j = s.cell j ∧ (stampSeat s a1 a2).slot j = s.slot j ∧ (stampSeat s a1 a2).spy j = s.spy j ∧
    (stampSeat s a1 a2).capture j = s.capture j ∧ (stampSeat s a1 a2).group j = s.group j ∧ (stampSeat s a1 a2).hk j = s.hk j ∧
    (stampSeat s a1 a2).chan j = s.chan j ∧ (stampSeat s a1 a2).cone j = s.cone j ∧ (stampSeat s a1 a2).engine j = s.engine j ∧
    (stampSeat s a1 a2).cluster j = s.cluster j ∧ (stampSeat s a1 a2).link j = s.link j ∧ (stampSeat s a1 a2).time = s.time ∧
    (stampSeat s a1 a2).log = s.log ∧ (stampSeat s a1 a2).coll = s.coll ∧ (stampSeat s a1 a2).pair = s.pair ∧
    (stampSeat s a1 a2).works = s.works ∧ (stampSeat s a1 a2).host = s.host ∧ (stampSeat s a1 a2).pmb = s.pmb ∧
    (stampSeat s a1 a2).jtag = s.jtag ∧ (stampSeat s a1 a2).out = s.out ∧ (stampSeat s a1 a2).free = s.free ∧
    (stampSeat s a1 a2).books = s.books ∧ (stampSeat s a1 a2).boot = s.boot ∧ (stampSeat s a1 a2).pending = s.pending :=
  have m := stampSeat_move (Move.refl [.hearths] s) rfl
  ⟨m.cell rfl j, m.slot rfl j, m.spy rfl j, m.capture rfl j, m.group rfl j, m.hk rfl j, m.chan rfl j, m.cone rfl j, m.engine rfl j, m.cluster rfl j, m.link rfl j, m.time rfl, m.log rfl, m.coll rfl, m.pair rfl, m.works rfl, m.host rfl, m.pmb rfl, m.jtag rfl, m.out rfl, m.free rfl, m.books rfl, m.boot rfl rfl rfl rfl, m.pending rfl⟩

@[simp] theorem unhost_reads {a1 a2} (s : State) (j : Nat) :
    (unhost s a1 a2).cell j = s.cell j ∧ (unhost s a1 a2).hearth j = s.hearth j ∧ (unhost s a1 a2).slot j = s.slot j ∧
    (unhost s a1 a2).spy j = s.spy j ∧ (unhost s a1 a2).capture j = s.capture j ∧ (unhost s a1 a2).group j = s.group j ∧
    (unhost s a1 a2).hk j = s.hk j ∧ (unhost s a1 a2).cone j = s.cone j ∧ (unhost s a1 a2).engine j = s.engine j ∧
    (unhost s a1 a2).cluster j = s.cluster j ∧ (unhost s a1 a2).link j = s.link j ∧ (unhost s a1 a2).time = s.time ∧
    (unhost s a1 a2).pair = s.pair ∧ (unhost s a1 a2).works = s.works ∧ (unhost s a1 a2).pmb = s.pmb ∧ (unhost s a1 a2).jtag = s.jtag ∧
    (unhost s a1 a2).free = s.free ∧ (unhost s a1 a2).books = s.books ∧ (unhost s a1 a2).pending = s.pending :=
  have m := unhost_move (Move.refl [.chans, .boot, .log, .coll, .host, .out] s) rfl
  ⟨m.cell rfl j, m.hearth rfl j, m.slot rfl j, m.spy rfl j, m.capture rfl j, m.group rfl j, m.hk rfl j, m.cone rfl j, m.engine rfl j, m.cluster rfl j, m.link rfl j, m.time rfl, m.pair rfl, m.works rfl, m.pmb rfl, m.jtag rfl, m.free rfl, m.books rfl, m.pending rfl⟩

@[simp] theorem engineDown_reads {a1} (s : State) (j : Nat) :
    (engineDown s a1).cell j = s.cell j ∧ (engineDown s a1).hearth j = s.hearth j ∧ (engineDown s a1).slot j = s.slot j ∧
    (engineDown s a1).spy j = s.spy j ∧ (engineDown s a1).capture j = s.capture j ∧ (engineDown s a1).group j = s.group j ∧
    (engineDown s a1).hk j = s.hk j ∧ (engineDown s a1).cone j = s.cone j ∧ (engineDown s a1).cluster j = s.cluster j ∧
    (engineDown s a1).link j = s.link j ∧ (engineDown s a1).time = s.time ∧ (engineDown s a1).pair = s.pair ∧
    (engineDown s a1).works = s.works ∧ (engineDown s a1).pmb = s.pmb ∧ (engineDown s a1).jtag = s.jtag ∧ (engineDown s a1).free = s.free ∧
    (engineDown s a1).books = s.books ∧ (engineDown s a1).pending = s.pending :=
  have m := engineDown_move (Move.refl [.chans, .engines, .boot, .log, .coll, .host, .out] s) rfl
  ⟨m.cell rfl j, m.hearth rfl j, m.slot rfl j, m.spy rfl j, m.capture rfl j, m.group rfl j, m.hk rfl j, m.cone rfl j, m.cluster rfl j, m.link rfl j, m.time rfl, m.pair rfl, m.works rfl, m.pmb rfl, m.jtag rfl, m.free rfl, m.books rfl, m.pending rfl⟩

@[simp] theorem failEngine_reads {a1 a2} (s : State) (j : Nat) :
    (failEngine s a1 a2).cell j = s.cell j ∧ (failEngine s a1 a2).hearth j = s.hearth j ∧ (failEngine s a1 a2).slot j = s.slot j ∧
    (failEngine s a1 a2).spy j = s.spy j ∧ (failEngine s a1 a2).capture j = s.capture j ∧ (failEngine s a1 a2).group j = s.group j ∧
    (failEngine s a1 a2).hk j = s.hk j ∧ (failEngine s a1 a2).cone j = s.cone j ∧ (failEngine s a1 a2).cluster j = s.cluster j ∧
    (failEngine s a1 a2).link j = s.link j ∧ (failEngine s a1 a2).time = s.time ∧ (failEngine s a1 a2).pair = s.pair ∧
    (failEngine s a1 a2).works = s.works ∧ (failEngine s a1 a2).pmb = s.pmb ∧ (failEngine s a1 a2).jtag = s.jtag ∧
    (failEngine s a1 a2).free = s.free ∧ (failEngine s a1 a2).books = s.books ∧ (failEngine s a1 a2).pending = s.pending :=
  have m := failEngine_move (Move.refl [.chans, .engines, .boot, .log, .coll, .host, .out] s) rfl
  ⟨m.cell rfl j, m.hearth rfl j, m.slot rfl j, m.spy rfl j, m.capture rfl j, m.group rfl j, m.hk rfl j, m.cone rfl j, m.cluster rfl j, m.link rfl j, m.time rfl, m.pair rfl, m.works rfl, m.pmb rfl, m.jtag rfl, m.free rfl, m.books rfl, m.pending rfl⟩

@[simp] theorem mismatch_reads {a1 a2 a3} (s : State) (j : Nat) :
    (mismatch s a1 a2 a3).cell j = s.cell j ∧ (mismatch s a1 a2 a3).hearth j = s.hearth j ∧ (mismatch s a1 a2 a3).slot j = s.slot j ∧
    (mismatch s a1 a2 a3).spy j = s.spy j ∧ (mismatch s a1 a2 a3).capture j = s.capture j ∧ (mismatch s a1 a2 a3).group j = s.group j ∧
    (mismatch s a1 a2 a3).hk j = s.hk j ∧ (mismatch s a1 a2 a3).cone j = s.cone j ∧ (mismatch s a1 a2 a3).engine j = s.engine j ∧
    (mismatch s a1 a2 a3).cluster j = s.cluster j ∧ (mismatch s a1 a2 a3).link j = s.link j ∧ (mismatch s a1 a2 a3).time = s.time ∧
    (mismatch s a1 a2 a3).pair = s.pair ∧ (mismatch s a1 a2 a3).works = s.works ∧ (mismatch s a1 a2 a3).pmb = s.pmb ∧
    (mismatch s a1 a2 a3).jtag = s.jtag ∧ (mismatch s a1 a2 a3).free = s.free ∧ (mismatch s a1 a2 a3).books = s.books ∧
    (mismatch s a1 a2 a3).pending = s.pending :=
  have m := mismatch_move (Move.refl [.chans, .boot, .log, .coll, .host, .out] s) rfl
  ⟨m.cell rfl j, m.hearth rfl j, m.slot rfl j, m.spy rfl j, m.capture rfl j, m.group rfl j, m.hk rfl j, m.cone rfl j, m.engine rfl j, m.cluster rfl j, m.link rfl j, m.time rfl, m.pair rfl, m.works rfl, m.pmb rfl, m.jtag rfl, m.free rfl, m.books rfl, m.pending rfl⟩

@[simp] theorem sendCmd_reads {a1 a2} (s : State) (j : Nat) :
    (sendCmd s a1 a2).cell j = s.cell j ∧ (sendCmd s a1 a2).hearth j = s.hearth j ∧ (sendCmd s a1 a2).slot j = s.slot j ∧
    (sendCmd s a1 a2).spy j = s.spy j ∧ (sendCmd s a1 a2).capture j = s.capture j ∧ (sendCmd s a1 a2).group j = s.group j ∧
    (sendCmd s a1 a2).hk j = s.hk j ∧ (sendCmd s a1 a2).chan j = s.chan j ∧ (sendCmd s a1 a2).cone j = s.cone j ∧
    (sendCmd s a1 a2).engine j = s.engine j ∧ (sendCmd s a1 a2).cluster j = s.cluster j ∧ (sendCmd s a1 a2).time = s.time ∧
    (sendCmd s a1 a2).log = s.log ∧ (sendCmd s a1 a2).coll = s.coll ∧ (sendCmd s a1 a2).pair = s.pair ∧ (sendCmd s a1 a2).works = s.works ∧
    (sendCmd s a1 a2).host = s.host ∧ (sendCmd s a1 a2).pmb = s.pmb ∧ (sendCmd s a1 a2).jtag = s.jtag ∧ (sendCmd s a1 a2).free = s.free ∧
    (sendCmd s a1 a2).books = s.books ∧ (sendCmd s a1 a2).boot = s.boot ∧ (sendCmd s a1 a2).pending = s.pending :=
  have m := sendCmd_move (Move.refl [.links, .out] s) rfl
  ⟨m.cell rfl j, m.hearth rfl j, m.slot rfl j, m.spy rfl j, m.capture rfl j, m.group rfl j, m.hk rfl j, m.chan rfl j, m.cone rfl j, m.engine rfl j, m.cluster rfl j, m.time rfl, m.log rfl, m.coll rfl, m.pair rfl, m.works rfl, m.host rfl, m.pmb rfl, m.jtag rfl, m.free rfl, m.books rfl, m.boot rfl rfl rfl rfl, m.pending rfl⟩

@[simp] theorem sitterCmd_reads {a1 a2} (s : State) (j : Nat) :
    (sitterCmd s a1 a2).slot j = s.slot j ∧ (sitterCmd s a1 a2).spy j = s.spy j ∧ (sitterCmd s a1 a2).capture j = s.capture j ∧
    (sitterCmd s a1 a2).group j = s.group j ∧ (sitterCmd s a1 a2).cone j = s.cone j ∧ (sitterCmd s a1 a2).engine j = s.engine j ∧
    (sitterCmd s a1 a2).cluster j = s.cluster j ∧ (sitterCmd s a1 a2).time = s.time ∧ (sitterCmd s a1 a2).log = s.log ∧
    (sitterCmd s a1 a2).coll = s.coll ∧ (sitterCmd s a1 a2).pair = s.pair ∧ (sitterCmd s a1 a2).works = s.works ∧
    (sitterCmd s a1 a2).host = s.host ∧ (sitterCmd s a1 a2).pmb = s.pmb ∧ (sitterCmd s a1 a2).jtag = s.jtag ∧
    (sitterCmd s a1 a2).free = s.free ∧ (sitterCmd s a1 a2).books = s.books ∧ (sitterCmd s a1 a2).boot = s.boot ∧
    (sitterCmd s a1 a2).pending = s.pending :=
  have m := sitterCmd_move (Move.refl [.cells, .hearths, .hks, .chans, .links, .out] s) rfl
  ⟨m.slot rfl j, m.spy rfl j, m.capture rfl j, m.group rfl j, m.cone rfl j, m.engine rfl j, m.cluster rfl j, m.time rfl, m.log rfl, m.coll rfl, m.pair rfl, m.works rfl, m.host rfl, m.pmb rfl, m.jtag rfl, m.free rfl, m.books rfl, m.boot rfl rfl rfl rfl, m.pending rfl⟩

@[simp] theorem sitterTrip_reads {a1 a2 a3} (s : State) (j : Nat) :
    (sitterTrip s a1 a2 a3).slot j = s.slot j ∧ (sitterTrip s a1 a2 a3).spy j = s.spy j ∧ (sitterTrip s a1 a2 a3).capture j = s.capture j ∧
    (sitterTrip s a1 a2 a3).group j = s.group j ∧ (sitterTrip s a1 a2 a3).cone j = s.cone j ∧ (sitterTrip s a1 a2 a3).engine j = s.engine j ∧
    (sitterTrip s a1 a2 a3).cluster j = s.cluster j ∧ (sitterTrip s a1 a2 a3).time = s.time ∧ (sitterTrip s a1 a2 a3).log = s.log ∧
    (sitterTrip s a1 a2 a3).coll = s.coll ∧ (sitterTrip s a1 a2 a3).pair = s.pair ∧ (sitterTrip s a1 a2 a3).works = s.works ∧
    (sitterTrip s a1 a2 a3).host = s.host ∧ (sitterTrip s a1 a2 a3).pmb = s.pmb ∧ (sitterTrip s a1 a2 a3).jtag = s.jtag ∧
    (sitterTrip s a1 a2 a3).free = s.free ∧ (sitterTrip s a1 a2 a3).books = s.books ∧ (sitterTrip s a1 a2 a3).boot = s.boot ∧
    (sitterTrip s a1 a2 a3).pending = s.pending :=
  have m := sitterTrip_move (Move.refl [.cells, .hearths, .hks, .chans, .links, .out] s) rfl
  ⟨m.slot rfl j, m.spy rfl j, m.capture rfl j, m.group rfl j, m.cone rfl j, m.engine rfl j, m.cluster rfl j, m.time rfl, m.log rfl, m.coll rfl, m.pair rfl, m.works rfl, m.host rfl, m.pmb rfl, m.jtag rfl, m.free rfl, m.books rfl, m.boot rfl rfl rfl rfl, m.pending rfl⟩

@[simp] theorem sitterOut_reads {a1 a2} (s : State) (j : Nat) :
    (sitterOut s a1 a2).slot j = s.slot j ∧ (sitterOut s a1 a2).spy j = s.spy j ∧ (sitterOut s a1 a2).capture j = s.capture j ∧
    (sitterOut s a1 a2).group j = s.group j ∧ (sitterOut s a1 a2).cone j = s.cone j ∧ (sitterOut s a1 a2).engine j = s.engine j ∧
    (sitterOut s a1 a2).cluster j = s.cluster j ∧ (sitterOut s a1 a2).time = s.time ∧ (sitterOut s a1 a2).log = s.log ∧
    (sitterOut s a1 a2).coll = s.coll ∧ (sitterOut s a1 a2).pair = s.pair ∧ (sitterOut s a1 a2).works = s.works ∧
    (sitterOut s a1 a2).host = s.host ∧ (sitterOut s a1 a2).pmb = s.pmb ∧ (sitterOut s a1 a2).jtag = s.jtag ∧
    (sitterOut s a1 a2).free = s.free ∧ (sitterOut s a1 a2).books = s.books ∧ (sitterOut s a1 a2).boot = s.boot ∧
    (sitterOut s a1 a2).pending = s.pending :=
  have m := sitterOut_move (Move.refl [.cells, .hearths, .hks, .chans, .links, .out] s) rfl
  ⟨m.slot rfl j, m.spy rfl j, m.capture rfl j, m.group rfl j, m.cone rfl j, m.engine rfl j, m.cluster rfl j, m.time rfl, m.log rfl, m.coll rfl, m.pair rfl, m.works rfl, m.host rfl, m.pmb rfl, m.jtag rfl, m.free rfl, m.books rfl, m.boot rfl rfl rfl rfl, m.pending rfl⟩

@[simp] theorem gateOffDecision_reads {a1 a2} (s : State) (j : Nat) :
    (gateOffDecision s a1 a2).slot j = s.slot j ∧ (gateOffDecision s a1 a2).spy j = s.spy j ∧
    (gateOffDecision s a1 a2).capture j = s.capture j ∧ (gateOffDecision s a1 a2).group j = s.group j ∧
    (gateOffDecision s a1 a2).cone j = s.cone j ∧ (gateOffDecision s a1 a2).engine j = s.engine j ∧
    (gateOffDecision s a1 a2).cluster j = s.cluster j ∧ (gateOffDecision s a1 a2).time = s.time ∧ (gateOffDecision s a1 a2).log = s.log ∧
    (gateOffDecision s a1 a2).coll = s.coll ∧ (gateOffDecision s a1 a2).pair = s.pair ∧ (gateOffDecision s a1 a2).works = s.works ∧
    (gateOffDecision s a1 a2).host = s.host ∧ (gateOffDecision s a1 a2).pmb = s.pmb ∧ (gateOffDecision s a1 a2).jtag = s.jtag ∧
    (gateOffDecision s a1 a2).free = s.free ∧ (gateOffDecision s a1 a2).books = s.books ∧ (gateOffDecision s a1 a2).boot = s.boot ∧
    (gateOffDecision s a1 a2).pending = s.pending :=
  have m := gateOffDecision_move (Move.refl [.cells, .hearths, .hks, .chans, .links, .out] s) rfl
  ⟨m.slot rfl j, m.spy rfl j, m.capture rfl j, m.group rfl j, m.cone rfl j, m.engine rfl j, m.cluster rfl j, m.time rfl, m.log rfl, m.coll rfl, m.pair rfl, m.works rfl, m.host rfl, m.pmb rfl, m.jtag rfl, m.free rfl, m.books rfl, m.boot rfl rfl rfl rfl, m.pending rfl⟩

@[simp] theorem controlFrame_reads {a1 a2} (s : State) (j : Nat) :
    (controlFrame s a1 a2).cell j = s.cell j ∧ (controlFrame s a1 a2).slot j = s.slot j ∧ (controlFrame s a1 a2).spy j = s.spy j ∧
    (controlFrame s a1 a2).capture j = s.capture j ∧ (controlFrame s a1 a2).group j = s.group j ∧ (controlFrame s a1 a2).hk j = s.hk j ∧
    (controlFrame s a1 a2).chan j = s.chan j ∧ (controlFrame s a1 a2).cone j = s.cone j ∧ (controlFrame s a1 a2).engine j = s.engine j ∧
    (controlFrame s a1 a2).cluster j = s.cluster j ∧ (controlFrame s a1 a2).link j = s.link j ∧ (controlFrame s a1 a2).time = s.time ∧
    (controlFrame s a1 a2).log = s.log ∧ (controlFrame s a1 a2).coll = s.coll ∧ (controlFrame s a1 a2).pair = s.pair ∧
    (controlFrame s a1 a2).works = s.works ∧ (controlFrame s a1 a2).host = s.host ∧ (controlFrame s a1 a2).pmb = s.pmb ∧
    (controlFrame s a1 a2).jtag = s.jtag ∧ (controlFrame s a1 a2).out = s.out ∧ (controlFrame s a1 a2).free = s.free ∧
    (controlFrame s a1 a2).books = s.books ∧ (controlFrame s a1 a2).boot = s.boot ∧ (controlFrame s a1 a2).pending = s.pending :=
  have m := controlFrame_move (Move.refl [.hearths] s) rfl
  ⟨m.cell rfl j, m.slot rfl j, m.spy rfl j, m.capture rfl j, m.group rfl j, m.hk rfl j, m.chan rfl j, m.cone rfl j, m.engine rfl j, m.cluster rfl j, m.link rfl j, m.time rfl, m.log rfl, m.coll rfl, m.pair rfl, m.works rfl, m.host rfl, m.pmb rfl, m.jtag rfl, m.out rfl, m.free rfl, m.books rfl, m.boot rfl rfl rfl rfl, m.pending rfl⟩

@[simp] theorem stampClaim_reads {a1 a2 a3 a4 a5} (s : State) (j : Nat) :
    (stampClaim s a1 a2 a3 a4 a5).cell j = s.cell j ∧ (stampClaim s a1 a2 a3 a4 a5).slot j = s.slot j ∧
    (stampClaim s a1 a2 a3 a4 a5).spy j = s.spy j ∧ (stampClaim s a1 a2 a3 a4 a5).capture j = s.capture j ∧
    (stampClaim s a1 a2 a3 a4 a5).group j = s.group j ∧ (stampClaim s a1 a2 a3 a4 a5).hk j = s.hk j ∧
    (stampClaim s a1 a2 a3 a4 a5).chan j = s.chan j ∧ (stampClaim s a1 a2 a3 a4 a5).cone j = s.cone j ∧
    (stampClaim s a1 a2 a3 a4 a5).engine j = s.engine j ∧ (stampClaim s a1 a2 a3 a4 a5).cluster j = s.cluster j ∧
    (stampClaim s a1 a2 a3 a4 a5).link j = s.link j ∧ (stampClaim s a1 a2 a3 a4 a5).time = s.time ∧
    (stampClaim s a1 a2 a3 a4 a5).log = s.log ∧ (stampClaim s a1 a2 a3 a4 a5).coll = s.coll ∧ (stampClaim s a1 a2 a3 a4 a5).pair = s.pair ∧
    (stampClaim s a1 a2 a3 a4 a5).works = s.works ∧ (stampClaim s a1 a2 a3 a4 a5).host = s.host ∧ (stampClaim s a1 a2 a3 a4 a5).pmb = s.pmb ∧
    (stampClaim s a1 a2 a3 a4 a5).jtag = s.jtag ∧ (stampClaim s a1 a2 a3 a4 a5).out = s.out ∧ (stampClaim s a1 a2 a3 a4 a5).free = s.free ∧
    (stampClaim s a1 a2 a3 a4 a5).books = s.books ∧ (stampClaim s a1 a2 a3 a4 a5).boot = s.boot ∧
    (stampClaim s a1 a2 a3 a4 a5).pending = s.pending :=
  have m := stampClaim_move (Move.refl [.hearths] s) rfl
  ⟨m.cell rfl j, m.slot rfl j, m.spy rfl j, m.capture rfl j, m.group rfl j, m.hk rfl j, m.chan rfl j, m.cone rfl j, m.engine rfl j, m.cluster rfl j, m.link rfl j, m.time rfl, m.log rfl, m.coll rfl, m.pair rfl, m.works rfl, m.host rfl, m.pmb rfl, m.jtag rfl, m.out rfl, m.free rfl, m.books rfl, m.boot rfl rfl rfl rfl, m.pending rfl⟩

@[simp] theorem judgeClaim_reads {a1 a2 a3} (s : State) (j : Nat) :
    (judgeClaim s a1 a2 a3).slot j = s.slot j ∧ (judgeClaim s a1 a2 a3).spy j = s.spy j ∧ (judgeClaim s a1 a2 a3).capture j = s.capture j ∧
    (judgeClaim s a1 a2 a3).group j = s.group j ∧ (judgeClaim s a1 a2 a3).cone j = s.cone j ∧ (judgeClaim s a1 a2 a3).engine j = s.engine j ∧
    (judgeClaim s a1 a2 a3).cluster j = s.cluster j ∧ (judgeClaim s a1 a2 a3).link j = s.link j ∧ (judgeClaim s a1 a2 a3).time = s.time ∧
    (judgeClaim s a1 a2 a3).log = s.log ∧ (judgeClaim s a1 a2 a3).coll = s.coll ∧ (judgeClaim s a1 a2 a3).pair = s.pair ∧
    (judgeClaim s a1 a2 a3).works = s.works ∧ (judgeClaim s a1 a2 a3).host = s.host ∧ (judgeClaim s a1 a2 a3).pmb = s.pmb ∧
    (judgeClaim s a1 a2 a3).jtag = s.jtag ∧ (judgeClaim s a1 a2 a3).out = s.out ∧ (judgeClaim s a1 a2 a3).free = s.free ∧
    (judgeClaim s a1 a2 a3).books = s.books ∧ (judgeClaim s a1 a2 a3).boot = s.boot ∧ (judgeClaim s a1 a2 a3).pending = s.pending :=
  have m := judgeClaim_move (Move.refl [.cells, .hearths, .hks, .chans] s) rfl
  ⟨m.slot rfl j, m.spy rfl j, m.capture rfl j, m.group rfl j, m.cone rfl j, m.engine rfl j, m.cluster rfl j, m.link rfl j, m.time rfl, m.log rfl, m.coll rfl, m.pair rfl, m.works rfl, m.host rfl, m.pmb rfl, m.jtag rfl, m.out rfl, m.free rfl, m.books rfl, m.boot rfl rfl rfl rfl, m.pending rfl⟩

@[simp] theorem claimOwn_reads {a1} (s : State) (j : Nat) :
    (claimOwn s a1).slot j = s.slot j ∧ (claimOwn s a1).spy j = s.spy j ∧ (claimOwn s a1).capture j = s.capture j ∧
    (claimOwn s a1).group j = s.group j ∧ (claimOwn s a1).cone j = s.cone j ∧ (claimOwn s a1).engine j = s.engine j ∧
    (claimOwn s a1).cluster j = s.cluster j ∧ (claimOwn s a1).link j = s.link j ∧ (claimOwn s a1).time = s.time ∧
    (claimOwn s a1).log = s.log ∧ (claimOwn s a1).coll = s.coll ∧ (claimOwn s a1).pair = s.pair ∧ (claimOwn s a1).works = s.works ∧
    (claimOwn s a1).host = s.host ∧ (claimOwn s a1).pmb = s.pmb ∧ (claimOwn s a1).jtag = s.jtag ∧ (claimOwn s a1).out = s.out ∧
    (claimOwn s a1).free = s.free ∧ (claimOwn s a1).books = s.books ∧ (claimOwn s a1).boot = s.boot ∧ (claimOwn s a1).pending = s.pending :=
  have m := claimOwn_move (Move.refl [.cells, .hearths, .hks, .chans] s) rfl
  ⟨m.slot rfl j, m.spy rfl j, m.capture rfl j, m.group rfl j, m.cone rfl j, m.engine rfl j, m.cluster rfl j, m.link rfl j, m.time rfl, m.log rfl, m.coll rfl, m.pair rfl, m.works rfl, m.host rfl, m.pmb rfl, m.jtag rfl, m.out rfl, m.free rfl, m.books rfl, m.boot rfl rfl rfl rfl, m.pending rfl⟩

@[simp] theorem discardAtHearth_reads {a1 a2 a3 a4 a5} (s : State) (j : Nat) :
    (discardAtHearth s a1 a2 a3 a4 a5).cell j = s.cell j ∧ (discardAtHearth s a1 a2 a3 a4 a5).slot j = s.slot j ∧
    (discardAtHearth s a1 a2 a3 a4 a5).spy j = s.spy j ∧ (discardAtHearth s a1 a2 a3 a4 a5).capture j = s.capture j ∧
    (discardAtHearth s a1 a2 a3 a4 a5).group j = s.group j ∧ (discardAtHearth s a1 a2 a3 a4 a5).hk j = s.hk j ∧
    (discardAtHearth s a1 a2 a3 a4 a5).chan j = s.chan j ∧ (discardAtHearth s a1 a2 a3 a4 a5).cone j = s.cone j ∧
    (discardAtHearth s a1 a2 a3 a4 a5).engine j = s.engine j ∧ (discardAtHearth s a1 a2 a3 a4 a5).cluster j = s.cluster j ∧
    (discardAtHearth s a1 a2 a3 a4 a5).link j = s.link j ∧ (discardAtHearth s a1 a2 a3 a4 a5).time = s.time ∧
    (discardAtHearth s a1 a2 a3 a4 a5).log = s.log ∧ (discardAtHearth s a1 a2 a3 a4 a5).coll = s.coll ∧
    (discardAtHearth s a1 a2 a3 a4 a5).pair = s.pair ∧ (discardAtHearth s a1 a2 a3 a4 a5).works = s.works ∧
    (discardAtHearth s a1 a2 a3 a4 a5).host = s.host ∧ (discardAtHearth s a1 a2 a3 a4 a5).pmb = s.pmb ∧
    (discardAtHearth s a1 a2 a3 a4 a5).jtag = s.jtag ∧ (discardAtHearth s a1 a2 a3 a4 a5).out = s.out ∧
    (discardAtHearth s a1 a2 a3 a4 a5).books = s.books ∧ (discardAtHearth s a1 a2 a3 a4 a5).boot = s.boot ∧
    (discardAtHearth s a1 a2 a3 a4 a5).pending = s.pending :=
  have m := discardAtHearth_move (Move.refl [.hearths, .free] s) rfl
  ⟨m.cell rfl j, m.slot rfl j, m.spy rfl j, m.capture rfl j, m.group rfl j, m.hk rfl j, m.chan rfl j, m.cone rfl j, m.engine rfl j, m.cluster rfl j, m.link rfl j, m.time rfl, m.log rfl, m.coll rfl, m.pair rfl, m.works rfl, m.host rfl, m.pmb rfl, m.jtag rfl, m.out rfl, m.books rfl, m.boot rfl rfl rfl rfl, m.pending rfl⟩

@[simp] theorem releaseHearth_reads {a1 a2 a3 a4} (s : State) (j : Nat) :
    (releaseHearth s a1 a2 a3 a4).slot j = s.slot j ∧ (releaseHearth s a1 a2 a3 a4).spy j = s.spy j ∧
    (releaseHearth s a1 a2 a3 a4).capture j = s.capture j ∧ (releaseHearth s a1 a2 a3 a4).group j = s.group j ∧
    (releaseHearth s a1 a2 a3 a4).cone j = s.cone j ∧ (releaseHearth s a1 a2 a3 a4).engine j = s.engine j ∧
    (releaseHearth s a1 a2 a3 a4).cluster j = s.cluster j ∧ (releaseHearth s a1 a2 a3 a4).link j = s.link j ∧
    (releaseHearth s a1 a2 a3 a4).time = s.time ∧ (releaseHearth s a1 a2 a3 a4).log = s.log ∧ (releaseHearth s a1 a2 a3 a4).coll = s.coll ∧
    (releaseHearth s a1 a2 a3 a4).pair = s.pair ∧ (releaseHearth s a1 a2 a3 a4).works = s.works ∧
    (releaseHearth s a1 a2 a3 a4).host = s.host ∧ (releaseHearth s a1 a2 a3 a4).pmb = s.pmb ∧ (releaseHearth s a1 a2 a3 a4).jtag = s.jtag ∧
    (releaseHearth s a1 a2 a3 a4).out = s.out ∧ (releaseHearth s a1 a2 a3 a4).books = s.books ∧ (releaseHearth s a1 a2 a3 a4).boot = s.boot ∧
    (releaseHearth s a1 a2 a3 a4).pending = s.pending :=
  have m := releaseHearth_move (Move.refl [.cells, .hearths, .hks, .chans, .free] s) rfl
  ⟨m.slot rfl j, m.spy rfl j, m.capture rfl j, m.group rfl j, m.cone rfl j, m.engine rfl j, m.cluster rfl j, m.link rfl j, m.time rfl, m.log rfl, m.coll rfl, m.pair rfl, m.works rfl, m.host rfl, m.pmb rfl, m.jtag rfl, m.out rfl, m.books rfl, m.boot rfl rfl rfl rfl, m.pending rfl⟩

@[simp] theorem hearthReset_reads {a1} (s : State) (j : Nat) :
    (hearthReset s a1).slot j = s.slot j ∧ (hearthReset s a1).cone j = s.cone j ∧ (hearthReset s a1).engine j = s.engine j ∧
    (hearthReset s a1).cluster j = s.cluster j ∧ (hearthReset s a1).link j = s.link j ∧ (hearthReset s a1).time = s.time ∧
    (hearthReset s a1).pair = s.pair ∧ (hearthReset s a1).works = s.works ∧ (hearthReset s a1).pmb = s.pmb ∧
    (hearthReset s a1).jtag = s.jtag ∧ (hearthReset s a1).out = s.out ∧ (hearthReset s a1).free = s.free ∧
    (hearthReset s a1).books = s.books ∧ (hearthReset s a1).boot = s.boot ∧ (hearthReset s a1).pending = s.pending :=
  have m := hearthReset_move (Move.refl [.cells, .hearths, .spies, .captures, .groups, .hks, .chans, .log, .coll, .host] s) rfl
  ⟨m.slot rfl j, m.cone rfl j, m.engine rfl j, m.cluster rfl j, m.link rfl j, m.time rfl, m.pair rfl, m.works rfl, m.pmb rfl, m.jtag rfl, m.out rfl, m.free rfl, m.books rfl, m.boot rfl rfl rfl rfl, m.pending rfl⟩

@[simp] theorem releaseFlag_reads {a1} (s : State) (j : Nat) :
    (releaseFlag s a1).spy j = s.spy j ∧ (releaseFlag s a1).capture j = s.capture j ∧ (releaseFlag s a1).group j = s.group j ∧
    (releaseFlag s a1).cone j = s.cone j ∧ (releaseFlag s a1).engine j = s.engine j ∧ (releaseFlag s a1).cluster j = s.cluster j ∧
    (releaseFlag s a1).link j = s.link j ∧ (releaseFlag s a1).time = s.time ∧ (releaseFlag s a1).log = s.log ∧
    (releaseFlag s a1).coll = s.coll ∧ (releaseFlag s a1).pair = s.pair ∧ (releaseFlag s a1).works = s.works ∧
    (releaseFlag s a1).host = s.host ∧ (releaseFlag s a1).pmb = s.pmb ∧ (releaseFlag s a1).jtag = s.jtag ∧ (releaseFlag s a1).out = s.out ∧
    (releaseFlag s a1).free = s.free ∧ (releaseFlag s a1).books = s.books ∧ (releaseFlag s a1).boot = s.boot ∧
    (releaseFlag s a1).pending = s.pending :=
  have m := releaseFlag_move (Move.refl [.cells, .hearths, .slots, .hks, .chans] s) rfl
  ⟨m.spy rfl j, m.capture rfl j, m.group rfl j, m.cone rfl j, m.engine rfl j, m.cluster rfl j, m.link rfl j, m.time rfl, m.log rfl, m.coll rfl, m.pair rfl, m.works rfl, m.host rfl, m.pmb rfl, m.jtag rfl, m.out rfl, m.free rfl, m.books rfl, m.boot rfl rfl rfl rfl, m.pending rfl⟩

@[simp] theorem cmdFrame_reads {a1 a2 a3 a4 a5 a6 a7} (s : State) (j : Nat) :
    (cmdFrame s a1 a2 a3 a4 a5 a6 a7).slot j = s.slot j ∧ (cmdFrame s a1 a2 a3 a4 a5 a6 a7).spy j = s.spy j ∧
    (cmdFrame s a1 a2 a3 a4 a5 a6 a7).capture j = s.capture j ∧ (cmdFrame s a1 a2 a3 a4 a5 a6 a7).group j = s.group j ∧
    (cmdFrame s a1 a2 a3 a4 a5 a6 a7).cone j = s.cone j ∧ (cmdFrame s a1 a2 a3 a4 a5 a6 a7).engine j = s.engine j ∧
    (cmdFrame s a1 a2 a3 a4 a5 a6 a7).cluster j = s.cluster j ∧ (cmdFrame s a1 a2 a3 a4 a5 a6 a7).link j = s.link j ∧
    (cmdFrame s a1 a2 a3 a4 a5 a6 a7).time = s.time ∧ (cmdFrame s a1 a2 a3 a4 a5 a6 a7).log = s.log ∧
    (cmdFrame s a1 a2 a3 a4 a5 a6 a7).coll = s.coll ∧ (cmdFrame s a1 a2 a3 a4 a5 a6 a7).pair = s.pair ∧
    (cmdFrame s a1 a2 a3 a4 a5 a6 a7).works = s.works ∧ (cmdFrame s a1 a2 a3 a4 a5 a6 a7).host = s.host ∧
    (cmdFrame s a1 a2 a3 a4 a5 a6 a7).pmb = s.pmb ∧ (cmdFrame s a1 a2 a3 a4 a5 a6 a7).jtag = s.jtag ∧
    (cmdFrame s a1 a2 a3 a4 a5 a6 a7).out = s.out ∧ (cmdFrame s a1 a2 a3 a4 a5 a6 a7).free = s.free ∧
    (cmdFrame s a1 a2 a3 a4 a5 a6 a7).books = s.books ∧ (cmdFrame s a1 a2 a3 a4 a5 a6 a7).boot = s.boot ∧
    (cmdFrame s a1 a2 a3 a4 a5 a6 a7).pending = s.pending :=
  have m := cmdFrame_move (Move.refl [.cells, .hearths, .hks, .chans] s) rfl
  ⟨m.slot rfl j, m.spy rfl j, m.capture rfl j, m.group rfl j, m.cone rfl j, m.engine rfl j, m.cluster rfl j, m.link rfl j, m.time rfl, m.log rfl, m.coll rfl, m.pair rfl, m.works rfl, m.host rfl, m.pmb rfl, m.jtag rfl, m.out rfl, m.free rfl, m.books rfl, m.boot rfl rfl rfl rfl, m.pending rfl⟩

@[simp] theorem writeEnvelope_reads {a1 a2} (s : State) (j : Nat) :
    (writeEnvelope s a1 a2).hearth j = s.hearth j ∧ (writeEnvelope s a1 a2).slot j = s.slot j ∧ (writeEnvelope s a1 a2).spy j = s.spy j ∧
    (writeEnvelope s a1 a2).capture j = s.capture j ∧ (writeEnvelope s a1 a2).group j = s.group j ∧ (writeEnvelope s a1 a2).hk j = s.hk j ∧
    (writeEnvelope s a1 a2).chan j = s.chan j ∧ (writeEnvelope s a1 a2).cone j = s.cone j ∧ (writeEnvelope s a1 a2).engine j = s.engine j ∧
    (writeEnvelope s a1 a2).cluster j = s.cluster j ∧ (writeEnvelope s a1 a2).link j = s.link j ∧ (writeEnvelope s a1 a2).time = s.time ∧
    (writeEnvelope s a1 a2).log = s.log ∧ (writeEnvelope s a1 a2).coll = s.coll ∧ (writeEnvelope s a1 a2).pair = s.pair ∧
    (writeEnvelope s a1 a2).works = s.works ∧ (writeEnvelope s a1 a2).host = s.host ∧ (writeEnvelope s a1 a2).pmb = s.pmb ∧
    (writeEnvelope s a1 a2).jtag = s.jtag ∧ (writeEnvelope s a1 a2).out = s.out ∧ (writeEnvelope s a1 a2).free = s.free ∧
    (writeEnvelope s a1 a2).books = s.books ∧ (writeEnvelope s a1 a2).boot = s.boot ∧ (writeEnvelope s a1 a2).pending = s.pending :=
  have m := writeEnvelope_move (Move.refl [.cells] s) rfl
  ⟨m.hearth rfl j, m.slot rfl j, m.spy rfl j, m.capture rfl j, m.group rfl j, m.hk rfl j, m.chan rfl j, m.cone rfl j, m.engine rfl j, m.cluster rfl j, m.link rfl j, m.time rfl, m.log rfl, m.coll rfl, m.pair rfl, m.works rfl, m.host rfl, m.pmb rfl, m.jtag rfl, m.out rfl, m.free rfl, m.books rfl, m.boot rfl rfl rfl rfl, m.pending rfl⟩

@[simp] theorem numberRequest_reads {a1 a2} (s : State) (j : Nat) :
    (numberRequest s a1 a2).cell j = s.cell j ∧ (numberRequest s a1 a2).slot j = s.slot j ∧ (numberRequest s a1 a2).spy j = s.spy j ∧
    (numberRequest s a1 a2).capture j = s.capture j ∧ (numberRequest s a1 a2).group j = s.group j ∧ (numberRequest s a1 a2).hk j = s.hk j ∧
    (numberRequest s a1 a2).chan j = s.chan j ∧ (numberRequest s a1 a2).cone j = s.cone j ∧ (numberRequest s a1 a2).engine j = s.engine j ∧
    (numberRequest s a1 a2).cluster j = s.cluster j ∧ (numberRequest s a1 a2).link j = s.link j ∧ (numberRequest s a1 a2).time = s.time ∧
    (numberRequest s a1 a2).log = s.log ∧ (numberRequest s a1 a2).coll = s.coll ∧ (numberRequest s a1 a2).pair = s.pair ∧
    (numberRequest s a1 a2).works = s.works ∧ (numberRequest s a1 a2).host = s.host ∧ (numberRequest s a1 a2).pmb = s.pmb ∧
    (numberRequest s a1 a2).jtag = s.jtag ∧ (numberRequest s a1 a2).out = s.out ∧ (numberRequest s a1 a2).free = s.free ∧
    (numberRequest s a1 a2).books = s.books ∧ (numberRequest s a1 a2).boot = s.boot ∧ (numberRequest s a1 a2).pending = s.pending :=
  have m := numberRequest_move (Move.refl [.hearths] s) rfl
  ⟨m.cell rfl j, m.slot rfl j, m.spy rfl j, m.capture rfl j, m.group rfl j, m.hk rfl j, m.chan rfl j, m.cone rfl j, m.engine rfl j, m.cluster rfl j, m.link rfl j, m.time rfl, m.log rfl, m.coll rfl, m.pair rfl, m.works rfl, m.host rfl, m.pmb rfl, m.jtag rfl, m.out rfl, m.free rfl, m.books rfl, m.boot rfl rfl rfl rfl, m.pending rfl⟩

@[simp] theorem writeSlotWord_reads {a1 a2} (s : State) (j : Nat) :
    (writeSlotWord s a1 a2).cell j = s.cell j ∧ (writeSlotWord s a1 a2).hearth j = s.hearth j ∧ (writeSlotWord s a1 a2).spy j = s.spy j ∧
    (writeSlotWord s a1 a2).capture j = s.capture j ∧ (writeSlotWord s a1 a2).group j = s.group j ∧ (writeSlotWord s a1 a2).hk j = s.hk j ∧
    (writeSlotWord s a1 a2).chan j = s.chan j ∧ (writeSlotWord s a1 a2).cone j = s.cone j ∧ (writeSlotWord s a1 a2).engine j = s.engine j ∧
    (writeSlotWord s a1 a2).cluster j = s.cluster j ∧ (writeSlotWord s a1 a2).link j = s.link j ∧ (writeSlotWord s a1 a2).time = s.time ∧
    (writeSlotWord s a1 a2).log = s.log ∧ (writeSlotWord s a1 a2).coll = s.coll ∧ (writeSlotWord s a1 a2).pair = s.pair ∧
    (writeSlotWord s a1 a2).works = s.works ∧ (writeSlotWord s a1 a2).host = s.host ∧ (writeSlotWord s a1 a2).pmb = s.pmb ∧
    (writeSlotWord s a1 a2).jtag = s.jtag ∧ (writeSlotWord s a1 a2).out = s.out ∧ (writeSlotWord s a1 a2).free = s.free ∧
    (writeSlotWord s a1 a2).books = s.books ∧ (writeSlotWord s a1 a2).boot = s.boot ∧ (writeSlotWord s a1 a2).pending = s.pending :=
  have m := writeSlotWord_move (Move.refl [.slots] s) rfl
  ⟨m.cell rfl j, m.hearth rfl j, m.spy rfl j, m.capture rfl j, m.group rfl j, m.hk rfl j, m.chan rfl j, m.cone rfl j, m.engine rfl j, m.cluster rfl j, m.link rfl j, m.time rfl, m.log rfl, m.coll rfl, m.pair rfl, m.works rfl, m.host rfl, m.pmb rfl, m.jtag rfl, m.out rfl, m.free rfl, m.books rfl, m.boot rfl rfl rfl rfl, m.pending rfl⟩

@[simp] theorem writeConfig_reads {a1 a2} (s : State) (j : Nat) :
    (writeConfig s a1 a2).cone j = s.cone j ∧ (writeConfig s a1 a2).engine j = s.engine j ∧ (writeConfig s a1 a2).cluster j = s.cluster j ∧
    (writeConfig s a1 a2).link j = s.link j ∧ (writeConfig s a1 a2).time = s.time ∧ (writeConfig s a1 a2).pair = s.pair ∧
    (writeConfig s a1 a2).works = s.works ∧ (writeConfig s a1 a2).pmb = s.pmb ∧ (writeConfig s a1 a2).jtag = s.jtag ∧
    (writeConfig s a1 a2).out = s.out ∧ (writeConfig s a1 a2).free = s.free ∧ (writeConfig s a1 a2).books = s.books ∧
    (writeConfig s a1 a2).boot = s.boot ∧ (writeConfig s a1 a2).pending = s.pending :=
  have m := writeConfig_move (Move.refl [.cells, .hearths, .slots, .spies, .captures, .groups, .hks, .chans, .log, .coll, .host] s) rfl
  ⟨m.cone rfl j, m.engine rfl j, m.cluster rfl j, m.link rfl j, m.time rfl, m.pair rfl, m.works rfl, m.pmb rfl, m.jtag rfl, m.out rfl, m.free rfl, m.books rfl, m.boot rfl rfl rfl rfl, m.pending rfl⟩

@[simp] theorem discardFrame_reads {a1 a2 a3 a4 a5 a6} (s : State) (j : Nat) :
    (discardFrame s a1 a2 a3 a4 a5 a6).cell j = s.cell j ∧ (discardFrame s a1 a2 a3 a4 a5 a6).slot j = s.slot j ∧
    (discardFrame s a1 a2 a3 a4 a5 a6).spy j = s.spy j ∧ (discardFrame s a1 a2 a3 a4 a5 a6).capture j = s.capture j ∧
    (discardFrame s a1 a2 a3 a4 a5 a6).group j = s.group j ∧ (discardFrame s a1 a2 a3 a4 a5 a6).hk j = s.hk j ∧
    (discardFrame s a1 a2 a3 a4 a5 a6).chan j = s.chan j ∧ (discardFrame s a1 a2 a3 a4 a5 a6).cone j = s.cone j ∧
    (discardFrame s a1 a2 a3 a4 a5 a6).engine j = s.engine j ∧ (discardFrame s a1 a2 a3 a4 a5 a6).cluster j = s.cluster j ∧
    (discardFrame s a1 a2 a3 a4 a5 a6).link j = s.link j ∧ (discardFrame s a1 a2 a3 a4 a5 a6).time = s.time ∧
    (discardFrame s a1 a2 a3 a4 a5 a6).pair = s.pair ∧ (discardFrame s a1 a2 a3 a4 a5 a6).works = s.works ∧
    (discardFrame s a1 a2 a3 a4 a5 a6).pmb = s.pmb ∧ (discardFrame s a1 a2 a3 a4 a5 a6).jtag = s.jtag ∧
    (discardFrame s a1 a2 a3 a4 a5 a6).books = s.books ∧ (discardFrame s a1 a2 a3 a4 a5 a6).pending = s.pending :=
  have m := discardFrame_move (Move.refl [.hearths, .boot, .log, .coll, .host, .out, .free] s) rfl
  ⟨m.cell rfl j, m.slot rfl j, m.spy rfl j, m.capture rfl j, m.group rfl j, m.hk rfl j, m.chan rfl j, m.cone rfl j, m.engine rfl j, m.cluster rfl j, m.link rfl j, m.time rfl, m.pair rfl, m.works rfl, m.pmb rfl, m.jtag rfl, m.books rfl, m.pending rfl⟩

@[simp] theorem updLane_reads {a1 a2} (s : State) (j : Nat) :
    (updLane s a1 a2).cell j = s.cell j ∧ (updLane s a1 a2).slot j = s.slot j ∧ (updLane s a1 a2).spy j = s.spy j ∧
    (updLane s a1 a2).capture j = s.capture j ∧ (updLane s a1 a2).group j = s.group j ∧ (updLane s a1 a2).hk j = s.hk j ∧
    (updLane s a1 a2).chan j = s.chan j ∧ (updLane s a1 a2).cone j = s.cone j ∧ (updLane s a1 a2).engine j = s.engine j ∧
    (updLane s a1 a2).cluster j = s.cluster j ∧ (updLane s a1 a2).link j = s.link j ∧ (updLane s a1 a2).time = s.time ∧
    (updLane s a1 a2).log = s.log ∧ (updLane s a1 a2).coll = s.coll ∧ (updLane s a1 a2).works = s.works ∧ (updLane s a1 a2).host = s.host ∧
    (updLane s a1 a2).pmb = s.pmb ∧ (updLane s a1 a2).jtag = s.jtag ∧ (updLane s a1 a2).out = s.out ∧ (updLane s a1 a2).free = s.free ∧
    (updLane s a1 a2).books = s.books ∧ (updLane s a1 a2).boot = s.boot ∧ (updLane s a1 a2).pending = s.pending :=
  have m := updLane_move (Move.refl [.hearths, .pair] s) rfl
  ⟨m.cell rfl j, m.slot rfl j, m.spy rfl j, m.capture rfl j, m.group rfl j, m.hk rfl j, m.chan rfl j, m.cone rfl j, m.engine rfl j, m.cluster rfl j, m.link rfl j, m.time rfl, m.log rfl, m.coll rfl, m.works rfl, m.host rfl, m.pmb rfl, m.jtag rfl, m.out rfl, m.free rfl, m.books rfl, m.boot rfl rfl rfl rfl, m.pending rfl⟩

@[simp] theorem fullCmd_reads {a1} (s : State) (j : Nat) :
    (fullCmd s a1).slot j = s.slot j ∧ (fullCmd s a1).spy j = s.spy j ∧ (fullCmd s a1).capture j = s.capture j ∧
    (fullCmd s a1).group j = s.group j ∧ (fullCmd s a1).cone j = s.cone j ∧ (fullCmd s a1).engine j = s.engine j ∧
    (fullCmd s a1).cluster j = s.cluster j ∧ (fullCmd s a1).link j = s.link j ∧ (fullCmd s a1).time = s.time ∧ (fullCmd s a1).log = s.log ∧
    (fullCmd s a1).coll = s.coll ∧ (fullCmd s a1).pair = s.pair ∧ (fullCmd s a1).works = s.works ∧ (fullCmd s a1).host = s.host ∧
    (fullCmd s a1).pmb = s.pmb ∧ (fullCmd s a1).jtag = s.jtag ∧ (fullCmd s a1).out = s.out ∧ (fullCmd s a1).free = s.free ∧
    (fullCmd s a1).books = s.books ∧ (fullCmd s a1).boot = s.boot ∧ (fullCmd s a1).pending = s.pending :=
  have m := fullCmd_move (Move.refl [.cells, .hearths, .hks, .chans] s) rfl
  ⟨m.slot rfl j, m.spy rfl j, m.capture rfl j, m.group rfl j, m.cone rfl j, m.engine rfl j, m.cluster rfl j, m.link rfl j, m.time rfl, m.log rfl, m.coll rfl, m.pair rfl, m.works rfl, m.host rfl, m.pmb rfl, m.jtag rfl, m.out rfl, m.free rfl, m.books rfl, m.boot rfl rfl rfl rfl, m.pending rfl⟩

@[simp] theorem sendEventReq_reads {a1 a2} (s : State) (j : Nat) :
    (sendEventReq s a1 a2).cell j = s.cell j ∧ (sendEventReq s a1 a2).hearth j = s.hearth j ∧ (sendEventReq s a1 a2).slot j = s.slot j ∧
    (sendEventReq s a1 a2).spy j = s.spy j ∧ (sendEventReq s a1 a2).capture j = s.capture j ∧ (sendEventReq s a1 a2).group j = s.group j ∧
    (sendEventReq s a1 a2).hk j = s.hk j ∧ (sendEventReq s a1 a2).chan j = s.chan j ∧ (sendEventReq s a1 a2).cone j = s.cone j ∧
    (sendEventReq s a1 a2).engine j = s.engine j ∧ (sendEventReq s a1 a2).cluster j = s.cluster j ∧ (sendEventReq s a1 a2).time = s.time ∧
    (sendEventReq s a1 a2).log = s.log ∧ (sendEventReq s a1 a2).coll = s.coll ∧ (sendEventReq s a1 a2).pair = s.pair ∧
    (sendEventReq s a1 a2).works = s.works ∧ (sendEventReq s a1 a2).host = s.host ∧ (sendEventReq s a1 a2).pmb = s.pmb ∧
    (sendEventReq s a1 a2).jtag = s.jtag ∧ (sendEventReq s a1 a2).free = s.free ∧ (sendEventReq s a1 a2).books = s.books ∧
    (sendEventReq s a1 a2).boot = s.boot ∧ (sendEventReq s a1 a2).pending = s.pending :=
  have m := sendEventReq_move (Move.refl [.links, .out] s) rfl
  ⟨m.cell rfl j, m.hearth rfl j, m.slot rfl j, m.spy rfl j, m.capture rfl j, m.group rfl j, m.hk rfl j, m.chan rfl j, m.cone rfl j, m.engine rfl j, m.cluster rfl j, m.time rfl, m.log rfl, m.coll rfl, m.pair rfl, m.works rfl, m.host rfl, m.pmb rfl, m.jtag rfl, m.free rfl, m.books rfl, m.boot rfl rfl rfl rfl, m.pending rfl⟩

@[simp] theorem sitterEvent_reads {a1 a2 a3} (s : State) (j : Nat) :
    (sitterEvent s a1 a2 a3).cell j = s.cell j ∧ (sitterEvent s a1 a2 a3).slot j = s.slot j ∧ (sitterEvent s a1 a2 a3).spy j = s.spy j ∧
    (sitterEvent s a1 a2 a3).capture j = s.capture j ∧ (sitterEvent s a1 a2 a3).group j = s.group j ∧ (sitterEvent s a1 a2 a3).hk j = s.hk j ∧
    (sitterEvent s a1 a2 a3).chan j = s.chan j ∧ (sitterEvent s a1 a2 a3).cone j = s.cone j ∧ (sitterEvent s a1 a2 a3).engine j = s.engine j ∧
    (sitterEvent s a1 a2 a3).cluster j = s.cluster j ∧ (sitterEvent s a1 a2 a3).time = s.time ∧ (sitterEvent s a1 a2 a3).log = s.log ∧
    (sitterEvent s a1 a2 a3).coll = s.coll ∧ (sitterEvent s a1 a2 a3).pair = s.pair ∧ (sitterEvent s a1 a2 a3).works = s.works ∧
    (sitterEvent s a1 a2 a3).host = s.host ∧ (sitterEvent s a1 a2 a3).pmb = s.pmb ∧ (sitterEvent s a1 a2 a3).jtag = s.jtag ∧
    (sitterEvent s a1 a2 a3).free = s.free ∧ (sitterEvent s a1 a2 a3).books = s.books ∧ (sitterEvent s a1 a2 a3).boot = s.boot ∧
    (sitterEvent s a1 a2 a3).pending = s.pending :=
  have m := sitterEvent_move (Move.refl [.hearths, .links, .out] s) rfl
  ⟨m.cell rfl j, m.slot rfl j, m.spy rfl j, m.capture rfl j, m.group rfl j, m.hk rfl j, m.chan rfl j, m.cone rfl j, m.engine rfl j, m.cluster rfl j, m.time rfl, m.log rfl, m.coll rfl, m.pair rfl, m.works rfl, m.host rfl, m.pmb rfl, m.jtag rfl, m.free rfl, m.books rfl, m.boot rfl rfl rfl rfl, m.pending rfl⟩

@[simp] theorem setTotal_reads {a1 a2 a3 a4} (s : State) (j : Nat) :
    (setTotal s a1 a2 a3 a4).cell j = s.cell j ∧ (setTotal s a1 a2 a3 a4).hearth j = s.hearth j ∧ (setTotal s a1 a2 a3 a4).slot j = s.slot j ∧
    (setTotal s a1 a2 a3 a4).spy j = s.spy j ∧ (setTotal s a1 a2 a3 a4).capture j = s.capture j ∧
    (setTotal s a1 a2 a3 a4).group j = s.group j ∧ (setTotal s a1 a2 a3 a4).hk j = s.hk j ∧ (setTotal s a1 a2 a3 a4).chan j = s.chan j ∧
    (setTotal s a1 a2 a3 a4).cone j = s.cone j ∧ (setTotal s a1 a2 a3 a4).engine j = s.engine j ∧
    (setTotal s a1 a2 a3 a4).cluster j = s.cluster j ∧ (setTotal s a1 a2 a3 a4).link j = s.link j ∧ (setTotal s a1 a2 a3 a4).time = s.time ∧
    (setTotal s a1 a2 a3 a4).log = s.log ∧ (setTotal s a1 a2 a3 a4).coll = s.coll ∧ (setTotal s a1 a2 a3 a4).pair = s.pair ∧
    (setTotal s a1 a2 a3 a4).host = s.host ∧ (setTotal s a1 a2 a3 a4).pmb = s.pmb ∧ (setTotal s a1 a2 a3 a4).jtag = s.jtag ∧
    (setTotal s a1 a2 a3 a4).out = s.out ∧ (setTotal s a1 a2 a3 a4).free = s.free ∧ (setTotal s a1 a2 a3 a4).books = s.books ∧
    (setTotal s a1 a2 a3 a4).boot = s.boot ∧ (setTotal s a1 a2 a3 a4).pending = s.pending :=
  have m := setTotal_move (Move.refl [.works] s) rfl
  ⟨m.cell rfl j, m.hearth rfl j, m.slot rfl j, m.spy rfl j, m.capture rfl j, m.group rfl j, m.hk rfl j, m.chan rfl j, m.cone rfl j, m.engine rfl j, m.cluster rfl j, m.link rfl j, m.time rfl, m.log rfl, m.coll rfl, m.pair rfl, m.host rfl, m.pmb rfl, m.jtag rfl, m.out rfl, m.free rfl, m.books rfl, m.boot rfl rfl rfl rfl, m.pending rfl⟩

@[simp] theorem consentWait_reads {a1 a2} (s : State) (j : Nat) :
    (consentWait s a1 a2).cell j = s.cell j ∧ (consentWait s a1 a2).slot j = s.slot j ∧ (consentWait s a1 a2).spy j = s.spy j ∧
    (consentWait s a1 a2).capture j = s.capture j ∧ (consentWait s a1 a2).group j = s.group j ∧ (consentWait s a1 a2).hk j = s.hk j ∧
    (consentWait s a1 a2).cone j = s.cone j ∧ (consentWait s a1 a2).engine j = s.engine j ∧ (consentWait s a1 a2).cluster j = s.cluster j ∧
    (consentWait s a1 a2).time = s.time ∧ (consentWait s a1 a2).log = s.log ∧ (consentWait s a1 a2).coll = s.coll ∧
    (consentWait s a1 a2).pair = s.pair ∧ (consentWait s a1 a2).works = s.works ∧ (consentWait s a1 a2).host = s.host ∧
    (consentWait s a1 a2).pmb = s.pmb ∧ (consentWait s a1 a2).jtag = s.jtag ∧ (consentWait s a1 a2).free = s.free ∧
    (consentWait s a1 a2).books = s.books ∧ (consentWait s a1 a2).boot = s.boot ∧ (consentWait s a1 a2).pending = s.pending :=
  have m := consentWait_move (Move.refl [.hearths, .chans, .links, .out] s) rfl
  ⟨m.cell rfl j, m.slot rfl j, m.spy rfl j, m.capture rfl j, m.group rfl j, m.hk rfl j, m.cone rfl j, m.engine rfl j, m.cluster rfl j, m.time rfl, m.log rfl, m.coll rfl, m.pair rfl, m.works rfl, m.host rfl, m.pmb rfl, m.jtag rfl, m.free rfl, m.books rfl, m.boot rfl rfl rfl rfl, m.pending rfl⟩

@[simp] theorem giveConsent_reads {a1} (s : State) (j : Nat) :
    (giveConsent s a1).cell j = s.cell j ∧ (giveConsent s a1).hearth j = s.hearth j ∧ (giveConsent s a1).slot j = s.slot j ∧
    (giveConsent s a1).spy j = s.spy j ∧ (giveConsent s a1).capture j = s.capture j ∧ (giveConsent s a1).group j = s.group j ∧
    (giveConsent s a1).hk j = s.hk j ∧ (giveConsent s a1).cone j = s.cone j ∧ (giveConsent s a1).engine j = s.engine j ∧
    (giveConsent s a1).cluster j = s.cluster j ∧ (giveConsent s a1).link j = s.link j ∧ (giveConsent s a1).time = s.time ∧
    (giveConsent s a1).log = s.log ∧ (giveConsent s a1).coll = s.coll ∧ (giveConsent s a1).pair = s.pair ∧
    (giveConsent s a1).works = s.works ∧ (giveConsent s a1).host = s.host ∧ (giveConsent s a1).pmb = s.pmb ∧
    (giveConsent s a1).jtag = s.jtag ∧ (giveConsent s a1).out = s.out ∧ (giveConsent s a1).free = s.free ∧
    (giveConsent s a1).books = s.books ∧ (giveConsent s a1).boot = s.boot ∧ (giveConsent s a1).pending = s.pending :=
  have m := giveConsent_move (Move.refl [.chans] s) rfl
  ⟨m.cell rfl j, m.hearth rfl j, m.slot rfl j, m.spy rfl j, m.capture rfl j, m.group rfl j, m.hk rfl j, m.cone rfl j, m.engine rfl j, m.cluster rfl j, m.link rfl j, m.time rfl, m.log rfl, m.coll rfl, m.pair rfl, m.works rfl, m.host rfl, m.pmb rfl, m.jtag rfl, m.out rfl, m.free rfl, m.books rfl, m.boot rfl rfl rfl rfl, m.pending rfl⟩

@[simp] theorem takeGrant_reads {a1} (s : State) (j : Nat) :
    (takeGrant s a1).cell j = s.cell j ∧ (takeGrant s a1).hearth j = s.hearth j ∧ (takeGrant s a1).slot j = s.slot j ∧
    (takeGrant s a1).spy j = s.spy j ∧ (takeGrant s a1).capture j = s.capture j ∧ (takeGrant s a1).group j = s.group j ∧
    (takeGrant s a1).hk j = s.hk j ∧ (takeGrant s a1).cone j = s.cone j ∧ (takeGrant s a1).engine j = s.engine j ∧
    (takeGrant s a1).cluster j = s.cluster j ∧ (takeGrant s a1).link j = s.link j ∧ (takeGrant s a1).time = s.time ∧
    (takeGrant s a1).log = s.log ∧ (takeGrant s a1).coll = s.coll ∧ (takeGrant s a1).pair = s.pair ∧ (takeGrant s a1).host = s.host ∧
    (takeGrant s a1).pmb = s.pmb ∧ (takeGrant s a1).jtag = s.jtag ∧ (takeGrant s a1).out = s.out ∧ (takeGrant s a1).free = s.free ∧
    (takeGrant s a1).books = s.books ∧ (takeGrant s a1).boot = s.boot ∧ (takeGrant s a1).pending = s.pending :=
  have m := takeGrant_move (Move.refl [.chans, .works] s) rfl
  ⟨m.cell rfl j, m.hearth rfl j, m.slot rfl j, m.spy rfl j, m.capture rfl j, m.group rfl j, m.hk rfl j, m.cone rfl j, m.engine rfl j, m.cluster rfl j, m.link rfl j, m.time rfl, m.log rfl, m.coll rfl, m.pair rfl, m.host rfl, m.pmb rfl, m.jtag rfl, m.out rfl, m.free rfl, m.books rfl, m.boot rfl rfl rfl rfl, m.pending rfl⟩

@[simp] theorem takeRefuse_reads {a1} (s : State) (j : Nat) :
    (takeRefuse s a1).cell j = s.cell j ∧ (takeRefuse s a1).slot j = s.slot j ∧ (takeRefuse s a1).spy j = s.spy j ∧
    (takeRefuse s a1).capture j = s.capture j ∧ (takeRefuse s a1).group j = s.group j ∧ (takeRefuse s a1).hk j = s.hk j ∧
    (takeRefuse s a1).cone j = s.cone j ∧ (takeRefuse s a1).engine j = s.engine j ∧ (takeRefuse s a1).cluster j = s.cluster j ∧
    (takeRefuse s a1).time = s.time ∧ (takeRefuse s a1).log = s.log ∧ (takeRefuse s a1).coll = s.coll ∧ (takeRefuse s a1).pair = s.pair ∧
    (takeRefuse s a1).works = s.works ∧ (takeRefuse s a1).host = s.host ∧ (takeRefuse s a1).pmb = s.pmb ∧ (takeRefuse s a1).jtag = s.jtag ∧
    (takeRefuse s a1).free = s.free ∧ (takeRefuse s a1).books = s.books ∧ (takeRefuse s a1).boot = s.boot ∧
    (takeRefuse s a1).pending = s.pending :=
  have m := takeRefuse_move (Move.refl [.hearths, .chans, .links, .out] s) rfl
  ⟨m.cell rfl j, m.slot rfl j, m.spy rfl j, m.capture rfl j, m.group rfl j, m.hk rfl j, m.cone rfl j, m.engine rfl j, m.cluster rfl j, m.time rfl, m.log rfl, m.coll rfl, m.pair rfl, m.works rfl, m.host rfl, m.pmb rfl, m.jtag rfl, m.free rfl, m.books rfl, m.boot rfl rfl rfl rfl, m.pending rfl⟩

@[simp] theorem takeFreed_reads (s : State) (j : Nat) :
    (takeFreed s).cell j = s.cell j ∧ (takeFreed s).hearth j = s.hearth j ∧ (takeFreed s).slot j = s.slot j ∧ (takeFreed s).spy j = s.spy j ∧
    (takeFreed s).capture j = s.capture j ∧ (takeFreed s).group j = s.group j ∧ (takeFreed s).hk j = s.hk j ∧
    (takeFreed s).chan j = s.chan j ∧ (takeFreed s).cone j = s.cone j ∧ (takeFreed s).engine j = s.engine j ∧
    (takeFreed s).cluster j = s.cluster j ∧ (takeFreed s).link j = s.link j ∧ (takeFreed s).time = s.time ∧ (takeFreed s).log = s.log ∧
    (takeFreed s).coll = s.coll ∧ (takeFreed s).pair = s.pair ∧ (takeFreed s).works = s.works ∧ (takeFreed s).host = s.host ∧
    (takeFreed s).pmb = s.pmb ∧ (takeFreed s).jtag = s.jtag ∧ (takeFreed s).out = s.out ∧ (takeFreed s).free = s.free ∧
    (takeFreed s).books = s.books ∧ (takeFreed s).boot = s.boot ∧ (takeFreed s).pending = s.pending :=
  have m := takeFreed_move (Move.refl [] s) rfl
  ⟨m.cell rfl j, m.hearth rfl j, m.slot rfl j, m.spy rfl j, m.capture rfl j, m.group rfl j, m.hk rfl j, m.chan rfl j, m.cone rfl j, m.engine rfl j, m.cluster rfl j, m.link rfl j, m.time rfl, m.log rfl, m.coll rfl, m.pair rfl, m.works rfl, m.host rfl, m.pmb rfl, m.jtag rfl, m.out rfl, m.free rfl, m.books rfl, m.boot rfl rfl rfl rfl, m.pending rfl⟩

@[simp] theorem answerTo_reads {a1 a2 a3} (s : State) (j : Nat) :
    (answerTo s a1 a2 a3).cell j = s.cell j ∧ (answerTo s a1 a2 a3).slot j = s.slot j ∧ (answerTo s a1 a2 a3).spy j = s.spy j ∧
    (answerTo s a1 a2 a3).capture j = s.capture j ∧ (answerTo s a1 a2 a3).group j = s.group j ∧ (answerTo s a1 a2 a3).hk j = s.hk j ∧
    (answerTo s a1 a2 a3).cone j = s.cone j ∧ (answerTo s a1 a2 a3).engine j = s.engine j ∧ (answerTo s a1 a2 a3).cluster j = s.cluster j ∧
    (answerTo s a1 a2 a3).time = s.time ∧ (answerTo s a1 a2 a3).log = s.log ∧ (answerTo s a1 a2 a3).coll = s.coll ∧
    (answerTo s a1 a2 a3).pair = s.pair ∧ (answerTo s a1 a2 a3).host = s.host ∧ (answerTo s a1 a2 a3).pmb = s.pmb ∧
    (answerTo s a1 a2 a3).jtag = s.jtag ∧ (answerTo s a1 a2 a3).free = s.free ∧ (answerTo s a1 a2 a3).books = s.books ∧
    (answerTo s a1 a2 a3).boot = s.boot ∧ (answerTo s a1 a2 a3).pending = s.pending :=
  have m := answerTo_move (Move.refl [.hearths, .chans, .links, .works, .out] s) rfl
  ⟨m.cell rfl j, m.slot rfl j, m.spy rfl j, m.capture rfl j, m.group rfl j, m.hk rfl j, m.cone rfl j, m.engine rfl j, m.cluster rfl j, m.time rfl, m.log rfl, m.coll rfl, m.pair rfl, m.host rfl, m.pmb rfl, m.jtag rfl, m.free rfl, m.books rfl, m.boot rfl rfl rfl rfl, m.pending rfl⟩

@[simp] theorem freedOn_reads {a1 a2} (s : State) (j : Nat) :
    (freedOn s a1 a2).cell j = s.cell j ∧ (freedOn s a1 a2).slot j = s.slot j ∧ (freedOn s a1 a2).spy j = s.spy j ∧
    (freedOn s a1 a2).capture j = s.capture j ∧ (freedOn s a1 a2).group j = s.group j ∧ (freedOn s a1 a2).hk j = s.hk j ∧
    (freedOn s a1 a2).cone j = s.cone j ∧ (freedOn s a1 a2).engine j = s.engine j ∧ (freedOn s a1 a2).cluster j = s.cluster j ∧
    (freedOn s a1 a2).time = s.time ∧ (freedOn s a1 a2).log = s.log ∧ (freedOn s a1 a2).coll = s.coll ∧ (freedOn s a1 a2).pair = s.pair ∧
    (freedOn s a1 a2).host = s.host ∧ (freedOn s a1 a2).pmb = s.pmb ∧ (freedOn s a1 a2).jtag = s.jtag ∧ (freedOn s a1 a2).free = s.free ∧
    (freedOn s a1 a2).books = s.books ∧ (freedOn s a1 a2).boot = s.boot ∧ (freedOn s a1 a2).pending = s.pending :=
  have m := freedOn_move (Move.refl [.hearths, .chans, .links, .works, .out] s) rfl
  ⟨m.cell rfl j, m.slot rfl j, m.spy rfl j, m.capture rfl j, m.group rfl j, m.hk rfl j, m.cone rfl j, m.engine rfl j, m.cluster rfl j, m.time rfl, m.log rfl, m.coll rfl, m.pair rfl, m.host rfl, m.pmb rfl, m.jtag rfl, m.free rfl, m.books rfl, m.boot rfl rfl rfl rfl, m.pending rfl⟩

@[simp] theorem overCheck_reads {a1 a2} (s : State) (j : Nat) :
    (overCheck s a1 a2).cell j = s.cell j ∧ (overCheck s a1 a2).hearth j = s.hearth j ∧ (overCheck s a1 a2).slot j = s.slot j ∧
    (overCheck s a1 a2).spy j = s.spy j ∧ (overCheck s a1 a2).capture j = s.capture j ∧ (overCheck s a1 a2).group j = s.group j ∧
    (overCheck s a1 a2).hk j = s.hk j ∧ (overCheck s a1 a2).chan j = s.chan j ∧ (overCheck s a1 a2).cone j = s.cone j ∧
    (overCheck s a1 a2).engine j = s.engine j ∧ (overCheck s a1 a2).cluster j = s.cluster j ∧ (overCheck s a1 a2).link j = s.link j ∧
    (overCheck s a1 a2).time = s.time ∧ (overCheck s a1 a2).coll = s.coll ∧ (overCheck s a1 a2).pair = s.pair ∧
    (overCheck s a1 a2).works = s.works ∧ (overCheck s a1 a2).pmb = s.pmb ∧ (overCheck s a1 a2).jtag = s.jtag ∧
    (overCheck s a1 a2).out = s.out ∧ (overCheck s a1 a2).free = s.free ∧ (overCheck s a1 a2).books = s.books ∧
    (overCheck s a1 a2).boot = s.boot ∧ (overCheck s a1 a2).pending = s.pending :=
  have m := overCheck_move (Move.refl [.log, .host] s) rfl
  ⟨m.cell rfl j, m.hearth rfl j, m.slot rfl j, m.spy rfl j, m.capture rfl j, m.group rfl j, m.hk rfl j, m.chan rfl j, m.cone rfl j, m.engine rfl j, m.cluster rfl j, m.link rfl j, m.time rfl, m.coll rfl, m.pair rfl, m.works rfl, m.pmb rfl, m.jtag rfl, m.out rfl, m.free rfl, m.books rfl, m.boot rfl rfl rfl rfl, m.pending rfl⟩

@[simp] theorem keeperOp_reads {a1 a2 a3} (s : State) (j : Nat) :
    (keeperOp s a1 a2 a3).cell j = s.cell j ∧ (keeperOp s a1 a2 a3).slot j = s.slot j ∧ (keeperOp s a1 a2 a3).spy j = s.spy j ∧
    (keeperOp s a1 a2 a3).capture j = s.capture j ∧ (keeperOp s a1 a2 a3).group j = s.group j ∧ (keeperOp s a1 a2 a3).hk j = s.hk j ∧
    (keeperOp s a1 a2 a3).cone j = s.cone j ∧ (keeperOp s a1 a2 a3).engine j = s.engine j ∧ (keeperOp s a1 a2 a3).cluster j = s.cluster j ∧
    (keeperOp s a1 a2 a3).time = s.time ∧ (keeperOp s a1 a2 a3).coll = s.coll ∧ (keeperOp s a1 a2 a3).pair = s.pair ∧
    (keeperOp s a1 a2 a3).pmb = s.pmb ∧ (keeperOp s a1 a2 a3).jtag = s.jtag ∧ (keeperOp s a1 a2 a3).free = s.free ∧
    (keeperOp s a1 a2 a3).books = s.books ∧ (keeperOp s a1 a2 a3).boot = s.boot ∧ (keeperOp s a1 a2 a3).pending = s.pending :=
  have m := keeperOp_move (Move.refl [.hearths, .chans, .links, .log, .works, .host, .out] s) rfl
  ⟨m.cell rfl j, m.slot rfl j, m.spy rfl j, m.capture rfl j, m.group rfl j, m.hk rfl j, m.cone rfl j, m.engine rfl j, m.cluster rfl j, m.time rfl, m.coll rfl, m.pair rfl, m.pmb rfl, m.jtag rfl, m.free rfl, m.books rfl, m.boot rfl rfl rfl rfl, m.pending rfl⟩

@[simp] theorem ledgerSend_reads {a1 a2 a3} (s : State) (j : Nat) :
    (ledgerSend s a1 a2 a3).cell j = s.cell j ∧ (ledgerSend s a1 a2 a3).slot j = s.slot j ∧ (ledgerSend s a1 a2 a3).spy j = s.spy j ∧
    (ledgerSend s a1 a2 a3).capture j = s.capture j ∧ (ledgerSend s a1 a2 a3).group j = s.group j ∧ (ledgerSend s a1 a2 a3).hk j = s.hk j ∧
    (ledgerSend s a1 a2 a3).cone j = s.cone j ∧ (ledgerSend s a1 a2 a3).engine j = s.engine j ∧
    (ledgerSend s a1 a2 a3).cluster j = s.cluster j ∧ (ledgerSend s a1 a2 a3).time = s.time ∧ (ledgerSend s a1 a2 a3).coll = s.coll ∧
    (ledgerSend s a1 a2 a3).pair = s.pair ∧ (ledgerSend s a1 a2 a3).pmb = s.pmb ∧ (ledgerSend s a1 a2 a3).jtag = s.jtag ∧
    (ledgerSend s a1 a2 a3).free = s.free ∧ (ledgerSend s a1 a2 a3).books = s.books ∧ (ledgerSend s a1 a2 a3).boot = s.boot ∧
    (ledgerSend s a1 a2 a3).pending = s.pending :=
  have m := ledgerSend_move (Move.refl [.hearths, .chans, .links, .log, .works, .host, .out] s) rfl
  ⟨m.cell rfl j, m.slot rfl j, m.spy rfl j, m.capture rfl j, m.group rfl j, m.hk rfl j, m.cone rfl j, m.engine rfl j, m.cluster rfl j, m.time rfl, m.coll rfl, m.pair rfl, m.pmb rfl, m.jtag rfl, m.free rfl, m.books rfl, m.boot rfl rfl rfl rfl, m.pending rfl⟩

@[simp] theorem ledgerIn_reads {a1 a2 a3 a4} (s : State) (j : Nat) :
    (ledgerIn a1 a2 a3 a4 s).cell j = s.cell j ∧ (ledgerIn a1 a2 a3 a4 s).slot j = s.slot j ∧ (ledgerIn a1 a2 a3 a4 s).spy j = s.spy j ∧
    (ledgerIn a1 a2 a3 a4 s).capture j = s.capture j ∧ (ledgerIn a1 a2 a3 a4 s).group j = s.group j ∧ (ledgerIn a1 a2 a3 a4 s).hk j = s.hk j ∧
    (ledgerIn a1 a2 a3 a4 s).cone j = s.cone j ∧ (ledgerIn a1 a2 a3 a4 s).engine j = s.engine j ∧
    (ledgerIn a1 a2 a3 a4 s).cluster j = s.cluster j ∧ (ledgerIn a1 a2 a3 a4 s).time = s.time ∧ (ledgerIn a1 a2 a3 a4 s).coll = s.coll ∧
    (ledgerIn a1 a2 a3 a4 s).pair = s.pair ∧ (ledgerIn a1 a2 a3 a4 s).pmb = s.pmb ∧ (ledgerIn a1 a2 a3 a4 s).jtag = s.jtag ∧
    (ledgerIn a1 a2 a3 a4 s).free = s.free ∧ (ledgerIn a1 a2 a3 a4 s).books = s.books ∧ (ledgerIn a1 a2 a3 a4 s).boot = s.boot ∧
    (ledgerIn a1 a2 a3 a4 s).pending = s.pending :=
  have m := ledgerIn_move (Move.refl [.hearths, .chans, .links, .log, .works, .host, .out] s) rfl
  ⟨m.cell rfl j, m.slot rfl j, m.spy rfl j, m.capture rfl j, m.group rfl j, m.hk rfl j, m.cone rfl j, m.engine rfl j, m.cluster rfl j, m.time rfl, m.coll rfl, m.pair rfl, m.pmb rfl, m.jtag rfl, m.free rfl, m.books rfl, m.boot rfl rfl rfl rfl, m.pending rfl⟩

@[simp] theorem closeAnnounce_reads {a1 a2} (s : State) (j : Nat) :
    (closeAnnounce s a1 a2).cell j = s.cell j ∧ (closeAnnounce s a1 a2).slot j = s.slot j ∧ (closeAnnounce s a1 a2).spy j = s.spy j ∧
    (closeAnnounce s a1 a2).capture j = s.capture j ∧ (closeAnnounce s a1 a2).group j = s.group j ∧ (closeAnnounce s a1 a2).hk j = s.hk j ∧
    (closeAnnounce s a1 a2).cone j = s.cone j ∧ (closeAnnounce s a1 a2).engine j = s.engine j ∧
    (closeAnnounce s a1 a2).cluster j = s.cluster j ∧ (closeAnnounce s a1 a2).time = s.time ∧ (closeAnnounce s a1 a2).coll = s.coll ∧
    (closeAnnounce s a1 a2).pair = s.pair ∧ (closeAnnounce s a1 a2).pmb = s.pmb ∧ (closeAnnounce s a1 a2).jtag = s.jtag ∧
    (closeAnnounce s a1 a2).free = s.free ∧ (closeAnnounce s a1 a2).books = s.books ∧ (closeAnnounce s a1 a2).boot = s.boot ∧
    (closeAnnounce s a1 a2).pending = s.pending :=
  have m := closeAnnounce_move (Move.refl [.hearths, .chans, .links, .log, .works, .host, .out] s) rfl
  ⟨m.cell rfl j, m.slot rfl j, m.spy rfl j, m.capture rfl j, m.group rfl j, m.hk rfl j, m.cone rfl j, m.engine rfl j, m.cluster rfl j, m.time rfl, m.coll rfl, m.pair rfl, m.pmb rfl, m.jtag rfl, m.free rfl, m.books rfl, m.boot rfl rfl rfl rfl, m.pending rfl⟩

@[simp] theorem updBox_reads {a1 a2} (s : State) (j : Nat) :
    (updBox s a1 a2).cell j = s.cell j ∧ (updBox s a1 a2).hearth j = s.hearth j ∧ (updBox s a1 a2).slot j = s.slot j ∧
    (updBox s a1 a2).spy j = s.spy j ∧ (updBox s a1 a2).capture j = s.capture j ∧ (updBox s a1 a2).group j = s.group j ∧
    (updBox s a1 a2).hk j = s.hk j ∧ (updBox s a1 a2).chan j = s.chan j ∧ (updBox s a1 a2).cone j = s.cone j ∧
    (updBox s a1 a2).engine j = s.engine j ∧ (updBox s a1 a2).cluster j = s.cluster j ∧ (updBox s a1 a2).link j = s.link j ∧
    (updBox s a1 a2).time = s.time ∧ (updBox s a1 a2).log = s.log ∧ (updBox s a1 a2).coll = s.coll ∧ (updBox s a1 a2).pair = s.pair ∧
    (updBox s a1 a2).works = s.works ∧ (updBox s a1 a2).pmb = s.pmb ∧ (updBox s a1 a2).jtag = s.jtag ∧ (updBox s a1 a2).out = s.out ∧
    (updBox s a1 a2).free = s.free ∧ (updBox s a1 a2).books = s.books ∧ (updBox s a1 a2).boot = s.boot ∧
    (updBox s a1 a2).pending = s.pending :=
  have m := updBox_move (Move.refl [.host] s) rfl
  ⟨m.cell rfl j, m.hearth rfl j, m.slot rfl j, m.spy rfl j, m.capture rfl j, m.group rfl j, m.hk rfl j, m.chan rfl j, m.cone rfl j, m.engine rfl j, m.cluster rfl j, m.link rfl j, m.time rfl, m.log rfl, m.coll rfl, m.pair rfl, m.works rfl, m.pmb rfl, m.jtag rfl, m.out rfl, m.free rfl, m.books rfl, m.boot rfl rfl rfl rfl, m.pending rfl⟩

@[simp] theorem answerSend_reads {a1 a2 a3} (s : State) (j : Nat) :
    (answerSend s a1 a2 a3).cell j = s.cell j ∧ (answerSend s a1 a2 a3).hearth j = s.hearth j ∧ (answerSend s a1 a2 a3).slot j = s.slot j ∧
    (answerSend s a1 a2 a3).spy j = s.spy j ∧ (answerSend s a1 a2 a3).capture j = s.capture j ∧ (answerSend s a1 a2 a3).group j = s.group j ∧
    (answerSend s a1 a2 a3).hk j = s.hk j ∧ (answerSend s a1 a2 a3).chan j = s.chan j ∧ (answerSend s a1 a2 a3).cone j = s.cone j ∧
    (answerSend s a1 a2 a3).engine j = s.engine j ∧ (answerSend s a1 a2 a3).cluster j = s.cluster j ∧
    (answerSend s a1 a2 a3).link j = s.link j ∧ (answerSend s a1 a2 a3).time = s.time ∧ (answerSend s a1 a2 a3).log = s.log ∧
    (answerSend s a1 a2 a3).coll = s.coll ∧ (answerSend s a1 a2 a3).pair = s.pair ∧ (answerSend s a1 a2 a3).pmb = s.pmb ∧
    (answerSend s a1 a2 a3).jtag = s.jtag ∧ (answerSend s a1 a2 a3).out = s.out ∧ (answerSend s a1 a2 a3).free = s.free ∧
    (answerSend s a1 a2 a3).books = s.books ∧ (answerSend s a1 a2 a3).boot = s.boot ∧ (answerSend s a1 a2 a3).pending = s.pending :=
  have m := answerSend_move (Move.refl [.works, .host] s) rfl
  ⟨m.cell rfl j, m.hearth rfl j, m.slot rfl j, m.spy rfl j, m.capture rfl j, m.group rfl j, m.hk rfl j, m.chan rfl j, m.cone rfl j, m.engine rfl j, m.cluster rfl j, m.link rfl j, m.time rfl, m.log rfl, m.coll rfl, m.pair rfl, m.pmb rfl, m.jtag rfl, m.out rfl, m.free rfl, m.books rfl, m.boot rfl rfl rfl rfl, m.pending rfl⟩

@[simp] theorem flushFwd_reads {a1} (s : State) (j : Nat) :
    (flushFwd s a1).cell j = s.cell j ∧ (flushFwd s a1).hearth j = s.hearth j ∧ (flushFwd s a1).slot j = s.slot j ∧
    (flushFwd s a1).spy j = s.spy j ∧ (flushFwd s a1).capture j = s.capture j ∧ (flushFwd s a1).group j = s.group j ∧
    (flushFwd s a1).hk j = s.hk j ∧ (flushFwd s a1).chan j = s.chan j ∧ (flushFwd s a1).cone j = s.cone j ∧
    (flushFwd s a1).engine j = s.engine j ∧ (flushFwd s a1).cluster j = s.cluster j ∧ (flushFwd s a1).link j = s.link j ∧
    (flushFwd s a1).time = s.time ∧ (flushFwd s a1).log = s.log ∧ (flushFwd s a1).coll = s.coll ∧ (flushFwd s a1).pair = s.pair ∧
    (flushFwd s a1).pmb = s.pmb ∧ (flushFwd s a1).jtag = s.jtag ∧ (flushFwd s a1).free = s.free ∧ (flushFwd s a1).books = s.books ∧
    (flushFwd s a1).pending = s.pending :=
  have m := flushFwd_move (Move.refl [.boot, .works, .host, .out] s) rfl
  ⟨m.cell rfl j, m.hearth rfl j, m.slot rfl j, m.spy rfl j, m.capture rfl j, m.group rfl j, m.hk rfl j, m.chan rfl j, m.cone rfl j, m.engine rfl j, m.cluster rfl j, m.link rfl j, m.time rfl, m.log rfl, m.coll rfl, m.pair rfl, m.pmb rfl, m.jtag rfl, m.free rfl, m.books rfl, m.pending rfl⟩

@[simp] theorem setAnswer_reads {a1 a2 a3} (s : State) (j : Nat) :
    (setAnswer s a1 a2 a3).cell j = s.cell j ∧ (setAnswer s a1 a2 a3).hearth j = s.hearth j ∧ (setAnswer s a1 a2 a3).slot j = s.slot j ∧
    (setAnswer s a1 a2 a3).spy j = s.spy j ∧ (setAnswer s a1 a2 a3).capture j = s.capture j ∧ (setAnswer s a1 a2 a3).group j = s.group j ∧
    (setAnswer s a1 a2 a3).hk j = s.hk j ∧ (setAnswer s a1 a2 a3).chan j = s.chan j ∧ (setAnswer s a1 a2 a3).cone j = s.cone j ∧
    (setAnswer s a1 a2 a3).engine j = s.engine j ∧ (setAnswer s a1 a2 a3).cluster j = s.cluster j ∧ (setAnswer s a1 a2 a3).link j = s.link j ∧
    (setAnswer s a1 a2 a3).time = s.time ∧ (setAnswer s a1 a2 a3).log = s.log ∧ (setAnswer s a1 a2 a3).coll = s.coll ∧
    (setAnswer s a1 a2 a3).pair = s.pair ∧ (setAnswer s a1 a2 a3).pmb = s.pmb ∧ (setAnswer s a1 a2 a3).jtag = s.jtag ∧
    (setAnswer s a1 a2 a3).free = s.free ∧ (setAnswer s a1 a2 a3).books = s.books ∧ (setAnswer s a1 a2 a3).pending = s.pending :=
  have m := setAnswer_move (Move.refl [.boot, .works, .host, .out] s) rfl
  ⟨m.cell rfl j, m.hearth rfl j, m.slot rfl j, m.spy rfl j, m.capture rfl j, m.group rfl j, m.hk rfl j, m.chan rfl j, m.cone rfl j, m.engine rfl j, m.cluster rfl j, m.link rfl j, m.time rfl, m.log rfl, m.coll rfl, m.pair rfl, m.pmb rfl, m.jtag rfl, m.free rfl, m.books rfl, m.pending rfl⟩

@[simp] theorem lockWrite_reads {a1 a2 a3} (s : State) (j : Nat) :
    (lockWrite a1 a2 a3 s).cell j = s.cell j ∧ (lockWrite a1 a2 a3 s).hearth j = s.hearth j ∧ (lockWrite a1 a2 a3 s).slot j = s.slot j ∧
    (lockWrite a1 a2 a3 s).spy j = s.spy j ∧ (lockWrite a1 a2 a3 s).capture j = s.capture j ∧ (lockWrite a1 a2 a3 s).group j = s.group j ∧
    (lockWrite a1 a2 a3 s).hk j = s.hk j ∧ (lockWrite a1 a2 a3 s).chan j = s.chan j ∧ (lockWrite a1 a2 a3 s).cone j = s.cone j ∧
    (lockWrite a1 a2 a3 s).engine j = s.engine j ∧ (lockWrite a1 a2 a3 s).cluster j = s.cluster j ∧ (lockWrite a1 a2 a3 s).link j = s.link j ∧
    (lockWrite a1 a2 a3 s).time = s.time ∧ (lockWrite a1 a2 a3 s).log = s.log ∧ (lockWrite a1 a2 a3 s).coll = s.coll ∧
    (lockWrite a1 a2 a3 s).pair = s.pair ∧ (lockWrite a1 a2 a3 s).works = s.works ∧ (lockWrite a1 a2 a3 s).pmb = s.pmb ∧
    (lockWrite a1 a2 a3 s).jtag = s.jtag ∧ (lockWrite a1 a2 a3 s).out = s.out ∧ (lockWrite a1 a2 a3 s).free = s.free ∧
    (lockWrite a1 a2 a3 s).books = s.books ∧ (lockWrite a1 a2 a3 s).boot = s.boot ∧ (lockWrite a1 a2 a3 s).pending = s.pending :=
  have m := lockWrite_move (Move.refl [.host] s) rfl
  ⟨m.cell rfl j, m.hearth rfl j, m.slot rfl j, m.spy rfl j, m.capture rfl j, m.group rfl j, m.hk rfl j, m.chan rfl j, m.cone rfl j, m.engine rfl j, m.cluster rfl j, m.link rfl j, m.time rfl, m.log rfl, m.coll rfl, m.pair rfl, m.works rfl, m.pmb rfl, m.jtag rfl, m.out rfl, m.free rfl, m.books rfl, m.boot rfl rfl rfl rfl, m.pending rfl⟩

@[simp] theorem endCommand_reads {a1 a2 a3} (s : State) (j : Nat) :
    (endCommand s a1 a2 a3).cell j = s.cell j ∧ (endCommand s a1 a2 a3).hearth j = s.hearth j ∧ (endCommand s a1 a2 a3).slot j = s.slot j ∧
    (endCommand s a1 a2 a3).spy j = s.spy j ∧ (endCommand s a1 a2 a3).capture j = s.capture j ∧ (endCommand s a1 a2 a3).group j = s.group j ∧
    (endCommand s a1 a2 a3).hk j = s.hk j ∧ (endCommand s a1 a2 a3).chan j = s.chan j ∧ (endCommand s a1 a2 a3).cone j = s.cone j ∧
    (endCommand s a1 a2 a3).engine j = s.engine j ∧ (endCommand s a1 a2 a3).cluster j = s.cluster j ∧
    (endCommand s a1 a2 a3).link j = s.link j ∧ (endCommand s a1 a2 a3).time = s.time ∧ (endCommand s a1 a2 a3).log = s.log ∧
    (endCommand s a1 a2 a3).coll = s.coll ∧ (endCommand s a1 a2 a3).pair = s.pair ∧ (endCommand s a1 a2 a3).works = s.works ∧
    (endCommand s a1 a2 a3).pmb = s.pmb ∧ (endCommand s a1 a2 a3).jtag = s.jtag ∧ (endCommand s a1 a2 a3).free = s.free ∧
    (endCommand s a1 a2 a3).books = s.books ∧ (endCommand s a1 a2 a3).pending = s.pending :=
  have m := endCommand_move (Move.refl [.boot, .host, .out] s) rfl
  ⟨m.cell rfl j, m.hearth rfl j, m.slot rfl j, m.spy rfl j, m.capture rfl j, m.group rfl j, m.hk rfl j, m.chan rfl j, m.cone rfl j, m.engine rfl j, m.cluster rfl j, m.link rfl j, m.time rfl, m.log rfl, m.coll rfl, m.pair rfl, m.works rfl, m.pmb rfl, m.jtag rfl, m.free rfl, m.books rfl, m.pending rfl⟩

@[simp] theorem doorbell_reads {a1 a2 a3 a4 a5} (s : State) (j : Nat) :
    (doorbell a1 a2 a3 a4 a5 s).cell j = s.cell j ∧ (doorbell a1 a2 a3 a4 a5 s).hearth j = s.hearth j ∧
    (doorbell a1 a2 a3 a4 a5 s).slot j = s.slot j ∧ (doorbell a1 a2 a3 a4 a5 s).spy j = s.spy j ∧
    (doorbell a1 a2 a3 a4 a5 s).capture j = s.capture j ∧ (doorbell a1 a2 a3 a4 a5 s).group j = s.group j ∧
    (doorbell a1 a2 a3 a4 a5 s).hk j = s.hk j ∧ (doorbell a1 a2 a3 a4 a5 s).chan j = s.chan j ∧
    (doorbell a1 a2 a3 a4 a5 s).cone j = s.cone j ∧ (doorbell a1 a2 a3 a4 a5 s).engine j = s.engine j ∧
    (doorbell a1 a2 a3 a4 a5 s).cluster j = s.cluster j ∧ (doorbell a1 a2 a3 a4 a5 s).link j = s.link j ∧
    (doorbell a1 a2 a3 a4 a5 s).time = s.time ∧ (doorbell a1 a2 a3 a4 a5 s).log = s.log ∧ (doorbell a1 a2 a3 a4 a5 s).coll = s.coll ∧
    (doorbell a1 a2 a3 a4 a5 s).pair = s.pair ∧ (doorbell a1 a2 a3 a4 a5 s).works = s.works ∧ (doorbell a1 a2 a3 a4 a5 s).pmb = s.pmb ∧
    (doorbell a1 a2 a3 a4 a5 s).jtag = s.jtag ∧ (doorbell a1 a2 a3 a4 a5 s).free = s.free ∧ (doorbell a1 a2 a3 a4 a5 s).books = s.books ∧
    (doorbell a1 a2 a3 a4 a5 s).pending = s.pending :=
  have m := doorbell_move (Move.refl [.boot, .host, .out] s) rfl
  ⟨m.cell rfl j, m.hearth rfl j, m.slot rfl j, m.spy rfl j, m.capture rfl j, m.group rfl j, m.hk rfl j, m.chan rfl j, m.cone rfl j, m.engine rfl j, m.cluster rfl j, m.link rfl j, m.time rfl, m.log rfl, m.coll rfl, m.pair rfl, m.works rfl, m.pmb rfl, m.jtag rfl, m.free rfl, m.books rfl, m.pending rfl⟩

@[simp] theorem beginCmd_reads {a1} (s : State) (j : Nat) :
    (beginCmd s a1).cell j = s.cell j ∧ (beginCmd s a1).hearth j = s.hearth j ∧ (beginCmd s a1).slot j = s.slot j ∧
    (beginCmd s a1).spy j = s.spy j ∧ (beginCmd s a1).capture j = s.capture j ∧ (beginCmd s a1).group j = s.group j ∧
    (beginCmd s a1).hk j = s.hk j ∧ (beginCmd s a1).chan j = s.chan j ∧ (beginCmd s a1).cone j = s.cone j ∧
    (beginCmd s a1).engine j = s.engine j ∧ (beginCmd s a1).cluster j = s.cluster j ∧ (beginCmd s a1).link j = s.link j ∧
    (beginCmd s a1).time = s.time ∧ (beginCmd s a1).log = s.log ∧ (beginCmd s a1).coll = s.coll ∧ (beginCmd s a1).pair = s.pair ∧
    (beginCmd s a1).pmb = s.pmb ∧ (beginCmd s a1).jtag = s.jtag ∧ (beginCmd s a1).free = s.free ∧ (beginCmd s a1).books = s.books ∧
    (beginCmd s a1).pending = s.pending :=
  have m := beginCmd_move (Move.refl [.boot, .works, .host, .out] s) rfl
  ⟨m.cell rfl j, m.hearth rfl j, m.slot rfl j, m.spy rfl j, m.capture rfl j, m.group rfl j, m.hk rfl j, m.chan rfl j, m.cone rfl j, m.engine rfl j, m.cluster rfl j, m.link rfl j, m.time rfl, m.log rfl, m.coll rfl, m.pair rfl, m.pmb rfl, m.jtag rfl, m.free rfl, m.books rfl, m.pending rfl⟩

@[simp] theorem releaseDoorbells_reads (s : State) (j : Nat) :
    (releaseDoorbells s).cell j = s.cell j ∧ (releaseDoorbells s).hearth j = s.hearth j ∧ (releaseDoorbells s).slot j = s.slot j ∧
    (releaseDoorbells s).spy j = s.spy j ∧ (releaseDoorbells s).capture j = s.capture j ∧ (releaseDoorbells s).group j = s.group j ∧
    (releaseDoorbells s).hk j = s.hk j ∧ (releaseDoorbells s).chan j = s.chan j ∧ (releaseDoorbells s).cone j = s.cone j ∧
    (releaseDoorbells s).engine j = s.engine j ∧ (releaseDoorbells s).cluster j = s.cluster j ∧ (releaseDoorbells s).link j = s.link j ∧
    (releaseDoorbells s).time = s.time ∧ (releaseDoorbells s).log = s.log ∧ (releaseDoorbells s).coll = s.coll ∧
    (releaseDoorbells s).pair = s.pair ∧ (releaseDoorbells s).works = s.works ∧ (releaseDoorbells s).pmb = s.pmb ∧
    (releaseDoorbells s).jtag = s.jtag ∧ (releaseDoorbells s).out = s.out ∧ (releaseDoorbells s).free = s.free ∧
    (releaseDoorbells s).books = s.books ∧ (releaseDoorbells s).boot = s.boot ∧ (releaseDoorbells s).pending = s.pending :=
  have m := releaseDoorbells_move (Move.refl [.host] s) rfl
  ⟨m.cell rfl j, m.hearth rfl j, m.slot rfl j, m.spy rfl j, m.capture rfl j, m.group rfl j, m.hk rfl j, m.chan rfl j, m.cone rfl j, m.engine rfl j, m.cluster rfl j, m.link rfl j, m.time rfl, m.log rfl, m.coll rfl, m.pair rfl, m.works rfl, m.pmb rfl, m.jtag rfl, m.out rfl, m.free rfl, m.books rfl, m.boot rfl rfl rfl rfl, m.pending rfl⟩

@[simp] theorem queueFwd_reads {a1 a2 a3} (s : State) (j : Nat) :
    (queueFwd s a1 a2 a3).cell j = s.cell j ∧ (queueFwd s a1 a2 a3).hearth j = s.hearth j ∧ (queueFwd s a1 a2 a3).slot j = s.slot j ∧
    (queueFwd s a1 a2 a3).spy j = s.spy j ∧ (queueFwd s a1 a2 a3).capture j = s.capture j ∧ (queueFwd s a1 a2 a3).group j = s.group j ∧
    (queueFwd s a1 a2 a3).hk j = s.hk j ∧ (queueFwd s a1 a2 a3).chan j = s.chan j ∧ (queueFwd s a1 a2 a3).cone j = s.cone j ∧
    (queueFwd s a1 a2 a3).engine j = s.engine j ∧ (queueFwd s a1 a2 a3).cluster j = s.cluster j ∧ (queueFwd s a1 a2 a3).link j = s.link j ∧
    (queueFwd s a1 a2 a3).time = s.time ∧ (queueFwd s a1 a2 a3).log = s.log ∧ (queueFwd s a1 a2 a3).coll = s.coll ∧
    (queueFwd s a1 a2 a3).pair = s.pair ∧ (queueFwd s a1 a2 a3).pmb = s.pmb ∧ (queueFwd s a1 a2 a3).jtag = s.jtag ∧
    (queueFwd s a1 a2 a3).out = s.out ∧ (queueFwd s a1 a2 a3).free = s.free ∧ (queueFwd s a1 a2 a3).books = s.books ∧
    (queueFwd s a1 a2 a3).boot = s.boot ∧ (queueFwd s a1 a2 a3).pending = s.pending :=
  have m := queueFwd_move (Move.refl [.works, .host] s) rfl
  ⟨m.cell rfl j, m.hearth rfl j, m.slot rfl j, m.spy rfl j, m.capture rfl j, m.group rfl j, m.hk rfl j, m.chan rfl j, m.cone rfl j, m.engine rfl j, m.cluster rfl j, m.link rfl j, m.time rfl, m.log rfl, m.coll rfl, m.pair rfl, m.pmb rfl, m.jtag rfl, m.out rfl, m.free rfl, m.books rfl, m.boot rfl rfl rfl rfl, m.pending rfl⟩

@[simp] theorem sendCommand_reads {a1 a2} (s : State) (j : Nat) :
    (sendCommand s a1 a2).cell j = s.cell j ∧ (sendCommand s a1 a2).hearth j = s.hearth j ∧ (sendCommand s a1 a2).slot j = s.slot j ∧
    (sendCommand s a1 a2).spy j = s.spy j ∧ (sendCommand s a1 a2).capture j = s.capture j ∧ (sendCommand s a1 a2).group j = s.group j ∧
    (sendCommand s a1 a2).hk j = s.hk j ∧ (sendCommand s a1 a2).chan j = s.chan j ∧ (sendCommand s a1 a2).cone j = s.cone j ∧
    (sendCommand s a1 a2).engine j = s.engine j ∧ (sendCommand s a1 a2).cluster j = s.cluster j ∧ (sendCommand s a1 a2).link j = s.link j ∧
    (sendCommand s a1 a2).time = s.time ∧ (sendCommand s a1 a2).log = s.log ∧ (sendCommand s a1 a2).coll = s.coll ∧
    (sendCommand s a1 a2).pair = s.pair ∧ (sendCommand s a1 a2).pmb = s.pmb ∧ (sendCommand s a1 a2).jtag = s.jtag ∧
    (sendCommand s a1 a2).free = s.free ∧ (sendCommand s a1 a2).books = s.books ∧ (sendCommand s a1 a2).boot = s.boot ∧
    (sendCommand s a1 a2).pending = s.pending :=
  have m := sendCommand_move (Move.refl [.works, .host, .out] s) rfl
  ⟨m.cell rfl j, m.hearth rfl j, m.slot rfl j, m.spy rfl j, m.capture rfl j, m.group rfl j, m.hk rfl j, m.chan rfl j, m.cone rfl j, m.engine rfl j, m.cluster rfl j, m.link rfl j, m.time rfl, m.log rfl, m.coll rfl, m.pair rfl, m.pmb rfl, m.jtag rfl, m.free rfl, m.books rfl, m.boot rfl rfl rfl rfl, m.pending rfl⟩

@[simp] theorem askDevice_reads {a1 a2 a3} (s : State) (j : Nat) :
    (askDevice s a1 a2 a3).cell j = s.cell j ∧ (askDevice s a1 a2 a3).hearth j = s.hearth j ∧ (askDevice s a1 a2 a3).slot j = s.slot j ∧
    (askDevice s a1 a2 a3).spy j = s.spy j ∧ (askDevice s a1 a2 a3).capture j = s.capture j ∧ (askDevice s a1 a2 a3).group j = s.group j ∧
    (askDevice s a1 a2 a3).hk j = s.hk j ∧ (askDevice s a1 a2 a3).chan j = s.chan j ∧ (askDevice s a1 a2 a3).cone j = s.cone j ∧
    (askDevice s a1 a2 a3).engine j = s.engine j ∧ (askDevice s a1 a2 a3).cluster j = s.cluster j ∧ (askDevice s a1 a2 a3).link j = s.link j ∧
    (askDevice s a1 a2 a3).time = s.time ∧ (askDevice s a1 a2 a3).log = s.log ∧ (askDevice s a1 a2 a3).coll = s.coll ∧
    (askDevice s a1 a2 a3).pair = s.pair ∧ (askDevice s a1 a2 a3).pmb = s.pmb ∧ (askDevice s a1 a2 a3).jtag = s.jtag ∧
    (askDevice s a1 a2 a3).free = s.free ∧ (askDevice s a1 a2 a3).books = s.books ∧ (askDevice s a1 a2 a3).pending = s.pending :=
  have m := askDevice_move (Move.refl [.boot, .works, .host, .out] s) rfl
  ⟨m.cell rfl j, m.hearth rfl j, m.slot rfl j, m.spy rfl j, m.capture rfl j, m.group rfl j, m.hk rfl j, m.chan rfl j, m.cone rfl j, m.engine rfl j, m.cluster rfl j, m.link rfl j, m.time rfl, m.log rfl, m.coll rfl, m.pair rfl, m.pmb rfl, m.jtag rfl, m.free rfl, m.books rfl, m.pending rfl⟩

@[simp] theorem flashWrite_reads {a1 a2} (s : State) (j : Nat) :
    (flashWrite s a1 a2).cell j = s.cell j ∧ (flashWrite s a1 a2).hearth j = s.hearth j ∧ (flashWrite s a1 a2).slot j = s.slot j ∧
    (flashWrite s a1 a2).spy j = s.spy j ∧ (flashWrite s a1 a2).capture j = s.capture j ∧ (flashWrite s a1 a2).group j = s.group j ∧
    (flashWrite s a1 a2).hk j = s.hk j ∧ (flashWrite s a1 a2).chan j = s.chan j ∧ (flashWrite s a1 a2).cone j = s.cone j ∧
    (flashWrite s a1 a2).engine j = s.engine j ∧ (flashWrite s a1 a2).cluster j = s.cluster j ∧ (flashWrite s a1 a2).link j = s.link j ∧
    (flashWrite s a1 a2).time = s.time ∧ (flashWrite s a1 a2).log = s.log ∧ (flashWrite s a1 a2).coll = s.coll ∧
    (flashWrite s a1 a2).pair = s.pair ∧ (flashWrite s a1 a2).works = s.works ∧ (flashWrite s a1 a2).host = s.host ∧
    (flashWrite s a1 a2).pmb = s.pmb ∧ (flashWrite s a1 a2).jtag = s.jtag ∧ (flashWrite s a1 a2).out = s.out ∧
    (flashWrite s a1 a2).free = s.free ∧ (flashWrite s a1 a2).books = s.books ∧ (flashWrite s a1 a2).pending = s.pending :=
  have m := flashWrite_move (Move.refl [.flash] s) rfl
  ⟨m.cell rfl j, m.hearth rfl j, m.slot rfl j, m.spy rfl j, m.capture rfl j, m.group rfl j, m.hk rfl j, m.chan rfl j, m.cone rfl j, m.engine rfl j, m.cluster rfl j, m.link rfl j, m.time rfl, m.log rfl, m.coll rfl, m.pair rfl, m.works rfl, m.host rfl, m.pmb rfl, m.jtag rfl, m.out rfl, m.free rfl, m.books rfl, m.pending rfl⟩

@[simp] theorem writeRec_reads {a1} (s : State) (j : Nat) :
    (writeRec s a1).cell j = s.cell j ∧ (writeRec s a1).hearth j = s.hearth j ∧ (writeRec s a1).slot j = s.slot j ∧
    (writeRec s a1).spy j = s.spy j ∧ (writeRec s a1).capture j = s.capture j ∧ (writeRec s a1).group j = s.group j ∧
    (writeRec s a1).hk j = s.hk j ∧ (writeRec s a1).chan j = s.chan j ∧ (writeRec s a1).cone j = s.cone j ∧
    (writeRec s a1).engine j = s.engine j ∧ (writeRec s a1).cluster j = s.cluster j ∧ (writeRec s a1).link j = s.link j ∧
    (writeRec s a1).time = s.time ∧ (writeRec s a1).log = s.log ∧ (writeRec s a1).coll = s.coll ∧ (writeRec s a1).pair = s.pair ∧
    (writeRec s a1).works = s.works ∧ (writeRec s a1).host = s.host ∧ (writeRec s a1).pmb = s.pmb ∧ (writeRec s a1).jtag = s.jtag ∧
    (writeRec s a1).out = s.out ∧ (writeRec s a1).free = s.free ∧ (writeRec s a1).books = s.books ∧ (writeRec s a1).pending = s.pending :=
  have m := writeRec_move (Move.refl [.flash] s) rfl
  ⟨m.cell rfl j, m.hearth rfl j, m.slot rfl j, m.spy rfl j, m.capture rfl j, m.group rfl j, m.hk rfl j, m.chan rfl j, m.cone rfl j, m.engine rfl j, m.cluster rfl j, m.link rfl j, m.time rfl, m.log rfl, m.coll rfl, m.pair rfl, m.works rfl, m.host rfl, m.pmb rfl, m.jtag rfl, m.out rfl, m.free rfl, m.books rfl, m.pending rfl⟩

@[simp] theorem extendBytes_reads {a1 a2 a3 a4} (s : State) (j : Nat) :
    (extendBytes s a1 a2 a3 a4).cell j = s.cell j ∧ (extendBytes s a1 a2 a3 a4).hearth j = s.hearth j ∧
    (extendBytes s a1 a2 a3 a4).slot j = s.slot j ∧ (extendBytes s a1 a2 a3 a4).spy j = s.spy j ∧
    (extendBytes s a1 a2 a3 a4).capture j = s.capture j ∧ (extendBytes s a1 a2 a3 a4).group j = s.group j ∧
    (extendBytes s a1 a2 a3 a4).hk j = s.hk j ∧ (extendBytes s a1 a2 a3 a4).chan j = s.chan j ∧
    (extendBytes s a1 a2 a3 a4).cone j = s.cone j ∧ (extendBytes s a1 a2 a3 a4).engine j = s.engine j ∧
    (extendBytes s a1 a2 a3 a4).cluster j = s.cluster j ∧ (extendBytes s a1 a2 a3 a4).link j = s.link j ∧
    (extendBytes s a1 a2 a3 a4).time = s.time ∧ (extendBytes s a1 a2 a3 a4).log = s.log ∧ (extendBytes s a1 a2 a3 a4).coll = s.coll ∧
    (extendBytes s a1 a2 a3 a4).pair = s.pair ∧ (extendBytes s a1 a2 a3 a4).works = s.works ∧ (extendBytes s a1 a2 a3 a4).host = s.host ∧
    (extendBytes s a1 a2 a3 a4).pmb = s.pmb ∧ (extendBytes s a1 a2 a3 a4).jtag = s.jtag ∧ (extendBytes s a1 a2 a3 a4).out = s.out ∧
    (extendBytes s a1 a2 a3 a4).free = s.free ∧ (extendBytes s a1 a2 a3 a4).books = s.books ∧
    (extendBytes s a1 a2 a3 a4).pending = s.pending :=
  have m := extendBytes_move (Move.refl [.measured] s) rfl
  ⟨m.cell rfl j, m.hearth rfl j, m.slot rfl j, m.spy rfl j, m.capture rfl j, m.group rfl j, m.hk rfl j, m.chan rfl j, m.cone rfl j, m.engine rfl j, m.cluster rfl j, m.link rfl j, m.time rfl, m.log rfl, m.coll rfl, m.pair rfl, m.works rfl, m.host rfl, m.pmb rfl, m.jtag rfl, m.out rfl, m.free rfl, m.books rfl, m.pending rfl⟩

@[simp] theorem extendSlot_reads {a1 a2 a3} (s : State) (j : Nat) :
    (extendSlot s a1 a2 a3).cell j = s.cell j ∧ (extendSlot s a1 a2 a3).hearth j = s.hearth j ∧ (extendSlot s a1 a2 a3).slot j = s.slot j ∧
    (extendSlot s a1 a2 a3).spy j = s.spy j ∧ (extendSlot s a1 a2 a3).capture j = s.capture j ∧ (extendSlot s a1 a2 a3).group j = s.group j ∧
    (extendSlot s a1 a2 a3).hk j = s.hk j ∧ (extendSlot s a1 a2 a3).chan j = s.chan j ∧ (extendSlot s a1 a2 a3).cone j = s.cone j ∧
    (extendSlot s a1 a2 a3).engine j = s.engine j ∧ (extendSlot s a1 a2 a3).cluster j = s.cluster j ∧
    (extendSlot s a1 a2 a3).link j = s.link j ∧ (extendSlot s a1 a2 a3).time = s.time ∧ (extendSlot s a1 a2 a3).log = s.log ∧
    (extendSlot s a1 a2 a3).coll = s.coll ∧ (extendSlot s a1 a2 a3).pair = s.pair ∧ (extendSlot s a1 a2 a3).works = s.works ∧
    (extendSlot s a1 a2 a3).host = s.host ∧ (extendSlot s a1 a2 a3).pmb = s.pmb ∧ (extendSlot s a1 a2 a3).jtag = s.jtag ∧
    (extendSlot s a1 a2 a3).out = s.out ∧ (extendSlot s a1 a2 a3).free = s.free ∧ (extendSlot s a1 a2 a3).books = s.books ∧
    (extendSlot s a1 a2 a3).pending = s.pending :=
  have m := extendSlot_move (Move.refl [.measured] s) rfl
  ⟨m.cell rfl j, m.hearth rfl j, m.slot rfl j, m.spy rfl j, m.capture rfl j, m.group rfl j, m.hk rfl j, m.chan rfl j, m.cone rfl j, m.engine rfl j, m.cluster rfl j, m.link rfl j, m.time rfl, m.log rfl, m.coll rfl, m.pair rfl, m.works rfl, m.host rfl, m.pmb rfl, m.jtag rfl, m.out rfl, m.free rfl, m.books rfl, m.pending rfl⟩

@[simp] theorem noteCause_reads {a1} (s : State) (j : Nat) :
    (noteCause s a1).cell j = s.cell j ∧ (noteCause s a1).hearth j = s.hearth j ∧ (noteCause s a1).slot j = s.slot j ∧
    (noteCause s a1).spy j = s.spy j ∧ (noteCause s a1).capture j = s.capture j ∧ (noteCause s a1).group j = s.group j ∧
    (noteCause s a1).hk j = s.hk j ∧ (noteCause s a1).chan j = s.chan j ∧ (noteCause s a1).cone j = s.cone j ∧
    (noteCause s a1).engine j = s.engine j ∧ (noteCause s a1).cluster j = s.cluster j ∧ (noteCause s a1).link j = s.link j ∧
    (noteCause s a1).time = s.time ∧ (noteCause s a1).log = s.log ∧ (noteCause s a1).coll = s.coll ∧ (noteCause s a1).pair = s.pair ∧
    (noteCause s a1).works = s.works ∧ (noteCause s a1).host = s.host ∧ (noteCause s a1).pmb = s.pmb ∧ (noteCause s a1).jtag = s.jtag ∧
    (noteCause s a1).out = s.out ∧ (noteCause s a1).free = s.free ∧ (noteCause s a1).books = s.books ∧ (noteCause s a1).pending = s.pending :=
  have m := noteCause_move (Move.refl [.boot] s) rfl
  ⟨m.cell rfl j, m.hearth rfl j, m.slot rfl j, m.spy rfl j, m.capture rfl j, m.group rfl j, m.hk rfl j, m.chan rfl j, m.cone rfl j, m.engine rfl j, m.cluster rfl j, m.link rfl j, m.time rfl, m.log rfl, m.coll rfl, m.pair rfl, m.works rfl, m.host rfl, m.pmb rfl, m.jtag rfl, m.out rfl, m.free rfl, m.books rfl, m.pending rfl⟩

@[simp] theorem latchSlot_reads {a1 a2 a3} (s : State) (j : Nat) :
    (latchSlot s a1 a2 a3).cell j = s.cell j ∧ (latchSlot s a1 a2 a3).hearth j = s.hearth j ∧ (latchSlot s a1 a2 a3).slot j = s.slot j ∧
    (latchSlot s a1 a2 a3).spy j = s.spy j ∧ (latchSlot s a1 a2 a3).capture j = s.capture j ∧ (latchSlot s a1 a2 a3).group j = s.group j ∧
    (latchSlot s a1 a2 a3).hk j = s.hk j ∧ (latchSlot s a1 a2 a3).chan j = s.chan j ∧ (latchSlot s a1 a2 a3).cone j = s.cone j ∧
    (latchSlot s a1 a2 a3).engine j = s.engine j ∧ (latchSlot s a1 a2 a3).link j = s.link j ∧ (latchSlot s a1 a2 a3).time = s.time ∧
    (latchSlot s a1 a2 a3).log = s.log ∧ (latchSlot s a1 a2 a3).coll = s.coll ∧ (latchSlot s a1 a2 a3).pair = s.pair ∧
    (latchSlot s a1 a2 a3).works = s.works ∧ (latchSlot s a1 a2 a3).host = s.host ∧ (latchSlot s a1 a2 a3).pmb = s.pmb ∧
    (latchSlot s a1 a2 a3).jtag = s.jtag ∧ (latchSlot s a1 a2 a3).out = s.out ∧ (latchSlot s a1 a2 a3).free = s.free ∧
    (latchSlot s a1 a2 a3).books = s.books ∧ (latchSlot s a1 a2 a3).boot = s.boot ∧ (latchSlot s a1 a2 a3).pending = s.pending :=
  have m := latchSlot_move (Move.refl [.clusters] s) rfl
  ⟨m.cell rfl j, m.hearth rfl j, m.slot rfl j, m.spy rfl j, m.capture rfl j, m.group rfl j, m.hk rfl j, m.chan rfl j, m.cone rfl j, m.engine rfl j, m.link rfl j, m.time rfl, m.log rfl, m.coll rfl, m.pair rfl, m.works rfl, m.host rfl, m.pmb rfl, m.jtag rfl, m.out rfl, m.free rfl, m.books rfl, m.boot rfl rfl rfl rfl, m.pending rfl⟩

@[simp] theorem startTsnsFault_reads {a1 a2} (s : State) (j : Nat) :
    (startTsnsFault s a1 a2).cell j = s.cell j ∧ (startTsnsFault s a1 a2).hearth j = s.hearth j ∧ (startTsnsFault s a1 a2).slot j = s.slot j ∧
    (startTsnsFault s a1 a2).spy j = s.spy j ∧ (startTsnsFault s a1 a2).capture j = s.capture j ∧
    (startTsnsFault s a1 a2).group j = s.group j ∧ (startTsnsFault s a1 a2).hk j = s.hk j ∧ (startTsnsFault s a1 a2).chan j = s.chan j ∧
    (startTsnsFault s a1 a2).engine j = s.engine j ∧ (startTsnsFault s a1 a2).cluster j = s.cluster j ∧
    (startTsnsFault s a1 a2).link j = s.link j ∧ (startTsnsFault s a1 a2).time = s.time ∧ (startTsnsFault s a1 a2).pair = s.pair ∧
    (startTsnsFault s a1 a2).works = s.works ∧ (startTsnsFault s a1 a2).pmb = s.pmb ∧ (startTsnsFault s a1 a2).jtag = s.jtag ∧
    (startTsnsFault s a1 a2).free = s.free ∧ (startTsnsFault s a1 a2).books = s.books ∧ (startTsnsFault s a1 a2).pending = s.pending :=
  have m := startTsnsFault_move (Move.refl [.cones, .boot, .log, .coll, .host, .out] s) rfl
  ⟨m.cell rfl j, m.hearth rfl j, m.slot rfl j, m.spy rfl j, m.capture rfl j, m.group rfl j, m.hk rfl j, m.chan rfl j, m.engine rfl j, m.cluster rfl j, m.link rfl j, m.time rfl, m.pair rfl, m.works rfl, m.pmb rfl, m.jtag rfl, m.free rfl, m.books rfl, m.pending rfl⟩

@[simp] theorem soloEvent_reads {a1 a2 a3} (s : State) (j : Nat) :
    (soloEvent s a1 a2 a3).cell j = s.cell j ∧ (soloEvent s a1 a2 a3).slot j = s.slot j ∧ (soloEvent s a1 a2 a3).spy j = s.spy j ∧
    (soloEvent s a1 a2 a3).capture j = s.capture j ∧ (soloEvent s a1 a2 a3).group j = s.group j ∧ (soloEvent s a1 a2 a3).hk j = s.hk j ∧
    (soloEvent s a1 a2 a3).cone j = s.cone j ∧ (soloEvent s a1 a2 a3).engine j = s.engine j ∧ (soloEvent s a1 a2 a3).cluster j = s.cluster j ∧
    (soloEvent s a1 a2 a3).time = s.time ∧ (soloEvent s a1 a2 a3).log = s.log ∧ (soloEvent s a1 a2 a3).coll = s.coll ∧
    (soloEvent s a1 a2 a3).pair = s.pair ∧ (soloEvent s a1 a2 a3).works = s.works ∧ (soloEvent s a1 a2 a3).host = s.host ∧
    (soloEvent s a1 a2 a3).pmb = s.pmb ∧ (soloEvent s a1 a2 a3).jtag = s.jtag ∧ (soloEvent s a1 a2 a3).free = s.free ∧
    (soloEvent s a1 a2 a3).books = s.books ∧ (soloEvent s a1 a2 a3).boot = s.boot ∧ (soloEvent s a1 a2 a3).pending = s.pending :=
  have m := soloEvent_move (Move.refl [.hearths, .chans, .links, .out] s) rfl
  ⟨m.cell rfl j, m.slot rfl j, m.spy rfl j, m.capture rfl j, m.group rfl j, m.hk rfl j, m.cone rfl j, m.engine rfl j, m.cluster rfl j, m.time rfl, m.log rfl, m.coll rfl, m.pair rfl, m.works rfl, m.host rfl, m.pmb rfl, m.jtag rfl, m.free rfl, m.books rfl, m.boot rfl rfl rfl rfl, m.pending rfl⟩

@[simp] theorem tripDue_reads {a1 a2} (s : State) (j : Nat) :
    (tripDue s a1 a2).slot j = s.slot j ∧ (tripDue s a1 a2).spy j = s.spy j ∧ (tripDue s a1 a2).capture j = s.capture j ∧
    (tripDue s a1 a2).group j = s.group j ∧ (tripDue s a1 a2).cone j = s.cone j ∧ (tripDue s a1 a2).engine j = s.engine j ∧
    (tripDue s a1 a2).cluster j = s.cluster j ∧ (tripDue s a1 a2).time = s.time ∧ (tripDue s a1 a2).log = s.log ∧
    (tripDue s a1 a2).coll = s.coll ∧ (tripDue s a1 a2).pair = s.pair ∧ (tripDue s a1 a2).works = s.works ∧ (tripDue s a1 a2).host = s.host ∧
    (tripDue s a1 a2).pmb = s.pmb ∧ (tripDue s a1 a2).jtag = s.jtag ∧ (tripDue s a1 a2).free = s.free ∧ (tripDue s a1 a2).books = s.books ∧
    (tripDue s a1 a2).boot = s.boot ∧ (tripDue s a1 a2).pending = s.pending :=
  have m := tripDue_move (Move.refl [.cells, .hearths, .hks, .chans, .links, .out] s) rfl
  ⟨m.slot rfl j, m.spy rfl j, m.capture rfl j, m.group rfl j, m.cone rfl j, m.engine rfl j, m.cluster rfl j, m.time rfl, m.log rfl, m.coll rfl, m.pair rfl, m.works rfl, m.host rfl, m.pmb rfl, m.jtag rfl, m.free rfl, m.books rfl, m.boot rfl rfl rfl rfl, m.pending rfl⟩

@[simp] theorem rampBreak_reads {a1 a2} (s : State) (j : Nat) :
    (rampBreak s a1 a2).cell j = s.cell j ∧ (rampBreak s a1 a2).hearth j = s.hearth j ∧ (rampBreak s a1 a2).slot j = s.slot j ∧
    (rampBreak s a1 a2).spy j = s.spy j ∧ (rampBreak s a1 a2).capture j = s.capture j ∧ (rampBreak s a1 a2).group j = s.group j ∧
    (rampBreak s a1 a2).hk j = s.hk j ∧ (rampBreak s a1 a2).cone j = s.cone j ∧ (rampBreak s a1 a2).engine j = s.engine j ∧
    (rampBreak s a1 a2).cluster j = s.cluster j ∧ (rampBreak s a1 a2).link j = s.link j ∧ (rampBreak s a1 a2).time = s.time ∧
    (rampBreak s a1 a2).log = s.log ∧ (rampBreak s a1 a2).coll = s.coll ∧ (rampBreak s a1 a2).pair = s.pair ∧
    (rampBreak s a1 a2).works = s.works ∧ (rampBreak s a1 a2).host = s.host ∧ (rampBreak s a1 a2).pmb = s.pmb ∧
    (rampBreak s a1 a2).jtag = s.jtag ∧ (rampBreak s a1 a2).out = s.out ∧ (rampBreak s a1 a2).free = s.free ∧
    (rampBreak s a1 a2).books = s.books ∧ (rampBreak s a1 a2).boot = s.boot ∧ (rampBreak s a1 a2).pending = s.pending :=
  have m := rampBreak_move (Move.refl [.chans] s) rfl
  ⟨m.cell rfl j, m.hearth rfl j, m.slot rfl j, m.spy rfl j, m.capture rfl j, m.group rfl j, m.hk rfl j, m.cone rfl j, m.engine rfl j, m.cluster rfl j, m.link rfl j, m.time rfl, m.log rfl, m.coll rfl, m.pair rfl, m.works rfl, m.host rfl, m.pmb rfl, m.jtag rfl, m.out rfl, m.free rfl, m.books rfl, m.boot rfl rfl rfl rfl, m.pending rfl⟩

@[simp] theorem rampTick_reads {a1 a2 a3 a4 a5} (s : State) (j : Nat) :
    (rampTick s a1 a2 a3 a4 a5).slot j = s.slot j ∧ (rampTick s a1 a2 a3 a4 a5).spy j = s.spy j ∧
    (rampTick s a1 a2 a3 a4 a5).capture j = s.capture j ∧ (rampTick s a1 a2 a3 a4 a5).group j = s.group j ∧
    (rampTick s a1 a2 a3 a4 a5).cone j = s.cone j ∧ (rampTick s a1 a2 a3 a4 a5).engine j = s.engine j ∧
    (rampTick s a1 a2 a3 a4 a5).cluster j = s.cluster j ∧ (rampTick s a1 a2 a3 a4 a5).time = s.time ∧
    (rampTick s a1 a2 a3 a4 a5).log = s.log ∧ (rampTick s a1 a2 a3 a4 a5).coll = s.coll ∧ (rampTick s a1 a2 a3 a4 a5).pair = s.pair ∧
    (rampTick s a1 a2 a3 a4 a5).works = s.works ∧ (rampTick s a1 a2 a3 a4 a5).host = s.host ∧ (rampTick s a1 a2 a3 a4 a5).pmb = s.pmb ∧
    (rampTick s a1 a2 a3 a4 a5).jtag = s.jtag ∧ (rampTick s a1 a2 a3 a4 a5).free = s.free ∧ (rampTick s a1 a2 a3 a4 a5).books = s.books ∧
    (rampTick s a1 a2 a3 a4 a5).boot = s.boot ∧ (rampTick s a1 a2 a3 a4 a5).pending = s.pending :=
  have m := rampTick_move (Move.refl [.cells, .hearths, .hks, .chans, .links, .out] s) rfl
  ⟨m.slot rfl j, m.spy rfl j, m.capture rfl j, m.group rfl j, m.cone rfl j, m.engine rfl j, m.cluster rfl j, m.time rfl, m.log rfl, m.coll rfl, m.pair rfl, m.works rfl, m.host rfl, m.pmb rfl, m.jtag rfl, m.free rfl, m.books rfl, m.boot rfl rfl rfl rfl, m.pending rfl⟩

@[simp] theorem drainTick_reads {a1} (s : State) (j : Nat) :
    (drainTick s a1).cell j = s.cell j ∧ (drainTick s a1).hearth j = s.hearth j ∧ (drainTick s a1).slot j = s.slot j ∧
    (drainTick s a1).spy j = s.spy j ∧ (drainTick s a1).capture j = s.capture j ∧ (drainTick s a1).group j = s.group j ∧
    (drainTick s a1).hk j = s.hk j ∧ (drainTick s a1).cone j = s.cone j ∧ (drainTick s a1).engine j = s.engine j ∧
    (drainTick s a1).cluster j = s.cluster j ∧ (drainTick s a1).link j = s.link j ∧ (drainTick s a1).time = s.time ∧
    (drainTick s a1).log = s.log ∧ (drainTick s a1).coll = s.coll ∧ (drainTick s a1).pair = s.pair ∧ (drainTick s a1).works = s.works ∧
    (drainTick s a1).host = s.host ∧ (drainTick s a1).pmb = s.pmb ∧ (drainTick s a1).jtag = s.jtag ∧ (drainTick s a1).out = s.out ∧
    (drainTick s a1).free = s.free ∧ (drainTick s a1).books = s.books ∧ (drainTick s a1).boot = s.boot ∧
    (drainTick s a1).pending = s.pending :=
  have m := drainTick_move (Move.refl [.chans] s) rfl
  ⟨m.cell rfl j, m.hearth rfl j, m.slot rfl j, m.spy rfl j, m.capture rfl j, m.group rfl j, m.hk rfl j, m.cone rfl j, m.engine rfl j, m.cluster rfl j, m.link rfl j, m.time rfl, m.log rfl, m.coll rfl, m.pair rfl, m.works rfl, m.host rfl, m.pmb rfl, m.jtag rfl, m.out rfl, m.free rfl, m.books rfl, m.boot rfl rfl rfl rfl, m.pending rfl⟩

@[simp] theorem uvTick_reads {a1} (s : State) (j : Nat) :
    (uvTick s a1).cell j = s.cell j ∧ (uvTick s a1).hearth j = s.hearth j ∧ (uvTick s a1).slot j = s.slot j ∧ (uvTick s a1).spy j = s.spy j ∧
    (uvTick s a1).capture j = s.capture j ∧ (uvTick s a1).group j = s.group j ∧ (uvTick s a1).hk j = s.hk j ∧
    (uvTick s a1).cone j = s.cone j ∧ (uvTick s a1).engine j = s.engine j ∧ (uvTick s a1).cluster j = s.cluster j ∧
    (uvTick s a1).link j = s.link j ∧ (uvTick s a1).time = s.time ∧ (uvTick s a1).pair = s.pair ∧ (uvTick s a1).works = s.works ∧
    (uvTick s a1).pmb = s.pmb ∧ (uvTick s a1).jtag = s.jtag ∧ (uvTick s a1).out = s.out ∧ (uvTick s a1).free = s.free ∧
    (uvTick s a1).books = s.books ∧ (uvTick s a1).boot = s.boot ∧ (uvTick s a1).pending = s.pending :=
  have m := uvTick_move (Move.refl [.chans, .log, .coll, .host] s) rfl
  ⟨m.cell rfl j, m.hearth rfl j, m.slot rfl j, m.spy rfl j, m.capture rfl j, m.group rfl j, m.hk rfl j, m.cone rfl j, m.engine rfl j, m.cluster rfl j, m.link rfl j, m.time rfl, m.pair rfl, m.works rfl, m.pmb rfl, m.jtag rfl, m.out rfl, m.free rfl, m.books rfl, m.boot rfl rfl rfl rfl, m.pending rfl⟩

@[simp] theorem fullBreak_reads {a1} (s : State) (j : Nat) :
    (fullBreak s a1).cell j = s.cell j ∧ (fullBreak s a1).hearth j = s.hearth j ∧ (fullBreak s a1).slot j = s.slot j ∧
    (fullBreak s a1).spy j = s.spy j ∧ (fullBreak s a1).capture j = s.capture j ∧ (fullBreak s a1).group j = s.group j ∧
    (fullBreak s a1).hk j = s.hk j ∧ (fullBreak s a1).cone j = s.cone j ∧ (fullBreak s a1).engine j = s.engine j ∧
    (fullBreak s a1).cluster j = s.cluster j ∧ (fullBreak s a1).link j = s.link j ∧ (fullBreak s a1).time = s.time ∧
    (fullBreak s a1).log = s.log ∧ (fullBreak s a1).coll = s.coll ∧ (fullBreak s a1).pair = s.pair ∧ (fullBreak s a1).works = s.works ∧
    (fullBreak s a1).host = s.host ∧ (fullBreak s a1).pmb = s.pmb ∧ (fullBreak s a1).jtag = s.jtag ∧ (fullBreak s a1).out = s.out ∧
    (fullBreak s a1).free = s.free ∧ (fullBreak s a1).books = s.books ∧ (fullBreak s a1).boot = s.boot ∧
    (fullBreak s a1).pending = s.pending :=
  have m := fullBreak_move (Move.refl [.chans] s) rfl
  ⟨m.cell rfl j, m.hearth rfl j, m.slot rfl j, m.spy rfl j, m.capture rfl j, m.group rfl j, m.hk rfl j, m.cone rfl j, m.engine rfl j, m.cluster rfl j, m.link rfl j, m.time rfl, m.log rfl, m.coll rfl, m.pair rfl, m.works rfl, m.host rfl, m.pmb rfl, m.jtag rfl, m.out rfl, m.free rfl, m.books rfl, m.boot rfl rfl rfl rfl, m.pending rfl⟩

@[simp] theorem fullCount_reads {a1 a2 a3} (s : State) (j : Nat) :
    (fullCount s a1 a2 a3).cell j = s.cell j ∧ (fullCount s a1 a2 a3).hearth j = s.hearth j ∧ (fullCount s a1 a2 a3).slot j = s.slot j ∧
    (fullCount s a1 a2 a3).spy j = s.spy j ∧ (fullCount s a1 a2 a3).capture j = s.capture j ∧ (fullCount s a1 a2 a3).group j = s.group j ∧
    (fullCount s a1 a2 a3).hk j = s.hk j ∧ (fullCount s a1 a2 a3).cone j = s.cone j ∧ (fullCount s a1 a2 a3).engine j = s.engine j ∧
    (fullCount s a1 a2 a3).cluster j = s.cluster j ∧ (fullCount s a1 a2 a3).link j = s.link j ∧ (fullCount s a1 a2 a3).time = s.time ∧
    (fullCount s a1 a2 a3).log = s.log ∧ (fullCount s a1 a2 a3).coll = s.coll ∧ (fullCount s a1 a2 a3).pair = s.pair ∧
    (fullCount s a1 a2 a3).works = s.works ∧ (fullCount s a1 a2 a3).host = s.host ∧ (fullCount s a1 a2 a3).pmb = s.pmb ∧
    (fullCount s a1 a2 a3).jtag = s.jtag ∧ (fullCount s a1 a2 a3).out = s.out ∧ (fullCount s a1 a2 a3).free = s.free ∧
    (fullCount s a1 a2 a3).books = s.books ∧ (fullCount s a1 a2 a3).boot = s.boot ∧ (fullCount s a1 a2 a3).pending = s.pending :=
  have m := fullCount_move (Move.refl [.chans] s) rfl
  ⟨m.cell rfl j, m.hearth rfl j, m.slot rfl j, m.spy rfl j, m.capture rfl j, m.group rfl j, m.hk rfl j, m.cone rfl j, m.engine rfl j, m.cluster rfl j, m.link rfl j, m.time rfl, m.log rfl, m.coll rfl, m.pair rfl, m.works rfl, m.host rfl, m.pmb rfl, m.jtag rfl, m.out rfl, m.free rfl, m.books rfl, m.boot rfl rfl rfl rfl, m.pending rfl⟩

@[simp] theorem answerChan_reads {a1 a2 a3 a4} (s : State) (j : Nat) :
    (answerChan s a1 a2 a3 a4).cell j = s.cell j ∧ (answerChan s a1 a2 a3 a4).hearth j = s.hearth j ∧
    (answerChan s a1 a2 a3 a4).slot j = s.slot j ∧ (answerChan s a1 a2 a3 a4).spy j = s.spy j ∧
    (answerChan s a1 a2 a3 a4).capture j = s.capture j ∧ (answerChan s a1 a2 a3 a4).group j = s.group j ∧
    (answerChan s a1 a2 a3 a4).hk j = s.hk j ∧ (answerChan s a1 a2 a3 a4).chan j = s.chan j ∧ (answerChan s a1 a2 a3 a4).cone j = s.cone j ∧
    (answerChan s a1 a2 a3 a4).engine j = s.engine j ∧ (answerChan s a1 a2 a3 a4).cluster j = s.cluster j ∧
    (answerChan s a1 a2 a3 a4).link j = s.link j ∧ (answerChan s a1 a2 a3 a4).time = s.time ∧ (answerChan s a1 a2 a3 a4).pair = s.pair ∧
    (answerChan s a1 a2 a3 a4).works = s.works ∧ (answerChan s a1 a2 a3 a4).pmb = s.pmb ∧ (answerChan s a1 a2 a3 a4).jtag = s.jtag ∧
    (answerChan s a1 a2 a3 a4).free = s.free ∧ (answerChan s a1 a2 a3 a4).books = s.books ∧ (answerChan s a1 a2 a3 a4).pending = s.pending :=
  have m := answerChan_move (Move.refl [.boot, .log, .coll, .host, .out] s) rfl
  ⟨m.cell rfl j, m.hearth rfl j, m.slot rfl j, m.spy rfl j, m.capture rfl j, m.group rfl j, m.hk rfl j, m.chan rfl j, m.cone rfl j, m.engine rfl j, m.cluster rfl j, m.link rfl j, m.time rfl, m.pair rfl, m.works rfl, m.pmb rfl, m.jtag rfl, m.free rfl, m.books rfl, m.pending rfl⟩

@[simp] theorem breakerNow_reads {a1 a2} (s : State) (j : Nat) :
    (breakerNow s a1 a2).cell j = s.cell j ∧ (breakerNow s a1 a2).hearth j = s.hearth j ∧ (breakerNow s a1 a2).slot j = s.slot j ∧
    (breakerNow s a1 a2).spy j = s.spy j ∧ (breakerNow s a1 a2).capture j = s.capture j ∧ (breakerNow s a1 a2).group j = s.group j ∧
    (breakerNow s a1 a2).hk j = s.hk j ∧ (breakerNow s a1 a2).cone j = s.cone j ∧ (breakerNow s a1 a2).engine j = s.engine j ∧
    (breakerNow s a1 a2).cluster j = s.cluster j ∧ (breakerNow s a1 a2).link j = s.link j ∧ (breakerNow s a1 a2).time = s.time ∧
    (breakerNow s a1 a2).log = s.log ∧ (breakerNow s a1 a2).coll = s.coll ∧ (breakerNow s a1 a2).pair = s.pair ∧
    (breakerNow s a1 a2).works = s.works ∧ (breakerNow s a1 a2).host = s.host ∧ (breakerNow s a1 a2).pmb = s.pmb ∧
    (breakerNow s a1 a2).jtag = s.jtag ∧ (breakerNow s a1 a2).out = s.out ∧ (breakerNow s a1 a2).free = s.free ∧
    (breakerNow s a1 a2).books = s.books ∧ (breakerNow s a1 a2).boot = s.boot ∧ (breakerNow s a1 a2).pending = s.pending :=
  have m := breakerNow_move (Move.refl [.chans] s) rfl
  ⟨m.cell rfl j, m.hearth rfl j, m.slot rfl j, m.spy rfl j, m.capture rfl j, m.group rfl j, m.hk rfl j, m.cone rfl j, m.engine rfl j, m.cluster rfl j, m.link rfl j, m.time rfl, m.log rfl, m.coll rfl, m.pair rfl, m.works rfl, m.host rfl, m.pmb rfl, m.jtag rfl, m.out rfl, m.free rfl, m.books rfl, m.boot rfl rfl rfl rfl, m.pending rfl⟩

@[simp] theorem tripIfDue_reads {a1 a2} (s : State) (j : Nat) :
    (tripIfDue s a1 a2).slot j = s.slot j ∧ (tripIfDue s a1 a2).spy j = s.spy j ∧ (tripIfDue s a1 a2).capture j = s.capture j ∧
    (tripIfDue s a1 a2).group j = s.group j ∧ (tripIfDue s a1 a2).cone j = s.cone j ∧ (tripIfDue s a1 a2).engine j = s.engine j ∧
    (tripIfDue s a1 a2).cluster j = s.cluster j ∧ (tripIfDue s a1 a2).time = s.time ∧ (tripIfDue s a1 a2).log = s.log ∧
    (tripIfDue s a1 a2).coll = s.coll ∧ (tripIfDue s a1 a2).pair = s.pair ∧ (tripIfDue s a1 a2).works = s.works ∧
    (tripIfDue s a1 a2).host = s.host ∧ (tripIfDue s a1 a2).pmb = s.pmb ∧ (tripIfDue s a1 a2).jtag = s.jtag ∧
    (tripIfDue s a1 a2).free = s.free ∧ (tripIfDue s a1 a2).books = s.books ∧ (tripIfDue s a1 a2).boot = s.boot ∧
    (tripIfDue s a1 a2).pending = s.pending :=
  have m := tripIfDue_move (Move.refl [.cells, .hearths, .hks, .chans, .links, .out] s) rfl
  ⟨m.slot rfl j, m.spy rfl j, m.capture rfl j, m.group rfl j, m.cone rfl j, m.engine rfl j, m.cluster rfl j, m.time rfl, m.log rfl, m.coll rfl, m.pair rfl, m.works rfl, m.host rfl, m.pmb rfl, m.jtag rfl, m.free rfl, m.books rfl, m.boot rfl rfl rfl rfl, m.pending rfl⟩

@[simp] theorem sendUp_reads {a1 a2 a3 a4 a5} (s : State) (j : Nat) :
    (sendUp s a1 a2 a3 a4 a5).cell j = s.cell j ∧ (sendUp s a1 a2 a3 a4 a5).slot j = s.slot j ∧ (sendUp s a1 a2 a3 a4 a5).spy j = s.spy j ∧
    (sendUp s a1 a2 a3 a4 a5).capture j = s.capture j ∧ (sendUp s a1 a2 a3 a4 a5).group j = s.group j ∧
    (sendUp s a1 a2 a3 a4 a5).hk j = s.hk j ∧ (sendUp s a1 a2 a3 a4 a5).chan j = s.chan j ∧ (sendUp s a1 a2 a3 a4 a5).cone j = s.cone j ∧
    (sendUp s a1 a2 a3 a4 a5).engine j = s.engine j ∧ (sendUp s a1 a2 a3 a4 a5).cluster j = s.cluster j ∧
    (sendUp s a1 a2 a3 a4 a5).link j = s.link j ∧ (sendUp s a1 a2 a3 a4 a5).time = s.time ∧ (sendUp s a1 a2 a3 a4 a5).log = s.log ∧
    (sendUp s a1 a2 a3 a4 a5).coll = s.coll ∧ (sendUp s a1 a2 a3 a4 a5).pair = s.pair ∧ (sendUp s a1 a2 a3 a4 a5).works = s.works ∧
    (sendUp s a1 a2 a3 a4 a5).host = s.host ∧ (sendUp s a1 a2 a3 a4 a5).pmb = s.pmb ∧ (sendUp s a1 a2 a3 a4 a5).jtag = s.jtag ∧
    (sendUp s a1 a2 a3 a4 a5).free = s.free ∧ (sendUp s a1 a2 a3 a4 a5).books = s.books ∧ (sendUp s a1 a2 a3 a4 a5).boot = s.boot ∧
    (sendUp s a1 a2 a3 a4 a5).pending = s.pending :=
  have m := sendUp_move (Move.refl [.hearths, .out] s) rfl
  ⟨m.cell rfl j, m.slot rfl j, m.spy rfl j, m.capture rfl j, m.group rfl j, m.hk rfl j, m.chan rfl j, m.cone rfl j, m.engine rfl j, m.cluster rfl j, m.link rfl j, m.time rfl, m.log rfl, m.coll rfl, m.pair rfl, m.works rfl, m.host rfl, m.pmb rfl, m.jtag rfl, m.free rfl, m.books rfl, m.boot rfl rfl rfl rfl, m.pending rfl⟩

@[simp] theorem sendUpIdle_reads {a1 a2 a3 a4} (s : State) (j : Nat) :
    (sendUpIdle s a1 a2 a3 a4).cell j = s.cell j ∧ (sendUpIdle s a1 a2 a3 a4).hearth j = s.hearth j ∧
    (sendUpIdle s a1 a2 a3 a4).slot j = s.slot j ∧ (sendUpIdle s a1 a2 a3 a4).spy j = s.spy j ∧
    (sendUpIdle s a1 a2 a3 a4).capture j = s.capture j ∧ (sendUpIdle s a1 a2 a3 a4).group j = s.group j ∧
    (sendUpIdle s a1 a2 a3 a4).hk j = s.hk j ∧ (sendUpIdle s a1 a2 a3 a4).chan j = s.chan j ∧ (sendUpIdle s a1 a2 a3 a4).cone j = s.cone j ∧
    (sendUpIdle s a1 a2 a3 a4).engine j = s.engine j ∧ (sendUpIdle s a1 a2 a3 a4).cluster j = s.cluster j ∧
    (sendUpIdle s a1 a2 a3 a4).link j = s.link j ∧ (sendUpIdle s a1 a2 a3 a4).time = s.time ∧ (sendUpIdle s a1 a2 a3 a4).log = s.log ∧
    (sendUpIdle s a1 a2 a3 a4).coll = s.coll ∧ (sendUpIdle s a1 a2 a3 a4).pair = s.pair ∧ (sendUpIdle s a1 a2 a3 a4).works = s.works ∧
    (sendUpIdle s a1 a2 a3 a4).host = s.host ∧ (sendUpIdle s a1 a2 a3 a4).pmb = s.pmb ∧ (sendUpIdle s a1 a2 a3 a4).jtag = s.jtag ∧
    (sendUpIdle s a1 a2 a3 a4).free = s.free ∧ (sendUpIdle s a1 a2 a3 a4).books = s.books ∧ (sendUpIdle s a1 a2 a3 a4).boot = s.boot ∧
    (sendUpIdle s a1 a2 a3 a4).pending = s.pending :=
  have m := sendUpIdle_move (Move.refl [.out] s) rfl
  ⟨m.cell rfl j, m.hearth rfl j, m.slot rfl j, m.spy rfl j, m.capture rfl j, m.group rfl j, m.hk rfl j, m.chan rfl j, m.cone rfl j, m.engine rfl j, m.cluster rfl j, m.link rfl j, m.time rfl, m.log rfl, m.coll rfl, m.pair rfl, m.works rfl, m.host rfl, m.pmb rfl, m.jtag rfl, m.free rfl, m.books rfl, m.boot rfl rfl rfl rfl, m.pending rfl⟩

@[simp] theorem sendStandby_reads {a1 a2} (s : State) (j : Nat) :
    (sendStandby s a1 a2).cell j = s.cell j ∧ (sendStandby s a1 a2).hearth j = s.hearth j ∧ (sendStandby s a1 a2).slot j = s.slot j ∧
    (sendStandby s a1 a2).spy j = s.spy j ∧ (sendStandby s a1 a2).capture j = s.capture j ∧ (sendStandby s a1 a2).group j = s.group j ∧
    (sendStandby s a1 a2).hk j = s.hk j ∧ (sendStandby s a1 a2).chan j = s.chan j ∧ (sendStandby s a1 a2).cone j = s.cone j ∧
    (sendStandby s a1 a2).engine j = s.engine j ∧ (sendStandby s a1 a2).cluster j = s.cluster j ∧ (sendStandby s a1 a2).link j = s.link j ∧
    (sendStandby s a1 a2).time = s.time ∧ (sendStandby s a1 a2).log = s.log ∧ (sendStandby s a1 a2).coll = s.coll ∧
    (sendStandby s a1 a2).pair = s.pair ∧ (sendStandby s a1 a2).works = s.works ∧ (sendStandby s a1 a2).host = s.host ∧
    (sendStandby s a1 a2).pmb = s.pmb ∧ (sendStandby s a1 a2).jtag = s.jtag ∧ (sendStandby s a1 a2).free = s.free ∧
    (sendStandby s a1 a2).books = s.books ∧ (sendStandby s a1 a2).boot = s.boot ∧ (sendStandby s a1 a2).pending = s.pending :=
  have m := sendStandby_move (Move.refl [.out] s) rfl
  ⟨m.cell rfl j, m.hearth rfl j, m.slot rfl j, m.spy rfl j, m.capture rfl j, m.group rfl j, m.hk rfl j, m.chan rfl j, m.cone rfl j, m.engine rfl j, m.cluster rfl j, m.link rfl j, m.time rfl, m.log rfl, m.coll rfl, m.pair rfl, m.works rfl, m.host rfl, m.pmb rfl, m.jtag rfl, m.free rfl, m.books rfl, m.boot rfl rfl rfl rfl, m.pending rfl⟩

@[simp] theorem toldRefusal_reads {a1 a2} (s : State) (j : Nat) :
    (toldRefusal s a1 a2).cell j = s.cell j ∧ (toldRefusal s a1 a2).slot j = s.slot j ∧ (toldRefusal s a1 a2).spy j = s.spy j ∧
    (toldRefusal s a1 a2).capture j = s.capture j ∧ (toldRefusal s a1 a2).group j = s.group j ∧ (toldRefusal s a1 a2).hk j = s.hk j ∧
    (toldRefusal s a1 a2).chan j = s.chan j ∧ (toldRefusal s a1 a2).cone j = s.cone j ∧ (toldRefusal s a1 a2).engine j = s.engine j ∧
    (toldRefusal s a1 a2).cluster j = s.cluster j ∧ (toldRefusal s a1 a2).link j = s.link j ∧ (toldRefusal s a1 a2).time = s.time ∧
    (toldRefusal s a1 a2).log = s.log ∧ (toldRefusal s a1 a2).coll = s.coll ∧ (toldRefusal s a1 a2).pair = s.pair ∧
    (toldRefusal s a1 a2).works = s.works ∧ (toldRefusal s a1 a2).host = s.host ∧ (toldRefusal s a1 a2).pmb = s.pmb ∧
    (toldRefusal s a1 a2).jtag = s.jtag ∧ (toldRefusal s a1 a2).out = s.out ∧ (toldRefusal s a1 a2).free = s.free ∧
    (toldRefusal s a1 a2).books = s.books ∧ (toldRefusal s a1 a2).boot = s.boot ∧ (toldRefusal s a1 a2).pending = s.pending :=
  have m := toldRefusal_move (Move.refl [.hearths] s) rfl
  ⟨m.cell rfl j, m.slot rfl j, m.spy rfl j, m.capture rfl j, m.group rfl j, m.hk rfl j, m.chan rfl j, m.cone rfl j, m.engine rfl j, m.cluster rfl j, m.link rfl j, m.time rfl, m.log rfl, m.coll rfl, m.pair rfl, m.works rfl, m.host rfl, m.pmb rfl, m.jtag rfl, m.out rfl, m.free rfl, m.books rfl, m.boot rfl rfl rfl rfl, m.pending rfl⟩

@[simp] theorem hkUse_reads {a1 a2} (s : State) (j : Nat) :
    (hkUse s a1 a2).cell j = s.cell j ∧ (hkUse s a1 a2).hearth j = s.hearth j ∧ (hkUse s a1 a2).slot j = s.slot j ∧
    (hkUse s a1 a2).spy j = s.spy j ∧ (hkUse s a1 a2).capture j = s.capture j ∧ (hkUse s a1 a2).group j = s.group j ∧
    (hkUse s a1 a2).hk j = s.hk j ∧ (hkUse s a1 a2).cone j = s.cone j ∧ (hkUse s a1 a2).engine j = s.engine j ∧
    (hkUse s a1 a2).cluster j = s.cluster j ∧ (hkUse s a1 a2).link j = s.link j ∧ (hkUse s a1 a2).time = s.time ∧
    (hkUse s a1 a2).log = s.log ∧ (hkUse s a1 a2).coll = s.coll ∧ (hkUse s a1 a2).pair = s.pair ∧ (hkUse s a1 a2).works = s.works ∧
    (hkUse s a1 a2).host = s.host ∧ (hkUse s a1 a2).pmb = s.pmb ∧ (hkUse s a1 a2).jtag = s.jtag ∧ (hkUse s a1 a2).out = s.out ∧
    (hkUse s a1 a2).free = s.free ∧ (hkUse s a1 a2).books = s.books ∧ (hkUse s a1 a2).boot = s.boot ∧ (hkUse s a1 a2).pending = s.pending :=
  have m := hkUse_move (Move.refl [.chans, .gbus, .gbusNew] s) rfl
  ⟨m.cell rfl j, m.hearth rfl j, m.slot rfl j, m.spy rfl j, m.capture rfl j, m.group rfl j, m.hk rfl j, m.cone rfl j, m.engine rfl j, m.cluster rfl j, m.link rfl j, m.time rfl, m.log rfl, m.coll rfl, m.pair rfl, m.works rfl, m.host rfl, m.pmb rfl, m.jtag rfl, m.out rfl, m.free rfl, m.books rfl, m.boot rfl rfl rfl rfl, m.pending rfl⟩

@[simp] theorem recordIngress_reads {a1 a2 a3 a4} (s : State) (j : Nat) :
    (recordIngress s a1 a2 a3 a4).cell j = s.cell j ∧ (recordIngress s a1 a2 a3 a4).hearth j = s.hearth j ∧
    (recordIngress s a1 a2 a3 a4).slot j = s.slot j ∧ (recordIngress s a1 a2 a3 a4).spy j = s.spy j ∧
    (recordIngress s a1 a2 a3 a4).capture j = s.capture j ∧ (recordIngress s a1 a2 a3 a4).group j = s.group j ∧
    (recordIngress s a1 a2 a3 a4).hk j = s.hk j ∧ (recordIngress s a1 a2 a3 a4).chan j = s.chan j ∧
    (recordIngress s a1 a2 a3 a4).cone j = s.cone j ∧ (recordIngress s a1 a2 a3 a4).engine j = s.engine j ∧
    (recordIngress s a1 a2 a3 a4).link j = s.link j ∧ (recordIngress s a1 a2 a3 a4).time = s.time ∧
    (recordIngress s a1 a2 a3 a4).log = s.log ∧ (recordIngress s a1 a2 a3 a4).coll = s.coll ∧ (recordIngress s a1 a2 a3 a4).pair = s.pair ∧
    (recordIngress s a1 a2 a3 a4).works = s.works ∧ (recordIngress s a1 a2 a3 a4).host = s.host ∧ (recordIngress s a1 a2 a3 a4).pmb = s.pmb ∧
    (recordIngress s a1 a2 a3 a4).jtag = s.jtag ∧ (recordIngress s a1 a2 a3 a4).out = s.out ∧ (recordIngress s a1 a2 a3 a4).free = s.free ∧
    (recordIngress s a1 a2 a3 a4).books = s.books ∧ (recordIngress s a1 a2 a3 a4).boot = s.boot ∧
    (recordIngress s a1 a2 a3 a4).pending = s.pending :=
  have m := recordIngress_move (Move.refl [.clusters] s) rfl
  ⟨m.cell rfl j, m.hearth rfl j, m.slot rfl j, m.spy rfl j, m.capture rfl j, m.group rfl j, m.hk rfl j, m.chan rfl j, m.cone rfl j, m.engine rfl j, m.link rfl j, m.time rfl, m.log rfl, m.coll rfl, m.pair rfl, m.works rfl, m.host rfl, m.pmb rfl, m.jtag rfl, m.out rfl, m.free rfl, m.books rfl, m.boot rfl rfl rfl rfl, m.pending rfl⟩

@[simp] theorem conePower_reads {a1 a2} (s : State) (j : Nat) :
    (conePower s a1 a2).cell j = s.cell j ∧ (conePower s a1 a2).hearth j = s.hearth j ∧ (conePower s a1 a2).slot j = s.slot j ∧
    (conePower s a1 a2).spy j = s.spy j ∧ (conePower s a1 a2).capture j = s.capture j ∧ (conePower s a1 a2).group j = s.group j ∧
    (conePower s a1 a2).hk j = s.hk j ∧ (conePower s a1 a2).chan j = s.chan j ∧ (conePower s a1 a2).engine j = s.engine j ∧
    (conePower s a1 a2).cluster j = s.cluster j ∧ (conePower s a1 a2).link j = s.link j ∧ (conePower s a1 a2).time = s.time ∧
    (conePower s a1 a2).log = s.log ∧ (conePower s a1 a2).coll = s.coll ∧ (conePower s a1 a2).pair = s.pair ∧
    (conePower s a1 a2).works = s.works ∧ (conePower s a1 a2).host = s.host ∧ (conePower s a1 a2).pmb = s.pmb ∧
    (conePower s a1 a2).jtag = s.jtag ∧ (conePower s a1 a2).out = s.out ∧ (conePower s a1 a2).free = s.free ∧
    (conePower s a1 a2).books = s.books ∧ (conePower s a1 a2).boot = s.boot ∧ (conePower s a1 a2).pending = s.pending :=
  have m := conePower_move (Move.refl [.cones] s) rfl
  ⟨m.cell rfl j, m.hearth rfl j, m.slot rfl j, m.spy rfl j, m.capture rfl j, m.group rfl j, m.hk rfl j, m.chan rfl j, m.engine rfl j, m.cluster rfl j, m.link rfl j, m.time rfl, m.log rfl, m.coll rfl, m.pair rfl, m.works rfl, m.host rfl, m.pmb rfl, m.jtag rfl, m.out rfl, m.free rfl, m.books rfl, m.boot rfl rfl rfl rfl, m.pending rfl⟩

@[simp] theorem freeRegions_reads {a1} (s : State) (j : Nat) :
    (freeRegions s a1).cell j = s.cell j ∧ (freeRegions s a1).hearth j = s.hearth j ∧ (freeRegions s a1).slot j = s.slot j ∧
    (freeRegions s a1).spy j = s.spy j ∧ (freeRegions s a1).capture j = s.capture j ∧ (freeRegions s a1).group j = s.group j ∧
    (freeRegions s a1).hk j = s.hk j ∧ (freeRegions s a1).chan j = s.chan j ∧ (freeRegions s a1).cone j = s.cone j ∧
    (freeRegions s a1).engine j = s.engine j ∧ (freeRegions s a1).link j = s.link j ∧ (freeRegions s a1).time = s.time ∧
    (freeRegions s a1).log = s.log ∧ (freeRegions s a1).coll = s.coll ∧ (freeRegions s a1).pair = s.pair ∧
    (freeRegions s a1).works = s.works ∧ (freeRegions s a1).host = s.host ∧ (freeRegions s a1).pmb = s.pmb ∧
    (freeRegions s a1).jtag = s.jtag ∧ (freeRegions s a1).out = s.out ∧ (freeRegions s a1).free = s.free ∧
    (freeRegions s a1).books = s.books ∧ (freeRegions s a1).boot = s.boot ∧ (freeRegions s a1).pending = s.pending :=
  have m := freeRegions_move (Move.refl [.clusters] s) rfl
  ⟨m.cell rfl j, m.hearth rfl j, m.slot rfl j, m.spy rfl j, m.capture rfl j, m.group rfl j, m.hk rfl j, m.chan rfl j, m.cone rfl j, m.engine rfl j, m.link rfl j, m.time rfl, m.log rfl, m.coll rfl, m.pair rfl, m.works rfl, m.host rfl, m.pmb rfl, m.jtag rfl, m.out rfl, m.free rfl, m.books rfl, m.boot rfl rfl rfl rfl, m.pending rfl⟩

@[simp] theorem takeForm_reads {a1 a2 a3 a4 a5} (s : State) (j : Nat) :
    (takeForm s a1 a2 a3 a4 a5).cell j = s.cell j ∧ (takeForm s a1 a2 a3 a4 a5).hearth j = s.hearth j ∧
    (takeForm s a1 a2 a3 a4 a5).slot j = s.slot j ∧ (takeForm s a1 a2 a3 a4 a5).spy j = s.spy j ∧
    (takeForm s a1 a2 a3 a4 a5).capture j = s.capture j ∧ (takeForm s a1 a2 a3 a4 a5).group j = s.group j ∧
    (takeForm s a1 a2 a3 a4 a5).hk j = s.hk j ∧ (takeForm s a1 a2 a3 a4 a5).chan j = s.chan j ∧
    (takeForm s a1 a2 a3 a4 a5).cone j = s.cone j ∧ (takeForm s a1 a2 a3 a4 a5).cluster j = s.cluster j ∧
    (takeForm s a1 a2 a3 a4 a5).link j = s.link j ∧ (takeForm s a1 a2 a3 a4 a5).time = s.time ∧ (takeForm s a1 a2 a3 a4 a5).log = s.log ∧
    (takeForm s a1 a2 a3 a4 a5).coll = s.coll ∧ (takeForm s a1 a2 a3 a4 a5).pair = s.pair ∧ (takeForm s a1 a2 a3 a4 a5).works = s.works ∧
    (takeForm s a1 a2 a3 a4 a5).host = s.host ∧ (takeForm s a1 a2 a3 a4 a5).pmb = s.pmb ∧ (takeForm s a1 a2 a3 a4 a5).jtag = s.jtag ∧
    (takeForm s a1 a2 a3 a4 a5).out = s.out ∧ (takeForm s a1 a2 a3 a4 a5).free = s.free ∧ (takeForm s a1 a2 a3 a4 a5).books = s.books ∧
    (takeForm s a1 a2 a3 a4 a5).boot = s.boot ∧ (takeForm s a1 a2 a3 a4 a5).pending = s.pending :=
  have m := takeForm_move (Move.refl [.engines] s) rfl
  ⟨m.cell rfl j, m.hearth rfl j, m.slot rfl j, m.spy rfl j, m.capture rfl j, m.group rfl j, m.hk rfl j, m.chan rfl j, m.cone rfl j, m.cluster rfl j, m.link rfl j, m.time rfl, m.log rfl, m.coll rfl, m.pair rfl, m.works rfl, m.host rfl, m.pmb rfl, m.jtag rfl, m.out rfl, m.free rfl, m.books rfl, m.boot rfl rfl rfl rfl, m.pending rfl⟩

@[simp] theorem pastState_reads {a1 a2 a3 a4} (s : State) (j : Nat) :
    (pastState s a1 a2 a3 a4).cell j = s.cell j ∧ (pastState s a1 a2 a3 a4).hearth j = s.hearth j ∧
    (pastState s a1 a2 a3 a4).slot j = s.slot j ∧ (pastState s a1 a2 a3 a4).spy j = s.spy j ∧
    (pastState s a1 a2 a3 a4).capture j = s.capture j ∧ (pastState s a1 a2 a3 a4).group j = s.group j ∧
    (pastState s a1 a2 a3 a4).hk j = s.hk j ∧ (pastState s a1 a2 a3 a4).cone j = s.cone j ∧ (pastState s a1 a2 a3 a4).engine j = s.engine j ∧
    (pastState s a1 a2 a3 a4).cluster j = s.cluster j ∧ (pastState s a1 a2 a3 a4).link j = s.link j ∧
    (pastState s a1 a2 a3 a4).time = s.time ∧ (pastState s a1 a2 a3 a4).log = s.log ∧ (pastState s a1 a2 a3 a4).coll = s.coll ∧
    (pastState s a1 a2 a3 a4).pair = s.pair ∧ (pastState s a1 a2 a3 a4).works = s.works ∧ (pastState s a1 a2 a3 a4).host = s.host ∧
    (pastState s a1 a2 a3 a4).pmb = s.pmb ∧ (pastState s a1 a2 a3 a4).jtag = s.jtag ∧ (pastState s a1 a2 a3 a4).out = s.out ∧
    (pastState s a1 a2 a3 a4).free = s.free ∧ (pastState s a1 a2 a3 a4).books = s.books ∧ (pastState s a1 a2 a3 a4).boot = s.boot ∧
    (pastState s a1 a2 a3 a4).pending = s.pending :=
  have m := pastState_move (Move.refl [.chans, .gbus, .frameShadow, .frameTick, .gbusNew] s) rfl
  ⟨m.cell rfl j, m.hearth rfl j, m.slot rfl j, m.spy rfl j, m.capture rfl j, m.group rfl j, m.hk rfl j, m.cone rfl j, m.engine rfl j, m.cluster rfl j, m.link rfl j, m.time rfl, m.log rfl, m.coll rfl, m.pair rfl, m.works rfl, m.host rfl, m.pmb rfl, m.jtag rfl, m.out rfl, m.free rfl, m.books rfl, m.boot rfl rfl rfl rfl, m.pending rfl⟩

@[simp] theorem clusterDown_reads {a1} (s : State) (j : Nat) :
    (clusterDown s a1).cell j = s.cell j ∧ (clusterDown s a1).hearth j = s.hearth j ∧ (clusterDown s a1).slot j = s.slot j ∧
    (clusterDown s a1).spy j = s.spy j ∧ (clusterDown s a1).capture j = s.capture j ∧ (clusterDown s a1).group j = s.group j ∧
    (clusterDown s a1).hk j = s.hk j ∧ (clusterDown s a1).cone j = s.cone j ∧ (clusterDown s a1).link j = s.link j ∧
    (clusterDown s a1).time = s.time ∧ (clusterDown s a1).pair = s.pair ∧ (clusterDown s a1).works = s.works ∧
    (clusterDown s a1).pmb = s.pmb ∧ (clusterDown s a1).jtag = s.jtag ∧ (clusterDown s a1).free = s.free ∧
    (clusterDown s a1).books = s.books ∧ (clusterDown s a1).pending = s.pending :=
  have m := clusterDown_move (Move.refl [.chans, .engines, .clusters, .boot, .log, .coll, .host, .out] s) rfl
  ⟨m.cell rfl j, m.hearth rfl j, m.slot rfl j, m.spy rfl j, m.capture rfl j, m.group rfl j, m.hk rfl j, m.cone rfl j, m.link rfl j, m.time rfl, m.pair rfl, m.works rfl, m.pmb rfl, m.jtag rfl, m.free rfl, m.books rfl, m.pending rfl⟩

@[simp] theorem splitRoles_reads {a1 a2} (s : State) (j : Nat) :
    (splitRoles s a1 a2).cell j = s.cell j ∧ (splitRoles s a1 a2).hearth j = s.hearth j ∧ (splitRoles s a1 a2).slot j = s.slot j ∧
    (splitRoles s a1 a2).spy j = s.spy j ∧ (splitRoles s a1 a2).capture j = s.capture j ∧ (splitRoles s a1 a2).group j = s.group j ∧
    (splitRoles s a1 a2).hk j = s.hk j ∧ (splitRoles s a1 a2).cone j = s.cone j ∧ (splitRoles s a1 a2).cluster j = s.cluster j ∧
    (splitRoles s a1 a2).link j = s.link j ∧ (splitRoles s a1 a2).time = s.time ∧ (splitRoles s a1 a2).log = s.log ∧
    (splitRoles s a1 a2).coll = s.coll ∧ (splitRoles s a1 a2).pair = s.pair ∧ (splitRoles s a1 a2).works = s.works ∧
    (splitRoles s a1 a2).host = s.host ∧ (splitRoles s a1 a2).pmb = s.pmb ∧ (splitRoles s a1 a2).jtag = s.jtag ∧
    (splitRoles s a1 a2).out = s.out ∧ (splitRoles s a1 a2).free = s.free ∧ (splitRoles s a1 a2).books = s.books ∧
    (splitRoles s a1 a2).boot = s.boot ∧ (splitRoles s a1 a2).pending = s.pending :=
  have m := splitRoles_move (Move.refl [.chans, .engines] s) rfl
  ⟨m.cell rfl j, m.hearth rfl j, m.slot rfl j, m.spy rfl j, m.capture rfl j, m.group rfl j, m.hk rfl j, m.cone rfl j, m.cluster rfl j, m.link rfl j, m.time rfl, m.log rfl, m.coll rfl, m.pair rfl, m.works rfl, m.host rfl, m.pmb rfl, m.jtag rfl, m.out rfl, m.free rfl, m.books rfl, m.boot rfl rfl rfl rfl, m.pending rfl⟩

@[simp] theorem noteAs_reads {a1} (s : State) (j : Nat) :
    (noteAs s a1).cell j = s.cell j ∧ (noteAs s a1).hearth j = s.hearth j ∧ (noteAs s a1).slot j = s.slot j ∧ (noteAs s a1).spy j = s.spy j ∧
    (noteAs s a1).capture j = s.capture j ∧ (noteAs s a1).group j = s.group j ∧ (noteAs s a1).hk j = s.hk j ∧
    (noteAs s a1).chan j = s.chan j ∧ (noteAs s a1).cone j = s.cone j ∧ (noteAs s a1).engine j = s.engine j ∧
    (noteAs s a1).cluster j = s.cluster j ∧ (noteAs s a1).link j = s.link j ∧ (noteAs s a1).time = s.time ∧ (noteAs s a1).log = s.log ∧
    (noteAs s a1).coll = s.coll ∧ (noteAs s a1).pair = s.pair ∧ (noteAs s a1).works = s.works ∧ (noteAs s a1).host = s.host ∧
    (noteAs s a1).pmb = s.pmb ∧ (noteAs s a1).jtag = s.jtag ∧ (noteAs s a1).out = s.out ∧ (noteAs s a1).free = s.free ∧
    (noteAs s a1).boot = s.boot ∧ (noteAs s a1).pending = s.pending :=
  have m := noteAs_move (Move.refl [.books] s) rfl
  ⟨m.cell rfl j, m.hearth rfl j, m.slot rfl j, m.spy rfl j, m.capture rfl j, m.group rfl j, m.hk rfl j, m.chan rfl j, m.cone rfl j, m.engine rfl j, m.cluster rfl j, m.link rfl j, m.time rfl, m.log rfl, m.coll rfl, m.pair rfl, m.works rfl, m.host rfl, m.pmb rfl, m.jtag rfl, m.out rfl, m.free rfl, m.boot rfl rfl rfl rfl, m.pending rfl⟩

@[simp] theorem noteLoaded_reads {a1 a2 a3 a4 a5 a6 a7} (s : State) (j : Nat) :
    (noteLoaded s a1 a2 a3 a4 a5 a6 a7).cell j = s.cell j ∧ (noteLoaded s a1 a2 a3 a4 a5 a6 a7).hearth j = s.hearth j ∧
    (noteLoaded s a1 a2 a3 a4 a5 a6 a7).slot j = s.slot j ∧ (noteLoaded s a1 a2 a3 a4 a5 a6 a7).spy j = s.spy j ∧
    (noteLoaded s a1 a2 a3 a4 a5 a6 a7).capture j = s.capture j ∧ (noteLoaded s a1 a2 a3 a4 a5 a6 a7).group j = s.group j ∧
    (noteLoaded s a1 a2 a3 a4 a5 a6 a7).hk j = s.hk j ∧ (noteLoaded s a1 a2 a3 a4 a5 a6 a7).chan j = s.chan j ∧
    (noteLoaded s a1 a2 a3 a4 a5 a6 a7).cone j = s.cone j ∧ (noteLoaded s a1 a2 a3 a4 a5 a6 a7).engine j = s.engine j ∧
    (noteLoaded s a1 a2 a3 a4 a5 a6 a7).cluster j = s.cluster j ∧ (noteLoaded s a1 a2 a3 a4 a5 a6 a7).link j = s.link j ∧
    (noteLoaded s a1 a2 a3 a4 a5 a6 a7).time = s.time ∧ (noteLoaded s a1 a2 a3 a4 a5 a6 a7).log = s.log ∧
    (noteLoaded s a1 a2 a3 a4 a5 a6 a7).coll = s.coll ∧ (noteLoaded s a1 a2 a3 a4 a5 a6 a7).pair = s.pair ∧
    (noteLoaded s a1 a2 a3 a4 a5 a6 a7).works = s.works ∧ (noteLoaded s a1 a2 a3 a4 a5 a6 a7).host = s.host ∧
    (noteLoaded s a1 a2 a3 a4 a5 a6 a7).pmb = s.pmb ∧ (noteLoaded s a1 a2 a3 a4 a5 a6 a7).jtag = s.jtag ∧
    (noteLoaded s a1 a2 a3 a4 a5 a6 a7).out = s.out ∧ (noteLoaded s a1 a2 a3 a4 a5 a6 a7).free = s.free ∧
    (noteLoaded s a1 a2 a3 a4 a5 a6 a7).boot = s.boot ∧ (noteLoaded s a1 a2 a3 a4 a5 a6 a7).pending = s.pending :=
  have m := noteLoaded_move (Move.refl [.books] s) rfl
  ⟨m.cell rfl j, m.hearth rfl j, m.slot rfl j, m.spy rfl j, m.capture rfl j, m.group rfl j, m.hk rfl j, m.chan rfl j, m.cone rfl j, m.engine rfl j, m.cluster rfl j, m.link rfl j, m.time rfl, m.log rfl, m.coll rfl, m.pair rfl, m.works rfl, m.host rfl, m.pmb rfl, m.jtag rfl, m.out rfl, m.free rfl, m.boot rfl rfl rfl rfl, m.pending rfl⟩

@[simp] theorem chanBanks_reads {a1 a2 a3} (s : State) (j : Nat) :
    (chanBanks s a1 a2 a3).cell j = s.cell j ∧ (chanBanks s a1 a2 a3).hearth j = s.hearth j ∧ (chanBanks s a1 a2 a3).slot j = s.slot j ∧
    (chanBanks s a1 a2 a3).spy j = s.spy j ∧ (chanBanks s a1 a2 a3).capture j = s.capture j ∧ (chanBanks s a1 a2 a3).group j = s.group j ∧
    (chanBanks s a1 a2 a3).hk j = s.hk j ∧ (chanBanks s a1 a2 a3).chan j = s.chan j ∧ (chanBanks s a1 a2 a3).cone j = s.cone j ∧
    (chanBanks s a1 a2 a3).cluster j = s.cluster j ∧ (chanBanks s a1 a2 a3).link j = s.link j ∧ (chanBanks s a1 a2 a3).time = s.time ∧
    (chanBanks s a1 a2 a3).log = s.log ∧ (chanBanks s a1 a2 a3).coll = s.coll ∧ (chanBanks s a1 a2 a3).pair = s.pair ∧
    (chanBanks s a1 a2 a3).works = s.works ∧ (chanBanks s a1 a2 a3).host = s.host ∧ (chanBanks s a1 a2 a3).pmb = s.pmb ∧
    (chanBanks s a1 a2 a3).jtag = s.jtag ∧ (chanBanks s a1 a2 a3).out = s.out ∧ (chanBanks s a1 a2 a3).free = s.free ∧
    (chanBanks s a1 a2 a3).books = s.books ∧ (chanBanks s a1 a2 a3).boot = s.boot ∧ (chanBanks s a1 a2 a3).pending = s.pending :=
  have m := chanBanks_move (Move.refl [.engines] s) rfl
  ⟨m.cell rfl j, m.hearth rfl j, m.slot rfl j, m.spy rfl j, m.capture rfl j, m.group rfl j, m.hk rfl j, m.chan rfl j, m.cone rfl j, m.cluster rfl j, m.link rfl j, m.time rfl, m.log rfl, m.coll rfl, m.pair rfl, m.works rfl, m.host rfl, m.pmb rfl, m.jtag rfl, m.out rfl, m.free rfl, m.books rfl, m.boot rfl rfl rfl rfl, m.pending rfl⟩

@[simp] theorem prepareSwap_reads (s : State) (j : Nat) :
    (prepareSwap s).cell j = s.cell j ∧ (prepareSwap s).hearth j = s.hearth j ∧ (prepareSwap s).slot j = s.slot j ∧
    (prepareSwap s).spy j = s.spy j ∧ (prepareSwap s).capture j = s.capture j ∧ (prepareSwap s).group j = s.group j ∧
    (prepareSwap s).hk j = s.hk j ∧ (prepareSwap s).chan j = s.chan j ∧ (prepareSwap s).cone j = s.cone j ∧
    (prepareSwap s).link j = s.link j ∧ (prepareSwap s).time = s.time ∧ (prepareSwap s).log = s.log ∧ (prepareSwap s).coll = s.coll ∧
    (prepareSwap s).pair = s.pair ∧ (prepareSwap s).works = s.works ∧ (prepareSwap s).host = s.host ∧ (prepareSwap s).pmb = s.pmb ∧
    (prepareSwap s).jtag = s.jtag ∧ (prepareSwap s).out = s.out ∧ (prepareSwap s).free = s.free ∧ (prepareSwap s).books = s.books ∧
    (prepareSwap s).boot = s.boot ∧ (prepareSwap s).pending = s.pending :=
  have m := prepareSwap_move (Move.refl [.engines, .clusters] s) rfl
  ⟨m.cell rfl j, m.hearth rfl j, m.slot rfl j, m.spy rfl j, m.capture rfl j, m.group rfl j, m.hk rfl j, m.chan rfl j, m.cone rfl j, m.link rfl j, m.time rfl, m.log rfl, m.coll rfl, m.pair rfl, m.works rfl, m.host rfl, m.pmb rfl, m.jtag rfl, m.out rfl, m.free rfl, m.books rfl, m.boot rfl rfl rfl rfl, m.pending rfl⟩

@[simp] theorem putSpy_reads {a1 a2 a3} (s : State) (j : Nat) :
    (putSpy s a1 a2 a3).cell j = s.cell j ∧ (putSpy s a1 a2 a3).hearth j = s.hearth j ∧ (putSpy s a1 a2 a3).slot j = s.slot j ∧
    (putSpy s a1 a2 a3).capture j = s.capture j ∧ (putSpy s a1 a2 a3).group j = s.group j ∧ (putSpy s a1 a2 a3).hk j = s.hk j ∧
    (putSpy s a1 a2 a3).chan j = s.chan j ∧ (putSpy s a1 a2 a3).cone j = s.cone j ∧ (putSpy s a1 a2 a3).engine j = s.engine j ∧
    (putSpy s a1 a2 a3).cluster j = s.cluster j ∧ (putSpy s a1 a2 a3).link j = s.link j ∧ (putSpy s a1 a2 a3).time = s.time ∧
    (putSpy s a1 a2 a3).log = s.log ∧ (putSpy s a1 a2 a3).coll = s.coll ∧ (putSpy s a1 a2 a3).pair = s.pair ∧
    (putSpy s a1 a2 a3).works = s.works ∧ (putSpy s a1 a2 a3).host = s.host ∧ (putSpy s a1 a2 a3).pmb = s.pmb ∧
    (putSpy s a1 a2 a3).jtag = s.jtag ∧ (putSpy s a1 a2 a3).out = s.out ∧ (putSpy s a1 a2 a3).free = s.free ∧
    (putSpy s a1 a2 a3).books = s.books ∧ (putSpy s a1 a2 a3).boot = s.boot ∧ (putSpy s a1 a2 a3).pending = s.pending :=
  have m := putSpy_move (Move.refl [.spies] s) rfl
  ⟨m.cell rfl j, m.hearth rfl j, m.slot rfl j, m.capture rfl j, m.group rfl j, m.hk rfl j, m.chan rfl j, m.cone rfl j, m.engine rfl j, m.cluster rfl j, m.link rfl j, m.time rfl, m.log rfl, m.coll rfl, m.pair rfl, m.works rfl, m.host rfl, m.pmb rfl, m.jtag rfl, m.out rfl, m.free rfl, m.books rfl, m.boot rfl rfl rfl rfl, m.pending rfl⟩

@[simp] theorem commitHearth_reads {a1 a2} (s : State) (j : Nat) :
    (commitHearth a1 s a2).cone j = s.cone j ∧ (commitHearth a1 s a2).engine j = s.engine j ∧ (commitHearth a1 s a2).cluster j = s.cluster j ∧
    (commitHearth a1 s a2).link j = s.link j ∧ (commitHearth a1 s a2).time = s.time ∧ (commitHearth a1 s a2).pair = s.pair ∧
    (commitHearth a1 s a2).works = s.works ∧ (commitHearth a1 s a2).pmb = s.pmb ∧ (commitHearth a1 s a2).jtag = s.jtag ∧
    (commitHearth a1 s a2).out = s.out ∧ (commitHearth a1 s a2).free = s.free ∧ (commitHearth a1 s a2).books = s.books ∧
    (commitHearth a1 s a2).boot = s.boot ∧ (commitHearth a1 s a2).pending = s.pending :=
  have m := commitHearth_move (Move.refl [.cells, .hearths, .slots, .spies, .captures, .groups, .hks, .chans, .log, .coll, .host] s) rfl
  ⟨m.cone rfl j, m.engine rfl j, m.cluster rfl j, m.link rfl j, m.time rfl, m.pair rfl, m.works rfl, m.pmb rfl, m.jtag rfl, m.out rfl, m.free rfl, m.books rfl, m.boot rfl rfl rfl rfl, m.pending rfl⟩

@[simp] theorem restoreChan_reads {a1 a2 a3} (s : State) (j : Nat) :
    (restoreChan s a1 a2 a3).cell j = s.cell j ∧ (restoreChan s a1 a2 a3).hearth j = s.hearth j ∧ (restoreChan s a1 a2 a3).slot j = s.slot j ∧
    (restoreChan s a1 a2 a3).spy j = s.spy j ∧ (restoreChan s a1 a2 a3).capture j = s.capture j ∧
    (restoreChan s a1 a2 a3).group j = s.group j ∧ (restoreChan s a1 a2 a3).hk j = s.hk j ∧ (restoreChan s a1 a2 a3).cluster j = s.cluster j ∧
    (restoreChan s a1 a2 a3).link j = s.link j ∧ (restoreChan s a1 a2 a3).time = s.time ∧ (restoreChan s a1 a2 a3).log = s.log ∧
    (restoreChan s a1 a2 a3).coll = s.coll ∧ (restoreChan s a1 a2 a3).pair = s.pair ∧ (restoreChan s a1 a2 a3).works = s.works ∧
    (restoreChan s a1 a2 a3).host = s.host ∧ (restoreChan s a1 a2 a3).pmb = s.pmb ∧ (restoreChan s a1 a2 a3).jtag = s.jtag ∧
    (restoreChan s a1 a2 a3).out = s.out ∧ (restoreChan s a1 a2 a3).free = s.free ∧ (restoreChan s a1 a2 a3).books = s.books ∧
    (restoreChan s a1 a2 a3).boot = s.boot ∧ (restoreChan s a1 a2 a3).pending = s.pending :=
  have m := restoreChan_move (Move.refl [.chans, .cones, .engines] s) rfl
  ⟨m.cell rfl j, m.hearth rfl j, m.slot rfl j, m.spy rfl j, m.capture rfl j, m.group rfl j, m.hk rfl j, m.cluster rfl j, m.link rfl j, m.time rfl, m.log rfl, m.coll rfl, m.pair rfl, m.works rfl, m.host rfl, m.pmb rfl, m.jtag rfl, m.out rfl, m.free rfl, m.books rfl, m.boot rfl rfl rfl rfl, m.pending rfl⟩

@[simp] theorem restoreBare_reads {a1} (s : State) (j : Nat) :
    (restoreBare s a1).cell j = s.cell j ∧ (restoreBare s a1).hearth j = s.hearth j ∧ (restoreBare s a1).slot j = s.slot j ∧
    (restoreBare s a1).spy j = s.spy j ∧ (restoreBare s a1).capture j = s.capture j ∧ (restoreBare s a1).group j = s.group j ∧
    (restoreBare s a1).hk j = s.hk j ∧ (restoreBare s a1).engine j = s.engine j ∧ (restoreBare s a1).cluster j = s.cluster j ∧
    (restoreBare s a1).link j = s.link j ∧ (restoreBare s a1).time = s.time ∧ (restoreBare s a1).log = s.log ∧
    (restoreBare s a1).coll = s.coll ∧ (restoreBare s a1).pair = s.pair ∧ (restoreBare s a1).works = s.works ∧
    (restoreBare s a1).host = s.host ∧ (restoreBare s a1).pmb = s.pmb ∧ (restoreBare s a1).jtag = s.jtag ∧ (restoreBare s a1).out = s.out ∧
    (restoreBare s a1).free = s.free ∧ (restoreBare s a1).books = s.books ∧ (restoreBare s a1).boot = s.boot ∧
    (restoreBare s a1).pending = s.pending :=
  have m := restoreBare_move (Move.refl [.chans, .cones] s) rfl
  ⟨m.cell rfl j, m.hearth rfl j, m.slot rfl j, m.spy rfl j, m.capture rfl j, m.group rfl j, m.hk rfl j, m.engine rfl j, m.cluster rfl j, m.link rfl j, m.time rfl, m.log rfl, m.coll rfl, m.pair rfl, m.works rfl, m.host rfl, m.pmb rfl, m.jtag rfl, m.out rfl, m.free rfl, m.books rfl, m.boot rfl rfl rfl rfl, m.pending rfl⟩

@[simp] theorem restoreSeqs_reads {a1 a2} (s : State) (j : Nat) :
    (restoreSeqs s a1 a2).cell j = s.cell j ∧ (restoreSeqs s a1 a2).hearth j = s.hearth j ∧ (restoreSeqs s a1 a2).slot j = s.slot j ∧
    (restoreSeqs s a1 a2).spy j = s.spy j ∧ (restoreSeqs s a1 a2).capture j = s.capture j ∧ (restoreSeqs s a1 a2).group j = s.group j ∧
    (restoreSeqs s a1 a2).hk j = s.hk j ∧ (restoreSeqs s a1 a2).chan j = s.chan j ∧ (restoreSeqs s a1 a2).cone j = s.cone j ∧
    (restoreSeqs s a1 a2).engine j = s.engine j ∧ (restoreSeqs s a1 a2).cluster j = s.cluster j ∧ (restoreSeqs s a1 a2).link j = s.link j ∧
    (restoreSeqs s a1 a2).time = s.time ∧ (restoreSeqs s a1 a2).coll = s.coll ∧ (restoreSeqs s a1 a2).pair = s.pair ∧
    (restoreSeqs s a1 a2).works = s.works ∧ (restoreSeqs s a1 a2).host = s.host ∧ (restoreSeqs s a1 a2).pmb = s.pmb ∧
    (restoreSeqs s a1 a2).jtag = s.jtag ∧ (restoreSeqs s a1 a2).out = s.out ∧ (restoreSeqs s a1 a2).free = s.free ∧
    (restoreSeqs s a1 a2).books = s.books ∧ (restoreSeqs s a1 a2).boot = s.boot ∧ (restoreSeqs s a1 a2).pending = s.pending :=
  have m := restoreSeqs_move (Move.refl [.log] s) rfl
  ⟨m.cell rfl j, m.hearth rfl j, m.slot rfl j, m.spy rfl j, m.capture rfl j, m.group rfl j, m.hk rfl j, m.chan rfl j, m.cone rfl j, m.engine rfl j, m.cluster rfl j, m.link rfl j, m.time rfl, m.coll rfl, m.pair rfl, m.works rfl, m.host rfl, m.pmb rfl, m.jtag rfl, m.out rfl, m.free rfl, m.books rfl, m.boot rfl rfl rfl rfl, m.pending rfl⟩

@[simp] theorem stopHk_reads {a1} (s : State) (j : Nat) :
    (stopHk s a1).cell j = s.cell j ∧ (stopHk s a1).hearth j = s.hearth j ∧ (stopHk s a1).slot j = s.slot j ∧ (stopHk s a1).spy j = s.spy j ∧
    (stopHk s a1).capture j = s.capture j ∧ (stopHk s a1).group j = s.group j ∧ (stopHk s a1).chan j = s.chan j ∧
    (stopHk s a1).cone j = s.cone j ∧ (stopHk s a1).engine j = s.engine j ∧ (stopHk s a1).cluster j = s.cluster j ∧
    (stopHk s a1).link j = s.link j ∧ (stopHk s a1).time = s.time ∧ (stopHk s a1).log = s.log ∧ (stopHk s a1).coll = s.coll ∧
    (stopHk s a1).pair = s.pair ∧ (stopHk s a1).works = s.works ∧ (stopHk s a1).host = s.host ∧ (stopHk s a1).pmb = s.pmb ∧
    (stopHk s a1).jtag = s.jtag ∧ (stopHk s a1).out = s.out ∧ (stopHk s a1).free = s.free ∧ (stopHk s a1).books = s.books ∧
    (stopHk s a1).boot = s.boot ∧ (stopHk s a1).pending = s.pending :=
  have m := stopHk_move (Move.refl [.hks] s) rfl
  ⟨m.cell rfl j, m.hearth rfl j, m.slot rfl j, m.spy rfl j, m.capture rfl j, m.group rfl j, m.chan rfl j, m.cone rfl j, m.engine rfl j, m.cluster rfl j, m.link rfl j, m.time rfl, m.log rfl, m.coll rfl, m.pair rfl, m.works rfl, m.host rfl, m.pmb rfl, m.jtag rfl, m.out rfl, m.free rfl, m.books rfl, m.boot rfl rfl rfl rfl, m.pending rfl⟩

@[simp] theorem setPairState_reads {a1} (s : State) (j : Nat) :
    (setPairState s a1).cell j = s.cell j ∧ (setPairState s a1).hearth j = s.hearth j ∧ (setPairState s a1).slot j = s.slot j ∧
    (setPairState s a1).spy j = s.spy j ∧ (setPairState s a1).capture j = s.capture j ∧ (setPairState s a1).group j = s.group j ∧
    (setPairState s a1).hk j = s.hk j ∧ (setPairState s a1).chan j = s.chan j ∧ (setPairState s a1).cone j = s.cone j ∧
    (setPairState s a1).engine j = s.engine j ∧ (setPairState s a1).cluster j = s.cluster j ∧ (setPairState s a1).link j = s.link j ∧
    (setPairState s a1).time = s.time ∧ (setPairState s a1).coll = s.coll ∧ (setPairState s a1).works = s.works ∧
    (setPairState s a1).pmb = s.pmb ∧ (setPairState s a1).jtag = s.jtag ∧ (setPairState s a1).out = s.out ∧
    (setPairState s a1).free = s.free ∧ (setPairState s a1).books = s.books ∧ (setPairState s a1).boot = s.boot ∧
    (setPairState s a1).pending = s.pending :=
  have m := setPairState_move (Move.refl [.log, .pair, .host] s) rfl
  ⟨m.cell rfl j, m.hearth rfl j, m.slot rfl j, m.spy rfl j, m.capture rfl j, m.group rfl j, m.hk rfl j, m.chan rfl j, m.cone rfl j, m.engine rfl j, m.cluster rfl j, m.link rfl j, m.time rfl, m.coll rfl, m.works rfl, m.pmb rfl, m.jtag rfl, m.out rfl, m.free rfl, m.books rfl, m.boot rfl rfl rfl rfl, m.pending rfl⟩

@[simp] theorem sendPair_reads {a1 a2 a3} (s : State) (j : Nat) :
    (sendPair s a1 a2 a3).cell j = s.cell j ∧ (sendPair s a1 a2 a3).hearth j = s.hearth j ∧ (sendPair s a1 a2 a3).slot j = s.slot j ∧
    (sendPair s a1 a2 a3).spy j = s.spy j ∧ (sendPair s a1 a2 a3).capture j = s.capture j ∧ (sendPair s a1 a2 a3).group j = s.group j ∧
    (sendPair s a1 a2 a3).hk j = s.hk j ∧ (sendPair s a1 a2 a3).chan j = s.chan j ∧ (sendPair s a1 a2 a3).cone j = s.cone j ∧
    (sendPair s a1 a2 a3).engine j = s.engine j ∧ (sendPair s a1 a2 a3).cluster j = s.cluster j ∧ (sendPair s a1 a2 a3).link j = s.link j ∧
    (sendPair s a1 a2 a3).time = s.time ∧ (sendPair s a1 a2 a3).log = s.log ∧ (sendPair s a1 a2 a3).coll = s.coll ∧
    (sendPair s a1 a2 a3).works = s.works ∧ (sendPair s a1 a2 a3).host = s.host ∧ (sendPair s a1 a2 a3).pmb = s.pmb ∧
    (sendPair s a1 a2 a3).jtag = s.jtag ∧ (sendPair s a1 a2 a3).free = s.free ∧ (sendPair s a1 a2 a3).books = s.books ∧
    (sendPair s a1 a2 a3).boot = s.boot ∧ (sendPair s a1 a2 a3).pending = s.pending :=
  have m := sendPair_move (Move.refl [.pair, .out] s) rfl
  ⟨m.cell rfl j, m.hearth rfl j, m.slot rfl j, m.spy rfl j, m.capture rfl j, m.group rfl j, m.hk rfl j, m.chan rfl j, m.cone rfl j, m.engine rfl j, m.cluster rfl j, m.link rfl j, m.time rfl, m.log rfl, m.coll rfl, m.works rfl, m.host rfl, m.pmb rfl, m.jtag rfl, m.free rfl, m.books rfl, m.boot rfl rfl rfl rfl, m.pending rfl⟩

@[simp] theorem sendNotice_reads {a1 a2 a3} (s : State) (j : Nat) :
    (sendNotice s a1 a2 a3).cell j = s.cell j ∧ (sendNotice s a1 a2 a3).hearth j = s.hearth j ∧ (sendNotice s a1 a2 a3).slot j = s.slot j ∧
    (sendNotice s a1 a2 a3).spy j = s.spy j ∧ (sendNotice s a1 a2 a3).capture j = s.capture j ∧ (sendNotice s a1 a2 a3).group j = s.group j ∧
    (sendNotice s a1 a2 a3).hk j = s.hk j ∧ (sendNotice s a1 a2 a3).chan j = s.chan j ∧ (sendNotice s a1 a2 a3).cone j = s.cone j ∧
    (sendNotice s a1 a2 a3).engine j = s.engine j ∧ (sendNotice s a1 a2 a3).cluster j = s.cluster j ∧
    (sendNotice s a1 a2 a3).link j = s.link j ∧ (sendNotice s a1 a2 a3).time = s.time ∧ (sendNotice s a1 a2 a3).log = s.log ∧
    (sendNotice s a1 a2 a3).coll = s.coll ∧ (sendNotice s a1 a2 a3).works = s.works ∧ (sendNotice s a1 a2 a3).host = s.host ∧
    (sendNotice s a1 a2 a3).pmb = s.pmb ∧ (sendNotice s a1 a2 a3).jtag = s.jtag ∧ (sendNotice s a1 a2 a3).free = s.free ∧
    (sendNotice s a1 a2 a3).books = s.books ∧ (sendNotice s a1 a2 a3).boot = s.boot ∧ (sendNotice s a1 a2 a3).pending = s.pending :=
  have m := sendNotice_move (Move.refl [.pair, .out] s) rfl
  ⟨m.cell rfl j, m.hearth rfl j, m.slot rfl j, m.spy rfl j, m.capture rfl j, m.group rfl j, m.hk rfl j, m.chan rfl j, m.cone rfl j, m.engine rfl j, m.cluster rfl j, m.link rfl j, m.time rfl, m.log rfl, m.coll rfl, m.works rfl, m.host rfl, m.pmb rfl, m.jtag rfl, m.free rfl, m.books rfl, m.boot rfl rfl rfl rfl, m.pending rfl⟩

@[simp] theorem greet_reads (s : State) (j : Nat) :
    (greet s).cell j = s.cell j ∧ (greet s).hearth j = s.hearth j ∧ (greet s).slot j = s.slot j ∧ (greet s).spy j = s.spy j ∧
    (greet s).capture j = s.capture j ∧ (greet s).group j = s.group j ∧ (greet s).hk j = s.hk j ∧ (greet s).chan j = s.chan j ∧
    (greet s).cone j = s.cone j ∧ (greet s).engine j = s.engine j ∧ (greet s).cluster j = s.cluster j ∧ (greet s).link j = s.link j ∧
    (greet s).time = s.time ∧ (greet s).log = s.log ∧ (greet s).coll = s.coll ∧ (greet s).works = s.works ∧ (greet s).host = s.host ∧
    (greet s).pmb = s.pmb ∧ (greet s).jtag = s.jtag ∧ (greet s).free = s.free ∧ (greet s).books = s.books ∧ (greet s).boot = s.boot ∧
    (greet s).pending = s.pending :=
  have m := greet_move (Move.refl [.pair, .out] s) rfl
  ⟨m.cell rfl j, m.hearth rfl j, m.slot rfl j, m.spy rfl j, m.capture rfl j, m.group rfl j, m.hk rfl j, m.chan rfl j, m.cone rfl j, m.engine rfl j, m.cluster rfl j, m.link rfl j, m.time rfl, m.log rfl, m.coll rfl, m.works rfl, m.host rfl, m.pmb rfl, m.jtag rfl, m.free rfl, m.books rfl, m.boot rfl rfl rfl rfl, m.pending rfl⟩

@[simp] theorem pairStart_reads (s : State) (j : Nat) :
    (pairStart s).cell j = s.cell j ∧ (pairStart s).hearth j = s.hearth j ∧ (pairStart s).slot j = s.slot j ∧ (pairStart s).spy j = s.spy j ∧
    (pairStart s).capture j = s.capture j ∧ (pairStart s).group j = s.group j ∧ (pairStart s).hk j = s.hk j ∧
    (pairStart s).chan j = s.chan j ∧ (pairStart s).cone j = s.cone j ∧ (pairStart s).engine j = s.engine j ∧
    (pairStart s).cluster j = s.cluster j ∧ (pairStart s).link j = s.link j ∧ (pairStart s).time = s.time ∧ (pairStart s).coll = s.coll ∧
    (pairStart s).works = s.works ∧ (pairStart s).pmb = s.pmb ∧ (pairStart s).jtag = s.jtag ∧ (pairStart s).free = s.free ∧
    (pairStart s).books = s.books ∧ (pairStart s).boot = s.boot ∧ (pairStart s).pending = s.pending :=
  have m := pairStart_move (Move.refl [.log, .pair, .host, .out] s) rfl
  ⟨m.cell rfl j, m.hearth rfl j, m.slot rfl j, m.spy rfl j, m.capture rfl j, m.group rfl j, m.hk rfl j, m.chan rfl j, m.cone rfl j, m.engine rfl j, m.cluster rfl j, m.link rfl j, m.time rfl, m.coll rfl, m.works rfl, m.pmb rfl, m.jtag rfl, m.free rfl, m.books rfl, m.boot rfl rfl rfl rfl, m.pending rfl⟩

@[simp] theorem tryPaired_reads (s : State) (j : Nat) :
    (tryPaired s).cell j = s.cell j ∧ (tryPaired s).hearth j = s.hearth j ∧ (tryPaired s).slot j = s.slot j ∧ (tryPaired s).spy j = s.spy j ∧
    (tryPaired s).capture j = s.capture j ∧ (tryPaired s).group j = s.group j ∧ (tryPaired s).hk j = s.hk j ∧
    (tryPaired s).chan j = s.chan j ∧ (tryPaired s).cone j = s.cone j ∧ (tryPaired s).engine j = s.engine j ∧
    (tryPaired s).cluster j = s.cluster j ∧ (tryPaired s).link j = s.link j ∧ (tryPaired s).time = s.time ∧ (tryPaired s).coll = s.coll ∧
    (tryPaired s).works = s.works ∧ (tryPaired s).pmb = s.pmb ∧ (tryPaired s).jtag = s.jtag ∧ (tryPaired s).out = s.out ∧
    (tryPaired s).free = s.free ∧ (tryPaired s).books = s.books ∧ (tryPaired s).boot = s.boot ∧ (tryPaired s).pending = s.pending :=
  have m := tryPaired_move (Move.refl [.log, .pair, .host] s) rfl
  ⟨m.cell rfl j, m.hearth rfl j, m.slot rfl j, m.spy rfl j, m.capture rfl j, m.group rfl j, m.hk rfl j, m.chan rfl j, m.cone rfl j, m.engine rfl j, m.cluster rfl j, m.link rfl j, m.time rfl, m.coll rfl, m.works rfl, m.pmb rfl, m.jtag rfl, m.out rfl, m.free rfl, m.books rfl, m.boot rfl rfl rfl rfl, m.pending rfl⟩

@[simp] theorem pathLive_reads {a1 a2} (s : State) (j : Nat) :
    (pathLive s a1 a2).cell j = s.cell j ∧ (pathLive s a1 a2).hearth j = s.hearth j ∧ (pathLive s a1 a2).slot j = s.slot j ∧
    (pathLive s a1 a2).spy j = s.spy j ∧ (pathLive s a1 a2).capture j = s.capture j ∧ (pathLive s a1 a2).group j = s.group j ∧
    (pathLive s a1 a2).hk j = s.hk j ∧ (pathLive s a1 a2).chan j = s.chan j ∧ (pathLive s a1 a2).cone j = s.cone j ∧
    (pathLive s a1 a2).engine j = s.engine j ∧ (pathLive s a1 a2).cluster j = s.cluster j ∧ (pathLive s a1 a2).link j = s.link j ∧
    (pathLive s a1 a2).time = s.time ∧ (pathLive s a1 a2).works = s.works ∧ (pathLive s a1 a2).pmb = s.pmb ∧
    (pathLive s a1 a2).jtag = s.jtag ∧ (pathLive s a1 a2).out = s.out ∧ (pathLive s a1 a2).free = s.free ∧
    (pathLive s a1 a2).books = s.books ∧ (pathLive s a1 a2).boot = s.boot ∧ (pathLive s a1 a2).pending = s.pending :=
  have m := pathLive_move (Move.refl [.log, .coll, .pair, .host] s) rfl
  ⟨m.cell rfl j, m.hearth rfl j, m.slot rfl j, m.spy rfl j, m.capture rfl j, m.group rfl j, m.hk rfl j, m.chan rfl j, m.cone rfl j, m.engine rfl j, m.cluster rfl j, m.link rfl j, m.time rfl, m.works rfl, m.pmb rfl, m.jtag rfl, m.out rfl, m.free rfl, m.books rfl, m.boot rfl rfl rfl rfl, m.pending rfl⟩

@[simp] theorem loadHearth_reads {a1} (s : State) (j : Nat) :
    (loadHearth s a1).cell j = s.cell j ∧ (loadHearth s a1).hearth j = s.hearth j ∧ (loadHearth s a1).slot j = s.slot j ∧
    (loadHearth s a1).capture j = s.capture j ∧ (loadHearth s a1).group j = s.group j ∧ (loadHearth s a1).cluster j = s.cluster j ∧
    (loadHearth s a1).link j = s.link j ∧ (loadHearth s a1).time = s.time ∧ (loadHearth s a1).works = s.works ∧
    (loadHearth s a1).pmb = s.pmb ∧ (loadHearth s a1).jtag = s.jtag ∧ (loadHearth s a1).free = s.free ∧ (loadHearth s a1).books = s.books ∧
    (loadHearth s a1).pending = s.pending :=
  have m := loadHearth_move (Move.refl [.spies, .hks, .chans, .cones, .engines, .boot, .log, .coll, .pair, .host, .out] s) rfl
  ⟨m.cell rfl j, m.hearth rfl j, m.slot rfl j, m.capture rfl j, m.group rfl j, m.cluster rfl j, m.link rfl j, m.time rfl, m.works rfl, m.pmb rfl, m.jtag rfl, m.free rfl, m.books rfl, m.pending rfl⟩

@[simp] theorem claimPartner_reads {a1} (s : State) (j : Nat) :
    (claimPartner s a1).cell j = s.cell j ∧ (claimPartner s a1).hearth j = s.hearth j ∧ (claimPartner s a1).slot j = s.slot j ∧
    (claimPartner s a1).spy j = s.spy j ∧ (claimPartner s a1).capture j = s.capture j ∧ (claimPartner s a1).group j = s.group j ∧
    (claimPartner s a1).hk j = s.hk j ∧ (claimPartner s a1).chan j = s.chan j ∧ (claimPartner s a1).cone j = s.cone j ∧
    (claimPartner s a1).engine j = s.engine j ∧ (claimPartner s a1).cluster j = s.cluster j ∧ (claimPartner s a1).time = s.time ∧
    (claimPartner s a1).log = s.log ∧ (claimPartner s a1).coll = s.coll ∧ (claimPartner s a1).works = s.works ∧
    (claimPartner s a1).host = s.host ∧ (claimPartner s a1).pmb = s.pmb ∧ (claimPartner s a1).jtag = s.jtag ∧
    (claimPartner s a1).free = s.free ∧ (claimPartner s a1).books = s.books ∧ (claimPartner s a1).boot = s.boot ∧
    (claimPartner s a1).pending = s.pending :=
  have m := claimPartner_move (Move.refl [.links, .pair, .out] s) rfl
  ⟨m.cell rfl j, m.hearth rfl j, m.slot rfl j, m.spy rfl j, m.capture rfl j, m.group rfl j, m.hk rfl j, m.chan rfl j, m.cone rfl j, m.engine rfl j, m.cluster rfl j, m.time rfl, m.log rfl, m.coll rfl, m.works rfl, m.host rfl, m.pmb rfl, m.jtag rfl, m.free rfl, m.books rfl, m.boot rfl rfl rfl rfl, m.pending rfl⟩

@[simp] theorem adoptHearth_reads {a1} (s : State) (j : Nat) :
    (adoptHearth s a1).cell j = s.cell j ∧ (adoptHearth s a1).hearth j = s.hearth j ∧ (adoptHearth s a1).slot j = s.slot j ∧
    (adoptHearth s a1).capture j = s.capture j ∧ (adoptHearth s a1).group j = s.group j ∧ (adoptHearth s a1).cluster j = s.cluster j ∧
    (adoptHearth s a1).time = s.time ∧ (adoptHearth s a1).works = s.works ∧ (adoptHearth s a1).pmb = s.pmb ∧
    (adoptHearth s a1).jtag = s.jtag ∧ (adoptHearth s a1).free = s.free ∧ (adoptHearth s a1).books = s.books ∧
    (adoptHearth s a1).pending = s.pending :=
  have m := adoptHearth_move (Move.refl [.spies, .hks, .chans, .cones, .engines, .links, .boot, .log, .coll, .pair, .host, .out] s) rfl
  ⟨m.cell rfl j, m.hearth rfl j, m.slot rfl j, m.capture rfl j, m.group rfl j, m.cluster rfl j, m.time rfl, m.works rfl, m.pmb rfl, m.jtag rfl, m.free rfl, m.books rfl, m.pending rfl⟩

@[simp] theorem dropHearth_reads {a1} (s : State) (j : Nat) :
    (dropHearth s a1).cell j = s.cell j ∧ (dropHearth s a1).hearth j = s.hearth j ∧ (dropHearth s a1).slot j = s.slot j ∧
    (dropHearth s a1).spy j = s.spy j ∧ (dropHearth s a1).capture j = s.capture j ∧ (dropHearth s a1).group j = s.group j ∧
    (dropHearth s a1).hk j = s.hk j ∧ (dropHearth s a1).cluster j = s.cluster j ∧ (dropHearth s a1).link j = s.link j ∧
    (dropHearth s a1).time = s.time ∧ (dropHearth s a1).log = s.log ∧ (dropHearth s a1).coll = s.coll ∧ (dropHearth s a1).pair = s.pair ∧
    (dropHearth s a1).works = s.works ∧ (dropHearth s a1).host = s.host ∧ (dropHearth s a1).pmb = s.pmb ∧ (dropHearth s a1).jtag = s.jtag ∧
    (dropHearth s a1).out = s.out ∧ (dropHearth s a1).free = s.free ∧ (dropHearth s a1).books = s.books ∧ (dropHearth s a1).boot = s.boot ∧
    (dropHearth s a1).pending = s.pending :=
  have m := dropHearth_move (Move.refl [.chans, .cones, .engines] s) rfl
  ⟨m.cell rfl j, m.hearth rfl j, m.slot rfl j, m.spy rfl j, m.capture rfl j, m.group rfl j, m.hk rfl j, m.cluster rfl j, m.link rfl j, m.time rfl, m.log rfl, m.coll rfl, m.pair rfl, m.works rfl, m.host rfl, m.pmb rfl, m.jtag rfl, m.out rfl, m.free rfl, m.books rfl, m.boot rfl rfl rfl rfl, m.pending rfl⟩

@[simp] theorem unpack_reads (s : State) (j : Nat) :
    (unpack s).cell j = s.cell j ∧ (unpack s).hearth j = s.hearth j ∧ (unpack s).slot j = s.slot j ∧ (unpack s).spy j = s.spy j ∧
    (unpack s).capture j = s.capture j ∧ (unpack s).group j = s.group j ∧ (unpack s).hk j = s.hk j ∧ (unpack s).chan j = s.chan j ∧
    (unpack s).cone j = s.cone j ∧ (unpack s).engine j = s.engine j ∧ (unpack s).cluster j = s.cluster j ∧ (unpack s).link j = s.link j ∧
    (unpack s).time = s.time ∧ (unpack s).log = s.log ∧ (unpack s).coll = s.coll ∧ (unpack s).pair = s.pair ∧ (unpack s).works = s.works ∧
    (unpack s).host = s.host ∧ (unpack s).pmb = s.pmb ∧ (unpack s).jtag = s.jtag ∧ (unpack s).out = s.out ∧ (unpack s).free = s.free ∧
    (unpack s).books = s.books ∧ (unpack s).pending = s.pending :=
  have m := unpack_move (Move.refl [.boot] s) rfl
  ⟨m.cell rfl j, m.hearth rfl j, m.slot rfl j, m.spy rfl j, m.capture rfl j, m.group rfl j, m.hk rfl j, m.chan rfl j, m.cone rfl j, m.engine rfl j, m.cluster rfl j, m.link rfl j, m.time rfl, m.log rfl, m.coll rfl, m.pair rfl, m.works rfl, m.host rfl, m.pmb rfl, m.jtag rfl, m.out rfl, m.free rfl, m.books rfl, m.pending rfl⟩

@[simp] theorem noHearth_reads (s : State) (j : Nat) :
    (noHearth s).cell j = s.cell j ∧ (noHearth s).hearth j = s.hearth j ∧ (noHearth s).slot j = s.slot j ∧ (noHearth s).spy j = s.spy j ∧
    (noHearth s).capture j = s.capture j ∧ (noHearth s).group j = s.group j ∧ (noHearth s).hk j = s.hk j ∧ (noHearth s).chan j = s.chan j ∧
    (noHearth s).cone j = s.cone j ∧ (noHearth s).engine j = s.engine j ∧ (noHearth s).cluster j = s.cluster j ∧
    (noHearth s).link j = s.link j ∧ (noHearth s).time = s.time ∧ (noHearth s).works = s.works ∧ (noHearth s).pmb = s.pmb ∧
    (noHearth s).jtag = s.jtag ∧ (noHearth s).free = s.free ∧ (noHearth s).books = s.books ∧ (noHearth s).pending = s.pending :=
  have m := noHearth_move (Move.refl [.boot, .log, .coll, .pair, .host, .out] s) rfl
  ⟨m.cell rfl j, m.hearth rfl j, m.slot rfl j, m.spy rfl j, m.capture rfl j, m.group rfl j, m.hk rfl j, m.chan rfl j, m.cone rfl j, m.engine rfl j, m.cluster rfl j, m.link rfl j, m.time rfl, m.works rfl, m.pmb rfl, m.jtag rfl, m.free rfl, m.books rfl, m.pending rfl⟩

@[simp] theorem endClaim_reads {a1} (s : State) (j : Nat) :
    (endClaim s a1).cell j = s.cell j ∧ (endClaim s a1).hearth j = s.hearth j ∧ (endClaim s a1).slot j = s.slot j ∧
    (endClaim s a1).spy j = s.spy j ∧ (endClaim s a1).capture j = s.capture j ∧ (endClaim s a1).group j = s.group j ∧
    (endClaim s a1).hk j = s.hk j ∧ (endClaim s a1).cluster j = s.cluster j ∧ (endClaim s a1).link j = s.link j ∧
    (endClaim s a1).time = s.time ∧ (endClaim s a1).works = s.works ∧ (endClaim s a1).pmb = s.pmb ∧ (endClaim s a1).jtag = s.jtag ∧
    (endClaim s a1).free = s.free ∧ (endClaim s a1).books = s.books ∧ (endClaim s a1).pending = s.pending :=
  have m := endClaim_move (Move.refl [.chans, .cones, .engines, .boot, .log, .coll, .pair, .host, .out] s) rfl
  ⟨m.cell rfl j, m.hearth rfl j, m.slot rfl j, m.spy rfl j, m.capture rfl j, m.group rfl j, m.hk rfl j, m.cluster rfl j, m.link rfl j, m.time rfl, m.works rfl, m.pmb rfl, m.jtag rfl, m.free rfl, m.books rfl, m.pending rfl⟩

@[simp] theorem requestPack_reads (s : State) (j : Nat) :
    (requestPack s).cell j = s.cell j ∧ (requestPack s).hearth j = s.hearth j ∧ (requestPack s).slot j = s.slot j ∧
    (requestPack s).spy j = s.spy j ∧ (requestPack s).capture j = s.capture j ∧ (requestPack s).group j = s.group j ∧
    (requestPack s).hk j = s.hk j ∧ (requestPack s).chan j = s.chan j ∧ (requestPack s).cone j = s.cone j ∧
    (requestPack s).engine j = s.engine j ∧ (requestPack s).cluster j = s.cluster j ∧ (requestPack s).link j = s.link j ∧
    (requestPack s).time = s.time ∧ (requestPack s).log = s.log ∧ (requestPack s).coll = s.coll ∧ (requestPack s).pair = s.pair ∧
    (requestPack s).works = s.works ∧ (requestPack s).host = s.host ∧ (requestPack s).pmb = s.pmb ∧ (requestPack s).jtag = s.jtag ∧
    (requestPack s).out = s.out ∧ (requestPack s).free = s.free ∧ (requestPack s).books = s.books ∧ (requestPack s).pending = s.pending :=
  have m := requestPack_move (Move.refl [.boot] s) rfl
  ⟨m.cell rfl j, m.hearth rfl j, m.slot rfl j, m.spy rfl j, m.capture rfl j, m.group rfl j, m.hk rfl j, m.chan rfl j, m.cone rfl j, m.engine rfl j, m.cluster rfl j, m.link rfl j, m.time rfl, m.log rfl, m.coll rfl, m.pair rfl, m.works rfl, m.host rfl, m.pmb rfl, m.jtag rfl, m.out rfl, m.free rfl, m.books rfl, m.pending rfl⟩

@[simp] theorem startAdoption_reads {a1} (s : State) (j : Nat) :
    (startAdoption s a1).cell j = s.cell j ∧ (startAdoption s a1).hearth j = s.hearth j ∧ (startAdoption s a1).slot j = s.slot j ∧
    (startAdoption s a1).capture j = s.capture j ∧ (startAdoption s a1).group j = s.group j ∧ (startAdoption s a1).cluster j = s.cluster j ∧
    (startAdoption s a1).time = s.time ∧ (startAdoption s a1).works = s.works ∧ (startAdoption s a1).pmb = s.pmb ∧
    (startAdoption s a1).jtag = s.jtag ∧ (startAdoption s a1).free = s.free ∧ (startAdoption s a1).books = s.books ∧
    (startAdoption s a1).pending = s.pending :=
  have m := startAdoption_move (Move.refl [.spies, .hks, .chans, .cones, .engines, .links, .boot, .log, .coll, .pair, .host, .out] s) rfl
  ⟨m.cell rfl j, m.hearth rfl j, m.slot rfl j, m.capture rfl j, m.group rfl j, m.cluster rfl j, m.time rfl, m.works rfl, m.pmb rfl, m.jtag rfl, m.free rfl, m.books rfl, m.pending rfl⟩

@[simp] theorem endHand_reads {a1} (s : State) (j : Nat) :
    (endHand s a1).cell j = s.cell j ∧ (endHand s a1).hearth j = s.hearth j ∧ (endHand s a1).slot j = s.slot j ∧
    (endHand s a1).spy j = s.spy j ∧ (endHand s a1).capture j = s.capture j ∧ (endHand s a1).group j = s.group j ∧
    (endHand s a1).hk j = s.hk j ∧ (endHand s a1).chan j = s.chan j ∧ (endHand s a1).cone j = s.cone j ∧
    (endHand s a1).engine j = s.engine j ∧ (endHand s a1).cluster j = s.cluster j ∧ (endHand s a1).link j = s.link j ∧
    (endHand s a1).time = s.time ∧ (endHand s a1).log = s.log ∧ (endHand s a1).coll = s.coll ∧ (endHand s a1).pmb = s.pmb ∧
    (endHand s a1).jtag = s.jtag ∧ (endHand s a1).free = s.free ∧ (endHand s a1).books = s.books ∧ (endHand s a1).pending = s.pending :=
  have m := endHand_move (Move.refl [.boot, .pair, .works, .host, .out] s) rfl
  ⟨m.cell rfl j, m.hearth rfl j, m.slot rfl j, m.spy rfl j, m.capture rfl j, m.group rfl j, m.hk rfl j, m.chan rfl j, m.cone rfl j, m.engine rfl j, m.cluster rfl j, m.link rfl j, m.time rfl, m.log rfl, m.coll rfl, m.pmb rfl, m.jtag rfl, m.free rfl, m.books rfl, m.pending rfl⟩

@[simp] theorem prepareHearth_reads {a1} (s : State) (j : Nat) :
    (prepareHearth s a1).cell j = s.cell j ∧ (prepareHearth s a1).hearth j = s.hearth j ∧ (prepareHearth s a1).slot j = s.slot j ∧
    (prepareHearth s a1).capture j = s.capture j ∧ (prepareHearth s a1).group j = s.group j ∧ (prepareHearth s a1).cluster j = s.cluster j ∧
    (prepareHearth s a1).link j = s.link j ∧ (prepareHearth s a1).time = s.time ∧ (prepareHearth s a1).works = s.works ∧
    (prepareHearth s a1).pmb = s.pmb ∧ (prepareHearth s a1).jtag = s.jtag ∧ (prepareHearth s a1).free = s.free ∧
    (prepareHearth s a1).books = s.books ∧ (prepareHearth s a1).pending = s.pending :=
  have m := prepareHearth_move (Move.refl [.spies, .hks, .chans, .cones, .engines, .boot, .log, .coll, .pair, .host, .out] s) rfl
  ⟨m.cell rfl j, m.hearth rfl j, m.slot rfl j, m.capture rfl j, m.group rfl j, m.cluster rfl j, m.link rfl j, m.time rfl, m.works rfl, m.pmb rfl, m.jtag rfl, m.free rfl, m.books rfl, m.pending rfl⟩

@[simp] theorem moveLedger_reads {a1 a2 a3} (s : State) (j : Nat) :
    (moveLedger s a1 a2 a3).cell j = s.cell j ∧ (moveLedger s a1 a2 a3).slot j = s.slot j ∧ (moveLedger s a1 a2 a3).spy j = s.spy j ∧
    (moveLedger s a1 a2 a3).capture j = s.capture j ∧ (moveLedger s a1 a2 a3).group j = s.group j ∧ (moveLedger s a1 a2 a3).hk j = s.hk j ∧
    (moveLedger s a1 a2 a3).cone j = s.cone j ∧ (moveLedger s a1 a2 a3).engine j = s.engine j ∧
    (moveLedger s a1 a2 a3).cluster j = s.cluster j ∧ (moveLedger s a1 a2 a3).time = s.time ∧ (moveLedger s a1 a2 a3).coll = s.coll ∧
    (moveLedger s a1 a2 a3).pair = s.pair ∧ (moveLedger s a1 a2 a3).pmb = s.pmb ∧ (moveLedger s a1 a2 a3).jtag = s.jtag ∧
    (moveLedger s a1 a2 a3).free = s.free ∧ (moveLedger s a1 a2 a3).books = s.books ∧ (moveLedger s a1 a2 a3).boot = s.boot ∧
    (moveLedger s a1 a2 a3).pending = s.pending :=
  have m := moveLedger_move (Move.refl [.hearths, .chans, .links, .log, .works, .host, .out] s) rfl
  ⟨m.cell rfl j, m.slot rfl j, m.spy rfl j, m.capture rfl j, m.group rfl j, m.hk rfl j, m.cone rfl j, m.engine rfl j, m.cluster rfl j, m.time rfl, m.coll rfl, m.pair rfl, m.pmb rfl, m.jtag rfl, m.free rfl, m.books rfl, m.boot rfl rfl rfl rfl, m.pending rfl⟩

@[simp] theorem nextHand_reads (s : State) (j : Nat) :
    (nextHand s).cell j = s.cell j ∧ (nextHand s).hearth j = s.hearth j ∧ (nextHand s).slot j = s.slot j ∧ (nextHand s).spy j = s.spy j ∧
    (nextHand s).capture j = s.capture j ∧ (nextHand s).group j = s.group j ∧ (nextHand s).hk j = s.hk j ∧ (nextHand s).chan j = s.chan j ∧
    (nextHand s).cone j = s.cone j ∧ (nextHand s).engine j = s.engine j ∧ (nextHand s).cluster j = s.cluster j ∧
    (nextHand s).link j = s.link j ∧ (nextHand s).time = s.time ∧ (nextHand s).coll = s.coll ∧ (nextHand s).pmb = s.pmb ∧
    (nextHand s).jtag = s.jtag ∧ (nextHand s).free = s.free ∧ (nextHand s).books = s.books ∧ (nextHand s).pending = s.pending :=
  have m := nextHand_move (Move.refl [.boot, .log, .pair, .works, .host, .out] s) rfl
  ⟨m.cell rfl j, m.hearth rfl j, m.slot rfl j, m.spy rfl j, m.capture rfl j, m.group rfl j, m.hk rfl j, m.chan rfl j, m.cone rfl j, m.engine rfl j, m.cluster rfl j, m.link rfl j, m.time rfl, m.coll rfl, m.pmb rfl, m.jtag rfl, m.free rfl, m.books rfl, m.pending rfl⟩

@[simp] theorem startHand_reads {a1 a2 a3} (s : State) (j : Nat) :
    (startHand s a1 a2 a3).cell j = s.cell j ∧ (startHand s a1 a2 a3).hearth j = s.hearth j ∧ (startHand s a1 a2 a3).slot j = s.slot j ∧
    (startHand s a1 a2 a3).spy j = s.spy j ∧ (startHand s a1 a2 a3).capture j = s.capture j ∧ (startHand s a1 a2 a3).group j = s.group j ∧
    (startHand s a1 a2 a3).hk j = s.hk j ∧ (startHand s a1 a2 a3).chan j = s.chan j ∧ (startHand s a1 a2 a3).cone j = s.cone j ∧
    (startHand s a1 a2 a3).engine j = s.engine j ∧ (startHand s a1 a2 a3).cluster j = s.cluster j ∧ (startHand s a1 a2 a3).link j = s.link j ∧
    (startHand s a1 a2 a3).time = s.time ∧ (startHand s a1 a2 a3).coll = s.coll ∧ (startHand s a1 a2 a3).pmb = s.pmb ∧
    (startHand s a1 a2 a3).jtag = s.jtag ∧ (startHand s a1 a2 a3).free = s.free ∧ (startHand s a1 a2 a3).books = s.books ∧
    (startHand s a1 a2 a3).pending = s.pending :=
  have m := startHand_move (Move.refl [.boot, .log, .pair, .works, .host, .out] s) rfl
  ⟨m.cell rfl j, m.hearth rfl j, m.slot rfl j, m.spy rfl j, m.capture rfl j, m.group rfl j, m.hk rfl j, m.chan rfl j, m.cone rfl j, m.engine rfl j, m.cluster rfl j, m.link rfl j, m.time rfl, m.coll rfl, m.pmb rfl, m.jtag rfl, m.free rfl, m.books rfl, m.pending rfl⟩

@[simp] theorem handedOne_reads {a1} (s : State) (j : Nat) :
    (handedOne s a1).cell j = s.cell j ∧ (handedOne s a1).hearth j = s.hearth j ∧ (handedOne s a1).slot j = s.slot j ∧
    (handedOne s a1).spy j = s.spy j ∧ (handedOne s a1).capture j = s.capture j ∧ (handedOne s a1).group j = s.group j ∧
    (handedOne s a1).hk j = s.hk j ∧ (handedOne s a1).chan j = s.chan j ∧ (handedOne s a1).cone j = s.cone j ∧
    (handedOne s a1).engine j = s.engine j ∧ (handedOne s a1).cluster j = s.cluster j ∧ (handedOne s a1).link j = s.link j ∧
    (handedOne s a1).time = s.time ∧ (handedOne s a1).coll = s.coll ∧ (handedOne s a1).pmb = s.pmb ∧ (handedOne s a1).jtag = s.jtag ∧
    (handedOne s a1).free = s.free ∧ (handedOne s a1).books = s.books ∧ (handedOne s a1).pending = s.pending :=
  have m := handedOne_move (Move.refl [.boot, .log, .pair, .works, .host, .out] s) rfl
  ⟨m.cell rfl j, m.hearth rfl j, m.slot rfl j, m.spy rfl j, m.capture rfl j, m.group rfl j, m.hk rfl j, m.chan rfl j, m.cone rfl j, m.engine rfl j, m.cluster rfl j, m.link rfl j, m.time rfl, m.coll rfl, m.pmb rfl, m.jtag rfl, m.free rfl, m.books rfl, m.pending rfl⟩

@[simp] theorem takeCheckpoint_reads {a1 a2} (s : State) (j : Nat) :
    (takeCheckpoint s a1 a2).cell j = s.cell j ∧ (takeCheckpoint s a1 a2).hearth j = s.hearth j ∧ (takeCheckpoint s a1 a2).slot j = s.slot j ∧
    (takeCheckpoint s a1 a2).spy j = s.spy j ∧ (takeCheckpoint s a1 a2).capture j = s.capture j ∧
    (takeCheckpoint s a1 a2).group j = s.group j ∧ (takeCheckpoint s a1 a2).hk j = s.hk j ∧ (takeCheckpoint s a1 a2).chan j = s.chan j ∧
    (takeCheckpoint s a1 a2).engine j = s.engine j ∧ (takeCheckpoint s a1 a2).cluster j = s.cluster j ∧
    (takeCheckpoint s a1 a2).link j = s.link j ∧ (takeCheckpoint s a1 a2).time = s.time ∧ (takeCheckpoint s a1 a2).log = s.log ∧
    (takeCheckpoint s a1 a2).coll = s.coll ∧ (takeCheckpoint s a1 a2).works = s.works ∧ (takeCheckpoint s a1 a2).host = s.host ∧
    (takeCheckpoint s a1 a2).pmb = s.pmb ∧ (takeCheckpoint s a1 a2).jtag = s.jtag ∧ (takeCheckpoint s a1 a2).free = s.free ∧
    (takeCheckpoint s a1 a2).books = s.books ∧ (takeCheckpoint s a1 a2).boot = s.boot ∧ (takeCheckpoint s a1 a2).pending = s.pending :=
  have m := takeCheckpoint_move (Move.refl [.cones, .pair, .out] s) rfl
  ⟨m.cell rfl j, m.hearth rfl j, m.slot rfl j, m.spy rfl j, m.capture rfl j, m.group rfl j, m.hk rfl j, m.chan rfl j, m.engine rfl j, m.cluster rfl j, m.link rfl j, m.time rfl, m.log rfl, m.coll rfl, m.works rfl, m.host rfl, m.pmb rfl, m.jtag rfl, m.free rfl, m.books rfl, m.boot rfl rfl rfl rfl, m.pending rfl⟩

@[simp] theorem missCheckpoint_reads {a1 a2 a3} (s : State) (j : Nat) :
    (missCheckpoint s a1 a2 a3).cell j = s.cell j ∧ (missCheckpoint s a1 a2 a3).hearth j = s.hearth j ∧
    (missCheckpoint s a1 a2 a3).slot j = s.slot j ∧ (missCheckpoint s a1 a2 a3).spy j = s.spy j ∧
    (missCheckpoint s a1 a2 a3).capture j = s.capture j ∧ (missCheckpoint s a1 a2 a3).group j = s.group j ∧
    (missCheckpoint s a1 a2 a3).hk j = s.hk j ∧ (missCheckpoint s a1 a2 a3).chan j = s.chan j ∧
    (missCheckpoint s a1 a2 a3).cone j = s.cone j ∧ (missCheckpoint s a1 a2 a3).engine j = s.engine j ∧
    (missCheckpoint s a1 a2 a3).cluster j = s.cluster j ∧ (missCheckpoint s a1 a2 a3).link j = s.link j ∧
    (missCheckpoint s a1 a2 a3).time = s.time ∧ (missCheckpoint s a1 a2 a3).coll = s.coll ∧ (missCheckpoint s a1 a2 a3).pmb = s.pmb ∧
    (missCheckpoint s a1 a2 a3).jtag = s.jtag ∧ (missCheckpoint s a1 a2 a3).free = s.free ∧ (missCheckpoint s a1 a2 a3).books = s.books ∧
    (missCheckpoint s a1 a2 a3).pending = s.pending :=
  have m := missCheckpoint_move (Move.refl [.boot, .log, .pair, .works, .host, .out] s) rfl
  ⟨m.cell rfl j, m.hearth rfl j, m.slot rfl j, m.spy rfl j, m.capture rfl j, m.group rfl j, m.hk rfl j, m.chan rfl j, m.cone rfl j, m.engine rfl j, m.cluster rfl j, m.link rfl j, m.time rfl, m.coll rfl, m.pmb rfl, m.jtag rfl, m.free rfl, m.books rfl, m.pending rfl⟩

@[simp] theorem sendReset_reads {a1} (s : State) (j : Nat) :
    (sendReset s a1).cell j = s.cell j ∧ (sendReset s a1).hearth j = s.hearth j ∧ (sendReset s a1).slot j = s.slot j ∧
    (sendReset s a1).spy j = s.spy j ∧ (sendReset s a1).capture j = s.capture j ∧ (sendReset s a1).group j = s.group j ∧
    (sendReset s a1).hk j = s.hk j ∧ (sendReset s a1).chan j = s.chan j ∧ (sendReset s a1).cone j = s.cone j ∧
    (sendReset s a1).engine j = s.engine j ∧ (sendReset s a1).cluster j = s.cluster j ∧ (sendReset s a1).link j = s.link j ∧
    (sendReset s a1).time = s.time ∧ (sendReset s a1).coll = s.coll ∧ (sendReset s a1).works = s.works ∧ (sendReset s a1).pmb = s.pmb ∧
    (sendReset s a1).jtag = s.jtag ∧ (sendReset s a1).free = s.free ∧ (sendReset s a1).books = s.books ∧ (sendReset s a1).boot = s.boot ∧
    (sendReset s a1).pending = s.pending :=
  have m := sendReset_move (Move.refl [.log, .pair, .host, .out] s) rfl
  ⟨m.cell rfl j, m.hearth rfl j, m.slot rfl j, m.spy rfl j, m.capture rfl j, m.group rfl j, m.hk rfl j, m.chan rfl j, m.cone rfl j, m.engine rfl j, m.cluster rfl j, m.link rfl j, m.time rfl, m.coll rfl, m.works rfl, m.pmb rfl, m.jtag rfl, m.free rfl, m.books rfl, m.boot rfl rfl rfl rfl, m.pending rfl⟩

@[simp] theorem fatal_reads {a1 a2 a3} (s : State) (j : Nat) :
    (fatal s a1 a2 a3).cell j = s.cell j ∧ (fatal s a1 a2 a3).hearth j = s.hearth j ∧ (fatal s a1 a2 a3).slot j = s.slot j ∧
    (fatal s a1 a2 a3).spy j = s.spy j ∧ (fatal s a1 a2 a3).capture j = s.capture j ∧ (fatal s a1 a2 a3).group j = s.group j ∧
    (fatal s a1 a2 a3).hk j = s.hk j ∧ (fatal s a1 a2 a3).chan j = s.chan j ∧ (fatal s a1 a2 a3).cone j = s.cone j ∧
    (fatal s a1 a2 a3).engine j = s.engine j ∧ (fatal s a1 a2 a3).cluster j = s.cluster j ∧ (fatal s a1 a2 a3).link j = s.link j ∧
    (fatal s a1 a2 a3).time = s.time ∧ (fatal s a1 a2 a3).pair = s.pair ∧ (fatal s a1 a2 a3).works = s.works ∧
    (fatal s a1 a2 a3).pmb = s.pmb ∧ (fatal s a1 a2 a3).jtag = s.jtag ∧ (fatal s a1 a2 a3).free = s.free ∧
    (fatal s a1 a2 a3).books = s.books ∧ (fatal s a1 a2 a3).pending = s.pending :=
  have m := fatal_move (Move.refl [.boot, .log, .coll, .host, .out] s) rfl
  ⟨m.cell rfl j, m.hearth rfl j, m.slot rfl j, m.spy rfl j, m.capture rfl j, m.group rfl j, m.hk rfl j, m.chan rfl j, m.cone rfl j, m.engine rfl j, m.cluster rfl j, m.link rfl j, m.time rfl, m.pair rfl, m.works rfl, m.pmb rfl, m.jtag rfl, m.free rfl, m.books rfl, m.pending rfl⟩

@[simp] theorem fatalFree_reads {a1 a2} (s : State) (j : Nat) :
    (fatalFree s a1 a2).cell j = s.cell j ∧ (fatalFree s a1 a2).hearth j = s.hearth j ∧ (fatalFree s a1 a2).slot j = s.slot j ∧
    (fatalFree s a1 a2).spy j = s.spy j ∧ (fatalFree s a1 a2).capture j = s.capture j ∧ (fatalFree s a1 a2).group j = s.group j ∧
    (fatalFree s a1 a2).hk j = s.hk j ∧ (fatalFree s a1 a2).chan j = s.chan j ∧ (fatalFree s a1 a2).cone j = s.cone j ∧
    (fatalFree s a1 a2).engine j = s.engine j ∧ (fatalFree s a1 a2).cluster j = s.cluster j ∧ (fatalFree s a1 a2).link j = s.link j ∧
    (fatalFree s a1 a2).time = s.time ∧ (fatalFree s a1 a2).pair = s.pair ∧ (fatalFree s a1 a2).works = s.works ∧
    (fatalFree s a1 a2).pmb = s.pmb ∧ (fatalFree s a1 a2).jtag = s.jtag ∧ (fatalFree s a1 a2).books = s.books ∧
    (fatalFree s a1 a2).pending = s.pending :=
  have m := fatalFree_move (Move.refl [.boot, .log, .coll, .host, .out, .free] s) rfl
  ⟨m.cell rfl j, m.hearth rfl j, m.slot rfl j, m.spy rfl j, m.capture rfl j, m.group rfl j, m.hk rfl j, m.chan rfl j, m.cone rfl j, m.engine rfl j, m.cluster rfl j, m.link rfl j, m.time rfl, m.pair rfl, m.works rfl, m.pmb rfl, m.jtag rfl, m.books rfl, m.pending rfl⟩

@[simp] theorem setStage_reads {a1} (s : State) (j : Nat) :
    (setStage s a1).cell j = s.cell j ∧ (setStage s a1).hearth j = s.hearth j ∧ (setStage s a1).slot j = s.slot j ∧
    (setStage s a1).spy j = s.spy j ∧ (setStage s a1).capture j = s.capture j ∧ (setStage s a1).group j = s.group j ∧
    (setStage s a1).hk j = s.hk j ∧ (setStage s a1).chan j = s.chan j ∧ (setStage s a1).cone j = s.cone j ∧
    (setStage s a1).engine j = s.engine j ∧ (setStage s a1).cluster j = s.cluster j ∧ (setStage s a1).link j = s.link j ∧
    (setStage s a1).time = s.time ∧ (setStage s a1).log = s.log ∧ (setStage s a1).coll = s.coll ∧ (setStage s a1).pair = s.pair ∧
    (setStage s a1).works = s.works ∧ (setStage s a1).pmb = s.pmb ∧ (setStage s a1).jtag = s.jtag ∧ (setStage s a1).free = s.free ∧
    (setStage s a1).books = s.books ∧ (setStage s a1).pending = s.pending :=
  have m := setStage_move (Move.refl [.boot, .host, .out] s) rfl
  ⟨m.cell rfl j, m.hearth rfl j, m.slot rfl j, m.spy rfl j, m.capture rfl j, m.group rfl j, m.hk rfl j, m.chan rfl j, m.cone rfl j, m.engine rfl j, m.cluster rfl j, m.link rfl j, m.time rfl, m.log rfl, m.coll rfl, m.pair rfl, m.works rfl, m.pmb rfl, m.jtag rfl, m.free rfl, m.books rfl, m.pending rfl⟩

@[simp] theorem stall_reads {a1 a2} (s : State) (j : Nat) :
    (stall s a1 a2).cell j = s.cell j ∧ (stall s a1 a2).hearth j = s.hearth j ∧ (stall s a1 a2).slot j = s.slot j ∧
    (stall s a1 a2).spy j = s.spy j ∧ (stall s a1 a2).capture j = s.capture j ∧ (stall s a1 a2).group j = s.group j ∧
    (stall s a1 a2).hk j = s.hk j ∧ (stall s a1 a2).chan j = s.chan j ∧ (stall s a1 a2).cone j = s.cone j ∧
    (stall s a1 a2).engine j = s.engine j ∧ (stall s a1 a2).cluster j = s.cluster j ∧ (stall s a1 a2).link j = s.link j ∧
    (stall s a1 a2).time = s.time ∧ (stall s a1 a2).log = s.log ∧ (stall s a1 a2).coll = s.coll ∧ (stall s a1 a2).pair = s.pair ∧
    (stall s a1 a2).works = s.works ∧ (stall s a1 a2).pmb = s.pmb ∧ (stall s a1 a2).jtag = s.jtag ∧ (stall s a1 a2).free = s.free ∧
    (stall s a1 a2).books = s.books ∧ (stall s a1 a2).pending = s.pending :=
  have m := stall_move (Move.refl [.boot, .host, .out] s) rfl
  ⟨m.cell rfl j, m.hearth rfl j, m.slot rfl j, m.spy rfl j, m.capture rfl j, m.group rfl j, m.hk rfl j, m.chan rfl j, m.cone rfl j, m.engine rfl j, m.cluster rfl j, m.link rfl j, m.time rfl, m.log rfl, m.coll rfl, m.pair rfl, m.works rfl, m.pmb rfl, m.jtag rfl, m.free rfl, m.books rfl, m.pending rfl⟩

@[simp] theorem setAttempts_reads {a1 a2} (s : State) (j : Nat) :
    (setAttempts s a1 a2).cell j = s.cell j ∧ (setAttempts s a1 a2).hearth j = s.hearth j ∧ (setAttempts s a1 a2).slot j = s.slot j ∧
    (setAttempts s a1 a2).spy j = s.spy j ∧ (setAttempts s a1 a2).capture j = s.capture j ∧ (setAttempts s a1 a2).group j = s.group j ∧
    (setAttempts s a1 a2).hk j = s.hk j ∧ (setAttempts s a1 a2).chan j = s.chan j ∧ (setAttempts s a1 a2).cone j = s.cone j ∧
    (setAttempts s a1 a2).engine j = s.engine j ∧ (setAttempts s a1 a2).cluster j = s.cluster j ∧ (setAttempts s a1 a2).link j = s.link j ∧
    (setAttempts s a1 a2).time = s.time ∧ (setAttempts s a1 a2).log = s.log ∧ (setAttempts s a1 a2).coll = s.coll ∧
    (setAttempts s a1 a2).pair = s.pair ∧ (setAttempts s a1 a2).works = s.works ∧ (setAttempts s a1 a2).host = s.host ∧
    (setAttempts s a1 a2).pmb = s.pmb ∧ (setAttempts s a1 a2).jtag = s.jtag ∧ (setAttempts s a1 a2).out = s.out ∧
    (setAttempts s a1 a2).free = s.free ∧ (setAttempts s a1 a2).books = s.books ∧ (setAttempts s a1 a2).pending = s.pending :=
  have m := setAttempts_move (Move.refl [.flash] s) rfl
  ⟨m.cell rfl j, m.hearth rfl j, m.slot rfl j, m.spy rfl j, m.capture rfl j, m.group rfl j, m.hk rfl j, m.chan rfl j, m.cone rfl j, m.engine rfl j, m.cluster rfl j, m.link rfl j, m.time rfl, m.log rfl, m.coll rfl, m.pair rfl, m.works rfl, m.host rfl, m.pmb rfl, m.jtag rfl, m.out rfl, m.free rfl, m.books rfl, m.pending rfl⟩

@[simp] theorem readEffect_reads {a1} (s : State) (j : Nat) :
    (readEffect s a1).cell j = s.cell j ∧ (readEffect s a1).hearth j = s.hearth j ∧ (readEffect s a1).slot j = s.slot j ∧
    (readEffect s a1).spy j = s.spy j ∧ (readEffect s a1).capture j = s.capture j ∧ (readEffect s a1).group j = s.group j ∧
    (readEffect s a1).hk j = s.hk j ∧ (readEffect s a1).chan j = s.chan j ∧ (readEffect s a1).cone j = s.cone j ∧
    (readEffect s a1).engine j = s.engine j ∧ (readEffect s a1).cluster j = s.cluster j ∧ (readEffect s a1).link j = s.link j ∧
    (readEffect s a1).time = s.time ∧ (readEffect s a1).log = s.log ∧ (readEffect s a1).coll = s.coll ∧ (readEffect s a1).pair = s.pair ∧
    (readEffect s a1).works = s.works ∧ (readEffect s a1).pmb = s.pmb ∧ (readEffect s a1).jtag = s.jtag ∧ (readEffect s a1).out = s.out ∧
    (readEffect s a1).free = s.free ∧ (readEffect s a1).books = s.books ∧ (readEffect s a1).boot = s.boot ∧
    (readEffect s a1).pending = s.pending :=
  have m := readEffect_move (Move.refl [.host] s) rfl
  ⟨m.cell rfl j, m.hearth rfl j, m.slot rfl j, m.spy rfl j, m.capture rfl j, m.group rfl j, m.hk rfl j, m.chan rfl j, m.cone rfl j, m.engine rfl j, m.cluster rfl j, m.link rfl j, m.time rfl, m.log rfl, m.coll rfl, m.pair rfl, m.works rfl, m.pmb rfl, m.jtag rfl, m.out rfl, m.free rfl, m.books rfl, m.boot rfl rfl rfl rfl, m.pending rfl⟩

@[simp] theorem readReg_reads {a1 a2} (s : State) (j : Nat) :
    (readReg a1 a2 s).cell j = s.cell j ∧ (readReg a1 a2 s).hearth j = s.hearth j ∧ (readReg a1 a2 s).slot j = s.slot j ∧
    (readReg a1 a2 s).spy j = s.spy j ∧ (readReg a1 a2 s).capture j = s.capture j ∧ (readReg a1 a2 s).group j = s.group j ∧
    (readReg a1 a2 s).hk j = s.hk j ∧ (readReg a1 a2 s).chan j = s.chan j ∧ (readReg a1 a2 s).cone j = s.cone j ∧
    (readReg a1 a2 s).engine j = s.engine j ∧ (readReg a1 a2 s).cluster j = s.cluster j ∧ (readReg a1 a2 s).link j = s.link j ∧
    (readReg a1 a2 s).time = s.time ∧ (readReg a1 a2 s).log = s.log ∧ (readReg a1 a2 s).coll = s.coll ∧ (readReg a1 a2 s).pair = s.pair ∧
    (readReg a1 a2 s).works = s.works ∧ (readReg a1 a2 s).pmb = s.pmb ∧ (readReg a1 a2 s).jtag = s.jtag ∧ (readReg a1 a2 s).free = s.free ∧
    (readReg a1 a2 s).books = s.books ∧ (readReg a1 a2 s).boot = s.boot ∧ (readReg a1 a2 s).pending = s.pending :=
  have m := readReg_move (Move.refl [.host, .out] s) rfl
  ⟨m.cell rfl j, m.hearth rfl j, m.slot rfl j, m.spy rfl j, m.capture rfl j, m.group rfl j, m.hk rfl j, m.chan rfl j, m.cone rfl j, m.engine rfl j, m.cluster rfl j, m.link rfl j, m.time rfl, m.log rfl, m.coll rfl, m.pair rfl, m.works rfl, m.pmb rfl, m.jtag rfl, m.free rfl, m.books rfl, m.boot rfl rfl rfl rfl, m.pending rfl⟩

@[simp] theorem writeEnable_reads {a1} (s : State) (j : Nat) :
    (writeEnable a1 s).cell j = s.cell j ∧ (writeEnable a1 s).hearth j = s.hearth j ∧ (writeEnable a1 s).slot j = s.slot j ∧
    (writeEnable a1 s).spy j = s.spy j ∧ (writeEnable a1 s).capture j = s.capture j ∧ (writeEnable a1 s).group j = s.group j ∧
    (writeEnable a1 s).hk j = s.hk j ∧ (writeEnable a1 s).chan j = s.chan j ∧ (writeEnable a1 s).cone j = s.cone j ∧
    (writeEnable a1 s).engine j = s.engine j ∧ (writeEnable a1 s).cluster j = s.cluster j ∧ (writeEnable a1 s).link j = s.link j ∧
    (writeEnable a1 s).time = s.time ∧ (writeEnable a1 s).log = s.log ∧ (writeEnable a1 s).coll = s.coll ∧ (writeEnable a1 s).pair = s.pair ∧
    (writeEnable a1 s).works = s.works ∧ (writeEnable a1 s).pmb = s.pmb ∧ (writeEnable a1 s).jtag = s.jtag ∧ (writeEnable a1 s).out = s.out ∧
    (writeEnable a1 s).free = s.free ∧ (writeEnable a1 s).books = s.books ∧ (writeEnable a1 s).boot = s.boot ∧
    (writeEnable a1 s).pending = s.pending :=
  have m := writeEnable_move (Move.refl [.host] s) rfl
  ⟨m.cell rfl j, m.hearth rfl j, m.slot rfl j, m.spy rfl j, m.capture rfl j, m.group rfl j, m.hk rfl j, m.chan rfl j, m.cone rfl j, m.engine rfl j, m.cluster rfl j, m.link rfl j, m.time rfl, m.log rfl, m.coll rfl, m.pair rfl, m.works rfl, m.pmb rfl, m.jtag rfl, m.out rfl, m.free rfl, m.books rfl, m.boot rfl rfl rfl rfl, m.pending rfl⟩

@[simp] theorem writeCons_reads {a1} (s : State) (j : Nat) :
    (writeCons a1 s).cell j = s.cell j ∧ (writeCons a1 s).hearth j = s.hearth j ∧ (writeCons a1 s).slot j = s.slot j ∧
    (writeCons a1 s).spy j = s.spy j ∧ (writeCons a1 s).capture j = s.capture j ∧ (writeCons a1 s).group j = s.group j ∧
    (writeCons a1 s).hk j = s.hk j ∧ (writeCons a1 s).chan j = s.chan j ∧ (writeCons a1 s).cone j = s.cone j ∧
    (writeCons a1 s).engine j = s.engine j ∧ (writeCons a1 s).cluster j = s.cluster j ∧ (writeCons a1 s).link j = s.link j ∧
    (writeCons a1 s).time = s.time ∧ (writeCons a1 s).log = s.log ∧ (writeCons a1 s).coll = s.coll ∧ (writeCons a1 s).pair = s.pair ∧
    (writeCons a1 s).works = s.works ∧ (writeCons a1 s).pmb = s.pmb ∧ (writeCons a1 s).jtag = s.jtag ∧ (writeCons a1 s).out = s.out ∧
    (writeCons a1 s).free = s.free ∧ (writeCons a1 s).books = s.books ∧ (writeCons a1 s).boot = s.boot ∧
    (writeCons a1 s).pending = s.pending :=
  have m := writeCons_move (Move.refl [.host] s) rfl
  ⟨m.cell rfl j, m.hearth rfl j, m.slot rfl j, m.spy rfl j, m.capture rfl j, m.group rfl j, m.hk rfl j, m.chan rfl j, m.cone rfl j, m.engine rfl j, m.cluster rfl j, m.link rfl j, m.time rfl, m.log rfl, m.coll rfl, m.pair rfl, m.works rfl, m.pmb rfl, m.jtag rfl, m.out rfl, m.free rfl, m.books rfl, m.boot rfl rfl rfl rfl, m.pending rfl⟩

@[simp] theorem ringPut_reads {a1} (s : State) (j : Nat) :
    (ringPut s a1).cell j = s.cell j ∧ (ringPut s a1).hearth j = s.hearth j ∧ (ringPut s a1).slot j = s.slot j ∧
    (ringPut s a1).spy j = s.spy j ∧ (ringPut s a1).capture j = s.capture j ∧ (ringPut s a1).group j = s.group j ∧
    (ringPut s a1).hk j = s.hk j ∧ (ringPut s a1).chan j = s.chan j ∧ (ringPut s a1).cone j = s.cone j ∧
    (ringPut s a1).engine j = s.engine j ∧ (ringPut s a1).cluster j = s.cluster j ∧ (ringPut s a1).link j = s.link j ∧
    (ringPut s a1).time = s.time ∧ (ringPut s a1).log = s.log ∧ (ringPut s a1).coll = s.coll ∧ (ringPut s a1).pair = s.pair ∧
    (ringPut s a1).works = s.works ∧ (ringPut s a1).pmb = s.pmb ∧ (ringPut s a1).jtag = s.jtag ∧ (ringPut s a1).free = s.free ∧
    (ringPut s a1).books = s.books ∧ (ringPut s a1).boot = s.boot ∧ (ringPut s a1).pending = s.pending :=
  have m := ringPut_move (Move.refl [.host, .out] s) rfl
  ⟨m.cell rfl j, m.hearth rfl j, m.slot rfl j, m.spy rfl j, m.capture rfl j, m.group rfl j, m.hk rfl j, m.chan rfl j, m.cone rfl j, m.engine rfl j, m.cluster rfl j, m.link rfl j, m.time rfl, m.log rfl, m.coll rfl, m.pair rfl, m.works rfl, m.pmb rfl, m.jtag rfl, m.free rfl, m.books rfl, m.boot rfl rfl rfl rfl, m.pending rfl⟩

@[simp] theorem spiFail_reads (s : State) (j : Nat) :
    (spiFail s).cell j = s.cell j ∧ (spiFail s).hearth j = s.hearth j ∧ (spiFail s).slot j = s.slot j ∧ (spiFail s).spy j = s.spy j ∧
    (spiFail s).capture j = s.capture j ∧ (spiFail s).group j = s.group j ∧ (spiFail s).hk j = s.hk j ∧ (spiFail s).chan j = s.chan j ∧
    (spiFail s).cone j = s.cone j ∧ (spiFail s).engine j = s.engine j ∧ (spiFail s).cluster j = s.cluster j ∧ (spiFail s).link j = s.link j ∧
    (spiFail s).time = s.time ∧ (spiFail s).log = s.log ∧ (spiFail s).coll = s.coll ∧ (spiFail s).pair = s.pair ∧
    (spiFail s).works = s.works ∧ (spiFail s).pmb = s.pmb ∧ (spiFail s).jtag = s.jtag ∧ (spiFail s).out = s.out ∧ (spiFail s).free = s.free ∧
    (spiFail s).books = s.books ∧ (spiFail s).boot = s.boot ∧ (spiFail s).pending = s.pending :=
  have m := spiFail_move (Move.refl [.host] s) rfl
  ⟨m.cell rfl j, m.hearth rfl j, m.slot rfl j, m.spy rfl j, m.capture rfl j, m.group rfl j, m.hk rfl j, m.chan rfl j, m.cone rfl j, m.engine rfl j, m.cluster rfl j, m.link rfl j, m.time rfl, m.log rfl, m.coll rfl, m.pair rfl, m.works rfl, m.pmb rfl, m.jtag rfl, m.out rfl, m.free rfl, m.books rfl, m.boot rfl rfl rfl rfl, m.pending rfl⟩

@[simp] theorem spiRead_reads {a1 a2} (s : State) (j : Nat) :
    (spiRead a1 a2 s).cell j = s.cell j ∧ (spiRead a1 a2 s).hearth j = s.hearth j ∧ (spiRead a1 a2 s).slot j = s.slot j ∧
    (spiRead a1 a2 s).spy j = s.spy j ∧ (spiRead a1 a2 s).capture j = s.capture j ∧ (spiRead a1 a2 s).group j = s.group j ∧
    (spiRead a1 a2 s).hk j = s.hk j ∧ (spiRead a1 a2 s).chan j = s.chan j ∧ (spiRead a1 a2 s).cone j = s.cone j ∧
    (spiRead a1 a2 s).engine j = s.engine j ∧ (spiRead a1 a2 s).cluster j = s.cluster j ∧ (spiRead a1 a2 s).link j = s.link j ∧
    (spiRead a1 a2 s).time = s.time ∧ (spiRead a1 a2 s).log = s.log ∧ (spiRead a1 a2 s).coll = s.coll ∧ (spiRead a1 a2 s).pair = s.pair ∧
    (spiRead a1 a2 s).works = s.works ∧ (spiRead a1 a2 s).pmb = s.pmb ∧ (spiRead a1 a2 s).jtag = s.jtag ∧ (spiRead a1 a2 s).books = s.books ∧
    (spiRead a1 a2 s).boot = s.boot ∧ (spiRead a1 a2 s).pending = s.pending :=
  have m := spiRead_move (Move.refl [.host, .out, .free] s) rfl
  ⟨m.cell rfl j, m.hearth rfl j, m.slot rfl j, m.spy rfl j, m.capture rfl j, m.group rfl j, m.hk rfl j, m.chan rfl j, m.cone rfl j, m.engine rfl j, m.cluster rfl j, m.link rfl j, m.time rfl, m.log rfl, m.coll rfl, m.pair rfl, m.works rfl, m.pmb rfl, m.jtag rfl, m.books rfl, m.boot rfl rfl rfl rfl, m.pending rfl⟩

@[simp] theorem pmbWatch_reads (s : State) (j : Nat) :
    (pmbWatch s).cell j = s.cell j ∧ (pmbWatch s).hearth j = s.hearth j ∧ (pmbWatch s).slot j = s.slot j ∧ (pmbWatch s).spy j = s.spy j ∧
    (pmbWatch s).capture j = s.capture j ∧ (pmbWatch s).group j = s.group j ∧ (pmbWatch s).hk j = s.hk j ∧ (pmbWatch s).chan j = s.chan j ∧
    (pmbWatch s).cone j = s.cone j ∧ (pmbWatch s).engine j = s.engine j ∧ (pmbWatch s).cluster j = s.cluster j ∧
    (pmbWatch s).link j = s.link j ∧ (pmbWatch s).time = s.time ∧ (pmbWatch s).log = s.log ∧ (pmbWatch s).coll = s.coll ∧
    (pmbWatch s).pair = s.pair ∧ (pmbWatch s).works = s.works ∧ (pmbWatch s).host = s.host ∧ (pmbWatch s).jtag = s.jtag ∧
    (pmbWatch s).out = s.out ∧ (pmbWatch s).free = s.free ∧ (pmbWatch s).books = s.books ∧ (pmbWatch s).boot = s.boot ∧
    (pmbWatch s).pending = s.pending :=
  have m := pmbWatch_move (Move.refl [.pmb] s) rfl
  ⟨m.cell rfl j, m.hearth rfl j, m.slot rfl j, m.spy rfl j, m.capture rfl j, m.group rfl j, m.hk rfl j, m.chan rfl j, m.cone rfl j, m.engine rfl j, m.cluster rfl j, m.link rfl j, m.time rfl, m.log rfl, m.coll rfl, m.pair rfl, m.works rfl, m.host rfl, m.jtag rfl, m.out rfl, m.free rfl, m.books rfl, m.boot rfl rfl rfl rfl, m.pending rfl⟩

@[simp] theorem cmlSet_reads {a1} (s : State) (j : Nat) :
    (cmlSet s a1).cell j = s.cell j ∧ (cmlSet s a1).hearth j = s.hearth j ∧ (cmlSet s a1).slot j = s.slot j ∧ (cmlSet s a1).spy j = s.spy j ∧
    (cmlSet s a1).capture j = s.capture j ∧ (cmlSet s a1).group j = s.group j ∧ (cmlSet s a1).hk j = s.hk j ∧
    (cmlSet s a1).chan j = s.chan j ∧ (cmlSet s a1).cone j = s.cone j ∧ (cmlSet s a1).engine j = s.engine j ∧
    (cmlSet s a1).cluster j = s.cluster j ∧ (cmlSet s a1).link j = s.link j ∧ (cmlSet s a1).time = s.time ∧ (cmlSet s a1).log = s.log ∧
    (cmlSet s a1).coll = s.coll ∧ (cmlSet s a1).pair = s.pair ∧ (cmlSet s a1).works = s.works ∧ (cmlSet s a1).host = s.host ∧
    (cmlSet s a1).jtag = s.jtag ∧ (cmlSet s a1).out = s.out ∧ (cmlSet s a1).free = s.free ∧ (cmlSet s a1).books = s.books ∧
    (cmlSet s a1).boot = s.boot ∧ (cmlSet s a1).pending = s.pending :=
  have m := cmlSet_move (Move.refl [.pmb] s) rfl
  ⟨m.cell rfl j, m.hearth rfl j, m.slot rfl j, m.spy rfl j, m.capture rfl j, m.group rfl j, m.hk rfl j, m.chan rfl j, m.cone rfl j, m.engine rfl j, m.cluster rfl j, m.link rfl j, m.time rfl, m.log rfl, m.coll rfl, m.pair rfl, m.works rfl, m.host rfl, m.jtag rfl, m.out rfl, m.free rfl, m.books rfl, m.boot rfl rfl rfl rfl, m.pending rfl⟩

@[simp] theorem pmbReply_reads {a1 a2 a3} (s : State) (j : Nat) :
    (pmbReply s a1 a2 a3).cell j = s.cell j ∧ (pmbReply s a1 a2 a3).hearth j = s.hearth j ∧ (pmbReply s a1 a2 a3).slot j = s.slot j ∧
    (pmbReply s a1 a2 a3).spy j = s.spy j ∧ (pmbReply s a1 a2 a3).capture j = s.capture j ∧ (pmbReply s a1 a2 a3).group j = s.group j ∧
    (pmbReply s a1 a2 a3).hk j = s.hk j ∧ (pmbReply s a1 a2 a3).chan j = s.chan j ∧ (pmbReply s a1 a2 a3).cone j = s.cone j ∧
    (pmbReply s a1 a2 a3).engine j = s.engine j ∧ (pmbReply s a1 a2 a3).cluster j = s.cluster j ∧ (pmbReply s a1 a2 a3).link j = s.link j ∧
    (pmbReply s a1 a2 a3).time = s.time ∧ (pmbReply s a1 a2 a3).log = s.log ∧ (pmbReply s a1 a2 a3).coll = s.coll ∧
    (pmbReply s a1 a2 a3).pair = s.pair ∧ (pmbReply s a1 a2 a3).works = s.works ∧ (pmbReply s a1 a2 a3).host = s.host ∧
    (pmbReply s a1 a2 a3).jtag = s.jtag ∧ (pmbReply s a1 a2 a3).out = s.out ∧ (pmbReply s a1 a2 a3).free = s.free ∧
    (pmbReply s a1 a2 a3).books = s.books ∧ (pmbReply s a1 a2 a3).boot = s.boot ∧ (pmbReply s a1 a2 a3).pending = s.pending :=
  have m := pmbReply_move (Move.refl [.pmb] s) rfl
  ⟨m.cell rfl j, m.hearth rfl j, m.slot rfl j, m.spy rfl j, m.capture rfl j, m.group rfl j, m.hk rfl j, m.chan rfl j, m.cone rfl j, m.engine rfl j, m.cluster rfl j, m.link rfl j, m.time rfl, m.log rfl, m.coll rfl, m.pair rfl, m.works rfl, m.host rfl, m.jtag rfl, m.out rfl, m.free rfl, m.books rfl, m.boot rfl rfl rfl rfl, m.pending rfl⟩

@[simp] theorem pmbRead_reads {a1 a2 a3 a4} (s : State) (j : Nat) :
    (pmbRead a1 a2 a3 a4 s).cell j = s.cell j ∧ (pmbRead a1 a2 a3 a4 s).hearth j = s.hearth j ∧ (pmbRead a1 a2 a3 a4 s).slot j = s.slot j ∧
    (pmbRead a1 a2 a3 a4 s).spy j = s.spy j ∧ (pmbRead a1 a2 a3 a4 s).capture j = s.capture j ∧ (pmbRead a1 a2 a3 a4 s).group j = s.group j ∧
    (pmbRead a1 a2 a3 a4 s).hk j = s.hk j ∧ (pmbRead a1 a2 a3 a4 s).chan j = s.chan j ∧ (pmbRead a1 a2 a3 a4 s).cone j = s.cone j ∧
    (pmbRead a1 a2 a3 a4 s).engine j = s.engine j ∧ (pmbRead a1 a2 a3 a4 s).cluster j = s.cluster j ∧
    (pmbRead a1 a2 a3 a4 s).link j = s.link j ∧ (pmbRead a1 a2 a3 a4 s).time = s.time ∧ (pmbRead a1 a2 a3 a4 s).log = s.log ∧
    (pmbRead a1 a2 a3 a4 s).coll = s.coll ∧ (pmbRead a1 a2 a3 a4 s).pair = s.pair ∧ (pmbRead a1 a2 a3 a4 s).works = s.works ∧
    (pmbRead a1 a2 a3 a4 s).host = s.host ∧ (pmbRead a1 a2 a3 a4 s).jtag = s.jtag ∧ (pmbRead a1 a2 a3 a4 s).out = s.out ∧
    (pmbRead a1 a2 a3 a4 s).free = s.free ∧ (pmbRead a1 a2 a3 a4 s).books = s.books ∧ (pmbRead a1 a2 a3 a4 s).boot = s.boot ∧
    (pmbRead a1 a2 a3 a4 s).pending = s.pending :=
  have m := pmbRead_move (Move.refl [.pmb] s) rfl
  ⟨m.cell rfl j, m.hearth rfl j, m.slot rfl j, m.spy rfl j, m.capture rfl j, m.group rfl j, m.hk rfl j, m.chan rfl j, m.cone rfl j, m.engine rfl j, m.cluster rfl j, m.link rfl j, m.time rfl, m.log rfl, m.coll rfl, m.pair rfl, m.works rfl, m.host rfl, m.jtag rfl, m.out rfl, m.free rfl, m.books rfl, m.boot rfl rfl rfl rfl, m.pending rfl⟩

@[simp] theorem postRequest_reads {a1 a2 a3} (s : State) (j : Nat) :
    (postRequest s a1 a2 a3).cell j = s.cell j ∧ (postRequest s a1 a2 a3).hearth j = s.hearth j ∧ (postRequest s a1 a2 a3).slot j = s.slot j ∧
    (postRequest s a1 a2 a3).spy j = s.spy j ∧ (postRequest s a1 a2 a3).capture j = s.capture j ∧
    (postRequest s a1 a2 a3).group j = s.group j ∧ (postRequest s a1 a2 a3).hk j = s.hk j ∧ (postRequest s a1 a2 a3).cone j = s.cone j ∧
    (postRequest s a1 a2 a3).engine j = s.engine j ∧ (postRequest s a1 a2 a3).cluster j = s.cluster j ∧
    (postRequest s a1 a2 a3).link j = s.link j ∧ (postRequest s a1 a2 a3).time = s.time ∧ (postRequest s a1 a2 a3).log = s.log ∧
    (postRequest s a1 a2 a3).coll = s.coll ∧ (postRequest s a1 a2 a3).pair = s.pair ∧ (postRequest s a1 a2 a3).works = s.works ∧
    (postRequest s a1 a2 a3).pmb = s.pmb ∧ (postRequest s a1 a2 a3).jtag = s.jtag ∧ (postRequest s a1 a2 a3).out = s.out ∧
    (postRequest s a1 a2 a3).free = s.free ∧ (postRequest s a1 a2 a3).books = s.books ∧ (postRequest s a1 a2 a3).boot = s.boot ∧
    (postRequest s a1 a2 a3).pending = s.pending :=
  have m := postRequest_move (Move.refl [.chans, .host] s) rfl
  ⟨m.cell rfl j, m.hearth rfl j, m.slot rfl j, m.spy rfl j, m.capture rfl j, m.group rfl j, m.hk rfl j, m.cone rfl j, m.engine rfl j, m.cluster rfl j, m.link rfl j, m.time rfl, m.log rfl, m.coll rfl, m.pair rfl, m.works rfl, m.pmb rfl, m.jtag rfl, m.out rfl, m.free rfl, m.books rfl, m.boot rfl rfl rfl rfl, m.pending rfl⟩

@[simp] theorem notActed_reads {a1 a2} (s : State) (j : Nat) :
    (notActed s a1 a2).cell j = s.cell j ∧ (notActed s a1 a2).hearth j = s.hearth j ∧ (notActed s a1 a2).slot j = s.slot j ∧
    (notActed s a1 a2).spy j = s.spy j ∧ (notActed s a1 a2).capture j = s.capture j ∧ (notActed s a1 a2).group j = s.group j ∧
    (notActed s a1 a2).hk j = s.hk j ∧ (notActed s a1 a2).chan j = s.chan j ∧ (notActed s a1 a2).cone j = s.cone j ∧
    (notActed s a1 a2).engine j = s.engine j ∧ (notActed s a1 a2).cluster j = s.cluster j ∧ (notActed s a1 a2).link j = s.link j ∧
    (notActed s a1 a2).time = s.time ∧ (notActed s a1 a2).log = s.log ∧ (notActed s a1 a2).coll = s.coll ∧ (notActed s a1 a2).pair = s.pair ∧
    (notActed s a1 a2).pmb = s.pmb ∧ (notActed s a1 a2).jtag = s.jtag ∧ (notActed s a1 a2).free = s.free ∧
    (notActed s a1 a2).books = s.books ∧ (notActed s a1 a2).pending = s.pending :=
  have m := notActed_move (Move.refl [.boot, .works, .host, .out] s) rfl
  ⟨m.cell rfl j, m.hearth rfl j, m.slot rfl j, m.spy rfl j, m.capture rfl j, m.group rfl j, m.hk rfl j, m.chan rfl j, m.cone rfl j, m.engine rfl j, m.cluster rfl j, m.link rfl j, m.time rfl, m.log rfl, m.coll rfl, m.pair rfl, m.pmb rfl, m.jtag rfl, m.free rfl, m.books rfl, m.pending rfl⟩

@[simp] theorem jtagIdcode_reads (s : State) (j : Nat) :
    (jtagIdcode s).cell j = s.cell j ∧ (jtagIdcode s).hearth j = s.hearth j ∧ (jtagIdcode s).slot j = s.slot j ∧
    (jtagIdcode s).spy j = s.spy j ∧ (jtagIdcode s).capture j = s.capture j ∧ (jtagIdcode s).group j = s.group j ∧
    (jtagIdcode s).hk j = s.hk j ∧ (jtagIdcode s).chan j = s.chan j ∧ (jtagIdcode s).cone j = s.cone j ∧
    (jtagIdcode s).engine j = s.engine j ∧ (jtagIdcode s).cluster j = s.cluster j ∧ (jtagIdcode s).link j = s.link j ∧
    (jtagIdcode s).time = s.time ∧ (jtagIdcode s).log = s.log ∧ (jtagIdcode s).coll = s.coll ∧ (jtagIdcode s).pair = s.pair ∧
    (jtagIdcode s).works = s.works ∧ (jtagIdcode s).host = s.host ∧ (jtagIdcode s).pmb = s.pmb ∧ (jtagIdcode s).out = s.out ∧
    (jtagIdcode s).free = s.free ∧ (jtagIdcode s).books = s.books ∧ (jtagIdcode s).boot = s.boot ∧ (jtagIdcode s).pending = s.pending :=
  have m := jtagIdcode_move (Move.refl [.jtag] s) rfl
  ⟨m.cell rfl j, m.hearth rfl j, m.slot rfl j, m.spy rfl j, m.capture rfl j, m.group rfl j, m.hk rfl j, m.chan rfl j, m.cone rfl j, m.engine rfl j, m.cluster rfl j, m.link rfl j, m.time rfl, m.log rfl, m.coll rfl, m.pair rfl, m.works rfl, m.host rfl, m.pmb rfl, m.out rfl, m.free rfl, m.books rfl, m.boot rfl rfl rfl rfl, m.pending rfl⟩

@[simp] theorem resetOnly_reads {a1} (s : State) (j : Nat) :
    (resetOnly a1 s).cell j = s.cell j ∧ (resetOnly a1 s).hearth j = s.hearth j ∧ (resetOnly a1 s).slot j = s.slot j ∧
    (resetOnly a1 s).spy j = s.spy j ∧ (resetOnly a1 s).capture j = s.capture j ∧ (resetOnly a1 s).group j = s.group j ∧
    (resetOnly a1 s).hk j = s.hk j ∧ (resetOnly a1 s).chan j = s.chan j ∧ (resetOnly a1 s).cone j = s.cone j ∧
    (resetOnly a1 s).engine j = s.engine j ∧ (resetOnly a1 s).cluster j = s.cluster j ∧ (resetOnly a1 s).link j = s.link j ∧
    (resetOnly a1 s).time = s.time ∧ (resetOnly a1 s).log = s.log ∧ (resetOnly a1 s).coll = s.coll ∧ (resetOnly a1 s).pair = s.pair ∧
    (resetOnly a1 s).works = s.works ∧ (resetOnly a1 s).host = s.host ∧ (resetOnly a1 s).pmb = s.pmb ∧ (resetOnly a1 s).out = s.out ∧
    (resetOnly a1 s).free = s.free ∧ (resetOnly a1 s).books = s.books ∧ (resetOnly a1 s).boot = s.boot ∧
    (resetOnly a1 s).pending = s.pending :=
  have m := resetOnly_move (Move.refl [.jtag] s) rfl
  ⟨m.cell rfl j, m.hearth rfl j, m.slot rfl j, m.spy rfl j, m.capture rfl j, m.group rfl j, m.hk rfl j, m.chan rfl j, m.cone rfl j, m.engine rfl j, m.cluster rfl j, m.link rfl j, m.time rfl, m.log rfl, m.coll rfl, m.pair rfl, m.works rfl, m.host rfl, m.pmb rfl, m.out rfl, m.free rfl, m.books rfl, m.boot rfl rfl rfl rfl, m.pending rfl⟩

@[simp] theorem jtagBypass_reads {a1} (s : State) (j : Nat) :
    (jtagBypass a1 s).cell j = s.cell j ∧ (jtagBypass a1 s).hearth j = s.hearth j ∧ (jtagBypass a1 s).slot j = s.slot j ∧
    (jtagBypass a1 s).spy j = s.spy j ∧ (jtagBypass a1 s).capture j = s.capture j ∧ (jtagBypass a1 s).group j = s.group j ∧
    (jtagBypass a1 s).hk j = s.hk j ∧ (jtagBypass a1 s).chan j = s.chan j ∧ (jtagBypass a1 s).cone j = s.cone j ∧
    (jtagBypass a1 s).engine j = s.engine j ∧ (jtagBypass a1 s).cluster j = s.cluster j ∧ (jtagBypass a1 s).link j = s.link j ∧
    (jtagBypass a1 s).time = s.time ∧ (jtagBypass a1 s).log = s.log ∧ (jtagBypass a1 s).coll = s.coll ∧ (jtagBypass a1 s).pair = s.pair ∧
    (jtagBypass a1 s).works = s.works ∧ (jtagBypass a1 s).host = s.host ∧ (jtagBypass a1 s).pmb = s.pmb ∧ (jtagBypass a1 s).out = s.out ∧
    (jtagBypass a1 s).free = s.free ∧ (jtagBypass a1 s).books = s.books ∧ (jtagBypass a1 s).boot = s.boot ∧
    (jtagBypass a1 s).pending = s.pending :=
  have m := jtagBypass_move (Move.refl [.jtag] s) rfl
  ⟨m.cell rfl j, m.hearth rfl j, m.slot rfl j, m.spy rfl j, m.capture rfl j, m.group rfl j, m.hk rfl j, m.chan rfl j, m.cone rfl j, m.engine rfl j, m.cluster rfl j, m.link rfl j, m.time rfl, m.log rfl, m.coll rfl, m.pair rfl, m.works rfl, m.host rfl, m.pmb rfl, m.out rfl, m.free rfl, m.books rfl, m.boot rfl rfl rfl rfl, m.pending rfl⟩

@[simp] theorem downStandby_reads {a1 a2 a3} (s : State) (j : Nat) :
    (downStandby s a1 a2 a3).cell j = s.cell j ∧ (downStandby s a1 a2 a3).hearth j = s.hearth j ∧ (downStandby s a1 a2 a3).slot j = s.slot j ∧
    (downStandby s a1 a2 a3).spy j = s.spy j ∧ (downStandby s a1 a2 a3).capture j = s.capture j ∧
    (downStandby s a1 a2 a3).group j = s.group j ∧ (downStandby s a1 a2 a3).hk j = s.hk j ∧ (downStandby s a1 a2 a3).chan j = s.chan j ∧
    (downStandby s a1 a2 a3).cone j = s.cone j ∧ (downStandby s a1 a2 a3).engine j = s.engine j ∧
    (downStandby s a1 a2 a3).cluster j = s.cluster j ∧ (downStandby s a1 a2 a3).link j = s.link j ∧ (downStandby s a1 a2 a3).time = s.time ∧
    (downStandby s a1 a2 a3).log = s.log ∧ (downStandby s a1 a2 a3).coll = s.coll ∧ (downStandby s a1 a2 a3).pair = s.pair ∧
    (downStandby s a1 a2 a3).works = s.works ∧ (downStandby s a1 a2 a3).host = s.host ∧ (downStandby s a1 a2 a3).pmb = s.pmb ∧
    (downStandby s a1 a2 a3).jtag = s.jtag ∧ (downStandby s a1 a2 a3).free = s.free ∧ (downStandby s a1 a2 a3).books = s.books ∧
    (downStandby s a1 a2 a3).boot = s.boot ∧ (downStandby s a1 a2 a3).pending = s.pending :=
  have m := downStandby_move (Move.refl [.out] s) rfl
  ⟨m.cell rfl j, m.hearth rfl j, m.slot rfl j, m.spy rfl j, m.capture rfl j, m.group rfl j, m.hk rfl j, m.chan rfl j, m.cone rfl j, m.engine rfl j, m.cluster rfl j, m.link rfl j, m.time rfl, m.log rfl, m.coll rfl, m.pair rfl, m.works rfl, m.host rfl, m.pmb rfl, m.jtag rfl, m.free rfl, m.books rfl, m.boot rfl rfl rfl rfl, m.pending rfl⟩

@[simp] theorem sendAck_reads {a1} (s : State) (j : Nat) :
    (sendAck s a1).cell j = s.cell j ∧ (sendAck s a1).hearth j = s.hearth j ∧ (sendAck s a1).slot j = s.slot j ∧
    (sendAck s a1).spy j = s.spy j ∧ (sendAck s a1).capture j = s.capture j ∧ (sendAck s a1).group j = s.group j ∧
    (sendAck s a1).hk j = s.hk j ∧ (sendAck s a1).chan j = s.chan j ∧ (sendAck s a1).cone j = s.cone j ∧
    (sendAck s a1).engine j = s.engine j ∧ (sendAck s a1).cluster j = s.cluster j ∧ (sendAck s a1).link j = s.link j ∧
    (sendAck s a1).time = s.time ∧ (sendAck s a1).log = s.log ∧ (sendAck s a1).coll = s.coll ∧ (sendAck s a1).pair = s.pair ∧
    (sendAck s a1).works = s.works ∧ (sendAck s a1).host = s.host ∧ (sendAck s a1).pmb = s.pmb ∧ (sendAck s a1).jtag = s.jtag ∧
    (sendAck s a1).free = s.free ∧ (sendAck s a1).books = s.books ∧ (sendAck s a1).boot = s.boot ∧ (sendAck s a1).pending = s.pending :=
  have m := sendAck_move (Move.refl [.out] s) rfl
  ⟨m.cell rfl j, m.hearth rfl j, m.slot rfl j, m.spy rfl j, m.capture rfl j, m.group rfl j, m.hk rfl j, m.chan rfl j, m.cone rfl j, m.engine rfl j, m.cluster rfl j, m.link rfl j, m.time rfl, m.log rfl, m.coll rfl, m.pair rfl, m.works rfl, m.host rfl, m.pmb rfl, m.jtag rfl, m.free rfl, m.books rfl, m.boot rfl rfl rfl rfl, m.pending rfl⟩

end Sys2Proof.Machine
end

