-- ==== Sys2Proof/Laws/State.lean ====
section
/-! SUPPORT. The small laws of the state: what each named update leaves of every field and of every accessor, and what it makes of its own. -/
namespace Sys2Proof.Machine
open Sys2Proof

variable {s : State} {j k : Nat}

@[simp] theorem setBoot_rest :
    (s.setBoot a1).cells = s.cells ∧ (s.setBoot a1).hearths = s.hearths ∧ (s.setBoot a1).slots = s.slots ∧ (s.setBoot a1).spies = s.spies ∧
    (s.setBoot a1).captures = s.captures ∧ (s.setBoot a1).groups = s.groups ∧ (s.setBoot a1).hks = s.hks ∧ (s.setBoot a1).chans = s.chans ∧
    (s.setBoot a1).cones = s.cones ∧ (s.setBoot a1).engines = s.engines ∧ (s.setBoot a1).clusters = s.clusters ∧
    (s.setBoot a1).links = s.links ∧ (s.setBoot a1).gbus = s.gbus ∧ (s.setBoot a1).feedWord = s.feedWord ∧
    (s.setBoot a1).hblocks = s.hblocks ∧ (s.setBoot a1).frameShadow = s.frameShadow ∧ (s.setBoot a1).frameTick = s.frameTick ∧
    (s.setBoot a1).gbusNew = s.gbusNew ∧ (s.setBoot a1).hkRecs = s.hkRecs ∧ (s.setBoot a1).passes = s.passes ∧
    (s.setBoot a1).books = s.books ∧ (s.setBoot a1).time = s.time ∧ (s.setBoot a1).log = s.log ∧ (s.setBoot a1).coll = s.coll ∧
    (s.setBoot a1).pair = s.pair ∧ (s.setBoot a1).works = s.works ∧ (s.setBoot a1).host = s.host ∧ (s.setBoot a1).pmb = s.pmb ∧
    (s.setBoot a1).jtag = s.jtag ∧ (s.setBoot a1).out = s.out ∧ (s.setBoot a1).free = s.free ∧ (s.setBoot a1).pending = s.pending ∧
    (s.setBoot a1).cell j = s.cell j ∧ (s.setBoot a1).hearth j = s.hearth j ∧ (s.setBoot a1).slot j = s.slot j ∧
    (s.setBoot a1).spy j = s.spy j ∧ (s.setBoot a1).capture j = s.capture j ∧ (s.setBoot a1).group j = s.group j ∧
    (s.setBoot a1).hk j = s.hk j ∧ (s.setBoot a1).chan j = s.chan j ∧ (s.setBoot a1).cone j = s.cone j ∧
    (s.setBoot a1).engine j = s.engine j ∧ (s.setBoot a1).cluster j = s.cluster j ∧ (s.setBoot a1).link j = s.link j ∧
    (s.setBoot a1).cp j = s.cp j ∧ (s.setBoot a1).mbox j = s.mbox j ∧ (s.setBoot a1).fwdBox j = s.fwdBox j ∧
    (s.setBoot a1).wlane j = s.wlane j :=
  by repeat' constructor

@[simp] theorem setBooks_rest :
    (s.setBooks a1).cells = s.cells ∧ (s.setBooks a1).hearths = s.hearths ∧ (s.setBooks a1).slots = s.slots ∧
    (s.setBooks a1).spies = s.spies ∧ (s.setBooks a1).captures = s.captures ∧ (s.setBooks a1).groups = s.groups ∧
    (s.setBooks a1).hks = s.hks ∧ (s.setBooks a1).chans = s.chans ∧ (s.setBooks a1).cones = s.cones ∧ (s.setBooks a1).engines = s.engines ∧
    (s.setBooks a1).clusters = s.clusters ∧ (s.setBooks a1).links = s.links ∧ (s.setBooks a1).gbus = s.gbus ∧
    (s.setBooks a1).feedWord = s.feedWord ∧ (s.setBooks a1).hblocks = s.hblocks ∧ (s.setBooks a1).frameShadow = s.frameShadow ∧
    (s.setBooks a1).frameTick = s.frameTick ∧ (s.setBooks a1).gbusNew = s.gbusNew ∧ (s.setBooks a1).hkRecs = s.hkRecs ∧
    (s.setBooks a1).passes = s.passes ∧ (s.setBooks a1).boot = s.boot ∧ (s.setBooks a1).time = s.time ∧ (s.setBooks a1).log = s.log ∧
    (s.setBooks a1).coll = s.coll ∧ (s.setBooks a1).pair = s.pair ∧ (s.setBooks a1).works = s.works ∧ (s.setBooks a1).host = s.host ∧
    (s.setBooks a1).pmb = s.pmb ∧ (s.setBooks a1).jtag = s.jtag ∧ (s.setBooks a1).out = s.out ∧ (s.setBooks a1).free = s.free ∧
    (s.setBooks a1).pending = s.pending ∧ (s.setBooks a1).cell j = s.cell j ∧ (s.setBooks a1).hearth j = s.hearth j ∧
    (s.setBooks a1).slot j = s.slot j ∧ (s.setBooks a1).spy j = s.spy j ∧ (s.setBooks a1).capture j = s.capture j ∧
    (s.setBooks a1).group j = s.group j ∧ (s.setBooks a1).hk j = s.hk j ∧ (s.setBooks a1).chan j = s.chan j ∧
    (s.setBooks a1).cone j = s.cone j ∧ (s.setBooks a1).engine j = s.engine j ∧ (s.setBooks a1).cluster j = s.cluster j ∧
    (s.setBooks a1).link j = s.link j ∧ (s.setBooks a1).cp j = s.cp j ∧ (s.setBooks a1).mbox j = s.mbox j ∧
    (s.setBooks a1).fwdBox j = s.fwdBox j ∧ (s.setBooks a1).wlane j = s.wlane j :=
  by repeat' constructor

@[simp] theorem setTime_rest :
    (s.setTime a1).cells = s.cells ∧ (s.setTime a1).hearths = s.hearths ∧ (s.setTime a1).slots = s.slots ∧ (s.setTime a1).spies = s.spies ∧
    (s.setTime a1).captures = s.captures ∧ (s.setTime a1).groups = s.groups ∧ (s.setTime a1).hks = s.hks ∧ (s.setTime a1).chans = s.chans ∧
    (s.setTime a1).cones = s.cones ∧ (s.setTime a1).engines = s.engines ∧ (s.setTime a1).clusters = s.clusters ∧
    (s.setTime a1).links = s.links ∧ (s.setTime a1).gbus = s.gbus ∧ (s.setTime a1).feedWord = s.feedWord ∧
    (s.setTime a1).hblocks = s.hblocks ∧ (s.setTime a1).frameShadow = s.frameShadow ∧ (s.setTime a1).frameTick = s.frameTick ∧
    (s.setTime a1).gbusNew = s.gbusNew ∧ (s.setTime a1).hkRecs = s.hkRecs ∧ (s.setTime a1).passes = s.passes ∧
    (s.setTime a1).boot = s.boot ∧ (s.setTime a1).books = s.books ∧ (s.setTime a1).log = s.log ∧ (s.setTime a1).coll = s.coll ∧
    (s.setTime a1).pair = s.pair ∧ (s.setTime a1).works = s.works ∧ (s.setTime a1).host = s.host ∧ (s.setTime a1).pmb = s.pmb ∧
    (s.setTime a1).jtag = s.jtag ∧ (s.setTime a1).out = s.out ∧ (s.setTime a1).free = s.free ∧ (s.setTime a1).pending = s.pending ∧
    (s.setTime a1).cell j = s.cell j ∧ (s.setTime a1).hearth j = s.hearth j ∧ (s.setTime a1).slot j = s.slot j ∧
    (s.setTime a1).spy j = s.spy j ∧ (s.setTime a1).capture j = s.capture j ∧ (s.setTime a1).group j = s.group j ∧
    (s.setTime a1).hk j = s.hk j ∧ (s.setTime a1).chan j = s.chan j ∧ (s.setTime a1).cone j = s.cone j ∧
    (s.setTime a1).engine j = s.engine j ∧ (s.setTime a1).cluster j = s.cluster j ∧ (s.setTime a1).link j = s.link j ∧
    (s.setTime a1).cp j = s.cp j ∧ (s.setTime a1).mbox j = s.mbox j ∧ (s.setTime a1).fwdBox j = s.fwdBox j ∧
    (s.setTime a1).wlane j = s.wlane j :=
  by repeat' constructor

@[simp] theorem setLog_rest :
    (s.setLog a1).cells = s.cells ∧ (s.setLog a1).hearths = s.hearths ∧ (s.setLog a1).slots = s.slots ∧ (s.setLog a1).spies = s.spies ∧
    (s.setLog a1).captures = s.captures ∧ (s.setLog a1).groups = s.groups ∧ (s.setLog a1).hks = s.hks ∧ (s.setLog a1).chans = s.chans ∧
    (s.setLog a1).cones = s.cones ∧ (s.setLog a1).engines = s.engines ∧ (s.setLog a1).clusters = s.clusters ∧
    (s.setLog a1).links = s.links ∧ (s.setLog a1).gbus = s.gbus ∧ (s.setLog a1).feedWord = s.feedWord ∧ (s.setLog a1).hblocks = s.hblocks ∧
    (s.setLog a1).frameShadow = s.frameShadow ∧ (s.setLog a1).frameTick = s.frameTick ∧ (s.setLog a1).gbusNew = s.gbusNew ∧
    (s.setLog a1).hkRecs = s.hkRecs ∧ (s.setLog a1).passes = s.passes ∧ (s.setLog a1).boot = s.boot ∧ (s.setLog a1).books = s.books ∧
    (s.setLog a1).time = s.time ∧ (s.setLog a1).coll = s.coll ∧ (s.setLog a1).pair = s.pair ∧ (s.setLog a1).works = s.works ∧
    (s.setLog a1).host = s.host ∧ (s.setLog a1).pmb = s.pmb ∧ (s.setLog a1).jtag = s.jtag ∧ (s.setLog a1).out = s.out ∧
    (s.setLog a1).free = s.free ∧ (s.setLog a1).pending = s.pending ∧ (s.setLog a1).cell j = s.cell j ∧
    (s.setLog a1).hearth j = s.hearth j ∧ (s.setLog a1).slot j = s.slot j ∧ (s.setLog a1).spy j = s.spy j ∧
    (s.setLog a1).capture j = s.capture j ∧ (s.setLog a1).group j = s.group j ∧ (s.setLog a1).hk j = s.hk j ∧
    (s.setLog a1).chan j = s.chan j ∧ (s.setLog a1).cone j = s.cone j ∧ (s.setLog a1).engine j = s.engine j ∧
    (s.setLog a1).cluster j = s.cluster j ∧ (s.setLog a1).link j = s.link j ∧ (s.setLog a1).cp j = s.cp j ∧
    (s.setLog a1).mbox j = s.mbox j ∧ (s.setLog a1).fwdBox j = s.fwdBox j ∧ (s.setLog a1).wlane j = s.wlane j :=
  by repeat' constructor

@[simp] theorem setColl_rest :
    (s.setColl a1).cells = s.cells ∧ (s.setColl a1).hearths = s.hearths ∧ (s.setColl a1).slots = s.slots ∧ (s.setColl a1).spies = s.spies ∧
    (s.setColl a1).captures = s.captures ∧ (s.setColl a1).groups = s.groups ∧ (s.setColl a1).hks = s.hks ∧ (s.setColl a1).chans = s.chans ∧
    (s.setColl a1).cones = s.cones ∧ (s.setColl a1).engines = s.engines ∧ (s.setColl a1).clusters = s.clusters ∧
    (s.setColl a1).links = s.links ∧ (s.setColl a1).gbus = s.gbus ∧ (s.setColl a1).feedWord = s.feedWord ∧
    (s.setColl a1).hblocks = s.hblocks ∧ (s.setColl a1).frameShadow = s.frameShadow ∧ (s.setColl a1).frameTick = s.frameTick ∧
    (s.setColl a1).gbusNew = s.gbusNew ∧ (s.setColl a1).hkRecs = s.hkRecs ∧ (s.setColl a1).passes = s.passes ∧
    (s.setColl a1).boot = s.boot ∧ (s.setColl a1).books = s.books ∧ (s.setColl a1).time = s.time ∧ (s.setColl a1).log = s.log ∧
    (s.setColl a1).pair = s.pair ∧ (s.setColl a1).works = s.works ∧ (s.setColl a1).host = s.host ∧ (s.setColl a1).pmb = s.pmb ∧
    (s.setColl a1).jtag = s.jtag ∧ (s.setColl a1).out = s.out ∧ (s.setColl a1).free = s.free ∧ (s.setColl a1).pending = s.pending ∧
    (s.setColl a1).cell j = s.cell j ∧ (s.setColl a1).hearth j = s.hearth j ∧ (s.setColl a1).slot j = s.slot j ∧
    (s.setColl a1).spy j = s.spy j ∧ (s.setColl a1).capture j = s.capture j ∧ (s.setColl a1).group j = s.group j ∧
    (s.setColl a1).hk j = s.hk j ∧ (s.setColl a1).chan j = s.chan j ∧ (s.setColl a1).cone j = s.cone j ∧
    (s.setColl a1).engine j = s.engine j ∧ (s.setColl a1).cluster j = s.cluster j ∧ (s.setColl a1).link j = s.link j ∧
    (s.setColl a1).cp j = s.cp j ∧ (s.setColl a1).mbox j = s.mbox j ∧ (s.setColl a1).fwdBox j = s.fwdBox j ∧
    (s.setColl a1).wlane j = s.wlane j :=
  by repeat' constructor

@[simp] theorem setPair_rest :
    (s.setPair a1).cells = s.cells ∧ (s.setPair a1).hearths = s.hearths ∧ (s.setPair a1).slots = s.slots ∧ (s.setPair a1).spies = s.spies ∧
    (s.setPair a1).captures = s.captures ∧ (s.setPair a1).groups = s.groups ∧ (s.setPair a1).hks = s.hks ∧ (s.setPair a1).chans = s.chans ∧
    (s.setPair a1).cones = s.cones ∧ (s.setPair a1).engines = s.engines ∧ (s.setPair a1).clusters = s.clusters ∧
    (s.setPair a1).links = s.links ∧ (s.setPair a1).gbus = s.gbus ∧ (s.setPair a1).feedWord = s.feedWord ∧
    (s.setPair a1).hblocks = s.hblocks ∧ (s.setPair a1).frameShadow = s.frameShadow ∧ (s.setPair a1).frameTick = s.frameTick ∧
    (s.setPair a1).gbusNew = s.gbusNew ∧ (s.setPair a1).hkRecs = s.hkRecs ∧ (s.setPair a1).passes = s.passes ∧
    (s.setPair a1).boot = s.boot ∧ (s.setPair a1).books = s.books ∧ (s.setPair a1).time = s.time ∧ (s.setPair a1).log = s.log ∧
    (s.setPair a1).coll = s.coll ∧ (s.setPair a1).works = s.works ∧ (s.setPair a1).host = s.host ∧ (s.setPair a1).pmb = s.pmb ∧
    (s.setPair a1).jtag = s.jtag ∧ (s.setPair a1).out = s.out ∧ (s.setPair a1).free = s.free ∧ (s.setPair a1).pending = s.pending ∧
    (s.setPair a1).cell j = s.cell j ∧ (s.setPair a1).hearth j = s.hearth j ∧ (s.setPair a1).slot j = s.slot j ∧
    (s.setPair a1).spy j = s.spy j ∧ (s.setPair a1).capture j = s.capture j ∧ (s.setPair a1).group j = s.group j ∧
    (s.setPair a1).hk j = s.hk j ∧ (s.setPair a1).chan j = s.chan j ∧ (s.setPair a1).cone j = s.cone j ∧
    (s.setPair a1).engine j = s.engine j ∧ (s.setPair a1).cluster j = s.cluster j ∧ (s.setPair a1).link j = s.link j ∧
    (s.setPair a1).mbox j = s.mbox j ∧ (s.setPair a1).fwdBox j = s.fwdBox j ∧ (s.setPair a1).wlane j = s.wlane j :=
  by repeat' constructor

@[simp] theorem setWorks_rest :
    (s.setWorks a1).cells = s.cells ∧ (s.setWorks a1).hearths = s.hearths ∧ (s.setWorks a1).slots = s.slots ∧
    (s.setWorks a1).spies = s.spies ∧ (s.setWorks a1).captures = s.captures ∧ (s.setWorks a1).groups = s.groups ∧
    (s.setWorks a1).hks = s.hks ∧ (s.setWorks a1).chans = s.chans ∧ (s.setWorks a1).cones = s.cones ∧ (s.setWorks a1).engines = s.engines ∧
    (s.setWorks a1).clusters = s.clusters ∧ (s.setWorks a1).links = s.links ∧ (s.setWorks a1).gbus = s.gbus ∧
    (s.setWorks a1).feedWord = s.feedWord ∧ (s.setWorks a1).hblocks = s.hblocks ∧ (s.setWorks a1).frameShadow = s.frameShadow ∧
    (s.setWorks a1).frameTick = s.frameTick ∧ (s.setWorks a1).gbusNew = s.gbusNew ∧ (s.setWorks a1).hkRecs = s.hkRecs ∧
    (s.setWorks a1).passes = s.passes ∧ (s.setWorks a1).boot = s.boot ∧ (s.setWorks a1).books = s.books ∧ (s.setWorks a1).time = s.time ∧
    (s.setWorks a1).log = s.log ∧ (s.setWorks a1).coll = s.coll ∧ (s.setWorks a1).pair = s.pair ∧ (s.setWorks a1).host = s.host ∧
    (s.setWorks a1).pmb = s.pmb ∧ (s.setWorks a1).jtag = s.jtag ∧ (s.setWorks a1).out = s.out ∧ (s.setWorks a1).free = s.free ∧
    (s.setWorks a1).pending = s.pending ∧ (s.setWorks a1).cell j = s.cell j ∧ (s.setWorks a1).hearth j = s.hearth j ∧
    (s.setWorks a1).slot j = s.slot j ∧ (s.setWorks a1).spy j = s.spy j ∧ (s.setWorks a1).capture j = s.capture j ∧
    (s.setWorks a1).group j = s.group j ∧ (s.setWorks a1).hk j = s.hk j ∧ (s.setWorks a1).chan j = s.chan j ∧
    (s.setWorks a1).cone j = s.cone j ∧ (s.setWorks a1).engine j = s.engine j ∧ (s.setWorks a1).cluster j = s.cluster j ∧
    (s.setWorks a1).link j = s.link j ∧ (s.setWorks a1).cp j = s.cp j ∧ (s.setWorks a1).mbox j = s.mbox j ∧
    (s.setWorks a1).fwdBox j = s.fwdBox j :=
  by repeat' constructor

@[simp] theorem setHost_rest :
    (s.setHost a1).cells = s.cells ∧ (s.setHost a1).hearths = s.hearths ∧ (s.setHost a1).slots = s.slots ∧ (s.setHost a1).spies = s.spies ∧
    (s.setHost a1).captures = s.captures ∧ (s.setHost a1).groups = s.groups ∧ (s.setHost a1).hks = s.hks ∧ (s.setHost a1).chans = s.chans ∧
    (s.setHost a1).cones = s.cones ∧ (s.setHost a1).engines = s.engines ∧ (s.setHost a1).clusters = s.clusters ∧
    (s.setHost a1).links = s.links ∧ (s.setHost a1).gbus = s.gbus ∧ (s.setHost a1).feedWord = s.feedWord ∧
    (s.setHost a1).hblocks = s.hblocks ∧ (s.setHost a1).frameShadow = s.frameShadow ∧ (s.setHost a1).frameTick = s.frameTick ∧
    (s.setHost a1).gbusNew = s.gbusNew ∧ (s.setHost a1).hkRecs = s.hkRecs ∧ (s.setHost a1).passes = s.passes ∧
    (s.setHost a1).boot = s.boot ∧ (s.setHost a1).books = s.books ∧ (s.setHost a1).time = s.time ∧ (s.setHost a1).log = s.log ∧
    (s.setHost a1).coll = s.coll ∧ (s.setHost a1).pair = s.pair ∧ (s.setHost a1).works = s.works ∧ (s.setHost a1).pmb = s.pmb ∧
    (s.setHost a1).jtag = s.jtag ∧ (s.setHost a1).out = s.out ∧ (s.setHost a1).free = s.free ∧ (s.setHost a1).pending = s.pending ∧
    (s.setHost a1).cell j = s.cell j ∧ (s.setHost a1).hearth j = s.hearth j ∧ (s.setHost a1).slot j = s.slot j ∧
    (s.setHost a1).spy j = s.spy j ∧ (s.setHost a1).capture j = s.capture j ∧ (s.setHost a1).group j = s.group j ∧
    (s.setHost a1).hk j = s.hk j ∧ (s.setHost a1).chan j = s.chan j ∧ (s.setHost a1).cone j = s.cone j ∧
    (s.setHost a1).engine j = s.engine j ∧ (s.setHost a1).cluster j = s.cluster j ∧ (s.setHost a1).link j = s.link j ∧
    (s.setHost a1).cp j = s.cp j ∧ (s.setHost a1).wlane j = s.wlane j :=
  by repeat' constructor

@[simp] theorem setPmb_rest :
    (s.setPmb a1).cells = s.cells ∧ (s.setPmb a1).hearths = s.hearths ∧ (s.setPmb a1).slots = s.slots ∧ (s.setPmb a1).spies = s.spies ∧
    (s.setPmb a1).captures = s.captures ∧ (s.setPmb a1).groups = s.groups ∧ (s.setPmb a1).hks = s.hks ∧ (s.setPmb a1).chans = s.chans ∧
    (s.setPmb a1).cones = s.cones ∧ (s.setPmb a1).engines = s.engines ∧ (s.setPmb a1).clusters = s.clusters ∧
    (s.setPmb a1).links = s.links ∧ (s.setPmb a1).gbus = s.gbus ∧ (s.setPmb a1).feedWord = s.feedWord ∧ (s.setPmb a1).hblocks = s.hblocks ∧
    (s.setPmb a1).frameShadow = s.frameShadow ∧ (s.setPmb a1).frameTick = s.frameTick ∧ (s.setPmb a1).gbusNew = s.gbusNew ∧
    (s.setPmb a1).hkRecs = s.hkRecs ∧ (s.setPmb a1).passes = s.passes ∧ (s.setPmb a1).boot = s.boot ∧ (s.setPmb a1).books = s.books ∧
    (s.setPmb a1).time = s.time ∧ (s.setPmb a1).log = s.log ∧ (s.setPmb a1).coll = s.coll ∧ (s.setPmb a1).pair = s.pair ∧
    (s.setPmb a1).works = s.works ∧ (s.setPmb a1).host = s.host ∧ (s.setPmb a1).jtag = s.jtag ∧ (s.setPmb a1).out = s.out ∧
    (s.setPmb a1).free = s.free ∧ (s.setPmb a1).pending = s.pending ∧ (s.setPmb a1).cell j = s.cell j ∧
    (s.setPmb a1).hearth j = s.hearth j ∧ (s.setPmb a1).slot j = s.slot j ∧ (s.setPmb a1).spy j = s.spy j ∧
    (s.setPmb a1).capture j = s.capture j ∧ (s.setPmb a1).group j = s.group j ∧ (s.setPmb a1).hk j = s.hk j ∧
    (s.setPmb a1).chan j = s.chan j ∧ (s.setPmb a1).cone j = s.cone j ∧ (s.setPmb a1).engine j = s.engine j ∧
    (s.setPmb a1).cluster j = s.cluster j ∧ (s.setPmb a1).link j = s.link j ∧ (s.setPmb a1).cp j = s.cp j ∧
    (s.setPmb a1).mbox j = s.mbox j ∧ (s.setPmb a1).fwdBox j = s.fwdBox j ∧ (s.setPmb a1).wlane j = s.wlane j :=
  by repeat' constructor

@[simp] theorem setJtag_rest :
    (s.setJtag a1).cells = s.cells ∧ (s.setJtag a1).hearths = s.hearths ∧ (s.setJtag a1).slots = s.slots ∧ (s.setJtag a1).spies = s.spies ∧
    (s.setJtag a1).captures = s.captures ∧ (s.setJtag a1).groups = s.groups ∧ (s.setJtag a1).hks = s.hks ∧ (s.setJtag a1).chans = s.chans ∧
    (s.setJtag a1).cones = s.cones ∧ (s.setJtag a1).engines = s.engines ∧ (s.setJtag a1).clusters = s.clusters ∧
    (s.setJtag a1).links = s.links ∧ (s.setJtag a1).gbus = s.gbus ∧ (s.setJtag a1).feedWord = s.feedWord ∧
    (s.setJtag a1).hblocks = s.hblocks ∧ (s.setJtag a1).frameShadow = s.frameShadow ∧ (s.setJtag a1).frameTick = s.frameTick ∧
    (s.setJtag a1).gbusNew = s.gbusNew ∧ (s.setJtag a1).hkRecs = s.hkRecs ∧ (s.setJtag a1).passes = s.passes ∧
    (s.setJtag a1).boot = s.boot ∧ (s.setJtag a1).books = s.books ∧ (s.setJtag a1).time = s.time ∧ (s.setJtag a1).log = s.log ∧
    (s.setJtag a1).coll = s.coll ∧ (s.setJtag a1).pair = s.pair ∧ (s.setJtag a1).works = s.works ∧ (s.setJtag a1).host = s.host ∧
    (s.setJtag a1).pmb = s.pmb ∧ (s.setJtag a1).out = s.out ∧ (s.setJtag a1).free = s.free ∧ (s.setJtag a1).pending = s.pending ∧
    (s.setJtag a1).cell j = s.cell j ∧ (s.setJtag a1).hearth j = s.hearth j ∧ (s.setJtag a1).slot j = s.slot j ∧
    (s.setJtag a1).spy j = s.spy j ∧ (s.setJtag a1).capture j = s.capture j ∧ (s.setJtag a1).group j = s.group j ∧
    (s.setJtag a1).hk j = s.hk j ∧ (s.setJtag a1).chan j = s.chan j ∧ (s.setJtag a1).cone j = s.cone j ∧
    (s.setJtag a1).engine j = s.engine j ∧ (s.setJtag a1).cluster j = s.cluster j ∧ (s.setJtag a1).link j = s.link j ∧
    (s.setJtag a1).cp j = s.cp j ∧ (s.setJtag a1).mbox j = s.mbox j ∧ (s.setJtag a1).fwdBox j = s.fwdBox j ∧
    (s.setJtag a1).wlane j = s.wlane j :=
  by repeat' constructor

@[simp] theorem setFree_rest :
    (s.setFree a1).cells = s.cells ∧ (s.setFree a1).hearths = s.hearths ∧ (s.setFree a1).slots = s.slots ∧ (s.setFree a1).spies = s.spies ∧
    (s.setFree a1).captures = s.captures ∧ (s.setFree a1).groups = s.groups ∧ (s.setFree a1).hks = s.hks ∧ (s.setFree a1).chans = s.chans ∧
    (s.setFree a1).cones = s.cones ∧ (s.setFree a1).engines = s.engines ∧ (s.setFree a1).clusters = s.clusters ∧
    (s.setFree a1).links = s.links ∧ (s.setFree a1).gbus = s.gbus ∧ (s.setFree a1).feedWord = s.feedWord ∧
    (s.setFree a1).hblocks = s.hblocks ∧ (s.setFree a1).frameShadow = s.frameShadow ∧ (s.setFree a1).frameTick = s.frameTick ∧
    (s.setFree a1).gbusNew = s.gbusNew ∧ (s.setFree a1).hkRecs = s.hkRecs ∧ (s.setFree a1).passes = s.passes ∧
    (s.setFree a1).boot = s.boot ∧ (s.setFree a1).books = s.books ∧ (s.setFree a1).time = s.time ∧ (s.setFree a1).log = s.log ∧
    (s.setFree a1).coll = s.coll ∧ (s.setFree a1).pair = s.pair ∧ (s.setFree a1).works = s.works ∧ (s.setFree a1).host = s.host ∧
    (s.setFree a1).pmb = s.pmb ∧ (s.setFree a1).jtag = s.jtag ∧ (s.setFree a1).out = s.out ∧ (s.setFree a1).pending = s.pending ∧
    (s.setFree a1).cell j = s.cell j ∧ (s.setFree a1).hearth j = s.hearth j ∧ (s.setFree a1).slot j = s.slot j ∧
    (s.setFree a1).spy j = s.spy j ∧ (s.setFree a1).capture j = s.capture j ∧ (s.setFree a1).group j = s.group j ∧
    (s.setFree a1).hk j = s.hk j ∧ (s.setFree a1).chan j = s.chan j ∧ (s.setFree a1).cone j = s.cone j ∧
    (s.setFree a1).engine j = s.engine j ∧ (s.setFree a1).cluster j = s.cluster j ∧ (s.setFree a1).link j = s.link j ∧
    (s.setFree a1).cp j = s.cp j ∧ (s.setFree a1).mbox j = s.mbox j ∧ (s.setFree a1).fwdBox j = s.fwdBox j ∧
    (s.setFree a1).wlane j = s.wlane j :=
  by repeat' constructor

@[simp] theorem putGbus_rest :
    (s.putGbus a1 a2).cells = s.cells ∧ (s.putGbus a1 a2).hearths = s.hearths ∧ (s.putGbus a1 a2).slots = s.slots ∧
    (s.putGbus a1 a2).spies = s.spies ∧ (s.putGbus a1 a2).captures = s.captures ∧ (s.putGbus a1 a2).groups = s.groups ∧
    (s.putGbus a1 a2).hks = s.hks ∧ (s.putGbus a1 a2).chans = s.chans ∧ (s.putGbus a1 a2).cones = s.cones ∧
    (s.putGbus a1 a2).engines = s.engines ∧ (s.putGbus a1 a2).clusters = s.clusters ∧ (s.putGbus a1 a2).links = s.links ∧
    (s.putGbus a1 a2).feedWord = s.feedWord ∧ (s.putGbus a1 a2).hblocks = s.hblocks ∧ (s.putGbus a1 a2).frameShadow = s.frameShadow ∧
    (s.putGbus a1 a2).frameTick = s.frameTick ∧ (s.putGbus a1 a2).gbusNew = s.gbusNew ∧ (s.putGbus a1 a2).hkRecs = s.hkRecs ∧
    (s.putGbus a1 a2).passes = s.passes ∧ (s.putGbus a1 a2).boot = s.boot ∧ (s.putGbus a1 a2).books = s.books ∧
    (s.putGbus a1 a2).time = s.time ∧ (s.putGbus a1 a2).log = s.log ∧ (s.putGbus a1 a2).coll = s.coll ∧ (s.putGbus a1 a2).pair = s.pair ∧
    (s.putGbus a1 a2).works = s.works ∧ (s.putGbus a1 a2).host = s.host ∧ (s.putGbus a1 a2).pmb = s.pmb ∧ (s.putGbus a1 a2).jtag = s.jtag ∧
    (s.putGbus a1 a2).out = s.out ∧ (s.putGbus a1 a2).free = s.free ∧ (s.putGbus a1 a2).pending = s.pending ∧
    (s.putGbus a1 a2).cell j = s.cell j ∧ (s.putGbus a1 a2).hearth j = s.hearth j ∧ (s.putGbus a1 a2).slot j = s.slot j ∧
    (s.putGbus a1 a2).spy j = s.spy j ∧ (s.putGbus a1 a2).capture j = s.capture j ∧ (s.putGbus a1 a2).group j = s.group j ∧
    (s.putGbus a1 a2).hk j = s.hk j ∧ (s.putGbus a1 a2).chan j = s.chan j ∧ (s.putGbus a1 a2).cone j = s.cone j ∧
    (s.putGbus a1 a2).engine j = s.engine j ∧ (s.putGbus a1 a2).cluster j = s.cluster j ∧ (s.putGbus a1 a2).link j = s.link j ∧
    (s.putGbus a1 a2).cp j = s.cp j ∧ (s.putGbus a1 a2).mbox j = s.mbox j ∧ (s.putGbus a1 a2).fwdBox j = s.fwdBox j ∧
    (s.putGbus a1 a2).wlane j = s.wlane j :=
  by repeat' constructor

@[simp] theorem putFeedWord_rest :
    (s.putFeedWord a1 a2).cells = s.cells ∧ (s.putFeedWord a1 a2).hearths = s.hearths ∧ (s.putFeedWord a1 a2).slots = s.slots ∧
    (s.putFeedWord a1 a2).spies = s.spies ∧ (s.putFeedWord a1 a2).captures = s.captures ∧ (s.putFeedWord a1 a2).groups = s.groups ∧
    (s.putFeedWord a1 a2).hks = s.hks ∧ (s.putFeedWord a1 a2).chans = s.chans ∧ (s.putFeedWord a1 a2).cones = s.cones ∧
    (s.putFeedWord a1 a2).engines = s.engines ∧ (s.putFeedWord a1 a2).clusters = s.clusters ∧ (s.putFeedWord a1 a2).links = s.links ∧
    (s.putFeedWord a1 a2).gbus = s.gbus ∧ (s.putFeedWord a1 a2).hblocks = s.hblocks ∧ (s.putFeedWord a1 a2).frameShadow = s.frameShadow ∧
    (s.putFeedWord a1 a2).frameTick = s.frameTick ∧ (s.putFeedWord a1 a2).gbusNew = s.gbusNew ∧ (s.putFeedWord a1 a2).hkRecs = s.hkRecs ∧
    (s.putFeedWord a1 a2).passes = s.passes ∧ (s.putFeedWord a1 a2).boot = s.boot ∧ (s.putFeedWord a1 a2).books = s.books ∧
    (s.putFeedWord a1 a2).time = s.time ∧ (s.putFeedWord a1 a2).log = s.log ∧ (s.putFeedWord a1 a2).coll = s.coll ∧
    (s.putFeedWord a1 a2).pair = s.pair ∧ (s.putFeedWord a1 a2).works = s.works ∧ (s.putFeedWord a1 a2).host = s.host ∧
    (s.putFeedWord a1 a2).pmb = s.pmb ∧ (s.putFeedWord a1 a2).jtag = s.jtag ∧ (s.putFeedWord a1 a2).out = s.out ∧
    (s.putFeedWord a1 a2).free = s.free ∧ (s.putFeedWord a1 a2).pending = s.pending ∧ (s.putFeedWord a1 a2).cell j = s.cell j ∧
    (s.putFeedWord a1 a2).hearth j = s.hearth j ∧ (s.putFeedWord a1 a2).slot j = s.slot j ∧ (s.putFeedWord a1 a2).spy j = s.spy j ∧
    (s.putFeedWord a1 a2).capture j = s.capture j ∧ (s.putFeedWord a1 a2).group j = s.group j ∧ (s.putFeedWord a1 a2).hk j = s.hk j ∧
    (s.putFeedWord a1 a2).chan j = s.chan j ∧ (s.putFeedWord a1 a2).cone j = s.cone j ∧ (s.putFeedWord a1 a2).engine j = s.engine j ∧
    (s.putFeedWord a1 a2).cluster j = s.cluster j ∧ (s.putFeedWord a1 a2).link j = s.link j ∧ (s.putFeedWord a1 a2).cp j = s.cp j ∧
    (s.putFeedWord a1 a2).mbox j = s.mbox j ∧ (s.putFeedWord a1 a2).fwdBox j = s.fwdBox j ∧ (s.putFeedWord a1 a2).wlane j = s.wlane j :=
  by repeat' constructor

@[simp] theorem putHblock_rest :
    (s.putHblock a1 a2).cells = s.cells ∧ (s.putHblock a1 a2).hearths = s.hearths ∧ (s.putHblock a1 a2).slots = s.slots ∧
    (s.putHblock a1 a2).spies = s.spies ∧ (s.putHblock a1 a2).captures = s.captures ∧ (s.putHblock a1 a2).groups = s.groups ∧
    (s.putHblock a1 a2).hks = s.hks ∧ (s.putHblock a1 a2).chans = s.chans ∧ (s.putHblock a1 a2).cones = s.cones ∧
    (s.putHblock a1 a2).engines = s.engines ∧ (s.putHblock a1 a2).clusters = s.clusters ∧ (s.putHblock a1 a2).links = s.links ∧
    (s.putHblock a1 a2).gbus = s.gbus ∧ (s.putHblock a1 a2).feedWord = s.feedWord ∧ (s.putHblock a1 a2).frameShadow = s.frameShadow ∧
    (s.putHblock a1 a2).frameTick = s.frameTick ∧ (s.putHblock a1 a2).gbusNew = s.gbusNew ∧ (s.putHblock a1 a2).hkRecs = s.hkRecs ∧
    (s.putHblock a1 a2).passes = s.passes ∧ (s.putHblock a1 a2).boot = s.boot ∧ (s.putHblock a1 a2).books = s.books ∧
    (s.putHblock a1 a2).time = s.time ∧ (s.putHblock a1 a2).log = s.log ∧ (s.putHblock a1 a2).coll = s.coll ∧
    (s.putHblock a1 a2).pair = s.pair ∧ (s.putHblock a1 a2).works = s.works ∧ (s.putHblock a1 a2).host = s.host ∧
    (s.putHblock a1 a2).pmb = s.pmb ∧ (s.putHblock a1 a2).jtag = s.jtag ∧ (s.putHblock a1 a2).out = s.out ∧
    (s.putHblock a1 a2).free = s.free ∧ (s.putHblock a1 a2).pending = s.pending ∧ (s.putHblock a1 a2).cell j = s.cell j ∧
    (s.putHblock a1 a2).hearth j = s.hearth j ∧ (s.putHblock a1 a2).slot j = s.slot j ∧ (s.putHblock a1 a2).spy j = s.spy j ∧
    (s.putHblock a1 a2).capture j = s.capture j ∧ (s.putHblock a1 a2).group j = s.group j ∧ (s.putHblock a1 a2).hk j = s.hk j ∧
    (s.putHblock a1 a2).chan j = s.chan j ∧ (s.putHblock a1 a2).cone j = s.cone j ∧ (s.putHblock a1 a2).engine j = s.engine j ∧
    (s.putHblock a1 a2).cluster j = s.cluster j ∧ (s.putHblock a1 a2).link j = s.link j ∧ (s.putHblock a1 a2).cp j = s.cp j ∧
    (s.putHblock a1 a2).mbox j = s.mbox j ∧ (s.putHblock a1 a2).fwdBox j = s.fwdBox j ∧ (s.putHblock a1 a2).wlane j = s.wlane j :=
  by repeat' constructor

@[simp] theorem putFrameShadow_rest :
    (s.putFrameShadow a1 a2).cells = s.cells ∧ (s.putFrameShadow a1 a2).hearths = s.hearths ∧ (s.putFrameShadow a1 a2).slots = s.slots ∧
    (s.putFrameShadow a1 a2).spies = s.spies ∧ (s.putFrameShadow a1 a2).captures = s.captures ∧ (s.putFrameShadow a1 a2).groups = s.groups ∧
    (s.putFrameShadow a1 a2).hks = s.hks ∧ (s.putFrameShadow a1 a2).chans = s.chans ∧ (s.putFrameShadow a1 a2).cones = s.cones ∧
    (s.putFrameShadow a1 a2).engines = s.engines ∧ (s.putFrameShadow a1 a2).clusters = s.clusters ∧
    (s.putFrameShadow a1 a2).links = s.links ∧ (s.putFrameShadow a1 a2).gbus = s.gbus ∧ (s.putFrameShadow a1 a2).feedWord = s.feedWord ∧
    (s.putFrameShadow a1 a2).hblocks = s.hblocks ∧ (s.putFrameShadow a1 a2).frameTick = s.frameTick ∧
    (s.putFrameShadow a1 a2).gbusNew = s.gbusNew ∧ (s.putFrameShadow a1 a2).hkRecs = s.hkRecs ∧ (s.putFrameShadow a1 a2).passes = s.passes ∧
    (s.putFrameShadow a1 a2).boot = s.boot ∧ (s.putFrameShadow a1 a2).books = s.books ∧ (s.putFrameShadow a1 a2).time = s.time ∧
    (s.putFrameShadow a1 a2).log = s.log ∧ (s.putFrameShadow a1 a2).coll = s.coll ∧ (s.putFrameShadow a1 a2).pair = s.pair ∧
    (s.putFrameShadow a1 a2).works = s.works ∧ (s.putFrameShadow a1 a2).host = s.host ∧ (s.putFrameShadow a1 a2).pmb = s.pmb ∧
    (s.putFrameShadow a1 a2).jtag = s.jtag ∧ (s.putFrameShadow a1 a2).out = s.out ∧ (s.putFrameShadow a1 a2).free = s.free ∧
    (s.putFrameShadow a1 a2).pending = s.pending ∧ (s.putFrameShadow a1 a2).cell j = s.cell j ∧
    (s.putFrameShadow a1 a2).hearth j = s.hearth j ∧ (s.putFrameShadow a1 a2).slot j = s.slot j ∧ (s.putFrameShadow a1 a2).spy j = s.spy j ∧
    (s.putFrameShadow a1 a2).capture j = s.capture j ∧ (s.putFrameShadow a1 a2).group j = s.group j ∧
    (s.putFrameShadow a1 a2).hk j = s.hk j ∧ (s.putFrameShadow a1 a2).chan j = s.chan j ∧ (s.putFrameShadow a1 a2).cone j = s.cone j ∧
    (s.putFrameShadow a1 a2).engine j = s.engine j ∧ (s.putFrameShadow a1 a2).cluster j = s.cluster j ∧
    (s.putFrameShadow a1 a2).link j = s.link j ∧ (s.putFrameShadow a1 a2).cp j = s.cp j ∧ (s.putFrameShadow a1 a2).mbox j = s.mbox j ∧
    (s.putFrameShadow a1 a2).fwdBox j = s.fwdBox j ∧ (s.putFrameShadow a1 a2).wlane j = s.wlane j :=
  by repeat' constructor

@[simp] theorem putFrameTick_rest :
    (s.putFrameTick a1 a2).cells = s.cells ∧ (s.putFrameTick a1 a2).hearths = s.hearths ∧ (s.putFrameTick a1 a2).slots = s.slots ∧
    (s.putFrameTick a1 a2).spies = s.spies ∧ (s.putFrameTick a1 a2).captures = s.captures ∧ (s.putFrameTick a1 a2).groups = s.groups ∧
    (s.putFrameTick a1 a2).hks = s.hks ∧ (s.putFrameTick a1 a2).chans = s.chans ∧ (s.putFrameTick a1 a2).cones = s.cones ∧
    (s.putFrameTick a1 a2).engines = s.engines ∧ (s.putFrameTick a1 a2).clusters = s.clusters ∧ (s.putFrameTick a1 a2).links = s.links ∧
    (s.putFrameTick a1 a2).gbus = s.gbus ∧ (s.putFrameTick a1 a2).feedWord = s.feedWord ∧ (s.putFrameTick a1 a2).hblocks = s.hblocks ∧
    (s.putFrameTick a1 a2).frameShadow = s.frameShadow ∧ (s.putFrameTick a1 a2).gbusNew = s.gbusNew ∧
    (s.putFrameTick a1 a2).hkRecs = s.hkRecs ∧ (s.putFrameTick a1 a2).passes = s.passes ∧ (s.putFrameTick a1 a2).boot = s.boot ∧
    (s.putFrameTick a1 a2).books = s.books ∧ (s.putFrameTick a1 a2).time = s.time ∧ (s.putFrameTick a1 a2).log = s.log ∧
    (s.putFrameTick a1 a2).coll = s.coll ∧ (s.putFrameTick a1 a2).pair = s.pair ∧ (s.putFrameTick a1 a2).works = s.works ∧
    (s.putFrameTick a1 a2).host = s.host ∧ (s.putFrameTick a1 a2).pmb = s.pmb ∧ (s.putFrameTick a1 a2).jtag = s.jtag ∧
    (s.putFrameTick a1 a2).out = s.out ∧ (s.putFrameTick a1 a2).free = s.free ∧ (s.putFrameTick a1 a2).pending = s.pending ∧
    (s.putFrameTick a1 a2).cell j = s.cell j ∧ (s.putFrameTick a1 a2).hearth j = s.hearth j ∧ (s.putFrameTick a1 a2).slot j = s.slot j ∧
    (s.putFrameTick a1 a2).spy j = s.spy j ∧ (s.putFrameTick a1 a2).capture j = s.capture j ∧ (s.putFrameTick a1 a2).group j = s.group j ∧
    (s.putFrameTick a1 a2).hk j = s.hk j ∧ (s.putFrameTick a1 a2).chan j = s.chan j ∧ (s.putFrameTick a1 a2).cone j = s.cone j ∧
    (s.putFrameTick a1 a2).engine j = s.engine j ∧ (s.putFrameTick a1 a2).cluster j = s.cluster j ∧
    (s.putFrameTick a1 a2).link j = s.link j ∧ (s.putFrameTick a1 a2).cp j = s.cp j ∧ (s.putFrameTick a1 a2).mbox j = s.mbox j ∧
    (s.putFrameTick a1 a2).fwdBox j = s.fwdBox j ∧ (s.putFrameTick a1 a2).wlane j = s.wlane j :=
  by repeat' constructor

@[simp] theorem putGbusNew_rest :
    (s.putGbusNew a1 a2).cells = s.cells ∧ (s.putGbusNew a1 a2).hearths = s.hearths ∧ (s.putGbusNew a1 a2).slots = s.slots ∧
    (s.putGbusNew a1 a2).spies = s.spies ∧ (s.putGbusNew a1 a2).captures = s.captures ∧ (s.putGbusNew a1 a2).groups = s.groups ∧
    (s.putGbusNew a1 a2).hks = s.hks ∧ (s.putGbusNew a1 a2).chans = s.chans ∧ (s.putGbusNew a1 a2).cones = s.cones ∧
    (s.putGbusNew a1 a2).engines = s.engines ∧ (s.putGbusNew a1 a2).clusters = s.clusters ∧ (s.putGbusNew a1 a2).links = s.links ∧
    (s.putGbusNew a1 a2).gbus = s.gbus ∧ (s.putGbusNew a1 a2).feedWord = s.feedWord ∧ (s.putGbusNew a1 a2).hblocks = s.hblocks ∧
    (s.putGbusNew a1 a2).frameShadow = s.frameShadow ∧ (s.putGbusNew a1 a2).frameTick = s.frameTick ∧
    (s.putGbusNew a1 a2).hkRecs = s.hkRecs ∧ (s.putGbusNew a1 a2).passes = s.passes ∧ (s.putGbusNew a1 a2).boot = s.boot ∧
    (s.putGbusNew a1 a2).books = s.books ∧ (s.putGbusNew a1 a2).time = s.time ∧ (s.putGbusNew a1 a2).log = s.log ∧
    (s.putGbusNew a1 a2).coll = s.coll ∧ (s.putGbusNew a1 a2).pair = s.pair ∧ (s.putGbusNew a1 a2).works = s.works ∧
    (s.putGbusNew a1 a2).host = s.host ∧ (s.putGbusNew a1 a2).pmb = s.pmb ∧ (s.putGbusNew a1 a2).jtag = s.jtag ∧
    (s.putGbusNew a1 a2).out = s.out ∧ (s.putGbusNew a1 a2).free = s.free ∧ (s.putGbusNew a1 a2).pending = s.pending ∧
    (s.putGbusNew a1 a2).cell j = s.cell j ∧ (s.putGbusNew a1 a2).hearth j = s.hearth j ∧ (s.putGbusNew a1 a2).slot j = s.slot j ∧
    (s.putGbusNew a1 a2).spy j = s.spy j ∧ (s.putGbusNew a1 a2).capture j = s.capture j ∧ (s.putGbusNew a1 a2).group j = s.group j ∧
    (s.putGbusNew a1 a2).hk j = s.hk j ∧ (s.putGbusNew a1 a2).chan j = s.chan j ∧ (s.putGbusNew a1 a2).cone j = s.cone j ∧
    (s.putGbusNew a1 a2).engine j = s.engine j ∧ (s.putGbusNew a1 a2).cluster j = s.cluster j ∧ (s.putGbusNew a1 a2).link j = s.link j ∧
    (s.putGbusNew a1 a2).cp j = s.cp j ∧ (s.putGbusNew a1 a2).mbox j = s.mbox j ∧ (s.putGbusNew a1 a2).fwdBox j = s.fwdBox j ∧
    (s.putGbusNew a1 a2).wlane j = s.wlane j :=
  by repeat' constructor

@[simp] theorem putHkRec_rest :
    (s.putHkRec a1 a2).cells = s.cells ∧ (s.putHkRec a1 a2).hearths = s.hearths ∧ (s.putHkRec a1 a2).slots = s.slots ∧
    (s.putHkRec a1 a2).spies = s.spies ∧ (s.putHkRec a1 a2).captures = s.captures ∧ (s.putHkRec a1 a2).groups = s.groups ∧
    (s.putHkRec a1 a2).hks = s.hks ∧ (s.putHkRec a1 a2).chans = s.chans ∧ (s.putHkRec a1 a2).cones = s.cones ∧
    (s.putHkRec a1 a2).engines = s.engines ∧ (s.putHkRec a1 a2).clusters = s.clusters ∧ (s.putHkRec a1 a2).links = s.links ∧
    (s.putHkRec a1 a2).gbus = s.gbus ∧ (s.putHkRec a1 a2).feedWord = s.feedWord ∧ (s.putHkRec a1 a2).hblocks = s.hblocks ∧
    (s.putHkRec a1 a2).frameShadow = s.frameShadow ∧ (s.putHkRec a1 a2).frameTick = s.frameTick ∧ (s.putHkRec a1 a2).gbusNew = s.gbusNew ∧
    (s.putHkRec a1 a2).passes = s.passes ∧ (s.putHkRec a1 a2).boot = s.boot ∧ (s.putHkRec a1 a2).books = s.books ∧
    (s.putHkRec a1 a2).time = s.time ∧ (s.putHkRec a1 a2).log = s.log ∧ (s.putHkRec a1 a2).coll = s.coll ∧
    (s.putHkRec a1 a2).pair = s.pair ∧ (s.putHkRec a1 a2).works = s.works ∧ (s.putHkRec a1 a2).host = s.host ∧
    (s.putHkRec a1 a2).pmb = s.pmb ∧ (s.putHkRec a1 a2).jtag = s.jtag ∧ (s.putHkRec a1 a2).out = s.out ∧ (s.putHkRec a1 a2).free = s.free ∧
    (s.putHkRec a1 a2).pending = s.pending ∧ (s.putHkRec a1 a2).cell j = s.cell j ∧ (s.putHkRec a1 a2).hearth j = s.hearth j ∧
    (s.putHkRec a1 a2).slot j = s.slot j ∧ (s.putHkRec a1 a2).spy j = s.spy j ∧ (s.putHkRec a1 a2).capture j = s.capture j ∧
    (s.putHkRec a1 a2).group j = s.group j ∧ (s.putHkRec a1 a2).hk j = s.hk j ∧ (s.putHkRec a1 a2).chan j = s.chan j ∧
    (s.putHkRec a1 a2).cone j = s.cone j ∧ (s.putHkRec a1 a2).engine j = s.engine j ∧ (s.putHkRec a1 a2).cluster j = s.cluster j ∧
    (s.putHkRec a1 a2).link j = s.link j ∧ (s.putHkRec a1 a2).cp j = s.cp j ∧ (s.putHkRec a1 a2).mbox j = s.mbox j ∧
    (s.putHkRec a1 a2).fwdBox j = s.fwdBox j ∧ (s.putHkRec a1 a2).wlane j = s.wlane j :=
  by repeat' constructor

@[simp] theorem putPasses_rest :
    (s.putPasses a1 a2).cells = s.cells ∧ (s.putPasses a1 a2).hearths = s.hearths ∧ (s.putPasses a1 a2).slots = s.slots ∧
    (s.putPasses a1 a2).spies = s.spies ∧ (s.putPasses a1 a2).captures = s.captures ∧ (s.putPasses a1 a2).groups = s.groups ∧
    (s.putPasses a1 a2).hks = s.hks ∧ (s.putPasses a1 a2).chans = s.chans ∧ (s.putPasses a1 a2).cones = s.cones ∧
    (s.putPasses a1 a2).engines = s.engines ∧ (s.putPasses a1 a2).clusters = s.clusters ∧ (s.putPasses a1 a2).links = s.links ∧
    (s.putPasses a1 a2).gbus = s.gbus ∧ (s.putPasses a1 a2).feedWord = s.feedWord ∧ (s.putPasses a1 a2).hblocks = s.hblocks ∧
    (s.putPasses a1 a2).frameShadow = s.frameShadow ∧ (s.putPasses a1 a2).frameTick = s.frameTick ∧
    (s.putPasses a1 a2).gbusNew = s.gbusNew ∧ (s.putPasses a1 a2).hkRecs = s.hkRecs ∧ (s.putPasses a1 a2).boot = s.boot ∧
    (s.putPasses a1 a2).books = s.books ∧ (s.putPasses a1 a2).time = s.time ∧ (s.putPasses a1 a2).log = s.log ∧
    (s.putPasses a1 a2).coll = s.coll ∧ (s.putPasses a1 a2).pair = s.pair ∧ (s.putPasses a1 a2).works = s.works ∧
    (s.putPasses a1 a2).host = s.host ∧ (s.putPasses a1 a2).pmb = s.pmb ∧ (s.putPasses a1 a2).jtag = s.jtag ∧
    (s.putPasses a1 a2).out = s.out ∧ (s.putPasses a1 a2).free = s.free ∧ (s.putPasses a1 a2).pending = s.pending ∧
    (s.putPasses a1 a2).cell j = s.cell j ∧ (s.putPasses a1 a2).hearth j = s.hearth j ∧ (s.putPasses a1 a2).slot j = s.slot j ∧
    (s.putPasses a1 a2).spy j = s.spy j ∧ (s.putPasses a1 a2).capture j = s.capture j ∧ (s.putPasses a1 a2).group j = s.group j ∧
    (s.putPasses a1 a2).hk j = s.hk j ∧ (s.putPasses a1 a2).chan j = s.chan j ∧ (s.putPasses a1 a2).cone j = s.cone j ∧
    (s.putPasses a1 a2).engine j = s.engine j ∧ (s.putPasses a1 a2).cluster j = s.cluster j ∧ (s.putPasses a1 a2).link j = s.link j ∧
    (s.putPasses a1 a2).cp j = s.cp j ∧ (s.putPasses a1 a2).mbox j = s.mbox j ∧ (s.putPasses a1 a2).fwdBox j = s.fwdBox j ∧
    (s.putPasses a1 a2).wlane j = s.wlane j :=
  by repeat' constructor

@[simp] theorem setFlash_rest :
    (s.setFlash a1).cells = s.cells ∧ (s.setFlash a1).hearths = s.hearths ∧ (s.setFlash a1).slots = s.slots ∧
    (s.setFlash a1).spies = s.spies ∧ (s.setFlash a1).captures = s.captures ∧ (s.setFlash a1).groups = s.groups ∧
    (s.setFlash a1).hks = s.hks ∧ (s.setFlash a1).chans = s.chans ∧ (s.setFlash a1).cones = s.cones ∧ (s.setFlash a1).engines = s.engines ∧
    (s.setFlash a1).clusters = s.clusters ∧ (s.setFlash a1).links = s.links ∧ (s.setFlash a1).gbus = s.gbus ∧
    (s.setFlash a1).feedWord = s.feedWord ∧ (s.setFlash a1).hblocks = s.hblocks ∧ (s.setFlash a1).frameShadow = s.frameShadow ∧
    (s.setFlash a1).frameTick = s.frameTick ∧ (s.setFlash a1).gbusNew = s.gbusNew ∧ (s.setFlash a1).hkRecs = s.hkRecs ∧
    (s.setFlash a1).passes = s.passes ∧ (s.setFlash a1).books = s.books ∧ (s.setFlash a1).time = s.time ∧ (s.setFlash a1).log = s.log ∧
    (s.setFlash a1).coll = s.coll ∧ (s.setFlash a1).pair = s.pair ∧ (s.setFlash a1).works = s.works ∧ (s.setFlash a1).host = s.host ∧
    (s.setFlash a1).pmb = s.pmb ∧ (s.setFlash a1).jtag = s.jtag ∧ (s.setFlash a1).out = s.out ∧ (s.setFlash a1).free = s.free ∧
    (s.setFlash a1).pending = s.pending ∧ (s.setFlash a1).cell j = s.cell j ∧ (s.setFlash a1).hearth j = s.hearth j ∧
    (s.setFlash a1).slot j = s.slot j ∧ (s.setFlash a1).spy j = s.spy j ∧ (s.setFlash a1).capture j = s.capture j ∧
    (s.setFlash a1).group j = s.group j ∧ (s.setFlash a1).hk j = s.hk j ∧ (s.setFlash a1).chan j = s.chan j ∧
    (s.setFlash a1).cone j = s.cone j ∧ (s.setFlash a1).engine j = s.engine j ∧ (s.setFlash a1).cluster j = s.cluster j ∧
    (s.setFlash a1).link j = s.link j ∧ (s.setFlash a1).cp j = s.cp j ∧ (s.setFlash a1).mbox j = s.mbox j ∧
    (s.setFlash a1).fwdBox j = s.fwdBox j ∧ (s.setFlash a1).wlane j = s.wlane j :=
  by repeat' constructor

@[simp] theorem setFuses_rest :
    (s.setFuses a1).cells = s.cells ∧ (s.setFuses a1).hearths = s.hearths ∧ (s.setFuses a1).slots = s.slots ∧
    (s.setFuses a1).spies = s.spies ∧ (s.setFuses a1).captures = s.captures ∧ (s.setFuses a1).groups = s.groups ∧
    (s.setFuses a1).hks = s.hks ∧ (s.setFuses a1).chans = s.chans ∧ (s.setFuses a1).cones = s.cones ∧ (s.setFuses a1).engines = s.engines ∧
    (s.setFuses a1).clusters = s.clusters ∧ (s.setFuses a1).links = s.links ∧ (s.setFuses a1).gbus = s.gbus ∧
    (s.setFuses a1).feedWord = s.feedWord ∧ (s.setFuses a1).hblocks = s.hblocks ∧ (s.setFuses a1).frameShadow = s.frameShadow ∧
    (s.setFuses a1).frameTick = s.frameTick ∧ (s.setFuses a1).gbusNew = s.gbusNew ∧ (s.setFuses a1).hkRecs = s.hkRecs ∧
    (s.setFuses a1).passes = s.passes ∧ (s.setFuses a1).books = s.books ∧ (s.setFuses a1).time = s.time ∧ (s.setFuses a1).log = s.log ∧
    (s.setFuses a1).coll = s.coll ∧ (s.setFuses a1).pair = s.pair ∧ (s.setFuses a1).works = s.works ∧ (s.setFuses a1).host = s.host ∧
    (s.setFuses a1).pmb = s.pmb ∧ (s.setFuses a1).jtag = s.jtag ∧ (s.setFuses a1).out = s.out ∧ (s.setFuses a1).free = s.free ∧
    (s.setFuses a1).pending = s.pending ∧ (s.setFuses a1).cell j = s.cell j ∧ (s.setFuses a1).hearth j = s.hearth j ∧
    (s.setFuses a1).slot j = s.slot j ∧ (s.setFuses a1).spy j = s.spy j ∧ (s.setFuses a1).capture j = s.capture j ∧
    (s.setFuses a1).group j = s.group j ∧ (s.setFuses a1).hk j = s.hk j ∧ (s.setFuses a1).chan j = s.chan j ∧
    (s.setFuses a1).cone j = s.cone j ∧ (s.setFuses a1).engine j = s.engine j ∧ (s.setFuses a1).cluster j = s.cluster j ∧
    (s.setFuses a1).link j = s.link j ∧ (s.setFuses a1).cp j = s.cp j ∧ (s.setFuses a1).mbox j = s.mbox j ∧
    (s.setFuses a1).fwdBox j = s.fwdBox j ∧ (s.setFuses a1).wlane j = s.wlane j :=
  by repeat' constructor

@[simp] theorem measure_rest :
    (s.measure a1 a2 a3).cells = s.cells ∧ (s.measure a1 a2 a3).hearths = s.hearths ∧ (s.measure a1 a2 a3).slots = s.slots ∧
    (s.measure a1 a2 a3).spies = s.spies ∧ (s.measure a1 a2 a3).captures = s.captures ∧ (s.measure a1 a2 a3).groups = s.groups ∧
    (s.measure a1 a2 a3).hks = s.hks ∧ (s.measure a1 a2 a3).chans = s.chans ∧ (s.measure a1 a2 a3).cones = s.cones ∧
    (s.measure a1 a2 a3).engines = s.engines ∧ (s.measure a1 a2 a3).clusters = s.clusters ∧ (s.measure a1 a2 a3).links = s.links ∧
    (s.measure a1 a2 a3).gbus = s.gbus ∧ (s.measure a1 a2 a3).feedWord = s.feedWord ∧ (s.measure a1 a2 a3).hblocks = s.hblocks ∧
    (s.measure a1 a2 a3).frameShadow = s.frameShadow ∧ (s.measure a1 a2 a3).frameTick = s.frameTick ∧
    (s.measure a1 a2 a3).gbusNew = s.gbusNew ∧ (s.measure a1 a2 a3).hkRecs = s.hkRecs ∧ (s.measure a1 a2 a3).passes = s.passes ∧
    (s.measure a1 a2 a3).books = s.books ∧ (s.measure a1 a2 a3).time = s.time ∧ (s.measure a1 a2 a3).log = s.log ∧
    (s.measure a1 a2 a3).coll = s.coll ∧ (s.measure a1 a2 a3).pair = s.pair ∧ (s.measure a1 a2 a3).works = s.works ∧
    (s.measure a1 a2 a3).host = s.host ∧ (s.measure a1 a2 a3).pmb = s.pmb ∧ (s.measure a1 a2 a3).jtag = s.jtag ∧
    (s.measure a1 a2 a3).out = s.out ∧ (s.measure a1 a2 a3).free = s.free ∧ (s.measure a1 a2 a3).pending = s.pending ∧
    (s.measure a1 a2 a3).cell j = s.cell j ∧ (s.measure a1 a2 a3).hearth j = s.hearth j ∧ (s.measure a1 a2 a3).slot j = s.slot j ∧
    (s.measure a1 a2 a3).spy j = s.spy j ∧ (s.measure a1 a2 a3).capture j = s.capture j ∧ (s.measure a1 a2 a3).group j = s.group j ∧
    (s.measure a1 a2 a3).hk j = s.hk j ∧ (s.measure a1 a2 a3).chan j = s.chan j ∧ (s.measure a1 a2 a3).cone j = s.cone j ∧
    (s.measure a1 a2 a3).engine j = s.engine j ∧ (s.measure a1 a2 a3).cluster j = s.cluster j ∧ (s.measure a1 a2 a3).link j = s.link j ∧
    (s.measure a1 a2 a3).cp j = s.cp j ∧ (s.measure a1 a2 a3).mbox j = s.mbox j ∧ (s.measure a1 a2 a3).fwdBox j = s.fwdBox j ∧
    (s.measure a1 a2 a3).wlane j = s.wlane j :=
  by repeat' constructor

@[simp] theorem restartHk_rest :
    (s.restartHk).cells = s.cells ∧ (s.restartHk).hearths = s.hearths ∧ (s.restartHk).slots = s.slots ∧ (s.restartHk).spies = s.spies ∧
    (s.restartHk).captures = s.captures ∧ (s.restartHk).groups = s.groups ∧ (s.restartHk).hks = s.hks ∧ (s.restartHk).chans = s.chans ∧
    (s.restartHk).cones = s.cones ∧ (s.restartHk).engines = s.engines ∧ (s.restartHk).clusters = s.clusters ∧
    (s.restartHk).links = s.links ∧ (s.restartHk).gbus = s.gbus ∧ (s.restartHk).feedWord = s.feedWord ∧ (s.restartHk).hblocks = s.hblocks ∧
    (s.restartHk).frameShadow = s.frameShadow ∧ (s.restartHk).frameTick = s.frameTick ∧ (s.restartHk).gbusNew = s.gbusNew ∧
    (s.restartHk).boot = s.boot ∧ (s.restartHk).books = s.books ∧ (s.restartHk).time = s.time ∧ (s.restartHk).log = s.log ∧
    (s.restartHk).coll = s.coll ∧ (s.restartHk).pair = s.pair ∧ (s.restartHk).works = s.works ∧ (s.restartHk).host = s.host ∧
    (s.restartHk).pmb = s.pmb ∧ (s.restartHk).jtag = s.jtag ∧ (s.restartHk).out = s.out ∧ (s.restartHk).free = s.free ∧
    (s.restartHk).pending = s.pending ∧ (s.restartHk).cell j = s.cell j ∧ (s.restartHk).hearth j = s.hearth j ∧
    (s.restartHk).slot j = s.slot j ∧ (s.restartHk).spy j = s.spy j ∧ (s.restartHk).capture j = s.capture j ∧
    (s.restartHk).group j = s.group j ∧ (s.restartHk).hk j = s.hk j ∧ (s.restartHk).chan j = s.chan j ∧ (s.restartHk).cone j = s.cone j ∧
    (s.restartHk).engine j = s.engine j ∧ (s.restartHk).cluster j = s.cluster j ∧ (s.restartHk).link j = s.link j ∧
    (s.restartHk).cp j = s.cp j ∧ (s.restartHk).mbox j = s.mbox j ∧ (s.restartHk).fwdBox j = s.fwdBox j ∧
    (s.restartHk).wlane j = s.wlane j :=
  by repeat' constructor

@[simp] theorem updCell_rest :
    (s.updCell a1 a2).hearths = s.hearths ∧ (s.updCell a1 a2).slots = s.slots ∧ (s.updCell a1 a2).spies = s.spies ∧
    (s.updCell a1 a2).captures = s.captures ∧ (s.updCell a1 a2).groups = s.groups ∧ (s.updCell a1 a2).hks = s.hks ∧
    (s.updCell a1 a2).chans = s.chans ∧ (s.updCell a1 a2).cones = s.cones ∧ (s.updCell a1 a2).engines = s.engines ∧
    (s.updCell a1 a2).clusters = s.clusters ∧ (s.updCell a1 a2).links = s.links ∧ (s.updCell a1 a2).gbus = s.gbus ∧
    (s.updCell a1 a2).feedWord = s.feedWord ∧ (s.updCell a1 a2).hblocks = s.hblocks ∧ (s.updCell a1 a2).frameShadow = s.frameShadow ∧
    (s.updCell a1 a2).frameTick = s.frameTick ∧ (s.updCell a1 a2).gbusNew = s.gbusNew ∧ (s.updCell a1 a2).hkRecs = s.hkRecs ∧
    (s.updCell a1 a2).passes = s.passes ∧ (s.updCell a1 a2).boot = s.boot ∧ (s.updCell a1 a2).books = s.books ∧
    (s.updCell a1 a2).time = s.time ∧ (s.updCell a1 a2).log = s.log ∧ (s.updCell a1 a2).coll = s.coll ∧ (s.updCell a1 a2).pair = s.pair ∧
    (s.updCell a1 a2).works = s.works ∧ (s.updCell a1 a2).host = s.host ∧ (s.updCell a1 a2).pmb = s.pmb ∧ (s.updCell a1 a2).jtag = s.jtag ∧
    (s.updCell a1 a2).out = s.out ∧ (s.updCell a1 a2).free = s.free ∧ (s.updCell a1 a2).pending = s.pending ∧
    (s.updCell a1 a2).hearth j = s.hearth j ∧ (s.updCell a1 a2).slot j = s.slot j ∧ (s.updCell a1 a2).spy j = s.spy j ∧
    (s.updCell a1 a2).capture j = s.capture j ∧ (s.updCell a1 a2).group j = s.group j ∧ (s.updCell a1 a2).hk j = s.hk j ∧
    (s.updCell a1 a2).chan j = s.chan j ∧ (s.updCell a1 a2).cone j = s.cone j ∧ (s.updCell a1 a2).engine j = s.engine j ∧
    (s.updCell a1 a2).cluster j = s.cluster j ∧ (s.updCell a1 a2).link j = s.link j ∧ (s.updCell a1 a2).cp j = s.cp j ∧
    (s.updCell a1 a2).mbox j = s.mbox j ∧ (s.updCell a1 a2).fwdBox j = s.fwdBox j ∧ (s.updCell a1 a2).wlane j = s.wlane j :=
  by repeat' constructor

@[simp] theorem updHearth_rest :
    (s.updHearth a1 a2).cells = s.cells ∧ (s.updHearth a1 a2).slots = s.slots ∧ (s.updHearth a1 a2).spies = s.spies ∧
    (s.updHearth a1 a2).captures = s.captures ∧ (s.updHearth a1 a2).groups = s.groups ∧ (s.updHearth a1 a2).hks = s.hks ∧
    (s.updHearth a1 a2).chans = s.chans ∧ (s.updHearth a1 a2).cones = s.cones ∧ (s.updHearth a1 a2).engines = s.engines ∧
    (s.updHearth a1 a2).clusters = s.clusters ∧ (s.updHearth a1 a2).links = s.links ∧ (s.updHearth a1 a2).gbus = s.gbus ∧
    (s.updHearth a1 a2).feedWord = s.feedWord ∧ (s.updHearth a1 a2).hblocks = s.hblocks ∧ (s.updHearth a1 a2).frameShadow = s.frameShadow ∧
    (s.updHearth a1 a2).frameTick = s.frameTick ∧ (s.updHearth a1 a2).gbusNew = s.gbusNew ∧ (s.updHearth a1 a2).hkRecs = s.hkRecs ∧
    (s.updHearth a1 a2).passes = s.passes ∧ (s.updHearth a1 a2).boot = s.boot ∧ (s.updHearth a1 a2).books = s.books ∧
    (s.updHearth a1 a2).time = s.time ∧ (s.updHearth a1 a2).log = s.log ∧ (s.updHearth a1 a2).coll = s.coll ∧
    (s.updHearth a1 a2).pair = s.pair ∧ (s.updHearth a1 a2).works = s.works ∧ (s.updHearth a1 a2).host = s.host ∧
    (s.updHearth a1 a2).pmb = s.pmb ∧ (s.updHearth a1 a2).jtag = s.jtag ∧ (s.updHearth a1 a2).out = s.out ∧
    (s.updHearth a1 a2).free = s.free ∧ (s.updHearth a1 a2).pending = s.pending ∧ (s.updHearth a1 a2).cell j = s.cell j ∧
    (s.updHearth a1 a2).slot j = s.slot j ∧ (s.updHearth a1 a2).spy j = s.spy j ∧ (s.updHearth a1 a2).capture j = s.capture j ∧
    (s.updHearth a1 a2).group j = s.group j ∧ (s.updHearth a1 a2).hk j = s.hk j ∧ (s.updHearth a1 a2).chan j = s.chan j ∧
    (s.updHearth a1 a2).cone j = s.cone j ∧ (s.updHearth a1 a2).engine j = s.engine j ∧ (s.updHearth a1 a2).cluster j = s.cluster j ∧
    (s.updHearth a1 a2).link j = s.link j ∧ (s.updHearth a1 a2).cp j = s.cp j ∧ (s.updHearth a1 a2).mbox j = s.mbox j ∧
    (s.updHearth a1 a2).fwdBox j = s.fwdBox j ∧ (s.updHearth a1 a2).wlane j = s.wlane j :=
  by repeat' constructor

@[simp] theorem updSlot_rest :
    (s.updSlot a1 a2).cells = s.cells ∧ (s.updSlot a1 a2).hearths = s.hearths ∧ (s.updSlot a1 a2).spies = s.spies ∧
    (s.updSlot a1 a2).captures = s.captures ∧ (s.updSlot a1 a2).groups = s.groups ∧ (s.updSlot a1 a2).hks = s.hks ∧
    (s.updSlot a1 a2).chans = s.chans ∧ (s.updSlot a1 a2).cones = s.cones ∧ (s.updSlot a1 a2).engines = s.engines ∧
    (s.updSlot a1 a2).clusters = s.clusters ∧ (s.updSlot a1 a2).links = s.links ∧ (s.updSlot a1 a2).gbus = s.gbus ∧
    (s.updSlot a1 a2).feedWord = s.feedWord ∧ (s.updSlot a1 a2).hblocks = s.hblocks ∧ (s.updSlot a1 a2).frameShadow = s.frameShadow ∧
    (s.updSlot a1 a2).frameTick = s.frameTick ∧ (s.updSlot a1 a2).gbusNew = s.gbusNew ∧ (s.updSlot a1 a2).hkRecs = s.hkRecs ∧
    (s.updSlot a1 a2).passes = s.passes ∧ (s.updSlot a1 a2).boot = s.boot ∧ (s.updSlot a1 a2).books = s.books ∧
    (s.updSlot a1 a2).time = s.time ∧ (s.updSlot a1 a2).log = s.log ∧ (s.updSlot a1 a2).coll = s.coll ∧ (s.updSlot a1 a2).pair = s.pair ∧
    (s.updSlot a1 a2).works = s.works ∧ (s.updSlot a1 a2).host = s.host ∧ (s.updSlot a1 a2).pmb = s.pmb ∧ (s.updSlot a1 a2).jtag = s.jtag ∧
    (s.updSlot a1 a2).out = s.out ∧ (s.updSlot a1 a2).free = s.free ∧ (s.updSlot a1 a2).pending = s.pending ∧
    (s.updSlot a1 a2).cell j = s.cell j ∧ (s.updSlot a1 a2).hearth j = s.hearth j ∧ (s.updSlot a1 a2).spy j = s.spy j ∧
    (s.updSlot a1 a2).capture j = s.capture j ∧ (s.updSlot a1 a2).group j = s.group j ∧ (s.updSlot a1 a2).hk j = s.hk j ∧
    (s.updSlot a1 a2).chan j = s.chan j ∧ (s.updSlot a1 a2).cone j = s.cone j ∧ (s.updSlot a1 a2).engine j = s.engine j ∧
    (s.updSlot a1 a2).cluster j = s.cluster j ∧ (s.updSlot a1 a2).link j = s.link j ∧ (s.updSlot a1 a2).cp j = s.cp j ∧
    (s.updSlot a1 a2).mbox j = s.mbox j ∧ (s.updSlot a1 a2).fwdBox j = s.fwdBox j ∧ (s.updSlot a1 a2).wlane j = s.wlane j :=
  by repeat' constructor

@[simp] theorem updSpy_rest :
    (s.updSpy a1 a2).cells = s.cells ∧ (s.updSpy a1 a2).hearths = s.hearths ∧ (s.updSpy a1 a2).slots = s.slots ∧
    (s.updSpy a1 a2).captures = s.captures ∧ (s.updSpy a1 a2).groups = s.groups ∧ (s.updSpy a1 a2).hks = s.hks ∧
    (s.updSpy a1 a2).chans = s.chans ∧ (s.updSpy a1 a2).cones = s.cones ∧ (s.updSpy a1 a2).engines = s.engines ∧
    (s.updSpy a1 a2).clusters = s.clusters ∧ (s.updSpy a1 a2).links = s.links ∧ (s.updSpy a1 a2).gbus = s.gbus ∧
    (s.updSpy a1 a2).feedWord = s.feedWord ∧ (s.updSpy a1 a2).hblocks = s.hblocks ∧ (s.updSpy a1 a2).frameShadow = s.frameShadow ∧
    (s.updSpy a1 a2).frameTick = s.frameTick ∧ (s.updSpy a1 a2).gbusNew = s.gbusNew ∧ (s.updSpy a1 a2).hkRecs = s.hkRecs ∧
    (s.updSpy a1 a2).passes = s.passes ∧ (s.updSpy a1 a2).boot = s.boot ∧ (s.updSpy a1 a2).books = s.books ∧
    (s.updSpy a1 a2).time = s.time ∧ (s.updSpy a1 a2).log = s.log ∧ (s.updSpy a1 a2).coll = s.coll ∧ (s.updSpy a1 a2).pair = s.pair ∧
    (s.updSpy a1 a2).works = s.works ∧ (s.updSpy a1 a2).host = s.host ∧ (s.updSpy a1 a2).pmb = s.pmb ∧ (s.updSpy a1 a2).jtag = s.jtag ∧
    (s.updSpy a1 a2).out = s.out ∧ (s.updSpy a1 a2).free = s.free ∧ (s.updSpy a1 a2).pending = s.pending ∧
    (s.updSpy a1 a2).cell j = s.cell j ∧ (s.updSpy a1 a2).hearth j = s.hearth j ∧ (s.updSpy a1 a2).slot j = s.slot j ∧
    (s.updSpy a1 a2).capture j = s.capture j ∧ (s.updSpy a1 a2).group j = s.group j ∧ (s.updSpy a1 a2).hk j = s.hk j ∧
    (s.updSpy a1 a2).chan j = s.chan j ∧ (s.updSpy a1 a2).cone j = s.cone j ∧ (s.updSpy a1 a2).engine j = s.engine j ∧
    (s.updSpy a1 a2).cluster j = s.cluster j ∧ (s.updSpy a1 a2).link j = s.link j ∧ (s.updSpy a1 a2).cp j = s.cp j ∧
    (s.updSpy a1 a2).mbox j = s.mbox j ∧ (s.updSpy a1 a2).fwdBox j = s.fwdBox j ∧ (s.updSpy a1 a2).wlane j = s.wlane j :=
  by repeat' constructor

@[simp] theorem updCapture_rest :
    (s.updCapture a1 a2).cells = s.cells ∧ (s.updCapture a1 a2).hearths = s.hearths ∧ (s.updCapture a1 a2).slots = s.slots ∧
    (s.updCapture a1 a2).spies = s.spies ∧ (s.updCapture a1 a2).groups = s.groups ∧ (s.updCapture a1 a2).hks = s.hks ∧
    (s.updCapture a1 a2).chans = s.chans ∧ (s.updCapture a1 a2).cones = s.cones ∧ (s.updCapture a1 a2).engines = s.engines ∧
    (s.updCapture a1 a2).clusters = s.clusters ∧ (s.updCapture a1 a2).links = s.links ∧ (s.updCapture a1 a2).gbus = s.gbus ∧
    (s.updCapture a1 a2).feedWord = s.feedWord ∧ (s.updCapture a1 a2).hblocks = s.hblocks ∧
    (s.updCapture a1 a2).frameShadow = s.frameShadow ∧ (s.updCapture a1 a2).frameTick = s.frameTick ∧
    (s.updCapture a1 a2).gbusNew = s.gbusNew ∧ (s.updCapture a1 a2).hkRecs = s.hkRecs ∧ (s.updCapture a1 a2).passes = s.passes ∧
    (s.updCapture a1 a2).boot = s.boot ∧ (s.updCapture a1 a2).books = s.books ∧ (s.updCapture a1 a2).time = s.time ∧
    (s.updCapture a1 a2).log = s.log ∧ (s.updCapture a1 a2).coll = s.coll ∧ (s.updCapture a1 a2).pair = s.pair ∧
    (s.updCapture a1 a2).works = s.works ∧ (s.updCapture a1 a2).host = s.host ∧ (s.updCapture a1 a2).pmb = s.pmb ∧
    (s.updCapture a1 a2).jtag = s.jtag ∧ (s.updCapture a1 a2).out = s.out ∧ (s.updCapture a1 a2).free = s.free ∧
    (s.updCapture a1 a2).pending = s.pending ∧ (s.updCapture a1 a2).cell j = s.cell j ∧ (s.updCapture a1 a2).hearth j = s.hearth j ∧
    (s.updCapture a1 a2).slot j = s.slot j ∧ (s.updCapture a1 a2).spy j = s.spy j ∧ (s.updCapture a1 a2).group j = s.group j ∧
    (s.updCapture a1 a2).hk j = s.hk j ∧ (s.updCapture a1 a2).chan j = s.chan j ∧ (s.updCapture a1 a2).cone j = s.cone j ∧
    (s.updCapture a1 a2).engine j = s.engine j ∧ (s.updCapture a1 a2).cluster j = s.cluster j ∧ (s.updCapture a1 a2).link j = s.link j ∧
    (s.updCapture a1 a2).cp j = s.cp j ∧ (s.updCapture a1 a2).mbox j = s.mbox j ∧ (s.updCapture a1 a2).fwdBox j = s.fwdBox j ∧
    (s.updCapture a1 a2).wlane j = s.wlane j :=
  by repeat' constructor

@[simp] theorem updGroup_rest :
    (s.updGroup a1 a2).cells = s.cells ∧ (s.updGroup a1 a2).hearths = s.hearths ∧ (s.updGroup a1 a2).slots = s.slots ∧
    (s.updGroup a1 a2).spies = s.spies ∧ (s.updGroup a1 a2).captures = s.captures ∧ (s.updGroup a1 a2).hks = s.hks ∧
    (s.updGroup a1 a2).chans = s.chans ∧ (s.updGroup a1 a2).cones = s.cones ∧ (s.updGroup a1 a2).engines = s.engines ∧
    (s.updGroup a1 a2).clusters = s.clusters ∧ (s.updGroup a1 a2).links = s.links ∧ (s.updGroup a1 a2).gbus = s.gbus ∧
    (s.updGroup a1 a2).feedWord = s.feedWord ∧ (s.updGroup a1 a2).hblocks = s.hblocks ∧ (s.updGroup a1 a2).frameShadow = s.frameShadow ∧
    (s.updGroup a1 a2).frameTick = s.frameTick ∧ (s.updGroup a1 a2).gbusNew = s.gbusNew ∧ (s.updGroup a1 a2).hkRecs = s.hkRecs ∧
    (s.updGroup a1 a2).passes = s.passes ∧ (s.updGroup a1 a2).boot = s.boot ∧ (s.updGroup a1 a2).books = s.books ∧
    (s.updGroup a1 a2).time = s.time ∧ (s.updGroup a1 a2).log = s.log ∧ (s.updGroup a1 a2).coll = s.coll ∧
    (s.updGroup a1 a2).pair = s.pair ∧ (s.updGroup a1 a2).works = s.works ∧ (s.updGroup a1 a2).host = s.host ∧
    (s.updGroup a1 a2).pmb = s.pmb ∧ (s.updGroup a1 a2).jtag = s.jtag ∧ (s.updGroup a1 a2).out = s.out ∧ (s.updGroup a1 a2).free = s.free ∧
    (s.updGroup a1 a2).pending = s.pending ∧ (s.updGroup a1 a2).cell j = s.cell j ∧ (s.updGroup a1 a2).hearth j = s.hearth j ∧
    (s.updGroup a1 a2).slot j = s.slot j ∧ (s.updGroup a1 a2).spy j = s.spy j ∧ (s.updGroup a1 a2).capture j = s.capture j ∧
    (s.updGroup a1 a2).hk j = s.hk j ∧ (s.updGroup a1 a2).chan j = s.chan j ∧ (s.updGroup a1 a2).cone j = s.cone j ∧
    (s.updGroup a1 a2).engine j = s.engine j ∧ (s.updGroup a1 a2).cluster j = s.cluster j ∧ (s.updGroup a1 a2).link j = s.link j ∧
    (s.updGroup a1 a2).cp j = s.cp j ∧ (s.updGroup a1 a2).mbox j = s.mbox j ∧ (s.updGroup a1 a2).fwdBox j = s.fwdBox j ∧
    (s.updGroup a1 a2).wlane j = s.wlane j :=
  by repeat' constructor

@[simp] theorem updHk_rest :
    (s.updHk a1 a2).cells = s.cells ∧ (s.updHk a1 a2).hearths = s.hearths ∧ (s.updHk a1 a2).slots = s.slots ∧
    (s.updHk a1 a2).spies = s.spies ∧ (s.updHk a1 a2).captures = s.captures ∧ (s.updHk a1 a2).groups = s.groups ∧
    (s.updHk a1 a2).chans = s.chans ∧ (s.updHk a1 a2).cones = s.cones ∧ (s.updHk a1 a2).engines = s.engines ∧
    (s.updHk a1 a2).clusters = s.clusters ∧ (s.updHk a1 a2).links = s.links ∧ (s.updHk a1 a2).gbus = s.gbus ∧
    (s.updHk a1 a2).feedWord = s.feedWord ∧ (s.updHk a1 a2).hblocks = s.hblocks ∧ (s.updHk a1 a2).frameShadow = s.frameShadow ∧
    (s.updHk a1 a2).frameTick = s.frameTick ∧ (s.updHk a1 a2).gbusNew = s.gbusNew ∧ (s.updHk a1 a2).hkRecs = s.hkRecs ∧
    (s.updHk a1 a2).passes = s.passes ∧ (s.updHk a1 a2).boot = s.boot ∧ (s.updHk a1 a2).books = s.books ∧ (s.updHk a1 a2).time = s.time ∧
    (s.updHk a1 a2).log = s.log ∧ (s.updHk a1 a2).coll = s.coll ∧ (s.updHk a1 a2).pair = s.pair ∧ (s.updHk a1 a2).works = s.works ∧
    (s.updHk a1 a2).host = s.host ∧ (s.updHk a1 a2).pmb = s.pmb ∧ (s.updHk a1 a2).jtag = s.jtag ∧ (s.updHk a1 a2).out = s.out ∧
    (s.updHk a1 a2).free = s.free ∧ (s.updHk a1 a2).pending = s.pending ∧ (s.updHk a1 a2).cell j = s.cell j ∧
    (s.updHk a1 a2).hearth j = s.hearth j ∧ (s.updHk a1 a2).slot j = s.slot j ∧ (s.updHk a1 a2).spy j = s.spy j ∧
    (s.updHk a1 a2).capture j = s.capture j ∧ (s.updHk a1 a2).group j = s.group j ∧ (s.updHk a1 a2).chan j = s.chan j ∧
    (s.updHk a1 a2).cone j = s.cone j ∧ (s.updHk a1 a2).engine j = s.engine j ∧ (s.updHk a1 a2).cluster j = s.cluster j ∧
    (s.updHk a1 a2).link j = s.link j ∧ (s.updHk a1 a2).cp j = s.cp j ∧ (s.updHk a1 a2).mbox j = s.mbox j ∧
    (s.updHk a1 a2).fwdBox j = s.fwdBox j ∧ (s.updHk a1 a2).wlane j = s.wlane j :=
  by repeat' constructor

@[simp] theorem updChan_rest :
    (s.updChan a1 a2).cells = s.cells ∧ (s.updChan a1 a2).hearths = s.hearths ∧ (s.updChan a1 a2).slots = s.slots ∧
    (s.updChan a1 a2).spies = s.spies ∧ (s.updChan a1 a2).captures = s.captures ∧ (s.updChan a1 a2).groups = s.groups ∧
    (s.updChan a1 a2).hks = s.hks ∧ (s.updChan a1 a2).cones = s.cones ∧ (s.updChan a1 a2).engines = s.engines ∧
    (s.updChan a1 a2).clusters = s.clusters ∧ (s.updChan a1 a2).links = s.links ∧ (s.updChan a1 a2).gbus = s.gbus ∧
    (s.updChan a1 a2).feedWord = s.feedWord ∧ (s.updChan a1 a2).hblocks = s.hblocks ∧ (s.updChan a1 a2).frameShadow = s.frameShadow ∧
    (s.updChan a1 a2).frameTick = s.frameTick ∧ (s.updChan a1 a2).gbusNew = s.gbusNew ∧ (s.updChan a1 a2).hkRecs = s.hkRecs ∧
    (s.updChan a1 a2).passes = s.passes ∧ (s.updChan a1 a2).boot = s.boot ∧ (s.updChan a1 a2).books = s.books ∧
    (s.updChan a1 a2).time = s.time ∧ (s.updChan a1 a2).log = s.log ∧ (s.updChan a1 a2).coll = s.coll ∧ (s.updChan a1 a2).pair = s.pair ∧
    (s.updChan a1 a2).works = s.works ∧ (s.updChan a1 a2).host = s.host ∧ (s.updChan a1 a2).pmb = s.pmb ∧ (s.updChan a1 a2).jtag = s.jtag ∧
    (s.updChan a1 a2).out = s.out ∧ (s.updChan a1 a2).free = s.free ∧ (s.updChan a1 a2).pending = s.pending ∧
    (s.updChan a1 a2).cell j = s.cell j ∧ (s.updChan a1 a2).hearth j = s.hearth j ∧ (s.updChan a1 a2).slot j = s.slot j ∧
    (s.updChan a1 a2).spy j = s.spy j ∧ (s.updChan a1 a2).capture j = s.capture j ∧ (s.updChan a1 a2).group j = s.group j ∧
    (s.updChan a1 a2).hk j = s.hk j ∧ (s.updChan a1 a2).cone j = s.cone j ∧ (s.updChan a1 a2).engine j = s.engine j ∧
    (s.updChan a1 a2).cluster j = s.cluster j ∧ (s.updChan a1 a2).link j = s.link j ∧ (s.updChan a1 a2).cp j = s.cp j ∧
    (s.updChan a1 a2).mbox j = s.mbox j ∧ (s.updChan a1 a2).fwdBox j = s.fwdBox j ∧ (s.updChan a1 a2).wlane j = s.wlane j :=
  by repeat' constructor

@[simp] theorem updCone_rest :
    (s.updCone a1 a2).cells = s.cells ∧ (s.updCone a1 a2).hearths = s.hearths ∧ (s.updCone a1 a2).slots = s.slots ∧
    (s.updCone a1 a2).spies = s.spies ∧ (s.updCone a1 a2).captures = s.captures ∧ (s.updCone a1 a2).groups = s.groups ∧
    (s.updCone a1 a2).hks = s.hks ∧ (s.updCone a1 a2).chans = s.chans ∧ (s.updCone a1 a2).engines = s.engines ∧
    (s.updCone a1 a2).clusters = s.clusters ∧ (s.updCone a1 a2).links = s.links ∧ (s.updCone a1 a2).gbus = s.gbus ∧
    (s.updCone a1 a2).feedWord = s.feedWord ∧ (s.updCone a1 a2).hblocks = s.hblocks ∧ (s.updCone a1 a2).frameShadow = s.frameShadow ∧
    (s.updCone a1 a2).frameTick = s.frameTick ∧ (s.updCone a1 a2).gbusNew = s.gbusNew ∧ (s.updCone a1 a2).hkRecs = s.hkRecs ∧
    (s.updCone a1 a2).passes = s.passes ∧ (s.updCone a1 a2).boot = s.boot ∧ (s.updCone a1 a2).books = s.books ∧
    (s.updCone a1 a2).time = s.time ∧ (s.updCone a1 a2).log = s.log ∧ (s.updCone a1 a2).coll = s.coll ∧ (s.updCone a1 a2).pair = s.pair ∧
    (s.updCone a1 a2).works = s.works ∧ (s.updCone a1 a2).host = s.host ∧ (s.updCone a1 a2).pmb = s.pmb ∧ (s.updCone a1 a2).jtag = s.jtag ∧
    (s.updCone a1 a2).out = s.out ∧ (s.updCone a1 a2).free = s.free ∧ (s.updCone a1 a2).pending = s.pending ∧
    (s.updCone a1 a2).cell j = s.cell j ∧ (s.updCone a1 a2).hearth j = s.hearth j ∧ (s.updCone a1 a2).slot j = s.slot j ∧
    (s.updCone a1 a2).spy j = s.spy j ∧ (s.updCone a1 a2).capture j = s.capture j ∧ (s.updCone a1 a2).group j = s.group j ∧
    (s.updCone a1 a2).hk j = s.hk j ∧ (s.updCone a1 a2).chan j = s.chan j ∧ (s.updCone a1 a2).engine j = s.engine j ∧
    (s.updCone a1 a2).cluster j = s.cluster j ∧ (s.updCone a1 a2).link j = s.link j ∧ (s.updCone a1 a2).cp j = s.cp j ∧
    (s.updCone a1 a2).mbox j = s.mbox j ∧ (s.updCone a1 a2).fwdBox j = s.fwdBox j ∧ (s.updCone a1 a2).wlane j = s.wlane j :=
  by repeat' constructor

@[simp] theorem updEngine_rest :
    (s.updEngine a1 a2).cells = s.cells ∧ (s.updEngine a1 a2).hearths = s.hearths ∧ (s.updEngine a1 a2).slots = s.slots ∧
    (s.updEngine a1 a2).spies = s.spies ∧ (s.updEngine a1 a2).captures = s.captures ∧ (s.updEngine a1 a2).groups = s.groups ∧
    (s.updEngine a1 a2).hks = s.hks ∧ (s.updEngine a1 a2).chans = s.chans ∧ (s.updEngine a1 a2).cones = s.cones ∧
    (s.updEngine a1 a2).clusters = s.clusters ∧ (s.updEngine a1 a2).links = s.links ∧ (s.updEngine a1 a2).gbus = s.gbus ∧
    (s.updEngine a1 a2).feedWord = s.feedWord ∧ (s.updEngine a1 a2).hblocks = s.hblocks ∧ (s.updEngine a1 a2).frameShadow = s.frameShadow ∧
    (s.updEngine a1 a2).frameTick = s.frameTick ∧ (s.updEngine a1 a2).gbusNew = s.gbusNew ∧ (s.updEngine a1 a2).hkRecs = s.hkRecs ∧
    (s.updEngine a1 a2).passes = s.passes ∧ (s.updEngine a1 a2).boot = s.boot ∧ (s.updEngine a1 a2).books = s.books ∧
    (s.updEngine a1 a2).time = s.time ∧ (s.updEngine a1 a2).log = s.log ∧ (s.updEngine a1 a2).coll = s.coll ∧
    (s.updEngine a1 a2).pair = s.pair ∧ (s.updEngine a1 a2).works = s.works ∧ (s.updEngine a1 a2).host = s.host ∧
    (s.updEngine a1 a2).pmb = s.pmb ∧ (s.updEngine a1 a2).jtag = s.jtag ∧ (s.updEngine a1 a2).out = s.out ∧
    (s.updEngine a1 a2).free = s.free ∧ (s.updEngine a1 a2).pending = s.pending ∧ (s.updEngine a1 a2).cell j = s.cell j ∧
    (s.updEngine a1 a2).hearth j = s.hearth j ∧ (s.updEngine a1 a2).slot j = s.slot j ∧ (s.updEngine a1 a2).spy j = s.spy j ∧
    (s.updEngine a1 a2).capture j = s.capture j ∧ (s.updEngine a1 a2).group j = s.group j ∧ (s.updEngine a1 a2).hk j = s.hk j ∧
    (s.updEngine a1 a2).chan j = s.chan j ∧ (s.updEngine a1 a2).cone j = s.cone j ∧ (s.updEngine a1 a2).cluster j = s.cluster j ∧
    (s.updEngine a1 a2).link j = s.link j ∧ (s.updEngine a1 a2).cp j = s.cp j ∧ (s.updEngine a1 a2).mbox j = s.mbox j ∧
    (s.updEngine a1 a2).fwdBox j = s.fwdBox j ∧ (s.updEngine a1 a2).wlane j = s.wlane j :=
  by repeat' constructor

@[simp] theorem updCluster_rest :
    (s.updCluster a1 a2).cells = s.cells ∧ (s.updCluster a1 a2).hearths = s.hearths ∧ (s.updCluster a1 a2).slots = s.slots ∧
    (s.updCluster a1 a2).spies = s.spies ∧ (s.updCluster a1 a2).captures = s.captures ∧ (s.updCluster a1 a2).groups = s.groups ∧
    (s.updCluster a1 a2).hks = s.hks ∧ (s.updCluster a1 a2).chans = s.chans ∧ (s.updCluster a1 a2).cones = s.cones ∧
    (s.updCluster a1 a2).engines = s.engines ∧ (s.updCluster a1 a2).links = s.links ∧ (s.updCluster a1 a2).gbus = s.gbus ∧
    (s.updCluster a1 a2).feedWord = s.feedWord ∧ (s.updCluster a1 a2).hblocks = s.hblocks ∧
    (s.updCluster a1 a2).frameShadow = s.frameShadow ∧ (s.updCluster a1 a2).frameTick = s.frameTick ∧
    (s.updCluster a1 a2).gbusNew = s.gbusNew ∧ (s.updCluster a1 a2).hkRecs = s.hkRecs ∧ (s.updCluster a1 a2).passes = s.passes ∧
    (s.updCluster a1 a2).boot = s.boot ∧ (s.updCluster a1 a2).books = s.books ∧ (s.updCluster a1 a2).time = s.time ∧
    (s.updCluster a1 a2).log = s.log ∧ (s.updCluster a1 a2).coll = s.coll ∧ (s.updCluster a1 a2).pair = s.pair ∧
    (s.updCluster a1 a2).works = s.works ∧ (s.updCluster a1 a2).host = s.host ∧ (s.updCluster a1 a2).pmb = s.pmb ∧
    (s.updCluster a1 a2).jtag = s.jtag ∧ (s.updCluster a1 a2).out = s.out ∧ (s.updCluster a1 a2).free = s.free ∧
    (s.updCluster a1 a2).pending = s.pending ∧ (s.updCluster a1 a2).cell j = s.cell j ∧ (s.updCluster a1 a2).hearth j = s.hearth j ∧
    (s.updCluster a1 a2).slot j = s.slot j ∧ (s.updCluster a1 a2).spy j = s.spy j ∧ (s.updCluster a1 a2).capture j = s.capture j ∧
    (s.updCluster a1 a2).group j = s.group j ∧ (s.updCluster a1 a2).hk j = s.hk j ∧ (s.updCluster a1 a2).chan j = s.chan j ∧
    (s.updCluster a1 a2).cone j = s.cone j ∧ (s.updCluster a1 a2).engine j = s.engine j ∧ (s.updCluster a1 a2).link j = s.link j ∧
    (s.updCluster a1 a2).cp j = s.cp j ∧ (s.updCluster a1 a2).mbox j = s.mbox j ∧ (s.updCluster a1 a2).fwdBox j = s.fwdBox j ∧
    (s.updCluster a1 a2).wlane j = s.wlane j :=
  by repeat' constructor

@[simp] theorem updCp_rest :
    (s.updCp a1 a2).cells = s.cells ∧ (s.updCp a1 a2).hearths = s.hearths ∧ (s.updCp a1 a2).slots = s.slots ∧
    (s.updCp a1 a2).spies = s.spies ∧ (s.updCp a1 a2).captures = s.captures ∧ (s.updCp a1 a2).groups = s.groups ∧
    (s.updCp a1 a2).hks = s.hks ∧ (s.updCp a1 a2).chans = s.chans ∧ (s.updCp a1 a2).cones = s.cones ∧ (s.updCp a1 a2).engines = s.engines ∧
    (s.updCp a1 a2).clusters = s.clusters ∧ (s.updCp a1 a2).links = s.links ∧ (s.updCp a1 a2).gbus = s.gbus ∧
    (s.updCp a1 a2).feedWord = s.feedWord ∧ (s.updCp a1 a2).hblocks = s.hblocks ∧ (s.updCp a1 a2).frameShadow = s.frameShadow ∧
    (s.updCp a1 a2).frameTick = s.frameTick ∧ (s.updCp a1 a2).gbusNew = s.gbusNew ∧ (s.updCp a1 a2).hkRecs = s.hkRecs ∧
    (s.updCp a1 a2).passes = s.passes ∧ (s.updCp a1 a2).boot = s.boot ∧ (s.updCp a1 a2).books = s.books ∧ (s.updCp a1 a2).time = s.time ∧
    (s.updCp a1 a2).log = s.log ∧ (s.updCp a1 a2).coll = s.coll ∧ (s.updCp a1 a2).works = s.works ∧ (s.updCp a1 a2).host = s.host ∧
    (s.updCp a1 a2).pmb = s.pmb ∧ (s.updCp a1 a2).jtag = s.jtag ∧ (s.updCp a1 a2).out = s.out ∧ (s.updCp a1 a2).free = s.free ∧
    (s.updCp a1 a2).pending = s.pending ∧ (s.updCp a1 a2).cell j = s.cell j ∧ (s.updCp a1 a2).hearth j = s.hearth j ∧
    (s.updCp a1 a2).slot j = s.slot j ∧ (s.updCp a1 a2).spy j = s.spy j ∧ (s.updCp a1 a2).capture j = s.capture j ∧
    (s.updCp a1 a2).group j = s.group j ∧ (s.updCp a1 a2).hk j = s.hk j ∧ (s.updCp a1 a2).chan j = s.chan j ∧
    (s.updCp a1 a2).cone j = s.cone j ∧ (s.updCp a1 a2).engine j = s.engine j ∧ (s.updCp a1 a2).cluster j = s.cluster j ∧
    (s.updCp a1 a2).link j = s.link j ∧ (s.updCp a1 a2).mbox j = s.mbox j ∧ (s.updCp a1 a2).fwdBox j = s.fwdBox j ∧
    (s.updCp a1 a2).wlane j = s.wlane j :=
  by repeat' constructor

@[simp] theorem updMbox_rest :
    (s.updMbox a1 a2).cells = s.cells ∧ (s.updMbox a1 a2).hearths = s.hearths ∧ (s.updMbox a1 a2).slots = s.slots ∧
    (s.updMbox a1 a2).spies = s.spies ∧ (s.updMbox a1 a2).captures = s.captures ∧ (s.updMbox a1 a2).groups = s.groups ∧
    (s.updMbox a1 a2).hks = s.hks ∧ (s.updMbox a1 a2).chans = s.chans ∧ (s.updMbox a1 a2).cones = s.cones ∧
    (s.updMbox a1 a2).engines = s.engines ∧ (s.updMbox a1 a2).clusters = s.clusters ∧ (s.updMbox a1 a2).links = s.links ∧
    (s.updMbox a1 a2).gbus = s.gbus ∧ (s.updMbox a1 a2).feedWord = s.feedWord ∧ (s.updMbox a1 a2).hblocks = s.hblocks ∧
    (s.updMbox a1 a2).frameShadow = s.frameShadow ∧ (s.updMbox a1 a2).frameTick = s.frameTick ∧ (s.updMbox a1 a2).gbusNew = s.gbusNew ∧
    (s.updMbox a1 a2).hkRecs = s.hkRecs ∧ (s.updMbox a1 a2).passes = s.passes ∧ (s.updMbox a1 a2).boot = s.boot ∧
    (s.updMbox a1 a2).books = s.books ∧ (s.updMbox a1 a2).time = s.time ∧ (s.updMbox a1 a2).log = s.log ∧ (s.updMbox a1 a2).coll = s.coll ∧
    (s.updMbox a1 a2).pair = s.pair ∧ (s.updMbox a1 a2).works = s.works ∧ (s.updMbox a1 a2).pmb = s.pmb ∧ (s.updMbox a1 a2).jtag = s.jtag ∧
    (s.updMbox a1 a2).out = s.out ∧ (s.updMbox a1 a2).free = s.free ∧ (s.updMbox a1 a2).pending = s.pending ∧
    (s.updMbox a1 a2).cell j = s.cell j ∧ (s.updMbox a1 a2).hearth j = s.hearth j ∧ (s.updMbox a1 a2).slot j = s.slot j ∧
    (s.updMbox a1 a2).spy j = s.spy j ∧ (s.updMbox a1 a2).capture j = s.capture j ∧ (s.updMbox a1 a2).group j = s.group j ∧
    (s.updMbox a1 a2).hk j = s.hk j ∧ (s.updMbox a1 a2).chan j = s.chan j ∧ (s.updMbox a1 a2).cone j = s.cone j ∧
    (s.updMbox a1 a2).engine j = s.engine j ∧ (s.updMbox a1 a2).cluster j = s.cluster j ∧ (s.updMbox a1 a2).link j = s.link j ∧
    (s.updMbox a1 a2).cp j = s.cp j ∧ (s.updMbox a1 a2).wlane j = s.wlane j :=
  by repeat' constructor

@[simp] theorem updFwdBox_rest :
    (s.updFwdBox a1 a2).cells = s.cells ∧ (s.updFwdBox a1 a2).hearths = s.hearths ∧ (s.updFwdBox a1 a2).slots = s.slots ∧
    (s.updFwdBox a1 a2).spies = s.spies ∧ (s.updFwdBox a1 a2).captures = s.captures ∧ (s.updFwdBox a1 a2).groups = s.groups ∧
    (s.updFwdBox a1 a2).hks = s.hks ∧ (s.updFwdBox a1 a2).chans = s.chans ∧ (s.updFwdBox a1 a2).cones = s.cones ∧
    (s.updFwdBox a1 a2).engines = s.engines ∧ (s.updFwdBox a1 a2).clusters = s.clusters ∧ (s.updFwdBox a1 a2).links = s.links ∧
    (s.updFwdBox a1 a2).gbus = s.gbus ∧ (s.updFwdBox a1 a2).feedWord = s.feedWord ∧ (s.updFwdBox a1 a2).hblocks = s.hblocks ∧
    (s.updFwdBox a1 a2).frameShadow = s.frameShadow ∧ (s.updFwdBox a1 a2).frameTick = s.frameTick ∧
    (s.updFwdBox a1 a2).gbusNew = s.gbusNew ∧ (s.updFwdBox a1 a2).hkRecs = s.hkRecs ∧ (s.updFwdBox a1 a2).passes = s.passes ∧
    (s.updFwdBox a1 a2).boot = s.boot ∧ (s.updFwdBox a1 a2).books = s.books ∧ (s.updFwdBox a1 a2).time = s.time ∧
    (s.updFwdBox a1 a2).log = s.log ∧ (s.updFwdBox a1 a2).coll = s.coll ∧ (s.updFwdBox a1 a2).pair = s.pair ∧
    (s.updFwdBox a1 a2).works = s.works ∧ (s.updFwdBox a1 a2).pmb = s.pmb ∧ (s.updFwdBox a1 a2).jtag = s.jtag ∧
    (s.updFwdBox a1 a2).out = s.out ∧ (s.updFwdBox a1 a2).free = s.free ∧ (s.updFwdBox a1 a2).pending = s.pending ∧
    (s.updFwdBox a1 a2).cell j = s.cell j ∧ (s.updFwdBox a1 a2).hearth j = s.hearth j ∧ (s.updFwdBox a1 a2).slot j = s.slot j ∧
    (s.updFwdBox a1 a2).spy j = s.spy j ∧ (s.updFwdBox a1 a2).capture j = s.capture j ∧ (s.updFwdBox a1 a2).group j = s.group j ∧
    (s.updFwdBox a1 a2).hk j = s.hk j ∧ (s.updFwdBox a1 a2).chan j = s.chan j ∧ (s.updFwdBox a1 a2).cone j = s.cone j ∧
    (s.updFwdBox a1 a2).engine j = s.engine j ∧ (s.updFwdBox a1 a2).cluster j = s.cluster j ∧ (s.updFwdBox a1 a2).link j = s.link j ∧
    (s.updFwdBox a1 a2).cp j = s.cp j ∧ (s.updFwdBox a1 a2).wlane j = s.wlane j :=
  by repeat' constructor

@[simp] theorem updWlane_rest :
    (s.updWlane a1 a2).cells = s.cells ∧ (s.updWlane a1 a2).hearths = s.hearths ∧ (s.updWlane a1 a2).slots = s.slots ∧
    (s.updWlane a1 a2).spies = s.spies ∧ (s.updWlane a1 a2).captures = s.captures ∧ (s.updWlane a1 a2).groups = s.groups ∧
    (s.updWlane a1 a2).hks = s.hks ∧ (s.updWlane a1 a2).chans = s.chans ∧ (s.updWlane a1 a2).cones = s.cones ∧
    (s.updWlane a1 a2).engines = s.engines ∧ (s.updWlane a1 a2).clusters = s.clusters ∧ (s.updWlane a1 a2).links = s.links ∧
    (s.updWlane a1 a2).gbus = s.gbus ∧ (s.updWlane a1 a2).feedWord = s.feedWord ∧ (s.updWlane a1 a2).hblocks = s.hblocks ∧
    (s.updWlane a1 a2).frameShadow = s.frameShadow ∧ (s.updWlane a1 a2).frameTick = s.frameTick ∧ (s.updWlane a1 a2).gbusNew = s.gbusNew ∧
    (s.updWlane a1 a2).hkRecs = s.hkRecs ∧ (s.updWlane a1 a2).passes = s.passes ∧ (s.updWlane a1 a2).boot = s.boot ∧
    (s.updWlane a1 a2).books = s.books ∧ (s.updWlane a1 a2).time = s.time ∧ (s.updWlane a1 a2).log = s.log ∧
    (s.updWlane a1 a2).coll = s.coll ∧ (s.updWlane a1 a2).pair = s.pair ∧ (s.updWlane a1 a2).host = s.host ∧
    (s.updWlane a1 a2).pmb = s.pmb ∧ (s.updWlane a1 a2).jtag = s.jtag ∧ (s.updWlane a1 a2).out = s.out ∧ (s.updWlane a1 a2).free = s.free ∧
    (s.updWlane a1 a2).pending = s.pending ∧ (s.updWlane a1 a2).cell j = s.cell j ∧ (s.updWlane a1 a2).hearth j = s.hearth j ∧
    (s.updWlane a1 a2).slot j = s.slot j ∧ (s.updWlane a1 a2).spy j = s.spy j ∧ (s.updWlane a1 a2).capture j = s.capture j ∧
    (s.updWlane a1 a2).group j = s.group j ∧ (s.updWlane a1 a2).hk j = s.hk j ∧ (s.updWlane a1 a2).chan j = s.chan j ∧
    (s.updWlane a1 a2).cone j = s.cone j ∧ (s.updWlane a1 a2).engine j = s.engine j ∧ (s.updWlane a1 a2).cluster j = s.cluster j ∧
    (s.updWlane a1 a2).link j = s.link j ∧ (s.updWlane a1 a2).cp j = s.cp j ∧ (s.updWlane a1 a2).mbox j = s.mbox j ∧
    (s.updWlane a1 a2).fwdBox j = s.fwdBox j :=
  by repeat' constructor

@[simp] theorem emit_rest :
    (s.emit a1).cells = s.cells ∧ (s.emit a1).hearths = s.hearths ∧ (s.emit a1).slots = s.slots ∧ (s.emit a1).spies = s.spies ∧
    (s.emit a1).captures = s.captures ∧ (s.emit a1).groups = s.groups ∧ (s.emit a1).hks = s.hks ∧ (s.emit a1).chans = s.chans ∧
    (s.emit a1).cones = s.cones ∧ (s.emit a1).engines = s.engines ∧ (s.emit a1).clusters = s.clusters ∧ (s.emit a1).links = s.links ∧
    (s.emit a1).gbus = s.gbus ∧ (s.emit a1).feedWord = s.feedWord ∧ (s.emit a1).hblocks = s.hblocks ∧
    (s.emit a1).frameShadow = s.frameShadow ∧ (s.emit a1).frameTick = s.frameTick ∧ (s.emit a1).gbusNew = s.gbusNew ∧
    (s.emit a1).hkRecs = s.hkRecs ∧ (s.emit a1).passes = s.passes ∧ (s.emit a1).boot = s.boot ∧ (s.emit a1).books = s.books ∧
    (s.emit a1).time = s.time ∧ (s.emit a1).log = s.log ∧ (s.emit a1).coll = s.coll ∧ (s.emit a1).pair = s.pair ∧
    (s.emit a1).works = s.works ∧ (s.emit a1).host = s.host ∧ (s.emit a1).pmb = s.pmb ∧ (s.emit a1).jtag = s.jtag ∧
    (s.emit a1).free = s.free ∧ (s.emit a1).pending = s.pending ∧ (s.emit a1).cell j = s.cell j ∧ (s.emit a1).hearth j = s.hearth j ∧
    (s.emit a1).slot j = s.slot j ∧ (s.emit a1).spy j = s.spy j ∧ (s.emit a1).capture j = s.capture j ∧ (s.emit a1).group j = s.group j ∧
    (s.emit a1).hk j = s.hk j ∧ (s.emit a1).chan j = s.chan j ∧ (s.emit a1).cone j = s.cone j ∧ (s.emit a1).engine j = s.engine j ∧
    (s.emit a1).cluster j = s.cluster j ∧ (s.emit a1).link j = s.link j ∧ (s.emit a1).cp j = s.cp j ∧ (s.emit a1).mbox j = s.mbox j ∧
    (s.emit a1).fwdBox j = s.fwdBox j ∧ (s.emit a1).wlane j = s.wlane j :=
  by repeat' constructor

@[simp] theorem updLink_rest :
    (s.updLink a1 a2).cells = s.cells ∧ (s.updLink a1 a2).hearths = s.hearths ∧ (s.updLink a1 a2).slots = s.slots ∧
    (s.updLink a1 a2).spies = s.spies ∧ (s.updLink a1 a2).captures = s.captures ∧ (s.updLink a1 a2).groups = s.groups ∧
    (s.updLink a1 a2).hks = s.hks ∧ (s.updLink a1 a2).chans = s.chans ∧ (s.updLink a1 a2).cones = s.cones ∧
    (s.updLink a1 a2).engines = s.engines ∧ (s.updLink a1 a2).clusters = s.clusters ∧ (s.updLink a1 a2).gbus = s.gbus ∧
    (s.updLink a1 a2).feedWord = s.feedWord ∧ (s.updLink a1 a2).hblocks = s.hblocks ∧ (s.updLink a1 a2).frameShadow = s.frameShadow ∧
    (s.updLink a1 a2).frameTick = s.frameTick ∧ (s.updLink a1 a2).gbusNew = s.gbusNew ∧ (s.updLink a1 a2).hkRecs = s.hkRecs ∧
    (s.updLink a1 a2).passes = s.passes ∧ (s.updLink a1 a2).boot = s.boot ∧ (s.updLink a1 a2).books = s.books ∧
    (s.updLink a1 a2).time = s.time ∧ (s.updLink a1 a2).log = s.log ∧ (s.updLink a1 a2).coll = s.coll ∧ (s.updLink a1 a2).pair = s.pair ∧
    (s.updLink a1 a2).works = s.works ∧ (s.updLink a1 a2).host = s.host ∧ (s.updLink a1 a2).pmb = s.pmb ∧ (s.updLink a1 a2).jtag = s.jtag ∧
    (s.updLink a1 a2).out = s.out ∧ (s.updLink a1 a2).free = s.free ∧ (s.updLink a1 a2).pending = s.pending ∧
    (s.updLink a1 a2).cell j = s.cell j ∧ (s.updLink a1 a2).hearth j = s.hearth j ∧ (s.updLink a1 a2).slot j = s.slot j ∧
    (s.updLink a1 a2).spy j = s.spy j ∧ (s.updLink a1 a2).capture j = s.capture j ∧ (s.updLink a1 a2).group j = s.group j ∧
    (s.updLink a1 a2).hk j = s.hk j ∧ (s.updLink a1 a2).chan j = s.chan j ∧ (s.updLink a1 a2).cone j = s.cone j ∧
    (s.updLink a1 a2).engine j = s.engine j ∧ (s.updLink a1 a2).cluster j = s.cluster j ∧ (s.updLink a1 a2).cp j = s.cp j ∧
    (s.updLink a1 a2).mbox j = s.mbox j ∧ (s.updLink a1 a2).fwdBox j = s.fwdBox j ∧ (s.updLink a1 a2).wlane j = s.wlane j :=
  by repeat' constructor

@[simp] theorem setBoot_boot {x} : (s.setBoot x).boot = x := rfl

@[simp] theorem setBooks_books {x} : (s.setBooks x).books = x := rfl

@[simp] theorem setTime_time {x} : (s.setTime x).time = x := rfl

@[simp] theorem setLog_log {x} : (s.setLog x).log = x := rfl

@[simp] theorem setColl_coll {x} : (s.setColl x).coll = x := rfl

@[simp] theorem setPair_pair {x} : (s.setPair x).pair = x := rfl

@[simp] theorem setWorks_works {x} : (s.setWorks x).works = x := rfl

@[simp] theorem setHost_host {x} : (s.setHost x).host = x := rfl

@[simp] theorem setPmb_pmb {x} : (s.setPmb x).pmb = x := rfl

@[simp] theorem setJtag_jtag {x} : (s.setJtag x).jtag = x := rfl

@[simp] theorem setFree_free {x} : (s.setFree x).free = x := rfl

@[simp] theorem putGbus_gbus {x} : (s.putGbus k x).gbus = tabSet (0, false) s.gbus k x := rfl

@[simp] theorem putFeedWord_feedWord {x} : (s.putFeedWord k x).feedWord = tabSet 0 s.feedWord k x := rfl

@[simp] theorem putHblock_hblocks {x} : (s.putHblock k x).hblocks = tabSet 0 s.hblocks k x := rfl

@[simp] theorem putFrameShadow_frameShadow {x} : (s.putFrameShadow k x).frameShadow = tabSet false s.frameShadow k x := rfl

@[simp] theorem putFrameTick_frameTick {x} : (s.putFrameTick k x).frameTick = tabSet 0 s.frameTick k x := rfl

@[simp] theorem putGbusNew_gbusNew {x} : (s.putGbusNew k x).gbusNew = tabSet false s.gbusNew k x := rfl

@[simp] theorem putHkRec_hkRecs {x} : (s.putHkRec k x).hkRecs = tabSet (0, 0, 0) s.hkRecs k x := rfl

@[simp] theorem putPasses_passes {x} : (s.putPasses k x).passes = tabSet 0 s.passes k x := rfl

/-- The entry updated changes and every other stays. -/
@[simp] theorem updCell_cell {f} : (s.updCell k f).cell j = if k = j then f (s.cell k) else s.cell j := by simp [State.updCell, State.cell]

/-- The entry updated changes and every other stays. -/
@[simp] theorem updHearth_hearth {f} : (s.updHearth k f).hearth j = if k = j then f (s.hearth k) else s.hearth j := by simp [State.updHearth, State.hearth]

/-- The entry updated changes and every other stays. -/
@[simp] theorem updSlot_slot {f} : (s.updSlot k f).slot j = if k = j then f (s.slot k) else s.slot j := by simp [State.updSlot, State.slot]

/-- The entry updated changes and every other stays. -/
@[simp] theorem updSpy_spy {f} : (s.updSpy k f).spy j = if k = j then f (s.spy k) else s.spy j := by simp [State.updSpy, State.spy]

/-- The entry updated changes and every other stays. -/
@[simp] theorem updCapture_capture {f} : (s.updCapture k f).capture j = if k = j then f (s.capture k) else s.capture j := by simp [State.updCapture, State.capture]

/-- The entry updated changes and every other stays. -/
@[simp] theorem updGroup_group {f} : (s.updGroup k f).group j = if k = j then f (s.group k) else s.group j := by simp [State.updGroup, State.group]

/-- The entry updated changes and every other stays. -/
@[simp] theorem updHk_hk {f} : (s.updHk k f).hk j = if k = j then f (s.hk k) else s.hk j := by simp [State.updHk, State.hk]

/-- The entry updated changes and every other stays. -/
@[simp] theorem updChan_chan {f} : (s.updChan k f).chan j = if k = j then f (s.chan k) else s.chan j := by simp [State.updChan, State.chan]

/-- The entry updated changes and every other stays. -/
@[simp] theorem updCone_cone {f} : (s.updCone k f).cone j = if k = j then f (s.cone k) else s.cone j := by simp [State.updCone, State.cone]

/-- The entry updated changes and every other stays. -/
@[simp] theorem updEngine_engine {f} : (s.updEngine k f).engine j = if k = j then f (s.engine k) else s.engine j := by simp [State.updEngine, State.engine]

/-- The entry updated changes and every other stays. -/
@[simp] theorem updCluster_cluster {f} : (s.updCluster k f).cluster j = if k = j then f (s.cluster k) else s.cluster j := by simp [State.updCluster, State.cluster]

/-- The entry updated changes and every other stays. -/
@[simp] theorem updCp_cp {f} : (s.updCp k f).cp j = if k = j then f (s.cp k) else s.cp j := by simp [State.updCp, State.cp]

/-- The entry updated changes and every other stays. -/
@[simp] theorem updMbox_mbox {f} : (s.updMbox k f).mbox j = if k = j then f (s.mbox k) else s.mbox j := by simp [State.updMbox, State.mbox]

/-- The entry updated changes and every other stays. -/
@[simp] theorem updFwdBox_fwdBox {f} : (s.updFwdBox k f).fwdBox j = if k = j then f (s.fwdBox k) else s.fwdBox j := by simp [State.updFwdBox, State.fwdBox]

/-- The entry updated changes and every other stays. -/
@[simp] theorem updWlane_wlane {f} : (s.updWlane k f).wlane j = if k = j then f (s.wlane k) else s.wlane j := by simp [State.updWlane, State.wlane]

/-- The entry updated changes and every other stays. -/
@[simp] theorem updLink_link {f} : (s.updLink k f).link j = if k = j then f (s.link k) else s.link j := by simp [State.updLink, State.link]

@[simp] theorem emit_out {x} : (s.emit x).out = s.out ++ [x] := rfl

@[simp] theorem setFlash_flash {x} : (s.setFlash x).boot.flash = x := rfl

@[simp] theorem setFuses_fuses {x} : (s.setFuses x).boot.fuses = x := rfl

@[simp] theorem freshFree_fst : s.freshFree.1 = Config.freeValue s.free := rfl

@[simp] theorem freshFree_snd : s.freshFree.2 = s.setFree (s.free + 1) := rfl

end Sys2Proof.Machine
end

