-- ==== Sys2Proof/Laws/Each.lean ====
section
/-! SUPPORT. Free values, and operations on each of a list. -/
namespace Sys2Proof.Machine
open Sys2Proof

variable {s t : State}


/-- A fresh free value is the constant at the counter, and the counter advances. -/
theorem freshFree_eq (s : State) : s.freshFree = (Config.freeValue s.free, s.setFree (s.free + 1)) := rfl

/-- An operation on each of a list leaves alone what each leaves alone. -/
theorem forEach_kept {α β : Type} (r : State → β) (l : List α) (f : State → α → State) (s : State) (h : ∀ u a, a ∈ l → r (f u a) = r u) :
    r (forEach l f s) = r s := by
  unfold forEach
  induction l generalizing s with
  | nil => rfl
  | cons a l ih =>
    rw [List.foldl_cons, ih _ fun u b m => h u b (List.mem_cons_of_mem _ m)]
    exact h s a (List.mem_cons_self ..)

/-- A fact that one element's turn brings about and that the other turns keep holds at the end. -/
theorem forEach_hits {α : Type} (p : State → Prop) (q : State → Prop) (l : List α) (f : State → α → State) (s : State) (a : α) (m : a ∈ l)
    (start : q s) (keep : ∀ u b, b ∈ l → q u → q (f u b)) (hit : ∀ u, q u → p (f u a)) (hold : ∀ u b, b ∈ l → q u → p u → p (f u b)) :
    p (forEach l f s) := by
  unfold forEach
  induction l generalizing s with
  | nil => cases m
  | cons b l ih =>
    rw [List.foldl_cons]
    have held : ∀ (l' : List α) (u : State), (∀ x ∈ l', x ∈ b :: l) → q u → p u → p (l'.foldl f u) := by
      intro l'
      induction l' with
      | nil => intro u _ _ hp; exact hp
      | cons x l' ih' =>
        intro u hx hq hp
        have hm := hx x (List.mem_cons_self ..)
        exact ih' _ (fun y hy => hx y (List.mem_cons_of_mem _ hy)) (keep u x hm hq) (hold u x hm hq hp)
    rcases List.mem_cons.1 m with e | m'
    · subst e
      exact held l _ (fun x hx => List.mem_cons_of_mem _ hx) (keep s a (List.mem_cons_self ..) start) (hit s start)
    · exact ih _ m' (keep s b (List.mem_cons_self ..) start)
        (fun u x hx => keep u x (List.mem_cons_of_mem _ hx)) (fun u x hx => hold u x (List.mem_cons_of_mem _ hx))

end Sys2Proof.Machine
end

