-- ==== Sys2Proof/Laws/PerInstr.lean ====
section
/-! SUPPORT. Facts of every command as syntax, one lemma for each constructor. -/
namespace Sys2Proof.Laws.Queue
open Sys2Proof Sys2Proof.Machine

/-- The queue of waiting commands is no part of the state that the command's effect may change. -/
def Statement (i : Instr) : Prop := Part.pending ∉ touches i

/-- A list that is seen not to contain the queue. -/
theorem of_contains {i : Instr} (h : (touches i).contains .pending = false) : Statement i := fun m => by
  have c := List.elem_eq_true_of_mem m
  rw [List.contains] at h
  rw [h] at c
  cases c

theorem powerOn (strap : Fin 8) : Statement (.powerOn strap) := of_contains rfl
theorem rstNLow (ns : Nat) : Statement (.rstNLow ns) := of_contains rfl
theorem bar0ResetWrite (port : HostPort) (value : BitVec 32) : Statement (.bar0ResetWrite port value) := of_contains rfl
theorem alwaysOnPower (h : Hearth) : Statement (.alwaysOnPower h) := of_contains rfl
theorem logicRailsAbsent (h : Hearth) : Statement (.logicRailsAbsent h) := of_contains rfl
theorem logicRailsPresent (h : Hearth) : Statement (.logicRailsPresent h) := of_contains rfl
theorem bisqueEnd (io : BisqueIo) : Statement (.bisqueEnd io) := of_contains rfl
theorem imageStart : Statement (.imageStart) := of_contains rfl
theorem glazeTimerExpiry : Statement (.glazeTimerExpiry) := of_contains rfl
theorem glazeBookCommit (io : GlazeIo) : Statement (.glazeBookCommit io) := of_contains rfl
theorem draw : Statement (.draw) := of_contains rfl
theorem fuseRecheck (fuses : BitVec 2560) : Statement (.fuseRecheck fuses) := of_contains rfl
theorem watchdogExpired : Statement (.watchdogExpired) := of_contains rfl
theorem crownRailFault : Statement (.crownRailFault) := of_contains rfl
theorem crownOverTemperature : Statement (.crownOverTemperature) := of_contains rfl
theorem errorDetected (code : BitVec 16) (src : BitVec 16) (atNs : BitVec 64) (detail : BitVec 96) (clears : Bool) : Statement (.errorDetected code src atNs detail clears) := of_contains rfl
theorem fatalError (code : FatalCode) (detail : BitVec 96) : Statement (.fatalError code detail) := of_contains rfl
theorem crashSectorCopy : Statement (.crashSectorCopy) := of_contains rfl
theorem hearthFaultDetected (h : Hearth) (failed : BitVec 64) (detail : BitVec 32) : Statement (.hearthFaultDetected h failed detail) := of_contains rfl
theorem reactionShadowEnd (idx : Nat) : Statement (.reactionShadowEnd idx) := of_contains rfl
theorem faultEventWindowEnd : Statement (.faultEventWindowEnd) := of_contains rfl
theorem laneFailed (lane : LaneId) (why : LaneFault) : Statement (.laneFailed lane why) := of_contains rfl
theorem laneFailoverComplete (h : Hearth) : Statement (.laneFailoverComplete h) := of_contains rfl
theorem laneResetAttempt (lane : LaneId) : Statement (.laneResetAttempt lane) := of_contains rfl
theorem laneRetrained (lane : LaneId) : Statement (.laneRetrained lane) := of_contains rfl
theorem saggarHoldEntry (h : Hearth) : Statement (.saggarHoldEntry h) := of_contains rfl
theorem hearthTick (h : Hearth) (io : TickInput) : Statement (.hearthTick h io) := of_contains rfl
theorem timeIslandTick : Statement (.timeIslandTick) := of_contains rfl
theorem clusterTick (n : ClusterNo) : Statement (.clusterTick n) := of_contains rfl
theorem parameterBankSwap (n : ClusterNo) : Statement (.parameterBankSwap n) := of_contains rfl
theorem sampleFrame (h : Hearth16) (tick : BitVec 12) (blocks : List (BitVec 64)) (late : Bool) : Statement (.sampleFrame h tick blocks late) := of_contains rfl
theorem stateFrame (h : Hearth16) (entries : List (BitVec 16)) (hstate : BitVec 64) : Statement (.stateFrame h entries hstate) := of_contains rfl
theorem eventFrame (h : Hearth16) (records : List EventRec) : Statement (.eventFrame h records) := of_contains rfl
theorem gapHoldTimeout (src : BitVec 16) : Statement (.gapHoldTimeout src) := of_contains rfl
theorem tickFrame (h : Hearth) (port : Port) (lane : Fin 2) (tai : BitVec 64) (tick : BitVec 64) : Statement (.tickFrame h port lane tai tick) := of_contains rfl
theorem ackFrame (side : LinkEnd) (h : Hearth16) (port : Port) (seq : BitVec 32) : Statement (.ackFrame side h port seq) := of_contains rfl
theorem idleFrame (side : LinkEnd) (h : Hearth16) (port : Port) : Statement (.idleFrame side h port) := of_contains rfl
theorem frameCrcFail (side : LinkEnd) (h : Hearth16) (port : Port) (lane : Fin 2) : Statement (.frameCrcFail side h port lane) := of_contains rfl
theorem reservedFrameType (side : LinkEnd) (h : Hearth16) (port : Port) (lane : Fin 2) (code : Fin 6) : Statement (.reservedFrameType side h port lane code) := of_contains rfl
theorem cmdKeep (h : Hearth) (port : Port) (k : Local) (lo : BitVec 12) (tick : BitVec 12) (cont : Bool) : Statement (.cmdKeep h port k lo tick cont) := of_contains rfl
theorem cmdReady (h : Hearth) (port : Port) (k : Local) (lo : BitVec 12) (tick : BitVec 12) (cont : Bool) : Statement (.cmdReady h port k lo tick cont) := of_contains rfl
theorem cmdRamp (h : Hearth) (port : Port) (k : Local) (lo : BitVec 12) (tick : BitVec 12) (cont : Bool) : Statement (.cmdRamp h port k lo tick cont) := of_contains rfl
theorem cmdFull (h : Hearth) (port : Port) (k : Local) (lo : BitVec 12) (tick : BitVec 12) (cont : Bool) : Statement (.cmdFull h port k lo tick cont) := of_contains rfl
theorem cmdGood (h : Hearth) (port : Port) (k : Local) (lo : BitVec 12) (tick : BitVec 12) (cont : Bool) : Statement (.cmdGood h port k lo tick cont) := of_contains rfl
theorem cmdCool (h : Hearth) (port : Port) (k : Local) (lo : BitVec 12) (tick : BitVec 12) (cont : Bool) : Statement (.cmdCool h port k lo tick cont) := of_contains rfl
theorem cmdLock (h : Hearth) (port : Port) (k : Local) (lo : BitVec 12) (tick : BitVec 12) (cont : Bool) : Statement (.cmdLock h port k lo tick cont) := of_contains rfl
theorem cmdOff (h : Hearth) (port : Port) (k : Local) (lo : BitVec 12) (tick : BitVec 12) (cont : Bool) : Statement (.cmdOff h port k lo tick cont) := of_contains rfl
theorem cmdOn (h : Hearth) (port : Port) (k : Local) (lo : BitVec 12) (tick : BitVec 12) (cont : Bool) : Statement (.cmdOn h port k lo tick cont) := of_contains rfl
theorem cmdReset (h : Hearth) (port : Port) (k : Local) (lo : BitVec 12) (tick : BitVec 12) (cont : Bool) : Statement (.cmdReset h port k lo tick cont) := of_contains rfl
theorem cmdTrip (h : Hearth) (port : Port) (k : Local) (lo : BitVec 12) (tick : BitVec 12) (cont : Bool) : Statement (.cmdTrip h port k lo tick cont) := of_contains rfl
theorem cmdPgDrop (h : Hearth) (port : Port) (k : Local) (lo : BitVec 12) (tick : BitVec 12) (cont : Bool) : Statement (.cmdPgDrop h port k lo tick cont) := of_contains rfl
theorem cmdPgRaise (h : Hearth) (port : Port) (k : Local) (lo : BitVec 12) (tick : BitVec 12) (cont : Bool) : Statement (.cmdPgRaise h port k lo tick cont) := of_contains rfl
theorem cmdReserved (h : Hearth) (port : Port) (k : Local) (code : Fin 3) (lo : BitVec 12) (tick : BitVec 12) (cont : Bool) : Statement (.cmdReserved h port k code lo tick cont) := of_contains rfl
theorem paramEnvelopeWrite (h : Hearth) (port : Port) (k : Local) (env : EnvImage) : Statement (.paramEnvelopeWrite h port k env) := of_contains rfl
theorem paramIgRegWrite (h : Hearth) (port : Port) (k : Local) (ig : BitVec 8) : Statement (.paramIgRegWrite h port k ig) := of_contains rfl
theorem paramEventRequest (h : Hearth) (port : Port) (req : EventReq) : Statement (.paramEventRequest h port req) := of_contains rfl
theorem paramHearthReset (h : Hearth) (port : Port) : Statement (.paramHearthReset h port) := of_contains rfl
theorem paramConfigWrite (h : Hearth) (port : Port) (item : ConfigItem) : Statement (.paramConfigWrite h port item) := of_contains rfl
theorem claimFrame (h : Hearth) (port : Port) (num : BitVec 32) (claimant : BitVec 32) : Statement (.claimFrame h port num claimant) := of_contains rfl
theorem claimAcceptance (h : Hearth) : Statement (.claimAcceptance h) := of_contains rfl
theorem releaseFrame (h : Hearth) (port : Port) (num : BitVec 32) (lane : Fin 2) : Statement (.releaseFrame h port num lane) := of_contains rfl
theorem seatChange (n : SlotNo) (pres : Bool) (seat : Bool) (off : Fin 250) : Statement (.seatChange n pres seat off) := of_contains rfl
theorem debounceComplete (n : SlotNo) (off : Fin 250) : Statement (.debounceComplete n off) := of_contains rfl
theorem slotRemoval (n : SlotNo) : Statement (.slotRemoval n) := of_contains rfl
theorem consentEvaluation (c : Chan) : Statement (.consentEvaluation c) := of_contains rfl
theorem startDelayElapsed (c : Chan) : Statement (.startDelayElapsed c) := of_contains rfl
theorem fastTrip (c : OwnChan) (off : Fin 250) : Statement (.fastTrip c off) := of_contains rfl
theorem gateOffConfirmation (c : OwnChan) (off : Fin 250) : Statement (.gateOffConfirmation c off) := of_contains rfl
theorem gateDischargeFailure (c : OwnChan) : Statement (.gateDischargeFailure c) := of_contains rfl
theorem passTransistorShort (c : OwnChan) : Statement (.passTransistorShort c) := of_contains rfl
theorem rampDeadline (c : Chan) : Statement (.rampDeadline c) := of_contains rfl
theorem progressWindowEnd (c : Chan) : Statement (.progressWindowEnd c) := of_contains rfl
theorem soakDurationEnd (c : Chan) : Statement (.soakDurationEnd c) := of_contains rfl
theorem pgDwellComplete (c : Chan) : Statement (.pgDwellComplete c) := of_contains rfl
theorem gateHoldCheck (c : Chan) : Statement (.gateHoldCheck c) := of_contains rfl
theorem breakerTrip (c : Chan) : Statement (.breakerTrip c) := of_contains rfl
theorem fallbackBreakerTrip (c : OwnChan) : Statement (.fallbackBreakerTrip c) := of_contains rfl
theorem backoffEnd (c : Chan) : Statement (.backoffEnd c) := of_contains rfl
theorem decayInterval (c : Chan) : Statement (.decayInterval c) := of_contains rfl
theorem stateSkew (c : Chan) : Statement (.stateSkew c) := of_contains rfl
theorem uvTimeReached (c : Chan) : Statement (.uvTimeReached c) := of_contains rfl
theorem twinReturn (t : Fin 512) : Statement (.twinReturn t) := of_contains rfl
theorem twinOpen (c : Chan) : Statement (.twinOpen c) := of_contains rfl
theorem coneUpdate (c : Chan) : Statement (.coneUpdate c) := of_contains rfl
theorem prebendWarnTime (c : Chan) : Statement (.prebendWarnTime c) := of_contains rfl
theorem soaPersistence (c : Chan) : Statement (.soaPersistence c) := of_contains rfl
theorem tsnsTimeout (c : Chan) : Statement (.tsnsTimeout c) := of_contains rfl
theorem tsnsFaultEnd (c : Chan) : Statement (.tsnsFaultEnd c) := of_contains rfl
theorem coneDivergence (c : Chan) : Statement (.coneDivergence c) := of_contains rfl
theorem coneWait (c : Chan) : Statement (.coneWait c) := of_contains rfl
theorem checkUnitFailure (e : EngineNo) : Statement (.checkUnitFailure e) := of_contains rfl
theorem engineFailed (e : EngineNo) (cause : EngineFailCause) : Statement (.engineFailed e cause) := of_contains rfl
theorem engineTakeover (c : Chan) : Statement (.engineTakeover c) := of_contains rfl
theorem unhostedRehost (c : Chan) : Statement (.unhostedRehost c) := of_contains rfl
theorem recomputationComplete (c : Chan) (verdict : Recompute) : Statement (.recomputationComplete c verdict) := of_contains rfl
theorem clusterClockLoss (n : ClusterNo) : Statement (.clusterClockLoss n) := of_contains rfl
theorem packingEdge : Statement (.packingEdge) := of_contains rfl
theorem unpackingEdge : Statement (.unpackingEdge) := of_contains rfl
theorem opNop (e : EngineNo) : Statement (.opNop e) := of_contains rfl
theorem opEnd (e : EngineNo) : Statement (.opEnd e) := of_contains rfl
theorem opLdi (e : EngineNo) (rd : Reg) (imm : BitVec 16) : Statement (.opLdi e rd imm) := of_contains rfl
theorem opLui (e : EngineNo) (rd : Reg) (imm : BitVec 8) : Statement (.opLui e rd imm) := of_contains rfl
theorem opMov (e : EngineNo) (rd : Reg) (ra : Reg) : Statement (.opMov e rd ra) := of_contains rfl
theorem opInu (e : EngineNo) (rd : Reg) (port : Fin 128) : Statement (.opInu e rd port) := of_contains rfl
theorem opIns (e : EngineNo) (rd : Reg) (port : Fin 128) : Statement (.opIns e rd port) := of_contains rfl
theorem opOut (e : EngineNo) (port : Fin 128) (rs : Reg) : Statement (.opOut e port rs) := of_contains rfl
theorem opLdp (e : EngineNo) (rd : Reg) (ra : Reg) (addr : Fin 512) : Statement (.opLdp e rd ra addr) := of_contains rfl
theorem opLds (e : EngineNo) (rd : Reg) (ra : Reg) (addr : Fin 512) : Statement (.opLds e rd ra addr) := of_contains rfl
theorem opSts (e : EngineNo) (rs : Reg) (ra : Reg) (addr : Fin 512) : Statement (.opSts e rs ra addr) := of_contains rfl
theorem opLdm (e : EngineNo) (rd : Reg) (addr : Fin 512) : Statement (.opLdm e rd addr) := of_contains rfl
theorem opAdd (e : EngineNo) (rd : Reg) (ra : Reg) (rb : Reg) : Statement (.opAdd e rd ra rb) := of_contains rfl
theorem opSub (e : EngineNo) (rd : Reg) (ra : Reg) (rb : Reg) : Statement (.opSub e rd ra rb) := of_contains rfl
theorem opAdds (e : EngineNo) (rd : Reg) (ra : Reg) (rb : Reg) : Statement (.opAdds e rd ra rb) := of_contains rfl
theorem opSubs (e : EngineNo) (rd : Reg) (ra : Reg) (rb : Reg) : Statement (.opSubs e rd ra rb) := of_contains rfl
theorem opAddi (e : EngineNo) (rd : Reg) (ra : Reg) (imm : BitVec 16) : Statement (.opAddi e rd ra imm) := of_contains rfl
theorem opMin (e : EngineNo) (rd : Reg) (ra : Reg) (rb : Reg) : Statement (.opMin e rd ra rb) := of_contains rfl
theorem opMax (e : EngineNo) (rd : Reg) (ra : Reg) (rb : Reg) : Statement (.opMax e rd ra rb) := of_contains rfl
theorem opAbs (e : EngineNo) (rd : Reg) (ra : Reg) : Statement (.opAbs e rd ra) := of_contains rfl
theorem opMul (e : EngineNo) (rd : Reg) (ra : Reg) (rb : Reg) (shift : Fin 32) (rnd : Rnd) : Statement (.opMul e rd ra rb shift rnd) := of_contains rfl
theorem opDiv (e : EngineNo) (rd : Reg) (ra : Reg) (rb : Reg) (shift : Fin 32) (rnd : Rnd) : Statement (.opDiv e rd ra rb shift rnd) := of_contains rfl
theorem opShl (e : EngineNo) (rd : Reg) (ra : Reg) (sh : Fin 24) : Statement (.opShl e rd ra sh) := of_contains rfl
theorem opShr (e : EngineNo) (rd : Reg) (ra : Reg) (sh : Fin 32) : Statement (.opShr e rd ra sh) := of_contains rfl
theorem opShru (e : EngineNo) (rd : Reg) (ra : Reg) (sh : Fin 32) : Statement (.opShru e rd ra sh) := of_contains rfl
theorem opAnd (e : EngineNo) (rd : Reg) (ra : Reg) (rb : Reg) : Statement (.opAnd e rd ra rb) := of_contains rfl
theorem opOr (e : EngineNo) (rd : Reg) (ra : Reg) (rb : Reg) : Statement (.opOr e rd ra rb) := of_contains rfl
theorem opXor (e : EngineNo) (rd : Reg) (ra : Reg) (rb : Reg) : Statement (.opXor e rd ra rb) := of_contains rfl
theorem opAndi (e : EngineNo) (rd : Reg) (ra : Reg) (imm : BitVec 16) : Statement (.opAndi e rd ra imm) := of_contains rfl
theorem opCmp (e : EngineNo) (ra : Reg) (rb : Reg) : Statement (.opCmp e ra rb) := of_contains rfl
theorem opCmpi (e : EngineNo) (ra : Reg) (imm : BitVec 16) : Statement (.opCmpi e ra imm) := of_contains rfl
theorem opSel (e : EngineNo) (rd : Reg) (ra : Reg) (rb : Reg) (cond : Cond) : Statement (.opSel e rd ra rb cond) := of_contains rfl
theorem opAddw (e : EngineNo) (rd : Pair) (ra : Pair) (rb : Reg) : Statement (.opAddw e rd ra rb) := of_contains rfl
theorem opSubw (e : EngineNo) (rd : Pair) (ra : Pair) (rb : Pair) : Statement (.opSubw e rd ra rb) := of_contains rfl
theorem opSubwz (e : EngineNo) (rd : Pair) (ra : Pair) (rb : Pair) : Statement (.opSubwz e rd ra rb) := of_contains rfl
theorem opAccf (e : EngineNo) (rd : Pair) (ra : Pair) (rb : Reg) : Statement (.opAccf e rd ra rb) := of_contains rfl
theorem opNarw (e : EngineNo) (rd : Reg) (ra : Pair) (rb : Reg) : Statement (.opNarw e rd ra rb) := of_contains rfl
theorem opCmpw (e : EngineNo) (ra : Pair) (rb : Pair) : Statement (.opCmpw e ra rb) := of_contains rfl
theorem opPwl (e : EngineNo) (rd : Reg) (ra : Reg) (rb : Reg) (base : BitVec 8) (mode : PwlMode) : Statement (.opPwl e rd ra rb base mode) := of_contains rfl
theorem opPacc (e : EngineNo) (ra : Reg) (rb : Reg) : Statement (.opPacc e ra rb) := of_contains rfl
theorem opPole (e : EngineNo) (i : Fin 3) : Statement (.opPole e i) := of_contains rfl
theorem opCheck (e : EngineNo) : Statement (.opCheck e) := of_contains rfl
theorem opPeerchk (e : EngineNo) : Statement (.opPeerchk e) := of_contains rfl
theorem opMism (e : EngineNo) (code : MismCode) : Statement (.opMism e code) := of_contains rfl
theorem opBr (e : EngineNo) (cond : Cond) (target : Fin 8192) : Statement (.opBr e cond target) := of_contains rfl
theorem opBbs (e : EngineNo) (ra : Reg) (bit : Fin 24) (target : Fin 8192) : Statement (.opBbs e ra bit target) := of_contains rfl
theorem opBbc (e : EngineNo) (ra : Reg) (bit : Fin 24) (target : Fin 8192) : Statement (.opBbc e ra bit target) := of_contains rfl
theorem opRloop (e : EngineNo) (target : Fin 8192) : Statement (.opRloop e target) := of_contains rfl
theorem reservedOpcode (e : EngineNo) (word : BitVec 32) : Statement (.reservedOpcode e word) := of_contains rfl
theorem hkTimerTrigger (h : Hearth) : Statement (.hkTimerTrigger h) := of_contains rfl
theorem hkStartEventTrigger (h : Hearth) : Statement (.hkStartEventTrigger h) := of_contains rfl
theorem hkUrgentTrigger (h : Hearth) (entry : Fin 32) (past : Bool) : Statement (.hkUrgentTrigger h entry past) := of_contains rfl
theorem hkConversionComplete (h : Hearth) (conv : HkConv) : Statement (.hkConversionComplete h conv) := of_contains rfl
theorem hkPassEnd (h : Hearth) : Statement (.hkPassEnd h) := of_contains rfl
theorem spyholeCrossing (h : Hearth) (spy : SpyNo) (zone : Zone) (off : Fin 250) : Statement (.spyholeCrossing h spy zone off) := of_contains rfl
theorem spyholeFilterComplete (h : Hearth) (spy : SpyNo) (off : Fin 250) : Statement (.spyholeFilterComplete h spy off) := of_contains rfl
theorem spyholeStartCompare (h : Hearth) (spy : SpyNo) (zone : Zone) (off : Fin 250) : Statement (.spyholeStartCompare h spy zone off) := of_contains rfl
theorem sampledTick (h : Hearth) (zones : List Zone) (above : BitVec 64) (off : Fin 250) : Statement (.sampledTick h zones above off) := of_contains rfl
theorem spyThrottleWindowEnd (h : Hearth) : Statement (.spyThrottleWindowEnd h) := of_contains rfl
theorem confirmExpiry (h : Hearth) : Statement (.confirmExpiry h) := of_contains rfl
theorem reverseCurrent (h : Hearth) : Statement (.reverseCurrent h) := of_contains rfl
theorem pathDrop (h : Hearth) : Statement (.pathDrop h) := of_contains rfl
theorem warnLeadEnd (h : Hearth) : Statement (.warnLeadEnd h) := of_contains rfl
theorem selectorBreak (h : Hearth) (off : Fin 250) : Statement (.selectorBreak h off) := of_contains rfl
theorem selectorDischargeTimeout (h : Hearth) : Statement (.selectorDischargeTimeout h) := of_contains rfl
theorem gapExpiry (h : Hearth) (off : Fin 250) : Statement (.gapExpiry h off) := of_contains rfl
theorem feedFirstMake (h : Hearth) (off : Fin 250) : Statement (.feedFirstMake h off) := of_contains rfl
theorem feedMakeFromNone (h : Hearth) (off : Fin 250) : Statement (.feedMakeFromNone h off) := of_contains rfl
theorem rechargeEnd (h : Hearth) (off : Fin 250) : Statement (.rechargeEnd h off) := of_contains rfl
theorem shadowEnd (h : Hearth) (off : Fin 250) : Statement (.shadowEnd h off) := of_contains rfl
theorem rechargeOvertime (h : Hearth) : Statement (.rechargeOvertime h) := of_contains rfl
theorem warningRelease (h : Hearth) (ident : BitVec 16) : Statement (.warningRelease h ident) := of_contains rfl
theorem returnDwell (h : Hearth) : Statement (.returnDwell h) := of_contains rfl
theorem offStateShort (h : Hearth) (feed : Feed) (high : Bool) (volts : BitVec 32) : Statement (.offStateShort h feed high volts) := of_contains rfl
theorem ppsEdge (atNs : BitVec 64) : Statement (.ppsEdge atNs) := of_contains rfl
theorem ppsAbsent : Statement (.ppsAbsent) := of_contains rfl
theorem f10mLoss : Statement (.f10mLoss) := of_contains rfl
theorem timeStep : Statement (.timeStep) := of_contains rfl
theorem auditSeal : Statement (.auditSeal) := of_contains rfl
theorem sealSigned : Statement (.sealSigned) := of_contains rfl
theorem heartbeatEmit : Statement (.heartbeatEmit) := of_contains rfl
theorem heartbeatFrame (count : BitVec 32) (dstate : BitVec 8) (pstate : BitVec 8) (own : BitVec 8) (partner : BitVec 8) : Statement (.heartbeatFrame count dstate pstate own partner) := of_contains rfl
theorem heartbeatPulse (widthNs : Nat) : Statement (.heartbeatPulse widthNs) := of_contains rfl
theorem heartbeatPathSilent (path : HbPath) : Statement (.heartbeatPathSilent path) := of_contains rfl
theorem partnerSilent : Statement (.partnerSilent) := of_contains rfl
theorem adoptionClaimTimeout (j : Hearth) : Statement (.adoptionClaimTimeout j) := of_contains rfl
theorem checkpointTick (j : Hearth) : Statement (.checkpointTick j) := of_contains rfl
theorem checkpointFrame (j : Hearth) (part : Nat) (count : Nat) (bytes : List Byte) : Statement (.checkpointFrame j part count bytes) := of_contains rfl
theorem pairHello (hello : PairHello) : Statement (.pairHello hello) := of_contains rfl
theorem bookFrame (offset : BitVec 32) (bytes : List Byte) : Statement (.bookFrame offset bytes) := of_contains rfl
theorem noticeBanked : Statement (.noticeBanked) := of_contains rfl
theorem noticeAwake : Statement (.noticeAwake) := of_contains rfl
theorem noticeReady (j : Hearth) (claim : BitVec 32) : Statement (.noticeReady j claim) := of_contains rfl
theorem noticeReleased (j : Hearth) (claim : BitVec 32) : Statement (.noticeReleased j claim) := of_contains rfl
theorem noticeAdoptRequest (j : Hearth) : Statement (.noticeAdoptRequest j) := of_contains rfl
theorem pairResetFrame (ident : BitVec 64) : Statement (.pairResetFrame ident) := of_contains rfl
theorem returnDelayExpiry : Statement (.returnDelayExpiry) := of_contains rfl
theorem resetDelayExpiry : Statement (.resetDelayExpiry) := of_contains rfl
theorem ownHearthSaggarNotice (h : Hearth) : Statement (.ownHearthSaggarNotice h) := of_contains rfl
theorem timesync (lane : WLane) (ts : TimeSync) (arrive : BitVec 64) : Statement (.timesync lane ts arrive) := of_contains rfl
theorem timesyncSend (lane : WLane) (depart : BitVec 64) : Statement (.timesyncSend lane depart) := of_contains rfl
theorem worksHello (lane : WLane) (hello : WorksHello) : Statement (.worksHello lane hello) := of_contains rfl
theorem worksBlockLock (lane : WLane) : Statement (.worksBlockLock lane) := of_contains rfl
theorem worksLinkFailed (lane : WLane) : Statement (.worksLinkFailed lane) := of_contains rfl
theorem worksLaneRetrain (lane : WLane) : Statement (.worksLaneRetrain lane) := of_contains rfl
theorem worksLaneUpTimeout (lane : WLane) : Statement (.worksLaneUpTimeout lane) := of_contains rfl
theorem route (lane : WLane) (lseq : BitVec 16) (dist : List (BitVec 5)) : Statement (.route lane lseq dist) := of_contains rfl
theorem routePeriodic : Statement (.routePeriodic) := of_contains rfl
theorem addr (lane : WLane) (lseq : BitVec 16) (addr : BitVec 16) (ident : BitVec 64) (count : BitVec 32) (hops : Fin 32) : Statement (.addr lane lseq addr ident count hops) := of_contains rfl
theorem addrFlood : Statement (.addrFlood) := of_contains rfl
theorem zunakAck (lane : WLane) (lseq : BitVec 16) : Statement (.zunakAck lane lseq) := of_contains rfl
theorem retransmitTimeout (lane : WLane) : Statement (.retransmitTimeout lane) := of_contains rfl
theorem zunakFrameDiscard (lane : WLane) (why : DiscardCause) : Statement (.zunakFrameDiscard lane why) := of_contains rfl
theorem allocReq (lane : WLane) (hdr : WorksHdr) (entry : LedgerEntry) : Statement (.allocReq lane hdr entry) := of_contains rfl
theorem grant (lane : WLane) (hdr : WorksHdr) (entry : LedgerEntry) : Statement (.grant lane hdr entry) := of_contains rfl
theorem refuse (lane : WLane) (hdr : WorksHdr) (entry : LedgerEntry) : Statement (.refuse lane hdr entry) := of_contains rfl
theorem ledgerRelease (lane : WLane) (hdr : WorksHdr) (entry : LedgerEntry) : Statement (.ledgerRelease lane hdr entry) := of_contains rfl
theorem announce (lane : WLane) (hdr : WorksHdr) (entry : LedgerEntry) : Statement (.announce lane hdr entry) := of_contains rfl
theorem confirm (lane : WLane) (hdr : WorksHdr) (entry : LedgerEntry) : Statement (.confirm lane hdr entry) := of_contains rfl
theorem retract (lane : WLane) (hdr : WorksHdr) (entry : LedgerEntry) : Statement (.retract lane hdr entry) := of_contains rfl
theorem move (lane : WLane) (hdr : WorksHdr) (entry : LedgerEntry) : Statement (.move lane hdr entry) := of_contains rfl
theorem standing (lane : WLane) (hdr : WorksHdr) (entry : LedgerEntry) : Statement (.standing lane hdr entry) := of_contains rfl
theorem freed (lane : WLane) (hdr : WorksHdr) (entry : LedgerEntry) : Statement (.freed lane hdr entry) := of_contains rfl
theorem ledgerAnnounceSend (h : Hearth) : Statement (.ledgerAnnounceSend h) := of_contains rfl
theorem ledgerHoldLapse (feedId : BitVec 16) (origin : BitVec 11) (hearth : BitVec 4) (ident : BitVec 16) : Statement (.ledgerHoldLapse feedId origin hearth ident) := of_contains rfl
theorem allocNoAnswer (tag : BitVec 16) : Statement (.allocNoAnswer tag) := of_contains rfl
theorem standingSend : Statement (.standingSend) := of_contains rfl
theorem keeperUnreachable (feedId : BitVec 16) : Statement (.keeperUnreachable feedId) := of_contains rfl
theorem commandFrame (lane : WLane) (hdr : WorksHdr) (tag : BitVec 32) (bytes : List Byte) : Statement (.commandFrame lane hdr tag bytes) := of_contains rfl
theorem forwardTagWait (origin : BitVec 11) : Statement (.forwardTagWait origin) := of_contains rfl
theorem responseFrame (lane : WLane) (hdr : WorksHdr) (tag : BitVec 32) (status : BitVec 16) (bytes : List Byte) : Statement (.responseFrame lane hdr tag status bytes) := of_contains rfl
theorem worksSendTimeout (tag : BitVec 32) : Statement (.worksSendTimeout tag) := of_contains rfl
theorem worksEventFrame (lane : WLane) (hdr : WorksHdr) (first : BitVec 64) (records : List EventRec) : Statement (.worksEventFrame lane hdr first records) := of_contains rfl
theorem subscriptionUnreachable (addr : BitVec 11) : Statement (.subscriptionUnreachable addr) := of_contains rfl
theorem hostLost (cause : Fin 3) : Statement (.hostLost cause) := of_contains rfl
theorem hostReturn : Statement (.hostReturn) := of_contains rfl
theorem mboxLockWrite (port : HostPort) (m : MboxNo) (value : BitVec 2) : Statement (.mboxLockWrite port m value) := of_contains rfl
theorem mboxDoorbell (port : HostPort) (m : MboxNo) (length : BitVec 16) (seq : BitVec 16) (request : List Byte) : Statement (.mboxDoorbell port m length seq request) := of_contains rfl
theorem commandStart (src : CmdSrc) : Statement (.commandStart src) := of_contains rfl
theorem commandDone (m : MboxNo) : Statement (.commandDone m) := of_contains rfl
theorem wakeCauseRead (port : HostPort) : Statement (.wakeCauseRead port) := of_contains rfl
theorem timeNowRead (port : HostPort) : Statement (.timeNowRead port) := of_contains rfl
theorem ringEnableWrite (port : HostPort) (value : BitVec 32) : Statement (.ringEnableWrite port value) := of_contains rfl
theorem consWrite (port : HostPort) (value : BitVec 32) : Statement (.consWrite port value) := of_contains rfl
theorem evtwEntryRead (port : HostPort) (last : Bool) : Statement (.evtwEntryRead port last) := of_contains rfl
theorem registerWrite (port : HostPort) (offset : BitVec 18) (value : BitVec 32) : Statement (.registerWrite port offset value) := of_contains rfl
theorem ringDelivery : Statement (.ringDelivery) := of_contains rfl
theorem coalesceTimer : Statement (.coalesceTimer) := of_contains rfl
theorem spiRead (addr : BitVec 24) (len : Nat) : Statement (.spiRead addr len) := of_contains rfl
theorem spiWrite (addr : BitVec 24) (bytes : List Byte) : Statement (.spiWrite addr bytes) := of_contains rfl
theorem spiQuadRead (addr : BitVec 24) (len : Nat) : Statement (.spiQuadRead addr len) := of_contains rfl
theorem spiQuadWrite (addr : BitVec 24) (bytes : List Byte) : Statement (.spiQuadWrite addr bytes) := of_contains rfl
theorem spiReadStatus : Statement (.spiReadStatus) := of_contains rfl
theorem spiUnknownInstruction (code : Byte) : Statement (.spiUnknownInstruction code) := of_contains rfl
theorem page (acc : PmbAccess) : Statement (.page acc) := of_contains rfl
theorem clearFaults (acc : PmbAccess) : Statement (.clearFaults acc) := of_contains rfl
theorem capability (acc : PmbAccess) : Statement (.capability acc) := of_contains rfl
theorem voutMode (acc : PmbAccess) : Statement (.voutMode acc) := of_contains rfl
theorem statusByte (acc : PmbAccess) : Statement (.statusByte acc) := of_contains rfl
theorem statusWord (acc : PmbAccess) : Statement (.statusWord acc) := of_contains rfl
theorem statusInput (acc : PmbAccess) : Statement (.statusInput acc) := of_contains rfl
theorem statusTemperature (acc : PmbAccess) : Statement (.statusTemperature acc) := of_contains rfl
theorem statusCml (acc : PmbAccess) : Statement (.statusCml acc) := of_contains rfl
theorem statusMfrSpecific (acc : PmbAccess) : Statement (.statusMfrSpecific acc) := of_contains rfl
theorem readVin (acc : PmbAccess) : Statement (.readVin acc) := of_contains rfl
theorem readIin (acc : PmbAccess) : Statement (.readIin acc) := of_contains rfl
theorem readVout (acc : PmbAccess) : Statement (.readVout acc) := of_contains rfl
theorem readTemperature1 (acc : PmbAccess) : Statement (.readTemperature1 acc) := of_contains rfl
theorem readTemperature2 (acc : PmbAccess) : Statement (.readTemperature2 acc) := of_contains rfl
theorem readPin (acc : PmbAccess) : Statement (.readPin acc) := of_contains rfl
theorem pmbusRevision (acc : PmbAccess) : Statement (.pmbusRevision acc) := of_contains rfl
theorem mfrId (acc : PmbAccess) : Statement (.mfrId acc) := of_contains rfl
theorem mfrModel (acc : PmbAccess) : Statement (.mfrModel acc) := of_contains rfl
theorem mfrRevision (acc : PmbAccess) : Statement (.mfrRevision acc) := of_contains rfl
theorem mfrSerial (acc : PmbAccess) : Statement (.mfrSerial acc) := of_contains rfl
theorem mfrChannelState (acc : PmbAccess) : Statement (.mfrChannelState acc) := of_contains rfl
theorem mfrFsw (acc : PmbAccess) : Statement (.mfrFsw acc) := of_contains rfl
theorem mfrBootStatus (acc : PmbAccess) : Statement (.mfrBootStatus acc) := of_contains rfl
theorem mfrFeedStatus (acc : PmbAccess) : Statement (.mfrFeedStatus acc) := of_contains rfl
theorem pmbusUnsupportedCommand (code : Byte) (acc : PmbAccess) : Statement (.pmbusUnsupportedCommand code acc) := of_contains rfl
theorem smbusAlertResponse : Statement (.smbusAlertResponse) := of_contains rfl
theorem pmbusReadUpdate (means : PmbMeans) : Statement (.pmbusReadUpdate means) := of_contains rfl
theorem idcode : Statement (.idcode) := of_contains rfl
theorem samplePreload (pins : BitVec 256) : Statement (.samplePreload pins) := of_contains rfl
theorem extest : Statement (.extest) := of_contains rfl
theorem clamp : Statement (.clamp) := of_contains rfl
theorem highz : Statement (.highz) := of_contains rfl
theorem bypass (tdi : Bool) : Statement (.bypass tdi) := of_contains rfl
theorem aelheipDebug (tdi : Bool) : Statement (.aelheipDebug tdi) := of_contains rfl
theorem testLogicReset : Statement (.testLogicReset) := of_contains rfl
theorem bankedReached : Statement (.bankedReached) := of_contains rfl
theorem wakeCause (cause : Fin 7) (h : Hearth) : Statement (.wakeCause cause h) := of_contains rfl
theorem wakeComplete : Statement (.wakeComplete) := of_contains rfl
theorem devSummary (src : CmdSrc) (part : BitVec 8) : Statement (.devSummary src part) := of_contains rfl
theorem devFence (src : CmdSrc) : Statement (.devFence src) := of_contains rfl
theorem devReset (src : CmdSrc) (key : BitVec 32) (force : Bool) : Statement (.devReset src key force) := of_contains rfl
theorem devBank (src : CmdSrc) : Statement (.devBank src) := of_contains rfl
theorem chanOn (src : CmdSrc) (c : Chan) : Statement (.chanOn src c) := of_contains rfl
theorem chanOff (src : CmdSrc) (c : Chan) : Statement (.chanOff src c) := of_contains rfl
theorem chanReset (src : CmdSrc) (c : Chan) : Statement (.chanReset src c) := of_contains rfl
theorem chanStatus (src : CmdSrc) (c : Chan) : Statement (.chanStatus src c) := of_contains rfl
theorem slotStatus (src : CmdSrc) (slot : BitVec 8) : Statement (.slotStatus src slot) := of_contains rfl
theorem feedStatus (src : CmdSrc) (g : Hearth16) : Statement (.feedStatus src g) := of_contains rfl
theorem feedSelect (src : CmdSrc) (g : Hearth16) (target : FeedSel) : Statement (.feedSelect src g target) := of_contains rfl
theorem feedClear (src : CmdSrc) (g : Hearth16) (feed : Feed) : Statement (.feedClear src g feed) := of_contains rfl
theorem feedWarn (src : CmdSrc) (g : Hearth16) (low : Bool) : Statement (.feedWarn src g low) := of_contains rfl
theorem twinStatus (src : CmdSrc) (pair : Fin 512) : Statement (.twinStatus src pair) := of_contains rfl
theorem schedWrite (src : CmdSrc) (offset : BitVec 32) (data : List Byte) (ok : Bool) : Statement (.schedWrite src offset data ok) := of_contains rfl
theorem schedCheck (src : CmdSrc) (id : BitVec 8) (offset : BitVec 32) (length : BitVec 32) (digest : BitVec 384) : Statement (.schedCheck src id offset length digest) := of_contains rfl
theorem schedLoad (src : CmdSrc) (id : BitVec 8) (offset : BitVec 32) (length : BitVec 32) (digest : BitVec 384) : Statement (.schedLoad src id offset length digest) := of_contains rfl
theorem schedStatus (src : CmdSrc) (id : BitVec 8) : Statement (.schedStatus src id) := of_contains rfl
theorem coneStatus (src : CmdSrc) (c : Chan) : Statement (.coneStatus src c) := of_contains rfl
theorem hkcStatus (src : CmdSrc) (h : Hearth16) : Statement (.hkcStatus src h) := of_contains rfl
theorem hkcSet (src : CmdSrc) (h : Hearth16) (entry : Fin 32) (word : BitVec 64) : Statement (.hkcSet src h entry word) := of_contains rfl
theorem hkcRead (src : CmdSrc) (h : Hearth16) (entry : Fin 32) : Statement (.hkcRead src h entry) := of_contains rfl
theorem hkcTrigger (src : CmdSrc) (h : Hearth16) : Statement (.hkcTrigger src h) := of_contains rfl
theorem spySet (src : CmdSrc) (h : Hearth16) (spy : SpyNo) (word : BitVec 64) : Statement (.spySet src h spy word) := of_contains rfl
theorem spyCapture (src : CmdSrc) (h : Hearth16) (slot : Fin 16) : Statement (.spyCapture src h slot) := of_contains rfl
theorem spyStatus (src : CmdSrc) (h : Hearth16) (spy : SpyNo) : Statement (.spyStatus src h spy) := of_contains rfl
theorem faultStatus (src : CmdSrc) : Statement (.faultStatus src) := of_contains rfl
theorem faultClear (src : CmdSrc) (mask : BitVec 64) : Statement (.faultClear src mask) := of_contains rfl
theorem faultRead (src : CmdSrc) (first : BitVec 16) (count : Fin 32) (filter : Fin 3) : Statement (.faultRead src first count filter) := of_contains rfl
theorem faultAck (src : CmdSrc) (shard : BitVec 16) : Statement (.faultAck src shard) := of_contains rfl
theorem faultReset (src : CmdSrc) (source : BitVec 16) (force : Bool) : Statement (.faultReset src source force) := of_contains rfl
theorem faultCrash (src : CmdSrc) (mark : Bool) : Statement (.faultCrash src mark) := of_contains rfl
theorem faultCount (src : CmdSrc) (source : BitVec 16) : Statement (.faultCount src source) := of_contains rfl
theorem timeSet (src : CmdSrc) (tai : BitVec 64) (unc : BitVec 32) : Statement (.timeSet src tai unc) := of_contains rfl
theorem timeStatus (src : CmdSrc) : Statement (.timeStatus src) := of_contains rfl
theorem evtResume (src : CmdSrc) (fin : Bool) (dflt : Fin 3) (entries : List ResumeEntry) : Statement (.evtResume src fin dflt entries) := of_contains rfl
theorem evtAudit (src : CmdSrc) (sealId : BitVec 32) : Statement (.evtAudit src sealId) := of_contains rfl
theorem evtStatus (src : CmdSrc) : Statement (.evtStatus src) := of_contains rfl
theorem partStatus (src : CmdSrc) : Statement (.partStatus src) := of_contains rfl
theorem partReturn (src : CmdSrc) : Statement (.partReturn src) := of_contains rfl
theorem partTransfer (src : CmdSrc) (mask : BitVec 8) : Statement (.partTransfer src mask) := of_contains rfl
theorem partReset (src : CmdSrc) : Statement (.partReset src) := of_contains rfl
theorem worksStatus (src : CmdSrc) : Statement (.worksStatus src) := of_contains rfl
theorem worksSend (src : CmdSrc) (dest : BitVec 16) (inner : List Byte) : Statement (.worksSend src dest inner) := of_contains rfl
theorem worksSubscribe (src : CmdSrc) (origin : BitVec 16) (fromIdx : BitVec 64) : Statement (.worksSubscribe src origin fromIdx) := of_contains rfl
theorem worksUnsubscribe (src : CmdSrc) (origin : BitVec 16) : Statement (.worksUnsubscribe src origin) := of_contains rfl
theorem worksLedger (src : CmdSrc) (feedId : BitVec 16) : Statement (.worksLedger src feedId) := of_contains rfl
theorem bookStage (src : CmdSrc) (offset : BitVec 32) (fresh : Bool) (data : List Byte) : Statement (.bookStage src offset fresh data) := of_contains rfl
theorem bookCommit (src : CmdSrc) (length : BitVec 32) (flashOk : Bool) : Statement (.bookCommit src length flashOk) := of_contains rfl
theorem bookRead (src : CmdSrc) (copy : Fin 2) (offset : BitVec 32) (length : BitVec 16) : Statement (.bookRead src copy offset length) := of_contains rfl
theorem bookStatus (src : CmdSrc) : Statement (.bookStatus src) := of_contains rfl
theorem fwWrite (src : CmdSrc) (offset : BitVec 32) (data : List Byte) (ok : Bool) : Statement (.fwWrite src offset data ok) := of_contains rfl
theorem fwVerify (src : CmdSrc) : Statement (.fwVerify src) := of_contains rfl
theorem fwActivate (src : CmdSrc) (reset : Bool) (force : Bool) : Statement (.fwActivate src reset force) := of_contains rfl
theorem fwRatchet (src : CmdSrc) (force : Bool) : Statement (.fwRatchet src force) := of_contains rfl
theorem fwStatus (src : CmdSrc) : Statement (.fwStatus src) := of_contains rfl
theorem attestIdentity (src : CmdSrc) : Statement (.attestIdentity src) := of_contains rfl
theorem attestReport (src : CmdSrc) (nonce : BitVec 384) : Statement (.attestReport src nonce) := of_contains rfl
theorem attestExtend (src : CmdSrc) (value : BitVec 384) : Statement (.attestExtend src value) := of_contains rfl
theorem attestLog (src : CmdSrc) (first : BitVec 16) (count : Fin 41) : Statement (.attestLog src first count) := of_contains rfl
theorem errorCleared (code : BitVec 16) (src : BitVec 16) (atNs : BitVec 64) : Statement (.errorCleared code src atNs) := of_contains rfl
theorem f10mReturn : Statement (.f10mReturn) := of_contains rfl
theorem ringDmaError : Statement (.ringDmaError) := of_contains rfl
theorem pciePowerStateChange (d3 : Bool) : Statement (.pciePowerStateChange d3) := of_contains rfl
theorem rstNRelease : Statement (.rstNRelease) := of_contains rfl
theorem worksHelloSend (lane : WLane) : Statement (.worksHelloSend lane) := of_contains rfl
theorem worksIdleSend (lane : WLane) : Statement (.worksIdleSend lane) := of_contains rfl
theorem slotLedPhase (n : SlotNo) : Statement (.slotLedPhase n) := of_contains rfl
theorem devResetDelayExpiry : Statement (.devResetDelayExpiry) := of_contains rfl

end Sys2Proof.Laws.Queue
end

