-- ==== Sys2Proof/WellFormed.lean ====
section
/-! DEFINITION. Well-formed commands: the bounds that a command's operands keep where their types do not keep them. -/
namespace Sys2Proof

/-- A write to a configuration register: the NTC table has 17 entries (06 R165). -/
def itemWf : ConfigItem → Bool
  | .hkNtc ws => decide (ws.length = 17)
  | .spyWord .. | .feedWords .. | .hkControl .. | .hkEntry .. | .capture .. | .captureRead .. | .slotWord .. | .cellWords .. | .release
  | .feedSelect .. | .feedClear .. | .warnOut .. => true

/-- A PMBus transaction writes at most the 32 bytes of a block (16 R432). -/
def accWf (a : PmbAccess) : Bool := match a.write with | some bs => decide (bs.length ≤ 32) | none => true

/-- A command is well formed: conversions of a tick (06 R154), blocks of a SAMPLE frame with block 12 exactly when HK is set (06 R160), 64 STATE
entries (01 R20), event records of one frame (01 R20; 14 R365), the eight points of an envelope (09 R239), eight trim arrays of 64 bytes
(15 R391), 130 spyholes (07 R181), checkpoint and Book parts (13 R335), the distances of a ROUTE (14 R365), forwarded commands (14 R365),
requests (16 R421), and the ranges of the bodies of 17 R459 to R469. -/
def Instr.wf : Instr → Bool
  | .bisqueEnd io => decide (io.trims.length = 512)
  | .hearthTick _ io => decide (io.cur.length = 32) && decide (io.volt.length = 8)
  | .sampleFrame _ _ bs _ => decide (bs.length = if (bs.getD 0 0).getLsbD 6 then 13 else 12)
  | .stateFrame _ es _ => decide (es.length = 64)
  | .eventFrame _ rs => decide (1 ≤ rs.length) && decide (rs.length ≤ 63)
  | .paramEnvelopeWrite _ _ _ env => decide (env.points.length = 8)
  | .paramConfigWrite _ _ item => itemWf item
  | .sampledTick _ zs _ _ => decide (zs.length = 130)
  | .checkpointFrame _ part count bs => decide (part < count) && decide (count ≤ 255) && decide (bs.length ≤ 2032)
  | .bookFrame _ bs => decide (1 ≤ bs.length) && decide (bs.length ≤ 2036)
  | .route _ _ ds => decide (ds.length = 2048)
  | .commandFrame _ _ _ bs => decide (bs.length ≤ 2036)
  | .responseFrame _ _ _ _ bs => decide (bs.length ≤ 2034)
  | .worksEventFrame _ _ _ rs => decide (rs.length ≤ 60)
  | .mboxDoorbell _ _ _ _ bs => decide (8 ≤ bs.length) && decide (bs.length ≤ 1984)
  | .spiRead _ n => decide (1 ≤ n)
  | .spiWrite _ bs => decide (1 ≤ bs.length)
  | .spiQuadRead _ n => decide (1 ≤ n)
  | .spiQuadWrite _ bs => decide (1 ≤ bs.length)
  | .page acc => accWf acc
  | .clearFaults acc => accWf acc
  | .capability acc => accWf acc
  | .voutMode acc => accWf acc
  | .statusByte acc => accWf acc
  | .statusWord acc => accWf acc
  | .statusInput acc => accWf acc
  | .statusTemperature acc => accWf acc
  | .statusCml acc => accWf acc
  | .statusMfrSpecific acc => accWf acc
  | .readVin acc => accWf acc
  | .readIin acc => accWf acc
  | .readVout acc => accWf acc
  | .readTemperature1 acc => accWf acc
  | .readTemperature2 acc => accWf acc
  | .readPin acc => accWf acc
  | .pmbusRevision acc => accWf acc
  | .mfrId acc => accWf acc
  | .mfrModel acc => accWf acc
  | .mfrRevision acc => accWf acc
  | .mfrSerial acc => accWf acc
  | .mfrChannelState acc => accWf acc
  | .mfrFsw acc => accWf acc
  | .mfrBootStatus acc => accWf acc
  | .mfrFeedStatus acc => accWf acc
  | .pmbusUnsupportedCommand _ acc => accWf acc
  | .pmbusReadUpdate m => decide (m.groups.length = 8)
  | .schedWrite _ _ d _ => decide (d.length ≤ 1972)
  | .faultRead _ _ n _ => decide (1 ≤ n.val)
  | .evtResume _ _ _ es => decide (es.length ≤ 244)
  | .worksSend _ _ inner => decide (8 ≤ inner.length) && decide (inner.length ≤ 1972)
  | .bookStage _ _ _ d => decide (d.length ≤ 1968)
  | .fwWrite _ _ d _ => decide (d.length ≤ 1972)
  | .attestLog _ _ n => decide (1 ≤ n.val) && decide (n.val ≤ 40)
  | .powerOn .. => true
  | .rstNLow .. => true
  | .bar0ResetWrite .. => true
  | .alwaysOnPower .. => true
  | .logicRailsAbsent .. => true
  | .logicRailsPresent .. => true
  | .imageStart .. => true
  | .glazeTimerExpiry .. => true
  | .glazeBookCommit .. => true
  | .draw .. => true
  | .fuseRecheck .. => true
  | .watchdogExpired .. => true
  | .crownRailFault .. => true
  | .crownOverTemperature .. => true
  | .errorDetected .. => true
  | .fatalError .. => true
  | .crashSectorCopy .. => true
  | .hearthFaultDetected .. => true
  | .reactionShadowEnd .. => true
  | .faultEventWindowEnd .. => true
  | .laneFailed .. => true
  | .laneFailoverComplete .. => true
  | .laneResetAttempt .. => true
  | .laneRetrained .. => true
  | .saggarHoldEntry .. => true
  | .timeIslandTick .. => true
  | .clusterTick .. => true
  | .parameterBankSwap .. => true
  | .gapHoldTimeout .. => true
  | .tickFrame .. => true
  | .ackFrame .. => true
  | .idleFrame .. => true
  | .frameCrcFail .. => true
  | .reservedFrameType .. => true
  | .cmdKeep .. => true
  | .cmdReady .. => true
  | .cmdRamp .. => true
  | .cmdFull .. => true
  | .cmdGood .. => true
  | .cmdCool .. => true
  | .cmdLock .. => true
  | .cmdOff .. => true
  | .cmdOn .. => true
  | .cmdReset .. => true
  | .cmdTrip .. => true
  | .cmdPgDrop .. => true
  | .cmdPgRaise .. => true
  | .cmdReserved .. => true
  | .paramIgRegWrite .. => true
  | .paramEventRequest .. => true
  | .paramHearthReset .. => true
  | .claimFrame .. => true
  | .claimAcceptance .. => true
  | .releaseFrame .. => true
  | .seatChange .. => true
  | .debounceComplete .. => true
  | .slotRemoval .. => true
  | .consentEvaluation .. => true
  | .startDelayElapsed .. => true
  | .fastTrip .. => true
  | .gateOffConfirmation .. => true
  | .gateDischargeFailure .. => true
  | .passTransistorShort .. => true
  | .rampDeadline .. => true
  | .progressWindowEnd .. => true
  | .soakDurationEnd .. => true
  | .pgDwellComplete .. => true
  | .gateHoldCheck .. => true
  | .breakerTrip .. => true
  | .fallbackBreakerTrip .. => true
  | .backoffEnd .. => true
  | .decayInterval .. => true
  | .stateSkew .. => true
  | .uvTimeReached .. => true
  | .twinReturn .. => true
  | .twinOpen .. => true
  | .coneUpdate .. => true
  | .prebendWarnTime .. => true
  | .soaPersistence .. => true
  | .tsnsTimeout .. => true
  | .tsnsFaultEnd .. => true
  | .coneDivergence .. => true
  | .coneWait .. => true
  | .checkUnitFailure .. => true
  | .engineFailed .. => true
  | .engineTakeover .. => true
  | .unhostedRehost .. => true
  | .recomputationComplete .. => true
  | .clusterClockLoss .. => true
  | .packingEdge .. => true
  | .unpackingEdge .. => true
  | .opNop .. => true
  | .opEnd .. => true
  | .opLdi .. => true
  | .opLui .. => true
  | .opMov .. => true
  | .opInu .. => true
  | .opIns .. => true
  | .opOut .. => true
  | .opLdp .. => true
  | .opLds .. => true
  | .opSts .. => true
  | .opLdm .. => true
  | .opAdd .. => true
  | .opSub .. => true
  | .opAdds .. => true
  | .opSubs .. => true
  | .opAddi .. => true
  | .opMin .. => true
  | .opMax .. => true
  | .opAbs .. => true
  | .opMul .. => true
  | .opDiv .. => true
  | .opShl .. => true
  | .opShr .. => true
  | .opShru .. => true
  | .opAnd .. => true
  | .opOr .. => true
  | .opXor .. => true
  | .opAndi .. => true
  | .opCmp .. => true
  | .opCmpi .. => true
  | .opSel .. => true
  | .opAddw .. => true
  | .opSubw .. => true
  | .opSubwz .. => true
  | .opAccf .. => true
  | .opNarw .. => true
  | .opCmpw .. => true
  | .opPwl .. => true
  | .opPacc .. => true
  | .opPole .. => true
  | .opCheck .. => true
  | .opPeerchk .. => true
  | .opMism .. => true
  | .opBr .. => true
  | .opBbs .. => true
  | .opBbc .. => true
  | .opRloop .. => true
  | .reservedOpcode .. => true
  | .hkTimerTrigger .. => true
  | .hkStartEventTrigger .. => true
  | .hkUrgentTrigger .. => true
  | .hkConversionComplete .. => true
  | .hkPassEnd .. => true
  | .spyholeCrossing .. => true
  | .spyholeFilterComplete .. => true
  | .spyholeStartCompare .. => true
  | .spyThrottleWindowEnd .. => true
  | .confirmExpiry .. => true
  | .reverseCurrent .. => true
  | .pathDrop .. => true
  | .warnLeadEnd .. => true
  | .selectorBreak .. => true
  | .selectorDischargeTimeout .. => true
  | .gapExpiry .. => true
  | .feedFirstMake .. => true
  | .feedMakeFromNone .. => true
  | .rechargeEnd .. => true
  | .shadowEnd .. => true
  | .rechargeOvertime .. => true
  | .warningRelease .. => true
  | .returnDwell .. => true
  | .offStateShort .. => true
  | .ppsEdge .. => true
  | .ppsAbsent .. => true
  | .f10mLoss .. => true
  | .timeStep .. => true
  | .auditSeal .. => true
  | .sealSigned .. => true
  | .heartbeatEmit .. => true
  | .heartbeatFrame .. => true
  | .heartbeatPulse .. => true
  | .heartbeatPathSilent .. => true
  | .partnerSilent .. => true
  | .adoptionClaimTimeout .. => true
  | .checkpointTick .. => true
  | .pairHello .. => true
  | .noticeBanked .. => true
  | .noticeAwake .. => true
  | .noticeReady .. => true
  | .noticeReleased .. => true
  | .noticeAdoptRequest .. => true
  | .pairResetFrame .. => true
  | .returnDelayExpiry .. => true
  | .resetDelayExpiry .. => true
  | .ownHearthSaggarNotice .. => true
  | .timesync .. => true
  | .timesyncSend .. => true
  | .worksHello .. => true
  | .worksBlockLock .. => true
  | .worksLinkFailed .. => true
  | .worksLaneRetrain .. => true
  | .worksLaneUpTimeout .. => true
  | .routePeriodic .. => true
  | .addr .. => true
  | .addrFlood .. => true
  | .zunakAck .. => true
  | .retransmitTimeout .. => true
  | .zunakFrameDiscard .. => true
  | .allocReq .. => true
  | .grant .. => true
  | .refuse .. => true
  | .ledgerRelease .. => true
  | .announce .. => true
  | .confirm .. => true
  | .retract .. => true
  | .move .. => true
  | .standing .. => true
  | .freed .. => true
  | .ledgerAnnounceSend .. => true
  | .ledgerHoldLapse .. => true
  | .allocNoAnswer .. => true
  | .standingSend .. => true
  | .keeperUnreachable .. => true
  | .forwardTagWait .. => true
  | .worksSendTimeout .. => true
  | .subscriptionUnreachable .. => true
  | .hostLost .. => true
  | .hostReturn .. => true
  | .mboxLockWrite .. => true
  | .commandStart .. => true
  | .commandDone .. => true
  | .wakeCauseRead .. => true
  | .timeNowRead .. => true
  | .ringEnableWrite .. => true
  | .consWrite .. => true
  | .evtwEntryRead .. => true
  | .registerWrite .. => true
  | .ringDelivery .. => true
  | .coalesceTimer .. => true
  | .spiReadStatus .. => true
  | .spiUnknownInstruction .. => true
  | .smbusAlertResponse .. => true
  | .idcode .. => true
  | .samplePreload .. => true
  | .extest .. => true
  | .clamp .. => true
  | .highz .. => true
  | .bypass .. => true
  | .aelheipDebug .. => true
  | .testLogicReset .. => true
  | .bankedReached .. => true
  | .wakeCause .. => true
  | .wakeComplete .. => true
  | .devSummary .. => true
  | .devFence .. => true
  | .devReset .. => true
  | .devBank .. => true
  | .chanOn .. => true
  | .chanOff .. => true
  | .chanReset .. => true
  | .chanStatus .. => true
  | .slotStatus .. => true
  | .feedStatus .. => true
  | .feedSelect .. => true
  | .feedClear .. => true
  | .feedWarn .. => true
  | .twinStatus .. => true
  | .schedCheck .. => true
  | .schedLoad .. => true
  | .schedStatus .. => true
  | .coneStatus .. => true
  | .hkcStatus .. => true
  | .hkcSet .. => true
  | .hkcRead .. => true
  | .hkcTrigger .. => true
  | .spySet .. => true
  | .spyCapture .. => true
  | .spyStatus .. => true
  | .faultStatus .. => true
  | .faultClear .. => true
  | .faultAck .. => true
  | .faultReset .. => true
  | .faultCrash .. => true
  | .faultCount .. => true
  | .timeSet .. => true
  | .timeStatus .. => true
  | .evtAudit .. => true
  | .evtStatus .. => true
  | .partStatus .. => true
  | .partReturn .. => true
  | .partTransfer .. => true
  | .partReset .. => true
  | .worksStatus .. => true
  | .worksSubscribe .. => true
  | .worksUnsubscribe .. => true
  | .worksLedger .. => true
  | .bookCommit .. => true
  | .bookRead .. => true
  | .bookStatus .. => true
  | .fwVerify .. => true
  | .fwActivate .. => true
  | .fwRatchet .. => true
  | .fwStatus .. => true
  | .attestIdentity .. => true
  | .attestReport .. => true
  | .attestExtend .. => true
  | .errorCleared .. => true
  | .f10mReturn .. => true
  | .ringDmaError .. => true
  | .pciePowerStateChange .. => true
  | .rstNRelease .. => true
  | .worksHelloSend .. => true
  | .worksIdleSend .. => true
  | .slotLedPhase .. => true
  | .devResetDelayExpiry .. => true

end Sys2Proof
end

