-- ==== Sys2Proof/Tests/Slice0.lean ====
section
/-! SUPPORT. Tests: ill-formed commands that WellFormed refuses, single steps against the spec's numbers, and for every statement of Certificates/Slice0
concrete states that meet the hypotheses of its clauses. -/
namespace Sys2Proof.Tests
open Sys2Proof Sys2Proof.Machine
set_option Elab.async false

/-! Small states. -/

/-- A device with one engine. -/
def eng (E : Engine) : State := { State.reset with engines := [(0, E)] }

/-- An engine whose g1, g2 and g3 hold these words. -/
def regs3 (a b c : W24) : Engine := { regs := [(1, a), (2, b), (3, c)] }

/-- A hearth with power that this device holds. -/
def up : HearthSt := { alwaysOn := true, logic := true, held := true, saggar := false, claim := 2 }

/-- A device whose hearth 0 is held, its feed group conducts, and its cell 0 is this one. -/
def one (C : Cell) (H : HearthSt := up) : State :=
  { State.reset with cells := [(0, C)], hearths := [(0, H)], groups := [(0, { phase := .steady, sel := some .a })] }

theorem listens_one (C : Cell) : Listens (one C) 0 .loc := ⟨rfl, rfl, rfl, rfl, rfl, rfl⟩

/-- The state that a command answers. -/
def after (i : Instr) (s : State) : State := match exec i s with | .next t => t | _ => s

/-- The device in Draw. -/
def draw (s : State) : State :=
  { s with boot := { s.boot with rails := true, stage := 3, devState := 1, started := true }, log := { s.log with running := true } }

/-- A profile of 28 words under the library schedule, 0 but for those listed. -/
def prof (l : Tab (BitVec 64)) : List (BitVec 64) := (List.range 28).map fun i => if i = 0 then 0x400000000#64 else tabGet 0 l i

/-- Channel 0 in service on engines 0 and 512 of a device in Draw. -/
def serving (A : ChanSt) (C : Cell := {}) : State := { draw (one C) with chans := [(0, { A with sitter := some 0, cone := some 512 })] }
/-! The instruction set of the engines (10). -/

theorem wit_EngineProducts_pos : let E := (eng (regs3 5 1 0)).engine 0
    0 < (regGet E 2).toInt := by decide
theorem wit_EngineProducts_by_zero : let E := (eng (regs3 0 0 0)).engine 0
    (regGet E 2).toInt ≤ 0 ∧ 0 ≤ (regGet E 1).toInt := by decide
theorem wit_EngineProducts_negative : let E := (eng (regs3 0xFFFFFF 0x800000 0)).engine 0
    (regGet E 2).toInt ≤ 0 ∧ (regGet E 1).toInt < 0 := by decide
theorem wit_EngineWide_zero : fld (regGet ((eng (regs3 0 0 0)).engine 0) 3) 18 6 = 0 := by decide
theorem wit_EngineWide_uf24 : fld (regGet ((eng (regs3 0 0 0xFC0001)).engine 0) 3) 18 6 = 63 := by decide
theorem wit_EngineWide_narw : let r := (regGet ((eng (regs3 0 0 0xFFFFE9)).engine 0) 3).toInt
    r = -23 ∧ -23 ≤ r ∧ r ≤ 31 := by decide
theorem wit_EngineWide_narw_high : let r := (regGet ((eng (regs3 0 0 31)).engine 0) 3).toInt
    r ≤ 31 ∧ (-23 : Int) ≤ r := by decide
theorem wit_EngineWide_narw_outside : let r := (regGet ((eng (regs3 0 0 32)).engine 0) 3).toInt
    ¬ (-23 ≤ r ∧ r ≤ 31) := by decide
theorem wit_EngineMemory_ldp : ¬ ((0 : Reg) = 0 ∧ 256 ≤ (255 : Fin 512).val) ∧ ¬ ((1 : Reg) = 0 ∧ 256 ≤ (256 : Fin 512).val) := by decide
theorem wit_EngineMemory_ldp_fails : (0 : Reg) = 0 ∧ 256 ≤ (256 : Fin 512).val := by decide
theorem wit_EngineMemory_ldm : let s : State := { eng {} with clusters := [(0, { tick := 1 })] }
    (31 : Fin 512).val < 32 ∧ (s.engine 512).ranTick < (s.cluster 0).tick := by decide
theorem wit_EngineMemory_ldm_old : let s : State := { State.reset with engines := [(512, { ranTick := 1 })], clusters := [(0, { tick := 1 })] }
    (31 : Fin 512).val < 32 ∧ (s.cluster 0).tick ≤ (s.engine 512).ranTick := by decide
theorem wit_EngineMemory_ldm_fails : 32 ≤ (32 : Fin 512).val := by decide
theorem wit_EngineInputs : ¬ (16 ≤ (15 : Fin 128).val ∧ (15 : Fin 128).val < 64) ∧ ¬ (16 ≤ (64 : Fin 128).val ∧ (64 : Fin 128).val < 64) := by decide
theorem wit_EngineInputs_req : (0x0C : Fin 128).val = 0x0C ∧ ((eng {}).engine 0).loop = none := by decide
theorem wit_EngineInputs_replay : ((eng { loop := some (1, 9, 3) }).engine 0).loop = some (1, 9, 2 + 1) := by decide
theorem wit_EngineInputs_reserved : 16 ≤ (16 : Fin 128).val ∧ (63 : Fin 128).val < 64 := by decide
theorem wit_EngineOutputs_latch : (0x40 ≤ (0x40 : Fin 128).val ∧ (0x40 : Fin 128).val ≤ 0x45) ∧ ((eng {}).engine 0).loop = none := by decide
theorem wit_EngineOutputs_replay : (0x49 : Fin 128).val = 0x49 ∧ ((eng { loop := some (1, 9, 1) }).engine 0).loop = some (1, 9, 0 + 1) := by decide
/-- A queued event request. -/
def request : EventReq := { source := 0, code := 0, payload := 0, tickTime := 0, dropped := 0 }
theorem wit_EngineOutputs_event : let E := (eng { regs := [(1, 0x1B01)], events := List.replicate 3 request }).engine 0
    (0x43 : Fin 128).val = 0x43 ∧ (regGet E 1).extractLsb' 0 16 ≠ 0 ∧ E.events.length < 4 := by decide
theorem wit_EngineOutputs_full : let E := (eng { regs := [(1, 0x1B01)], events := List.replicate 4 request }).engine 0
    (regGet E 1).extractLsb' 0 16 ≠ 0 ∧ 4 ≤ E.events.length := by decide
theorem wit_EngineOutputs_ignored : 0x4A ≤ (0x4A : Fin 128).val ∧ (0x5F : Fin 128).val ≤ 0x5F := by decide
theorem wit_EngineOutputs_fails : let p : Fin 128 := 0x60
    ¬ ((0x40 ≤ p.val ∧ p.val ≤ 0x45) ∨ p.val = 0x48 ∨ p.val = 0x49) ∧ ¬ (0x4A ≤ p.val ∧ p.val ≤ 0x5F) := by decide

/-- An engine whose parameter bank holds a PWL table at word 16: x = 0, 10, …, 70 and y = 2x. -/
def pwlEng (x : W24) : Engine := { regs := [(1, x)], bank0 := (List.range 16).map fun j => (16 + j, if j % 2 = 0 then BitVec.ofNat 24 (5 * j)
  else BitVec.ofNat 24 (10 * (j - 1))) }
theorem wit_EnginePwl : let E := (eng (pwlEng 25)).engine 0
    let xs (j : Nat) := (parGet E (16 + 2 * j)).toInt
    let x := (regGet E 1).toInt
    2 < 7 ∧ xs 0 < x ∧ x ≤ xs 7 ∧ xs 2 < x ∧ x ≤ xs 3 ∧ xs 1 < x := by decide
theorem wit_EnginePwl_below : (regGet ((eng (pwlEng 0)).engine 0) 1).toInt ≤ (parGet ((eng (pwlEng 0)).engine 0) 16).toInt := by decide
theorem wit_EnginePwl_above : let E := (eng (pwlEng 71)).engine 0
    (parGet E 16).toInt < (regGet E 1).toInt ∧ (parGet E 30).toInt < (regGet E 1).toInt := by decide
theorem wit_EnginePower : (parGet ((eng { bank0 := [(3, 497 * 2 ^ 15)] }).engine 0) 3).toNat / 2 ^ 15 + 15 ≤ 512 := by decide
theorem wit_EnginePole_due : let s : State := { eng { bank0 := [(3, 507 * 2 ^ 15 + 0x80), (0x85, 2)] } with clusters := [(0, { tick := 8 })] }
    let E := s.engine 0
    (s.cluster 0).tick % 2 ^ ((parGet E (0x80 + 5)).toNat % 32) = 0 ∧ (parGet E 3).toNat / 2 ^ 15 + 5 ≤ 512 := by decide
theorem wit_EnginePole_not_due : let s : State := { eng { bank0 := [(3, 0x80), (0x85, 2)] } with clusters := [(0, { tick := 9 })] }
    ¬ (s.cluster 0).tick % 2 ^ ((parGet (s.engine 0) (0x80 + 5)).toNat % 32) = 0 := by decide
theorem wit_EngineBranches : let E := (eng { loop := none }).engine 0
    E.catchUp = 0 ∧ E.loop = none := by decide
theorem wit_EngineBranches_body_end : let E := (eng { loop := some (4, 9, 2) }).engine 0
    E.catchUp = 0 ∧ E.loop = some (4, (9 : Fin 8192).val, 2) := by decide
theorem wit_EngineBranches_other : let E := (eng { loop := some (4, 8, 2) }).engine 0
    E.catchUp = 0 ∧ (8 : Nat) ≠ (9 : Fin 8192).val ∧ E.loop = some (4, 8, 2) := by decide
theorem wit_EngineBranches_taken : let E := (eng { z := true, loop := some (4, 9, 1) }).engine 0
    condHolds E .eq = true ∧ E.loop = some (4, (9 : Fin 8192).val, 1) := by decide
theorem wit_EngineBranches_replay : ((eng { catchUp := 3 }).engine 0).catchUp ≠ 0 := by decide
theorem wit_EngineBranches_nop : let E := (eng { pc := 8, loop := some (4, 9, 2) }).engine 0
    E.loop = some (4, E.pc + 1, 0 + 2) := by decide
theorem wit_EngineBranches_last : let E := (eng { pc := 8, loop := some (4, 9, 1) }).engine 0
    E.loop = some (4, E.pc + 1, 1) := by decide
theorem wit_EngineMismatch_first : let s := eng {}
    (s.chan (engChan s 0)).frozen = false ∧ s.coll.shadows = [] ∧ errClass 0x20C ≠ 3 ∧ (s.engine 0).failed = false := by decide
theorem wit_EngineMismatch_again : let s : State := { eng {} with chans := [(0, { frozen := true, sitter := some 0 })] }
    (s.chan (engChan s 0)).frozen = true := by decide


theorem test_add_wraps : let E := (after (.opAdd 0 4 1 2) (eng (regs3 0xFFFFFF 2 0))).engine 0
    regGet E 4 = 1 ∧ E.c = true ∧ E.v = false ∧ E.z = false ∧ E.pc = 1 := by decide
theorem test_adds_saturates : let E := (after (.opAdds 0 4 1 2) (eng (regs3 0x7FFFFF 1 0))).engine 0
    regGet E 4 = 0x7FFFFF ∧ E.v = true := by decide
theorem test_g0_discards : regGet ((after (.opLdi 0 0 5) (eng {})).engine 0) 0 = 0 := by decide
theorem test_ldi_extends_sign : regGet ((after (.opLdi 0 4 0x8000) (eng {})).engine 0) 4 = 0xFF8000 := by decide
theorem test_mul_rounds_away : regGet ((after (.opMul 0 4 1 2 1 .near) (eng (regs3 0xFFFFFF 3 0))).engine 0) 4 = 0xFFFFFE := by decide
theorem test_div_by_zero : regGet ((after (.opDiv 0 4 1 2 0 .near) (eng (regs3 0xFFFFFF 0 0))).engine 0) 4 = 0x800000 := by decide
theorem test_shl_loses_sign : ((after (.opShl 0 4 1 2) (eng (regs3 0x400000 0 0))).engine 0).v = true := by decide
theorem test_shr_signed : regGet ((after (.opShr 0 4 1 4) (eng (regs3 0x800000 0 0))).engine 0) 4 = 0xF80000 := by decide
theorem test_subwz_floors : pairGet ((after (.opSubwz 0 3 0 1) (eng { regs := [(16, 1), (18, 2)] })).engine 0) 3 = 0 := by decide
theorem test_pwl_interpolates : regGet ((after (.opPwl 0 4 1 0 16 (.lin .near)) (eng (pwlEng 25))).engine 0) 4 = 50 := by decide
theorem test_lds_wraps : regGet ((after (.opLds 0 4 1 511) (eng { regs := [(1, 2)], mem := [(1, 7)] })).engine 0) 4 = 7 := by decide
theorem test_branch_costs_two : ((after (.opBr 0 .al 100) (eng {})).engine 0).slots = 2 := by decide
theorem test_out_latches : tabGet 0 ((after (.opOut 0 0x40 1) (eng (regs3 0x12ABCD 0 0))).engine 0).outs 0x40 = 0xABCD := by decide

/-! Steps, and the words of a command frame (01, 02, 09). -/

theorem wit_OnlyDebugStops (b : Bool) : Instr.imageStart ≠ .aelheipDebug b := by intro h; cases h
theorem wit_OnlyDebugStops_unlocked : debugLock State.reset = false := by decide +kernel
theorem wit_OnlyDebugStops_locked : debugLock (State.reset.setFuses (BitVec.ofNat 2560 (2 ^ 73))) = true := by decide +kernel
theorem wit_CommandFootprint : exec (.opNop 0) (eng {}) = .next (after (.opNop 0) (eng {})) := rfl
theorem wit_QueueIsKept : (eng {}).pending = [] := rfl
theorem wit_StepKeepsForm : (eng { z := true }).Wf ∧ step (eng { z := true }) = .next (eng { z := true }) :=
  ⟨⟨by decide, by decide, by decide, by decide, by decide, by decide, by decide, by decide, by decide, by decide, by decide, by decide, by decide,
    by decide, by decide, by decide, by decide, by decide, by decide, by decide, by decide, by decide, by decide, by decide, by decide⟩, rfl⟩

/-- A word that is not the one kept, with no fast trip in this tick. -/
abbrev Fresh (C : Cell) (w : BitVec 16) : Prop := C.kept ≠ some w ∧ bitOf C.tickCauses 0 = false

theorem wit_CommandWordsMove_ready : let C : Cell := { state := .cooling, offTicks := 800000 }
    Listens (one C) 0 .loc ∧ Fresh C 0x1000 ∧ C.state = .cooling ∧ 4000 * fld C.env.word 36 8 ≤ C.offTicks := ⟨listens_one _, by decide⟩
theorem wit_CommandWordsMove_ready_seated : let C : Cell := { state := .seated }
    Listens (one C) 0 .loc ∧ Fresh C 0x1000 ∧ C.state = .seated := ⟨listens_one _, by decide⟩
/-- Envelope word of a channel that may be servedEnv. -/
def servedEnv : EnvImage := { word := 2 ^ 26 + 0x1FF * 2 ^ 44 }
theorem wit_CommandWordsMove_ramp : let C : Cell := { state := .ready, env := servedEnv }
    let s := one C
    Listens s 0 .loc ∧ Fresh C 0x2400 ∧ (0x400 : Nat) / 1024 ≠ 0 ∧ bitOf C.env.word 26 = true ∧ feedSelected (s.group 0).phase = true ∧
      rampingCount s 0 < (s.hearth 0).rampAllow := ⟨listens_one _, by decide⟩
theorem wit_CommandWordsMove_full : let C : Cell := { state := .ramping, gateFull := true }
    Listens (one C) 0 .loc ∧ Fresh C 0x3C00 ∧ (0xC00 : Nat) / 1024 = 3 ∧ C.state = .ramping ∧ C.gateFull = true := ⟨listens_one _, by decide⟩
theorem wit_CommandWordsMove_good : let C : Cell := { state := .full, gateFull := true }
    Listens (one C) 0 .loc ∧ Fresh C 0x4C00 ∧ C.state = .full ∧ C.gateFull = true := ⟨listens_one _, by decide⟩
theorem wit_CommandWordsMove_tripped : let C : Cell := { state := .tripped }
    Listens (one C) 0 .loc ∧ Fresh C 0x5000 ∧ Fresh C 0x6000 ∧ C.state = .tripped := ⟨listens_one _, by decide⟩
theorem wit_CommandWordsMove_off : let C : Cell := { state := .good }
    Listens (one C) 0 .loc ∧ Fresh C 0x7000 ∧ C.state = .good := ⟨listens_one _, by decide⟩
theorem wit_CommandWordsMove_on : let C : Cell := { state := .off }
    Listens (one C) 0 .loc ∧ Fresh C 0x8000 ∧ C.state = .off := ⟨listens_one _, by decide⟩
theorem wit_CommandWordsMove_reset : let C : Cell := { state := .locked }
    Listens (one C) 0 .loc ∧ Fresh C 0x9000 ∧ C.state ≠ .vacant ∧ C.state ≠ .held := ⟨listens_one _, by decide⟩
theorem wit_CommandWordsKeepState : let C : Cell := { state := .good }
    Listens (one C) 0 .loc ∧ Fresh C 0x0C00 ∧ Fresh C 0xBC00 ∧ Fresh C 0xCC00 ∧ Fresh C 0xA001 ∧ Fresh C 0xF000 ∧ C.state = .good ∧
      C.lastRefused ≠ some 0xF000 ∧ C.tickCauses = 0 ∧ (0x001 : Nat) % 64 ≠ 0 := ⟨listens_one _, by decide⟩
theorem wit_EnvelopeRefuses_ready : let C : Cell := { state := .cooling, offTicks := 0 }
    Listens (one C) 0 .loc ∧ Fresh C 0x1000 ∧ C.state = .cooling ∧ C.offTicks < 4000 * fld C.env.word 36 8 ∧
      C.lastRefused ≠ some 0x1000 := ⟨listens_one _, by decide⟩
theorem wit_EnvelopeRefuses_vacant : let C : Cell := { state := .vacant }
    Listens (one C) 0 .loc ∧ (∀ k ∈ [0x0400, 0x1000, 0x2000, 0x3000, 0x4000, 0x5000, 0x6000, 0x7000, 0x8000, 0x9000, 0xA000, 0xB000, 0xC000],
      Fresh C (BitVec.ofNat 16 k)) ∧ (0x400 : Nat) / 1024 ≠ 0 ∧ C.state = .vacant ∧ C.gateFull = false ∧ bitOf C.env.word 26 = false :=
  ⟨listens_one _, by decide⟩
theorem wit_EnvelopeRefuses_ramp_allowance : let s : State := { one { state := .ready, env := servedEnv } { up with rampAllow := 0 } with pending := [] }
    (s.hearth 0).rampAllow ≤ rampingCount s 0 := by decide
theorem wit_EnvelopeRefuses_deaf : let H : HearthSt := { up with saggar := true }
    H.logic = true ∧ H.saggar = true := by decide
theorem wit_EnvelopeRefuses_fast_trip : let C : Cell := { state := .tripped, tickCauses := 1 }
    Listens (one C) 0 .loc ∧ bitOf C.tickCauses 0 = true ∧ C.kept ≠ some 0x7000 := ⟨listens_one _, by decide⟩
theorem wit_ParamWrites : let q : EventReq := { source := 0x1000, code := 0x1B00, payload := 0, tickTime := 0, dropped := 1 }
    Listens (one {}) 0 .loc ∧ srcHearthOf q.source.toNat = some 0 ∧ q.dropped ≠ 0 := ⟨listens_one _, by decide⟩
theorem wit_ParamWrites_deaf : ((one {} { up with held := false }).hearth 0).held = false := by decide
theorem wit_ParamConfig : Listens (one {}) 0 .loc := listens_one _
theorem wit_ClaimJudged_fault : let H := (one {} { up with fault := true }).hearth 0
    H.logic = true ∧ H.fault = true := by decide
theorem wit_ClaimJudged_last : let H := (one {} { up with claim := 0xFFFFFFFE }).hearth 0
    H.logic = true ∧ H.fault = false ∧ H.claim.toNat / 2 = 0x7FFFFFFF := by decide
theorem wit_ClaimJudged_old : let H := (one {}).hearth 0
    H.logic = true ∧ H.fault = false ∧ H.claim.toNat / 2 ≠ 0x7FFFFFFF ∧ (2 : BitVec 32).toNat ≤ H.claim.toNat := by decide
theorem wit_ClaimJudged_live : let H := (one {}).hearth 0
    H.claim.toNat < (3 : BitVec 32).toNat ∧ H.held = true ∧ H.holder ≠ .cross ∧ ¬ 20 ≤ (if H.holder = .loc then H.silentL else H.silentX) := by decide
theorem wit_ClaimJudged_renewal : let H := (one {}).hearth 0
    H.claim.toNat < (4 : BitVec 32).toNat ∧ H.held = true ∧ H.holder = .loc := by decide
theorem wit_ClaimJudged_silent : let H := (one {} { up with silentL := 20 }).hearth 0
    H.claim.toNat < (3 : BitVec 32).toNat ∧ H.holder ≠ .cross ∧ ¬ ¬ 20 ≤ (if H.holder = .loc then H.silentL else H.silentX) := by decide
theorem wit_SaggarHold_silence : let H := (one {} { up with silentL := 20 }).hearth 0
    H.held = true ∧ 20 ≤ (if H.holder = .loc then H.silentL else H.silentX) ∧ H.saggar = false := by decide
theorem wit_SaggarHold_acceptance : let H := (one {} { up with admitting := true, admitTicks := 4 }).hearth 0
    H.admitting = true ∧ 4 ≤ H.admitTicks ∧ H.fault = false := by decide
theorem wit_SaggarHold_release : let H := (one {}).hearth 0
    H.logic = true ∧ H.held = true ∧ H.holder = .loc ∧ H.claim = 2 ∧ H.saggar = false ∧ H.fault = false := by decide
theorem wit_SaggarHold_cells : let C : Cell := { state := .good, gate := .enh }
    C.undo = none ∧ C.state = .good ∧ C.tickCauses = 0 ∧ C.f < 2 ^ 46 := by decide
theorem wit_SaggarHold_undo : let u : CellUndo := { state := .full, gate := .enh, iset := 0, pg := false, pgDropped := false, confirmed := false, offTicks := 0, tripReg := 0, sub := 0, env := {}, envWait := none, seq := 0, locks := 0 }
    ({ undo := some u } : Cell).undo = some u ∧ u.state = .full := by decide
theorem wit_ReleaseFrames : let H := (one {}).hearth 0
    (H.held = true ∧ H.holder = .loc ∧ H.claim = 2) ∧ ¬ (H.held = true ∧ H.holder = .loc ∧ H.claim = 4) := by decide
theorem wit_HearthReset : (one {}).hearth 0 = up ∧ Listens (one {}) 0 .loc ∧ fld (tabGet (0 : BitVec 64) (one {}).hblocks 0) 32 32 / 2 < 0x7FFFFFFF :=
  ⟨by decide, listens_one _, by decide⟩
theorem wit_HearthReset_fault : let H := (one {} { up with fault := true, faultPort := .cross }).hearth 0
    H.logic = true ∧ H.fault = true ∧ H.faultPort = .cross := by decide
theorem wit_HearthReset_deaf : let s := one {} { up with held := false }
    (s.hearth 0).fault = false ∧ ¬ Listens s 0 .loc := ⟨by decide, fun h => Bool.noConfusion h.2.1⟩

theorem test_stale_tick_window : staleTick { tick := 2050 } 2048 = false ∧ staleTick { tick := 2050 } 2047 = true ∧
    staleTick { tick := 2050 } 3 = true ∧ staleTick { tick := 2050 } 2 = false := by decide
theorem test_ready_word : (((after (.cmdReady 0 .loc 0 0 0 false) (one { state := .seated })).cell 0).state) = .ready := by decide
theorem test_full_needs_gate : ((after (.cmdFull 0 .loc 0 0xC00 0 false) (one { state := .ramping })).cell 0).refused = true := by decide

/-! The device, its boot, the fault collector (11, 15, 18). -/

theorem wit_DeviceReset : let s := draw (one {})
    500 ≤ (500 : Nat) ∧ (499 : Nat) < 500 ∧ crownUp s = true ∧ (HostPort.spi = .spi) ∧ (0 : BitVec 32) ≠ 0xA55A ∧ s.boot.stage ≠ 4 ∧
      s.boot.resetDue = false := by decide
theorem wit_DeviceReset_partner : (0 : BitVec 64).toNat = deviceId (draw (one {})) ∧ (1 : BitVec 64).toNat ≠ deviceId (draw (one {})) := by decide +kernel
theorem wit_DeviceReset_due : ({ resetDue := true } : Boot).resetDue = true := by decide
theorem wit_HearthPower_first : (State.reset.hearth 0).alwaysOn = false := by decide
theorem wit_HearthPower_up : let H := (one {}).hearth 0
    H.alwaysOn = true ∧ H.logic = true ∧ H.banked = false := by decide
theorem wit_HearthPower_sampled : let H := (one {} { up with logic := false, saggar := true }).hearth 0
    H.alwaysOn = true ∧ H.logic = false ∧ [Zone.inside][(0 : Fin 130).val]? = some .inside := by decide
theorem wit_HearthPower_banked : ((one {} { up with banked := true }).hearth 0).banked = true := by decide
theorem wit_HearthPower_reset_low : ({ rstLow := true } : Boot).rstLow = true ∧ State.reset.boot.rstLow = false := by decide
theorem wit_FatalErrors : let s : State := { draw (one {}) with boot := { (draw (one {})).boot with watchdog := true } }
    crownUp s = true ∧ s.boot.cracked = false ∧ s.boot.watchdog = true ∧ s.boot.stage = 3 := by decide
theorem wit_FatalErrors_fuses : (fuseBad (BitVec.ofNat 2560 1)).isSome = true := by decide +kernel
/-- A fuse image of zeros whose four CRC words are those of zeros. -/
def fuseImage : BitVec 2560 :=
  let z (n c : Nat) : BitVec 2560 := BitVec.ofNat 2560 ((crc32c (List.replicate n 0)).toNat <<< c)
  z 12 96 ||| z 96 1024 ||| z 144 2208 ||| z 32 2496
theorem wit_FatalErrors_fuses_good : fuseBad fuseImage = none := by decide +kernel
/-- A shard of a fatal error. -/
def fatalShard : Shard :=
  { slot := 0, id := 1, code := 0x306, source := 0, cls := 3, present := true, latched := true, shadowed := false, firstAt := 0, clearedAt := 0,
    occurrences := 1, merged := 0, barrier := 0, unc := 0, reaction := 0, latestAt := 0, detail := 0, shown := true, faultInWin := true,
    clearInWin := false }
theorem wit_FatalErrors_cracked : let s : State := { draw (one {}) with
    boot := { (draw (one {})).boot with cracked := true }, coll := { fatalSh := some fatalShard, copyDue := true } }
    crownUp s = true ∧ s.boot.cracked = true ∧ s.coll.fatalSh = some fatalShard ∧ s.coll.copyDue = true ∧ s.coll.crashUnread = false := by decide
theorem wit_BootStages_start : let s : State := { State.reset with boot := { State.reset.boot with rails := true } }
    alive s = true ∧ s.boot.stage = 1 := by decide
theorem wit_BootStages_glaze : let s : State := { State.reset with boot := { State.reset.boot with rails := true, stage := 2 } }
    alive s = true ∧ s.boot.stage = 2 ∧ s.boot.started = false := by decide
/-- Whether an image is genuine rests on the signature check, a function without a body: with none genuine there is no image to start. -/
theorem wit_BootStages_no_image : chooseImage { State.reset with boot := { State.reset.boot with rails := true, stage := 2, badA := true, badB := true } } = none := by
  decide +kernel
theorem wit_BootStages_started : let s : State := { State.reset with
    boot := { State.reset.boot with rails := true, stage := 2, started := true, glazeTimer := true },
    log := { State.reset.log with running := true } }
    alive s = true ∧ s.boot.stage = 2 ∧ s.boot.started = true ∧ s.boot.glazeTimer = true ∧ s.log.running = true := by decide
theorem wit_Collector : crownUp (draw (one {})) = true ∧ errCode 0x220 = true ∧ errClass 0x30B = 3 ∧ errCode 0x221 = false := by decide
theorem wit_Collector_clears : let s : State := { State.reset with coll := { shards := [fatalShard] } }
    (s.coll.shards.find? fun x => x.code = 0x306 ∧ x.source = 0 ∧ x.present) = some fatalShard ∧ (s.coll.shards.map (·.id)).Nodup := by decide
theorem wit_Collector_none : ∀ x ∈ State.reset.coll.shards, ¬ (x.code = 0x306 ∧ x.source = 0 ∧ x.present = true) := by decide
theorem wit_Collector_shadow : let sh : Shadow := { code := 4, shard := 1, source := 0, opened := 0, closed := none, index := 0, ends := some 0, chans := [] }
    [sh][0]? = some sh ∧ sh.closed = none ∧ sh.ends = some 0 ∧ 0 ≤ State.reset.time.tai := by decide
theorem test_fault_latches : (after (.errorDetected 0x215 0x4000 0 0 false) (draw (one {}))).coll.shards.length = 1 := by decide +kernel

/-! Slots, cells, the Sitter (02, 03, 04). -/

/-- Hearth 0 with a slot. -/
def slotted (S : SlotSt) (H : HearthSt := up) : State := { one {} H with slots := [(0, S)] }
theorem wit_SlotContacts_falls : let S := (slotted { pres := true, seat := true }).slot 0
    S.pres = true ∧ S.seat = true ∧ S.fellP = none ∧ S.fellS = none := by decide
theorem wit_SlotContacts_rises : let S := (slotted {}).slot 0
    S.pres = false ∧ S.seat = false ∧ S.fellP = none ∧ S.fellS = none := by decide
theorem wit_SlotContacts_seats : let s := slotted { word := 0x40, pres := true, seat := true, debouncing := true } { up with released := true }
    (s.slot 0).debouncing = true ∧ slotOn (s.slot 0).word = true ∧ (s.hearth 0).alwaysOn = true ∧ (s.slot 0).seat = true ∧
      (s.hearth 0).released = true := by decide
theorem wit_SlotContacts_before_release : let s := slotted { word := 0x40, pres := true, debouncing := true, fellS := some 0 }
    (s.slot 0).debouncing = true ∧ slotOn (s.slot 0).word = true ∧ (s.slot 0).fellS ≠ none ∧ (s.hearth 0).released = false := by decide
theorem wit_SlotContacts_presence : let S := (slotted { word := 0x40, pres := true, debouncing := true }).slot 0
    S.debouncing = true ∧ slotOn S.word = true ∧ S.seat = false ∧ S.fellS = none := by decide
theorem wit_SlotContacts_removal : let s := slotted { word := 0x40, pres := true, seated := true, fellS := some 0 }
    (s.slot 0).fellS ≠ none ∧ (s.hearth 0).alwaysOn = true ∧ (s.slot 0).seated = true := by decide
theorem wit_SlotContacts_led : let s : State := { slotted { word := 0x40, ledRow := 4 } with cells := [(0, { configured := true, lifeWord := 0x400000000000#64 })] }
    hasLed s 0 = true ∧ (s.slot 0).ledRow = 4 := by decide
theorem wit_HearthTrips_fast : let C : Cell := { configured := true, state := .good }
    C.configured = true ∧ fastArmed C = true ∧ C.tickCauses = 0 := by decide
theorem wit_HearthTrips_unarmed : fastArmed {} = false := by decide
theorem wit_HearthTrips_gate_off : let C : Cell := { confirmed := false, state := .off }
    C.confirmed = false ∧ gateLow C.gate = true ∧ C.state ≠ .tripped := by decide
theorem wit_HearthTrips_retry : let s := serving { prof := prof [] } { confirmed := false, state := .tripped }
    (s.cell 0).confirmed = false ∧ gateLow (s.cell 0).gate = true ∧ (s.cell 0).state = .tripped ∧ (s.cell 0).offPend = false ∧
      sitterServes s 0 = true ∧ libSched (s.chan 0) = true := by decide
theorem wit_HearthTrips_short : let C : Cell := { shortTicks := 8, state := .cooling }
    C.shortTicks = 8 ∧ C.state = .cooling := by decide
theorem wit_HearthTrips_fallback : let C : Cell := { state := .held, f := 2 ^ 46 }
    C.state = .held ∧ 2 ^ 46 ≤ C.f ∧ C.heldTrip = false ∧ C.tickCauses = 0 := by decide
theorem wit_GateDischargeFails : let C : Cell := { state := .tripped, confirmed := false, tripTicks := 40 }
    C.state = .tripped ∧ C.confirmed = false ∧ 40 ≤ C.tripTicks := by decide
theorem wit_SitterTrips_deadline : let s := serving { prof := prof [(2, 0x0010000000000000)], commanded := .ramping, rampTicks := 400 }
    sitterRuns s 0 = true ∧ (s.chan 0).commanded = .ramping ∧ 0 < (s.chan 0).rampTicks ∧ 400 * pDeadline (s.chan 0) ≤ (s.chan 0).rampTicks := by decide
theorem wit_SitterTrips_gate : let s := serving { prof := prof [], commanded := .good, holdTicks := 4 }
    sitterRuns s 0 = true ∧ (s.chan 0).commanded = .good ∧ 4 ≤ (s.chan 0).holdTicks := by decide
theorem wit_SitterTrips_breaker : let s := serving { prof := prof [], commanded := .good, a := 2 ^ 46, rose := true }
    sitterRuns s 0 = true ∧ breakerDue s 0 = true := by decide
theorem wit_SitterTrips_progress : let s := serving { prof := prof [(2, 0xFFFF)], commanded := .ramping, winTicks := 4000, winFails := 3, winStart := 0xFFFF }
    sitterRuns s 0 = true ∧ progressDue (s.chan 0) = true := by decide
theorem wit_SitterTrips_next_window : let s := serving { prof := prof [(2, 0x0020000000000000)], commanded := .ramping, winTicks := 4000, rampTicks := 799 }
    sitterRuns s 0 = true ∧ 4000 ≤ (s.chan 0).winTicks ∧ progressDue (s.chan 0) = false ∧ (s.chan 0).rampTicks < 400 * pDeadline (s.chan 0) ∧
      (s.chan 0).holdTicks < 4 := by decide

/-! The Sitter's timers. -/
theorem wit_SitterTimers_soak : let s := serving { prof := prof [(3, 0x8000000000100000)], commanded := .ramping, segTicks := 40 }
    let A := s.chan 0
    sitterRuns s 0 = true ∧ A.commanded = .ramping ∧ A.followEnh = false ∧ segsDone A = false ∧ segType (segNow A) = 2 ∧
      40 * segDuration (segNow A) ≤ A.segTicks := by decide
theorem wit_SitterTimers_dwell : let s := serving { prof := prof [(1, 0x0003000000000000)], commanded := .full, dwell := 3 }
    let A := s.chan 0
    sitterRuns s 0 = true ∧ 0 < pDwell A ∧ pDwell A ≤ A.dwell ∧ dueCauses s 0 = 0 ∧ A.commanded = .full := by decide
theorem wit_SitterTimers_dwell_again :
    let s := serving { prof := prof [(1, 0x0003000000000000)], commanded := .good, dwell := 3, pgDrop := true }
    let A := s.chan 0
    0 < pDwell A ∧ pDwell A ≤ A.dwell ∧ dueCauses s 0 = 0 ∧ A.commanded = .good ∧ A.pgDrop = true := by decide
theorem wit_SitterTimers_backoff : let s := serving { prof := prof [(16, 0x0010000000000000)], commanded := .cooling, retry := 1, backoff := 4000 }
    let A := s.chan 0
    A.commanded = .cooling ∧ backoffTicks (profWord A 16) A.retry ≤ A.backoff ∧ backoffTicks (profWord A 16) A.retry = 4000 := by decide
theorem wit_SitterTimers_decay :
    let s := serving { prof := prof [(16, 0x0000010000000000)], commanded := .good, obs := .good, retry := 1, decay := 400000 }
    let A := s.chan 0
    A.commanded = .good ∧ 0 < pDecay A ∧ 400000 * pDecay A ≤ A.decay ∧ dueCauses s 0 = 0 ∧ A.hearthTrip = false ∧ A.obs ≠ .tripped ∧
      (s.cell 0).tickCauses = 0 := by decide
theorem wit_SitterTimers_skew : let s := serving { prof := prof [], commanded := .good, obs := .full, skewTicks := 81 }
    sitterRuns s 0 = true ∧ (s.chan 0).commanded ≠ (s.chan 0).obs ∧ 80 < (s.chan 0).skewTicks := by decide
theorem wit_SitterTimers_cone_wait : let s := serving { prof := prof [], commanded := .ready, obs := .ready, coneWait := 4000000 }
    sitterRuns s 0 = true ∧ (s.chan 0).commanded = .ready ∧ 4000000 ≤ (s.chan 0).coneWait ∧ (s.chan 0).coneWaitDone = false ∧ Listens s 0 .loc :=
  ⟨by decide, by decide, by decide, by decide, by decide, by decide, by decide, by decide, by decide, by decide⟩
theorem wit_SitterTimers_under_voltage : let s := serving { prof := prof [(27, 0x0000000000800000)], uvRun := true, uvTicks := 400 }
    let A := s.chan 0
    sitterRuns s 0 = true ∧ A.uvRun = true ∧ 0 < yUvTime (pSpyV A) ∧ 400 * yUvTime (pSpyV A) ≤ A.uvTicks ∧ errPresent s 0x20B (srcChan 0) = false := by
  decide
/-- Channel 0 Ready, with a conducting feed and a Cone that has a state. -/
def ready (A : ChanSt) : State :=
  { serving { A with prof := prof [], commanded := .ready, obs := .ready } with feedWord := [(0, 0x4800)], cones := [(0, { init := true })] }
theorem wit_SitterTimers_start : let s := ready {}
    let A := s.chan 0
    sitterRuns s 0 = true ∧ A.commanded = .ready ∧ A.obs = .ready ∧ 40 * pStartDelay A ≤ A.readyTicks ∧ A.resend = none ∧ A.stFresh = false ∧
      startFeedDelay s 0 = true ∧ startAllowed s 0 = true ∧ startCone s 0 = true ∧ twinView s 0 = none ∧
      coneSubs { A with commanded := .ramping } (s.cone 0).headSeen = 0 := by decide +kernel
/-- Channels 0 and 1 as a pair of twins. -/
def twinned (s : State) : State := { s with books := { s.books with twins := [(0, [0x0000600000000000#64])] } }
theorem wit_SitterTimers_start_twin : let s := twinned (ready {})
    sitterRuns s 0 = true ∧ (s.chan 0).resend = none ∧ startFeedDelay s 0 = true ∧ startAllowed s 0 = true ∧ startCone s 0 = true ∧
      startMode s 0 (sitterTick s 0) = none := by decide +kernel
theorem wit_SitterTimers_consent_wait : let s := serving { prof := prof [(1, 0x0000100000000000)], obs := .seated }
    let A := s.chan 0
    alive s = true ∧ s.boot.devState = 1 ∧ sitterRuns s 0 = true ∧ A.obs = .seated ∧ A.consented = false ∧ bitOf A.req 0 = false ∧
      A.allocTag = none ∧ pConsent A = 1 ∧ A.hostOn = false := by decide +kernel
theorem wit_SitterTimers_consent : let s := { serving { prof := prof [], obs := .seated } with feedWord := [(0, 0x4800)] }
    alive s = true ∧ sitterRuns s 0 = true ∧ pConsent (s.chan 0) ≠ 1 ∧ feedChosen s 0 = true ∧ facFeed s 0 (fwSel s 0) = none := by decide +kernel
theorem wit_SitterTimers_twin_open : let s := twinned (serving { prof := prof [], twinLow := 4000 })
    sitterRuns s 0 = true ∧ ∃ v, twinView s 0 = some v ∧ 4000 ≤ (s.chan 0).twinLow ∧ twinSplit s 0 v = false ∧
      errPresent s 0x205 (srcChan 0) = false := ⟨by decide, _, rfl, by decide, by decide, by decide⟩
theorem wit_SitterTimers_twin_return :
    let A : ChanSt := { sitter := some 0, prof := prof [], twinOk := 4000 }
    let s : State := { twinned (serving A) with chans := [(0, A), (1, { A with sitter := some 1 })] }
    let w := (tabGet [] s.books.twins 0).getD 0 0
    twOn w = true ∧ twChA w = 0 ∧ twChB w = 1 ∧ served s 0 = true ∧ served s 1 = true ∧ servedHere s 0 = true ∧ servedHere s 1 = true ∧
      4000 ≤ (s.chan 0).twinOk ∧ 4000 ≤ (s.chan 1).twinOk := by decide

/-! Cones, engines, ticks, lanes and frames (01, 05, 09). -/
/-- Channel 0 in service with this Cone, its profile in both roles. -/
def coned (l : Tab (BitVec 64)) (K : ConeSt) (A : ChanSt := {}) : State :=
  { serving { A with prof := prof l, coneProf := prof l } with cones := [(0, K)] }
theorem wit_ConeSteps_first : let s := { coned [] { sampled := true } with hearths := [(0, { up with released := true })] }
    (coneView s 0).cone = some 512 ∧ (coneView s 0).prof ≠ [] ∧ libSched (coneView s 0) = true ∧ (s.cone 0).init = false ∧
      (s.cone 0).sampled = true ∧ (s.hearth 0).released = true ∧ (s.engine 512).packed = false := by decide +kernel
theorem wit_ConeSteps_next : let s := { coned [] { init := true } with clusters := [(8, { tick := 1 })] }
    (s.cone 0).init = true ∧ (s.cone 0).lastTick ≠ clusterTickOf s 512 := by decide +kernel
theorem wit_ConeSteps_none : (coneView State.reset 0).cone = none := by decide
theorem wit_ConeSteps_tsns_bad : let s := coned [(21, 0x0000004000000000)] { tsnsNew := true } { tsnsOvr := true }
    pTsnsMode (coneView s 0) ≠ 0 ∧ (s.cone 0).tsnsNew = true ∧ tsnsValid (coneView s 0) = false := by decide +kernel
theorem wit_ConeSteps_tsns_ends : let s := coned [(21, 0x0000004000000000)] { tsnsNew := true, tsnsFault := true, tsnsGood := 7 }
    pTsnsMode (coneView s 0) ≠ 0 ∧ tsnsValid (coneView s 0) = true ∧ (s.cone 0).tsnsFault = true ∧ 7 ≤ (s.cone 0).tsnsGood := by decide +kernel
theorem wit_ConeSteps_warn : let s := coned [(21, 0x100)] { preRun := true, preTicks := 4000 }
    (s.cone 0).preRun = true ∧ 0 < pWarnTime (coneView s 0) ∧ 4000 * pWarnTime (coneView s 0) ≤ (s.cone 0).preTicks := by decide +kernel
theorem wit_ConeSteps_soa : let s := coned [(20, 0x100000000)] { init := true, soaCount := 1 }
    (s.cone 0).init = true ∧ 0 < (s.cone 0).soaCount ∧ pSoaHold (coneView s 0) ≤ (s.cone 0).soaCount := by decide +kernel
theorem wit_ConeSteps_timeout : let s := coned [(21, 0x0000004000000000)] { init := true, tsnsAge := 40000 }
    (s.cone 0).init = true ∧ pTsnsMode (coneView s 0) ≠ 0 ∧ 40000 ≤ (s.cone 0).tsnsAge ∧ (s.cone 0).tsnsFault = false := by decide +kernel
theorem wit_ConeSteps_no_timeout : pTsnsMode (coneView (coned [] {}) 0) = 0 := by decide +kernel
theorem wit_ConeSteps_fault_end : ((coned [] { tsnsGood := 8 }).cone 0).tsnsFault = false ∧ ((coned [] { tsnsGood := 8 }).cone 0).tsnsGood = 8 := by
  decide +kernel
theorem wit_ConeSteps_diverges : ((coned [] { divHigh := 8 }).cone 0).diverged = false ∧ 8 ≤ ((coned [] { divHigh := 8 }).cone 0).divHigh := by
  decide +kernel
theorem wit_ConeSteps_converges : let K := (coned [] { diverged := true, divLow := 8 }).cone 0
    K.diverged = true ∧ 8 ≤ K.divLow ∧ (State.reset.cone 0).divHigh < 8 ∧ (State.reset.cone 0).divLow < 8 := by decide +kernel
theorem wit_EngineService_fails : ((serving {}).engine 0).failed = false ∧ ((eng { failed := true }).engine 0).failed = true := by decide
theorem wit_EngineService_check : ((eng { badChecks := 2 }).engine 0).failed = false ∧ 2 ≤ ((eng { badChecks := 2 }).engine 0).badChecks ∧
    ((serving {}).engine 0).badChecks < 2 := by decide
/-- Channel 0 lost engine 0 and is taken over by engine 512. -/
def taken (E : Engine) (tick : Nat) : State :=
  { State.reset with chans := [(0, { prof := prof [], takeover := some (0, 512, 0) })], engines := [(512, E)], clusters := [(8, { tick := tick })] }
theorem wit_EngineService_takeover : let s := taken {} 0
    (s.chan 0).takeover = some (0, 512, 0) ∧ (s.engine 512).failed = false ∧ ((s.cluster (512 / 64)).tick + 1) % 4 ≠ 0 := by decide
theorem wit_EngineService_takeover_later : let s := taken {} 3
    (s.engine 512).failed = false ∧ ((s.cluster (512 / 64)).tick + 1) % 4 = 0 := by decide
theorem wit_EngineService_takeover_lost : let s := taken { failed := true } 0
    (s.chan 0).takeover = some (0, 512, 0) ∧ (s.engine 512).failed = true := by decide
theorem wit_EngineService_rehost : let s : State := { State.reset with chans := [(0, { prof := prof [] })] }
    unhosted (s.chan 0) = true ∧ newHost s 0 = some 0 := by decide +kernel
theorem wit_EngineService_recompute : let s := serving { frozen := true }
    (s.chan 0).frozen = true ∧ (s.chan 0).sitter = some 0 ∧ (s.chan 0).cone = some 512 ∧ (s.engine 0).failed = false ∧
      (s.engine 512).failed = false := by decide
theorem wit_EngineService_clock : (State.reset.cluster 0).failed = false := by decide
theorem wit_EngineService_packs : let s : State := { serving { prof := prof [] } with boot := { State.reset.boot with packReq := true } }
    s.boot.packReq = true ∧ s.boot.packed = false ∧ s.time.tick % 4 = 0 ∧ hosted (s.chan 0) = true ∧ (s.chan 0).sitter = some 0 ∧
      (s.chan 0).cone = some 512 := by decide +kernel
theorem wit_EngineService_unpacks : let s : State := { State.reset with
      boot := { State.reset.boot with unpackReq := true, packed := true },
      chans := [(0, { prof := prof [], sitter := some 0, cone := some 0 })] }
    s.boot.unpackReq = true ∧ s.boot.packed = true ∧ noneAdopted s = true ∧ s.time.tick % 4 = 0 ∧ hosted (s.chan 0) = true ∧
      (s.chan 0).sitter = some 0 ∧ (s.chan 0).cone = some 0 ∧ (s.engine 0).rehosting = false ∧ idleEngine s 512 = true := by decide +kernel
theorem wit_Ticks_hearth : let H := (one {}).hearth 0
    H.alwaysOn = true ∧ continuous H = true ∧ H.held = true ∧ H.firstOut = [] ∧ (H.held = false ∨ H.holder ≠ .cross) := by decide
theorem wit_Ticks_hearth_unpowered : (State.reset.hearth 0).alwaysOn = false ∧ crownUp State.reset = false := by decide
theorem wit_Ticks_spyhole_word : let s : State := { one {} with spies := [(0, { nextWord := some 0 })] }
    continuous (s.hearth 0) = true ∧ (s.spy 0).nextWord = some 0 := by decide
theorem wit_Ticks_island : let s := draw (one {})
    crownUp s = true ∧ s.boot.devState < 3 ∧ laneOpen s 0 = true ∧ holdsHearth s 0 = true ∧ s.boot.cracked = false ∧ s.time.slew = 0 ∧
      (s.time.tick + 1) % 40 ≠ 0 := by decide
theorem wit_Ticks_island_not_held : let s := draw (one {} { up with held := false })
    laneOpen s 0 = true ∧ holdsHearth s 0 = false := by decide
theorem wit_Ticks_cluster : let s := draw (one {})
    (s.cluster 0).failed = false ∧ s.boot.cracked = false ∧ enginesStopped s = false := by decide
theorem wit_Ticks_swap : let s : State := { State.reset with
      clusters := [(0, { swap := true })], engines := [(0, { packed := true })],
      chans := [(0, { sitter := some 0, cone := some 0, profNext := some (prof []) })] }
    (s.cluster 0).swap = true ∧ (s.cluster 0).failed = false ∧ (s.chan 0).sitter = some 0 ∧ (s.chan 0).cone = some 0 ∧
      (s.chan 0).profNext = some (prof []) := by decide +kernel
theorem wit_Lanes_fails : (laneAt (one {} { up with lane1 := { trained := true, missed := 3 } }) (.link 0 1)).failed = false ∧
    missedFrames (one {} { up with lane1 := { trained := true, missed := 3 } }) (.link 0 1) = true := by decide
theorem wit_Lanes_not_missed : missedFrames (one {}) (.link 0 1) = false := by decide
theorem wit_Lanes_failover : ((one {} { up with failover := true }).hearth 0).failover = true := by decide
theorem wit_Lanes_attempt : let s := one {} { up with lane0 := { failed := true, attempts := 19 } }
    (laneAt s (.link 0 0)).failed = true ∧ (laneAt s (.link 0 0)).attempts < 20 := by decide
theorem wit_Lanes_no_attempt : let s := one {} { up with lane0 := { failed := true, attempts := 20 } }
    20 ≤ (laneAt s (.link 0 0)).attempts := by decide
theorem wit_Lanes_tick : let H := (one {}).hearth 0
    H.logic = true ∧ H.held = true ∧ H.holder = .loc := by decide
theorem wit_Lanes_tick_of_another : let H := (one {}).hearth 0
    H.logic = true ∧ (H.held = false ∨ H.holder ≠ .cross) := by decide
theorem wit_Lanes_hearth16 : (⟨3, by decide⟩ : Hearth16).val = (3 : Hearth).val ∧ 8 ≤ (⟨9, by decide⟩ : Hearth16).val := by decide
theorem wit_CrownFrames_sample : let s := serving { prof := prof [] }
    s.boot.cracked = false ∧ hosted (s.chan 0) = true ∧ hosted (s.chan 1) = false ∧ (0 : Local).val % 8 = fld (0 : BitVec 64) 2 3 ∧
      (1 : Local).val % 8 ≠ fld (0 : BitVec 64) 2 3 := by decide +kernel
theorem wit_CrownFrames_state : let s := serving { prof := prof [] }
    alive s = true ∧ [(0x3000 : BitVec 16)][(0 : Local).val]? = some 0x3000 ∧ stOf (fld (0x3000 : BitVec 16) 12 4) = some .ramping ∧
      hosted (s.chan (64 * 0 + 0)) = true := by decide +kernel
/-- Record number `q` of source 0x3000, and a device that has admitted record 0 of it. -/
def rec3000 (q : BitVec 32) : EventRec := { time := 0, code := 0x1203, cls := 1, unc := 0, seq := q, source := 0x3000, payload := 0, unset := false, tick := 0, holdover := false, sampled := false }
def logged (l : List EventRec) : State := { draw (one {}) with log := { running := true, seen := [0x3000], waiting := l } }
theorem wit_CrownFrames_next : let s := logged []
    crownUp s = true ∧ s.log.running = true ∧ s.boot.cracked = false ∧ isNew s 0x3000 1 = true ∧ s.log.waiting.contains (rec3000 1) = false ∧
      isNext s (rec3000 1) = true ∧ s.coll.heldEv = [] ∧ (rec3000 1).code ≠ 0x1501 := by decide +kernel
theorem wit_CrownFrames_held : isNew (logged []) 0x3000 3 = true ∧ isNext (logged []) (rec3000 3) = false := by decide +kernel
theorem wit_CrownFrames_gap : firstWaiting (logged [rec3000 3]) 0x3000 = some (rec3000 3) ∧ (logged [rec3000 3]).log.waiting.length < 16384 ∧
    (logged [rec3000 3]).log.running = true := by decide +kernel
theorem wit_CrownFrames_no_gap : firstWaiting (logged []) 0x3000 = none := by decide

/-! Housekeeping, spyholes and feeds (06, 07, 08). -/
/-- Hearth 0 with this housekeeping converter. -/
def hked (K : Hk) : State := { one {} with hks := [(0, K)] }
/-- A sequence entry in the Sitter's hands that converts one input. -/
def entryOn (inp : Nat) : BitVec 64 := BitVec.ofNat 64 (inp <<< 57 + 1 <<< 13)
theorem wit_HkSteps_timer : let s := hked { started := true }
    hkUp s 0 = true ∧ cPeriod (s.hk 0) ≠ 0 ∧ hkUp State.reset 0 = false := by decide
theorem wit_HkSteps_start : let s := hked { started := true, startDue := 1 }
    hkUp s 0 = true ∧ 0 < (s.hk 0).startDue := by decide
theorem wit_HkSteps_urgent_idle : let s := hked { started := true, urgWait := [3], entries := [(3, 0)] }
    hkUp s 0 = true ∧ (s.hk 0).urgWait.contains 3 = true ∧
      (entrySources s 0 (hkEntry (s.hk 0) 3) (tabGet 0 (s.hk 0).follow 3)).isEmpty = true := by decide +kernel
theorem wit_HkSteps_urgent_pends : let s := hked { started := true, urgWait := [3], urgRun := some 1, entries := [(3, entryOn 80)] }
    (entrySources s 0 (hkEntry (s.hk 0) 3) (tabGet 0 (s.hk 0).follow 3)).isEmpty = false ∧ (s.hk 0).urgRun ≠ none := by decide +kernel
theorem wit_HkSteps_urgent_aborts : let s := hked { started := true, running := true, urgWait := [3], entries := [(0, entryOn 80), (3, entryOn 81)] }
    (entrySources s 0 (hkEntry (s.hk 0) 3) (tabGet 0 (s.hk 0).follow 3)).isEmpty = false ∧ (s.hk 0).urgRun = none ∧
      normalRuns s 0 (s.hk 0) = true := by decide +kernel
theorem wit_HkSteps_urgent_runs : let s := hked { started := true, urgWait := [3], entries := [(3, entryOn 81)] }
    (entrySources s 0 (hkEntry (s.hk 0) 3) (tabGet 0 (s.hk 0).follow 3)).isEmpty = false ∧ (s.hk 0).urgRun = none ∧
      normalRuns s 0 (s.hk 0) = false := by decide +kernel
theorem wit_HkSteps_nothing_runs : let s := hked { started := true }
    hkUp s 0 = true ∧ convRunning s 0 = none := by decide +kernel
theorem wit_HkSteps_converts : let s := hked { started := true, running := true, entries := [(0, entryOn 80)] }
    hkUp s 0 = true ∧ convRunning s 0 = some (0, false, 80, 0) := by decide +kernel
/-- Channel 0's sensor input under this TSNS_MODE. -/
def sensed (mode : BitVec 64) (K : Hk) : State :=
  { hked { K with started := true, running := true, entries := [(0, entryOn 0)] } with
    cells := [(0, { configured := true })], chans := [(0, { prof := prof [(21, mode)] })] }
theorem wit_HkSteps_diode : let s := sensed 0x0000004000000000 {}
    convRunning s 0 = some (0, false, 0, 0) ∧ tsnsMode s 0 = 1 := by decide +kernel
theorem wit_HkSteps_diode_done : let s := sensed 0x0000004000000000 { diode := 2 }
    convRunning s 0 = some (0, false, 0, 0) ∧ tsnsMode s 0 = 1 ∧ (s.hk 0).diodeIn = 0 ∧ 2 ≤ (s.hk 0).diode := by decide +kernel
theorem wit_HkSteps_ntc : let s := sensed 0x0000008000000000 {}
    convRunning s 0 = some (0, false, 0, 0) ∧ tsnsMode s 0 = 2 := by decide +kernel
theorem wit_HkSteps_pass_ends : let s := hked { started := true, running := true, control := 0, entry := 1, entries := [(0, 0), (1, 0)] }
    (s.hk 0).running = true ∧ cLast (s.hk 0) < (hkPlace s 0 (s.hk 0)).1 := by decide +kernel
theorem wit_HkSteps_pass_goes_on : let s := hked { started := true, running := true, entries := [(0, entryOn 80)] }
    (hkPlace s 0 (s.hk 0)).1 ≤ cLast (s.hk 0) := by decide +kernel
/-- Hearth 0 with this spyhole of channel 0, or of feed A on the feed group. -/
def spied (y : Spy) : State := { one {} with spies := [(0, y)] }
def fed (y : Spy) (G : Group := { phase := .steady, sel := some .a }) (b : Spy := {}) : State :=
  { one {} with groups := [(0, { G with word0 := 0x3105321905280140 })], spies := [(128, y), (129, b)] }
def spyW : BitVec 64 := 0x007FF22080000000
theorem wit_SpyholeSteps_crosses : let s := spied { word := spyW }
    yOn (s.spy 0).word = true ∧ (s.spy 0).starting = false ∧ continuous (s.hearth 0) = true ∧
      spyJudged (s.spy 0) (zoneIn spyW .belowLower) = .below := by decide
theorem wit_SpyholeSteps_warns : let s := fed { word := spyW }
    spyFeed (128 : SpyNo) = some .a ∧ (s.group 0).sel = some .a ∧ (s.spy 128).st = .inside ∧
      spyJudged (s.spy 128) (zoneIn spyW .belowLower) = .below ∧ (s.spy 128).filter ≠ some .below := by decide
theorem wit_SpyholeSteps_retracts : let s := fed { word := spyW, filter := some .below }
    (s.group 0).sel = some .a ∧ (s.spy 128).st = .inside ∧ (s.spy 128).filter = some .below ∧
      spyJudged (s.spy 128) (zoneIn spyW .inside) = (s.spy 128).st ∧ (s.group 0).pulling = false := by decide
theorem wit_SpyholeSteps_no_retraction : ((fed { word := spyW, filter := some .below } { phase := .gap, sel := some .a, pulling := true }).group 0).pulling = true := by
  decide
theorem wit_SpyholeSteps_off : yOn (State.reset.spy 0).word = false ∧ (State.reset.spy 0).starting = false ∧ (State.reset.spy 0).filter = none := by decide
theorem wit_SpyholeSteps_filter : let s : State := { spied { word := spyW, filter := some .below } with captures := [(0, { binding := 0x0040 })] }
    (s.spy 0).filter = some .below ∧ continuous (s.hearth 0) = true ∧ (s.spy 0).filterAt ≠ hearthNow s 0 100 := by decide
theorem wit_SpyholeSteps_filter_takes : bindingTakes 0x0050 0 .below = true ∧ bindingTakes 0x0050 0 .above = false := by decide
theorem wit_SpyholeSteps_filter_at_once : let s := spied { word := spyW, filter := some .below }
    (s.spy 0).filterAt = hearthNow s 0 0 ∧ yFilterNs (s.spy 0).word ≠ 0 := by decide
theorem wit_SpyholeSteps_start : ((spied { word := spyW, starting := true }).spy 0).starting = true := by decide
theorem wit_SpyholeSteps_window : ((spied { word := spyW, suppressed := 2 }).spy (130 * 0 + 0)).suppressed ≠ 0 := by decide
theorem wit_FeedHandover_lead : ((fed {} { phase := .lead, sel := some .a }).group 0).phase = .lead ∧
    ((fed {} { phase := .lead, sel := some .a }).group 0).pulling = false := by decide
theorem wit_FeedHandover_break : ((fed {} { phase := .lead, sel := some .a, pulling := true, outgoing := some .a }).group 0).pulling = true := by decide
theorem wit_FeedHandover_gap : let s := fed { word := spyW } { phase := .gap, outgoing := some .b }
    (s.group 0).phase = .gap ∧ (s.group 0).sel = none ∧ bestFeed s 0 = some .a := by decide
theorem wit_FeedHandover_gap_none : let s := fed { word := spyW, st := .below } { phase := .gap, outgoing := some .b }
    (s.group 0).phase = .gap ∧ (s.group 0).sel = none ∧ bestFeed s 0 = none := by decide
theorem wit_FeedHandover_first : let s := fed { word := spyW } {}
    (s.group 0).phase = .idle ∧ fld (s.group 0).word0 60 2 ≠ 0 ∧ bestFeed s 0 = some .a := by decide
theorem wit_FeedHandover_none : let s := fed { word := spyW } { phase := .none }
    (s.group 0).phase = .none ∧ bestFeed s 0 = some .a := by decide
theorem wit_FeedHandover_recharge : let s := fed { word := spyW } { phase := .recharge, sel := some .a, shadow := true }
    (s.group 0).phase = .recharge ∧ (s.group 0).pulling = false ∧ (s.group 0).pendSel = none ∧ (s.group 0).shadow = true ∧
      hearthNow s 0 0 < (s.group 0).makeAt + 20000 := by decide
theorem wit_FeedHandover_shadow : let s : State := { fed { word := spyW } { phase := .tail, sel := some .a, shadow := true } with
      hearths := [(0, { up with tai := 20000 })] }
    (s.group 0).shadow = true ∧ (s.group 0).phase = .tail ∧ (s.group 0).makeAt + 20000 ≤ hearthNow s 0 0 := by decide
theorem wit_FeedHandover_shadow_limit : let s : State := { fed { word := spyW } { phase := .gap, sel := none, shadow := true } with
      hearths := [(0, { up with tai := 1000000 })] }
    (s.group 0).shadow = true ∧ (s.group 0).pendSel = none ∧ (s.group 0).shadowAt + 1000000 ≤ hearthNow s 0 0 := by decide
theorem wit_FeedHandover_release : let w : Warn := { ident := 3, cause := 0, kind := .handover, due := true }
    [w].find? (fun w => w.ident = 3 ∧ w.due) = some w ∧ w.kind ≠ .retracted := by decide
theorem wit_FeedWatch_loss : let s := fed { word := spyW, st := .below, excursion := true } { phase := .confirm, sel := some .a } { word := spyW }
    continuous (s.hearth 0) = true ∧ inExcursion s 0 = true ∧ (s.group 0).pulling = false ∧ (s.group 0).standing = false ∧
      (s.group 0).phase = .confirm ∧ bestFeed (s.updGroup 0 fun G => { G with outgoing := G.sel }) 0 = some .b := by decide
theorem wit_FeedWatch_loss_stands : let s := fed { word := spyW, st := .below, excursion := true } { phase := .confirm, sel := some .a }
    inExcursion s 0 = true ∧ (s.group 0).pendSel = none ∧ bestFeed (s.updGroup 0 fun G => { G with outgoing := G.sel }) 0 = none := by decide
theorem wit_FeedWatch_reverse : ((fed {}).group 0).sel ≠ none ∧ ((fed {} {}).group 0).sel = none ∧ inExcursion (fed {}) 0 = false := by decide
theorem wit_FeedWatch_path : ((fed {}).group 0).pulling = false ∧ ((fed {}).group 0).phase = .steady ∧ ((fed {} {}).group 0).phase = .idle := by decide
theorem wit_FeedWatch_discharge : let G := (fed {} { phase := .lead, pulling := true }).group 0
    G.pulling = true ∧ G.stuck = false := by decide
theorem wit_FeedWatch_overtime : let s : State := { fed {} { phase := .recharge, sel := some .a, limited := true } with
      hearths := [(0, { up with tai := 1000000 })] }
    (s.group 0).phase = .recharge ∧ (s.group 0).limited = true ∧ (s.group 0).shadowAt + 1000000 ≤ hearthNow s 0 250 := by decide
theorem wit_FeedWatch_no_overtime : let s := fed {} { phase := .recharge, sel := some .a, limited := true }
    hearthNow s 0 250 < (s.group 0).shadowAt + 1000000 := by decide
theorem wit_FeedWatch_returns : let s : State := { fed { word := spyW } { phase := .steady, sel := some .b, returnSince := some 0 } with
      hearths := [(0, { up with tai := 2550000000 })] }
    prefer (s.group 0) = some .a ∧ (s.group 0).phase = .steady ∧ (s.group 0).pulling = false ∧ (s.group 0).forced = false ∧
      fld (s.group 0).word0 39 8 ≠ 0 ∧ (s.group 0).sel = some (otherFeed .a) ∧ eligible s 0 .a = true ∧ (s.group 0).returnSince = some 0 ∧
      0 + 10000000 * fld (s.group 0).word0 39 8 ≤ hearthNow s 0 500 := by decide
theorem wit_FeedWatch_short : ((fed {}).group 0).sel ≠ some .b ∧ ((fed {}).group 0).sel = some .a ∧ ((fed {}).group 0).offHighB = false := by decide

/-! The time base and the pair (12, 13, 16). -/
/-- A device in Draw whose 1PPS and 10 MHz inputs are enabled. -/
def timed (T : TimeSt) : State := { draw (one {}) with time := { T with word := 0xD00003E806400000 } }
theorem wit_TimeBase_edge : let T := (timed {}).time
    crownUp (timed {}) = true ∧ tPpsEn T.word = true ∧ T.phased = false ∧ T.armed = none := by decide
theorem wit_TimeBase_in_phase : let T := (timed { phased := true }).time
    let x : Int := ((1000 : BitVec 64).toNat : Int) - tPpsDelay T.word
    (nearSecond x - x).natAbs ≤ 1000 ∧ T.armed = none := by decide
theorem wit_TimeBase_edge_ignored : let T := (timed { phased := true }).time
    let x : Int := ((5000 : BitVec 64).toNat : Int) - tPpsDelay T.word
    tPpsEn T.word = true ∧ ¬ (T.phased = false ∨ (nearSecond x - x).natAbs ≤ 1000) := by decide
theorem wit_TimeBase_armed : (timed { armed := some (1000000000, 5) }).time.armed = some (1000000000, 5) := by decide
theorem wit_TimeBase_no_pps : tPpsEn State.reset.time.word = false := by decide
theorem wit_TimeBase_absent : let T := (timed { tai := 3000000000, phased := true }).time
    tPpsEn T.word = true ∧ T.ppsLost = false ∧ T.lastPps.toNat + 3000000000 ≤ T.tai := by decide
theorem wit_TimeBase_present : State.reset.time.tai < State.reset.time.lastPps.toNat + 3000000000 := by decide
theorem wit_TimeBase_10_mhz : tF10mEn (timed {}).time.word = true ∧ (timed {}).time.f10mLost = false ∧ (timed { f10mLost := true }).time.f10mLost = true := by
  decide
theorem wit_TimeBase_step : (timed { stepDue := 250 }).time.stepDue ≠ 0 ∧ (timed {}).time.stepDue = 0 := by decide
theorem wit_TimeBase_seal : let s := timed {}
    let p := tAuditNs s.time.word
    s.log.running = true ∧ s.boot.cracked = false ∧ p ≠ 0 ∧ (p - s.time.tai % p) % p < 250 ∧ s.log.sealsDue = [] ∧
      s.time.tai + (p - s.time.tai % p) % p < 2 ^ 64 := by decide
theorem wit_TimeBase_no_seal : tAuditNs 0 = 0 := by decide
/-- A seal record that awaits its signature. -/
def sealDue : SealDue :=
  { rec_ := { time := 0, code := 0x1006, cls := 1, unc := 0, seq := 1, source := 0, payload := 0, unset := false, tick := 0, holdover := false, sampled := false },
    num := 1, index := 1, chain := 0, first := 1, state := 1 }
theorem wit_TimeBase_signed : let s : State := { draw (one {}) with log := { running := true, sealsDue := [sealDue] } }
    s.log.sealsDue = sealDue :: [] ∧ s.boot.cracked = false := by decide
/-- A device in Draw with this pair state, the pair enabled with the given further bits of its word. -/
def paired (P : PairSt) (bits : BitVec 64 := 0) : State :=
  { draw (one {}) with pair := { P with word := 0x8000002814000000 ||| bits } }
theorem wit_PairLink_heartbeat : let s := paired {}
    alive s = true ∧ 1 ≤ s.boot.devState.val ∧ s.boot.devState.val ≤ 4 ∧ s.time.tick % 8 = 0 ∧ s.boot.devState = 1 ∧ pairOn s = true := by decide
theorem wit_PairLink_heartbeat_banked : let s : State := { paired {} with boot := { (paired {}).boot with devState := 3 } }
    alive s = true ∧ ¬ (s.boot.devState = 1 ∨ (s.boot.devState = 4 ∧ 5 ≤ s.host.wakeStage)) := by decide
theorem wit_PairLink_returning : let s := paired { state := 5, partnerState := 1, cps := [(0, { held := true })] }
    s.pair.state = 5 ∧ s.pair.partnerState ≠ 3 ∧ noneAdopted s = false := by decide
theorem wit_PairLink_pulse : (100 : Nat) ≤ 400 ∧ (400 : Nat) ≤ 400 ∧ (99 : Nat) < 100 ∧ (400 : Nat) < 401 := by decide
theorem wit_PairLink_lane_silent : let s : State := { paired { laneLive := true, pulseLive := true } with time := { (paired {}).time with tick := 64 } }
    pairOn s = true ∧ s.pair.laneLive = true ∧ s.pair.banked = false ∧ s.pair.laneTick + 64 ≤ s.time.tick ∧ s.pair.pulseLive = true := by decide
theorem wit_PairLink_pulse_silent : let s : State := { paired { laneLive := true, pulseLive := true } with time := { (paired {}).time with tick := 64 } }
    s.pair.pulseTick + 64 ≤ s.time.tick ∧ laneOut s = false := by decide
theorem wit_PairLink_not_silent : State.reset.time.tick < State.reset.pair.laneTick + 64 := by decide
/-- A HELLO of the other side. -/
def hello (side : BitVec 8) : PairHello := { format := 1, side := side, addr := 0, partnerAddr := 0, ident := 7, bookDigest := 9 }
theorem wit_PairLink_hello : pairOn (paired {}) = true ∧ firmwareRuns (paired {}) = true ∧ helloBad (paired {}) (hello 1) = false ∧
    (paired {}).pair.state.val ≤ 2 ∧ (hello 1).bookDigest ≠ (paired {}).books.partnerDigest := by decide
theorem wit_PairLink_hello_bad : helloBad (paired {}) (hello 0) = true := by decide
theorem wit_PairLink_book_part : let s := paired { agreed := true }
    pairOn s = true ∧ firmwareRuns s = true ∧ s.pair.agreed = true ∧ (0 : BitVec 32).toNat = 0 ∧ 0 + [(0 : Byte)].length ≤ 1048576 ∧
      0 + ([(0 : Byte)].take 2036).length < 32 := by decide
theorem wit_PairLink_book_whole : let bs : List Byte := List.replicate 40 0
    let m := tabPut 0 [] 0 (bs.take 2036)
    32 ≤ 0 + (bs.take 2036).length ∧ leAt (tabRun 0 m 0 32) 8 4 ≤ 0 + (bs.take 2036).length := by decide +kernel
theorem wit_PairLink_book_out_of_place : (5 : BitVec 32).toNat ≠ State.reset.books.incomingLen := by decide
theorem wit_PairLink_awake : (paired { banked := true }).pair.banked = true := by decide
theorem wit_PairLink_notice : let s : State := { paired {} with hearths := [(0, { up with saggar := true, held := false })] }
    pairOn s = true ∧ s.boot.devState = 1 ∧ (s.hearth 0).alwaysOn = true ∧ (s.hearth 0).saggar = true ∧
      ¬ ((s.hearth 0).held = true ∧ (s.hearth 0).holder = .cross) ∧ ¬ (s.pair.transfer = true ∧ s.pair.handing = some 0) := by decide
theorem wit_PairLink_reset : let s : State := { paired { state := 5, fresh := true } 0x200000000 with time := { (paired {}).time with tick := 102000000 } }
    pairOn s = true ∧ firmwareRuns s = true ∧ s.pair.state = 5 ∧ pairAutoReset s = true ∧ s.pair.fresh = true ∧ bothSilent s = true ∧
      s.pair.adoptedSince + pairResetTicks s ≤ s.time.tick := by decide
theorem wit_PairLink_no_reset : pairAutoReset (paired {}) = false := by decide
/-- A device with this state of the device and this wake. -/
def waking (d : Fin 8) (H : HostSt := {}) (tick : Nat := 0) : State :=
  { paired {} with boot := { (paired {}).boot with devState := d }, host := H, time := { (paired {}).time with tick := tick } }
theorem wit_PairLink_wake_cause : (waking 3).boot.devState = 3 ∧ (waking 4).boot.devState = 4 ∧ (waking 2).boot.devState = 2 ∧
    (waking 1).boot.devState ≠ 2 ∧ (waking 1).boot.devState ≠ 3 ∧ (waking 1).boot.devState ≠ 4 := by decide
theorem wit_PairLink_banked : let s := waking 2 { bankSrc := some (.mbox 0) }
    s.host.bankSrc = some (.mbox 0) ∧ s.boot.devState = 2 ∧ (srcBox s (.mbox 0)).running = false ∧ s.host.wakeHeld = 0 := by decide
theorem wit_PairLink_wakes : let s := waking 4 {} 160
    s.boot.devState = 4 ∧ s.host.wakeTick + 160 ≤ s.time.tick ∧ (waking 4).time.tick < (waking 4).host.wakeTick + 160 := by decide
/-- A device that has lost its partner, whose hearth 0 it may adopt. -/
def orphan (P : PairSt) : State := paired { P with told := false, cps := [(0, { laneY := { trained := true } })] } 0x80000000000
theorem wit_PairAdoption_silent : let s := orphan { state := 3 }
    pairOn s = true ∧ s.pair.told = false ∧ bothSilent s = true ∧ asleep s = false ∧ canAdopt s = true ∧ pairAdopts s 0 = true ∧ mayAdopt s 0 = true ∧
      s.boot.packed = false := by decide
theorem wit_PairAdoption_silent_none : let s := paired { told := false, state := 3 }
    canAdopt s = true ∧ (∀ i : Hearth, (pairAdopts s i && mayAdopt s i) = false) ∧ (s.pair.cps.any fun p => p.2.held || p.2.claiming) = false ∧
      s.pair.adopting = 0 := by decide
theorem wit_PairAdoption_silent_unpaired : canAdopt (paired { told := false, state := 1 }) = false := by decide
theorem wit_PairAdoption_silent_asleep : let s : State := { paired { told := false } with boot := { (paired {}).boot with devState := 3 } }
    pairOn s = true ∧ bothSilent s = true ∧ asleep s = true ∧ s.boot.devState = 3 := by decide
theorem wit_PairAdoption_claim : let s : State := { paired { cps := [(0, { claiming := true })] } with time := { (paired {}).time with tick := 40 } }
    (s.cp 0).claiming = true ∧ (s.cp 0).claimAt + 40 ≤ s.time.tick ∧ (s.cp 1).claiming = false := by decide
theorem wit_PairAdoption_checkpoint : let s := paired { agreed := true, cps := [(0, { held := true })] }
    pairOn s = true ∧ s.pair.agreed = true ∧ s.boot.devState = 1 ∧ s.time.tick % 2000 = 250 * (0 : Hearth).val ∧ hearthOurs s 0 = true ∧
      (s.cp 0).held = true ∧ (s.cp 1).held = false := by decide
/-- A checkpoint of zeros with its CRC. -/
def zeroCp : List Byte := List.replicate 16576 0 ++ toLe 4 (crc32c (List.replicate 16576 0)).toNat
theorem zeros_then_four (n : Nat) (v : BitVec 32) : (List.replicate n (0 : Byte) ++ toLe 4 v.toNat).length = n + 4 ∧
    leAt (List.replicate n 0 ++ toLe 4 v.toNat) n 4 = v.toNat ∧ (List.replicate n 0 ++ toLe 4 v.toNat).take n = List.replicate n (0 : Byte) := by
  have d : (List.replicate n (0 : Byte) ++ toLe 4 v.toNat).drop n = toLe 4 v.toNat := List.drop_left' List.length_replicate
  refine ⟨by simp only [List.length_append, List.length_replicate, toLe, List.length_cons, List.length_nil], ?_, List.take_left' List.length_replicate⟩
  unfold leAt sliceBytes
  rw [d]
  have := v.isLt
  simp [toLe, ofLe]
  omega
theorem wit_PairAdoption_frame_whole : zeroCp.length = 16580 ∧ leAt zeroCp 16576 4 = (crc32c (zeroCp.take 16576)).toNat := by
  have h := zeros_then_four 16576 (crc32c (List.replicate 16576 0))
  unfold zeroCp
  exact ⟨h.1, by rw [h.2.2, h.2.1]⟩
theorem zeros_slice (k : Nat) (l : List Byte) (off n : Nat) (h : off + n ≤ k) : sliceBytes (List.replicate k 0 ++ l) off n = List.replicate n 0 := by
  have d : ((List.replicate k 0 ++ l).drop off).take n = List.replicate n 0 := by
    rw [List.drop_append_of_le_length (by simp; omega), List.drop_replicate, List.take_append_of_le_length (by simp; omega), List.take_replicate]
    congr 1; omega
  unfold sliceBytes
  rw [d]
  simp only [List.length_replicate, Nat.sub_self, List.replicate_zero, List.append_nil]
theorem wit_PairAdoption_frame_fields : cpKind zeroCp ≠ 1 ∧ cpDigest zeroCp = 0 ∧ cpSeqOf zeroCp = 0 := by
  unfold zeroCp cpKind cpDigest cpSeqOf leAt
  rw [zeros_slice _ _ _ _ (by decide), zeros_slice _ _ _ _ (by decide), zeros_slice _ _ _ _ (by decide)]
  decide
theorem wit_PairAdoption_frame_book : let s : State := { paired {} with books := { State.reset.books with partner := [0], partnerDigest := 0, digest := 1 } }
    (0 : BitVec 384) = s.books.partnerDigest ∧ s.books.partner ≠ [] ∧ (0 : BitVec 384) ≠ s.books.digest ∧ ¬ ((s.cp 0).have_ = true ∧ (0 : BitVec 32) ≤ (s.cp 0).cpSeq) := by
  decide
theorem wit_PairAdoption_frame_missed : ((paired { cps := [(0, { part := 3 })] }).cp 0).part ≠ 255 ∧ (2 : Nat) ≠ 0 ∧ (2 : Nat) ≠ 3 ∧
    ((paired { cps := [(0, { part := 255 })] }).cp 0).part = 255 := by decide
theorem wit_PairAdoption_ready : let P := (paired { handing := some 0 }).pair
    P.handing = some 0 ∧ P.returnDue = false ∧ P.transfer = false ∧ (paired { handing := some 0, transfer := true }).pair.transfer = true ∧ P.handMask = 0 := by
  decide
theorem wit_PairAdoption_ready_asked : let s := paired { state := 7, cps := [(0, { held := true })] }
    s.pair.handing = none ∧ s.pair.state = 7 ∧ (s.cp 0).held = true := by decide
theorem wit_PairAdoption_released : (paired { prepared := 1 }).pair.prepared.getLsbD (0 : Hearth) = true ∧ (paired {}).pair.prepared.getLsbD (0 : Hearth) = false := by
  decide
theorem wit_PairAdoption_request : let s := orphan { state := 3 }
    pairAdopts s 0 = true ∧ canAdopt s = true ∧ asleep s = false ∧ mayAdopt s 0 = true ∧ s.boot.packed = false := by decide
theorem wit_PairAdoption_request_packed : let s : State := { orphan { state := 3 } with boot := { (orphan {}).boot with packed := true } }
    canAdopt s = true ∧ mayAdopt s 0 = true ∧ s.boot.packed = true := by decide
theorem wit_PairAdoption_no_request : pairAdopts (paired {}) 0 = false := by decide
theorem wit_PairAdoption_return : let s : State := { paired { state := 7, cps := [(0, { held := true })] } 0x40000000000 with
      time := { (paired {}).time with tick := 102000000 } }
    pairOn s = true ∧ s.boot.devState = 1 ∧ s.pair.state = 7 ∧ pairReturnAuto s = true ∧ s.pair.handing = none ∧
      s.pair.returnSince + pairReturnTicks s ≤ s.time.tick ∧ (s.cp 0).held = true := by decide
theorem wit_PairAdoption_no_return : pairReturnAuto (paired {}) = false := by decide

/-! The Works (14). -/
/-- A device in Draw, member of a Works with address 5, with this state of lane 0. -/
def member (L : WLaneSt) : State :=
  { draw (one {}) with works := { word0 := 0x805F000000000000, lanes := [(0, L)] } }
theorem wit_WorksLinks_states : worksOn (member {}) = true ∧ ((member { state := .training }).wlane 0).state = .training ∧
    ((member { state := .hello }).wlane 0).state = .hello ∧ ((member { state := .up }).wlane 0).state = .up ∧
    ((member { state := .failed }).wlane 0).state = .failed ∧ ((member { state := .dormant }).wlane 0).state = .dormant := by decide
theorem wit_WorksLinks_room : HasRoom (member { state := .up }) 0 := by unfold HasRoom; decide
theorem wit_WorksLinks_failed : errPresent (member { state := .up }) 0x21C (worksLaneSrc 0) = false ∧
    ({ member { state := .up } with time := { State.reset.time with parent := some 0 } }).time.parent = some 0 := by decide
/-- A HELLO of the same Works, and of another. -/
def whello (id : BitVec 32) (banked : Bool) : WorksHello :=
  { format := 1, addr := 6, worksId := id, ident := 9, lane := 0, asym := 0, banked := banked, excluded := false }
theorem wit_WorksLinks_hello : let s := member { state := .hello }
    ((whello 0 false).format = 1 ∧ (whello 0 false).worksId.toNat = wId s) ∧ (whello 0 false).banked = false ∧ (whello 0 true).banked = true ∧
      ¬ ((whello 1 false).format = 1 ∧ (whello 1 false).worksId.toNat = wId s) := by decide
theorem arrives_member (L : WLaneSt) (h : L.state = .up) : Arrives (member L) 0 L.lseqIn false := ⟨rfl, h, rfl⟩
theorem wit_WorksLinks_arrives : Arrives (member { state := .up }) 0 0 false ∧ (1 : BitVec 16) ≠ ((member { state := .up }).wlane 0).lseqIn :=
  ⟨arrives_member _ rfl, by decide⟩
theorem wit_WorksLinks_periodic : wEnable (member {}) = true ∧ (∀ m ∈ upLanes (member { state := .up }), HasRoom (member { state := .up }) m) ∧
    upLanes (member { state := .up }) ≠ [] :=
  ⟨by decide, by unfold HasRoom; decide, by decide⟩
theorem wit_WorksLinks_changed : let s : State := { member {} with works := { (member {}).works with routeChanged := 3 } }
    s.works.routeChanged ≠ 0 := by decide
theorem wit_WorksLinks_addr : addrEntry (member { state := .up }) 7 3 = none ∧ (29 : Fin 32).val < 30 ∧ 30 ≤ (30 : Fin 32).val := by decide
theorem wit_WorksLinks_addr_old : let s : State := { member { state := .up } with works := { (member { state := .up }).works with addrs := [(7, 3, 9, 0)] } }
    (match addrEntry s 7 3 with | some (c, _) => newerCount c 9 | none => true) = false := by decide
theorem wit_WorksLinks_flood : wEnable (member {}) = true ∧ (member {}).works.excluded = false ∧ wEnable State.reset = false := by decide
/-- A TIMESYNC of the neighbour that answers this device's number 4. -/
def sync : TimeSync := { syncNo := 8, txPrev := 100, rx := 200, rxSyncNo := 4, state := 2, uBase16 := 10, hops := 0, parent := 0xFFFF }
/-- A device whose time comes from this neighbour. -/
def synced (tx : BitVec 64) (T : TimeSt) : State :=
  { member { state := .up, peer := some { sync with syncNo := 7 }, rxSync := 7, deps := [(4, 0)], rxTime := tx } with
    time := { T with word := 0x100003E806400000, parent := some 0 } }
theorem wit_WorksLinks_sync : let s := synced 0 {}
    let L := s.wlane 0
    let u := chooseParent ((acceptNext s 0).updWlane 0 fun L => { L with peer := some sync, rxTime := 300, rxSync := 8 })
    L.state = .up ∧ (tWorks s.time.word = false ∨ s.time.state = 2) = False ∧ (L.deps.find? fun d => d.1 == sync.rxSyncNo) = some (4, 0) ∧
      L.peer ≠ none ∧ L.rxSync + 1 = sync.syncNo ∧ u.time.parent = some 0 := ⟨by decide, by decide, by decide, by decide, by decide, by decide +kernel⟩
theorem wit_WorksLinks_no_works_time : tWorks (timed {}).time.word = true ∧ tWorks 0 = false := by decide
theorem wit_WorksLinks_locks : let s := synced 300 { locked := 15 }
    let u := chooseParent ((acceptNext s 0).updWlane 0 fun L => { L with peer := some sync, rxTime := 300, rxSync := 8 })
    (offset20 s 0 (0 : BitVec 64) sync.rx sync.txPrev (s.wlane 0).rxTime).natAbs ≤ 80 ∧ 15 ≤ u.time.locked ∧ u.time.state ≠ 3 := by decide +kernel
theorem wit_WorksLinks_wild : let s := synced 0 { state := 3, wild := 7 }
    let u := chooseParent ((acceptNext s 0).updWlane 0 fun L => { L with peer := some sync, rxTime := 300, rxSync := 8 })
    2000 < (offset20 s 0 (0 : BitVec 64) sync.rx sync.txPrev (s.wlane 0).rxTime).natAbs ∧ 7 ≤ u.time.wild ∧ u.time.state = 3 := by decide +kernel
/-- A request of 10 for feed 1 by origin 6, to this device or another. -/
def entry (cap : BitVec 16) : LedgerEntry :=
  { feedId := 1, origin := 6, hearth := 2, loc := 0, ident := 3, amount := 10, capacity := cap, tag := 4, reason := 0 }
def hdr (dest : BitVec 11) (hops : BitVec 5 := 0) : WorksHdr := { dest := dest, src := 6, hops := hops, lseq := 0 }
/-- This device keeps feed 1, of capacity 100, and reaches device 6 on lane 0. -/
def keeper : State :=
  { member { state := .up } with works := { (member { state := .up }).works with facility := [0x0001006400A01800], routes := [(6, (1, 0))] } }
theorem keeper_arrives (d : BitVec 11) (p : BitVec 5) : Arrives keeper 0 (hdr d p).lseq (hdr d p).cont := ⟨rfl, rfl, rfl⟩
theorem wit_WorksLedger_mine : Arrives keeper 0 (hdr 5).lseq (hdr 5).cont ∧ (hdr 5).dest.toNat = wAddr keeper ∧ (hdr 5).hops.toNat < 30 :=
  ⟨keeper_arrives _ _, by decide, by decide⟩
theorem wit_WorksLedger_passes_on : (hdr 6).dest.toNat ≠ wAddr keeper ∧ 30 ≤ (hdr 5 30).hops.toNat := by decide
theorem wit_WorksLedger_grants : keptFeed keeper (entry 100).feedId.toNat = some ⟨1, 100, 5, 6⟩ ∧ (entry 100).capacity.toNat = 100 ∧
    commitment keeper 1 + (entry 100).amount.toNat ≤ 8 * 100 := by decide
theorem wit_WorksLedger_answers : wEnable keeper = true ∧ keeper.works.excluded = false ∧ (hdr 5).src.toNat ≠ wAddr keeper ∧
    servingLane keeper (hdr 5).src.toNat = some 0 ∧ HasRoom keeper 0 := ⟨by decide, by decide, by decide, by decide, by unfold HasRoom; decide⟩
theorem wit_WorksLedger_refuses : let s : State := { keeper with works := { keeper.works with totals := [(1, 7, 0, 795)] } }
    keptFeed s (entry 100).feedId.toNat = some ⟨1, 100, 5, 6⟩ ∧ 8 * 100 < commitment s 1 + (entry 100).amount.toNat := by decide
theorem wit_WorksLedger_other_capacity : keptFeed keeper 1 = some ⟨1, 100, 5, 6⟩ ∧ (entry 99).capacity.toNat ≠ 100 := by decide
theorem wit_WorksLedger_not_kept : keptFeed (member { state := .up }) 1 = none := by decide
theorem wit_WorksLedger_requester : let s : State := { member { state := .up } with chans := [(0, { allocTag := some 4 })] }
    tagChan s (entry 100).tag = some 0 ∧ tagChan s 5 = none := by decide
theorem wit_WorksLedger_announce : (keeper.works.retracts.any fun r => r.1 == (1 : BitVec 16)) = false := by decide
theorem wit_WorksLedger_announce_gone : let e := entry 100
    let s : State := { keeper with works := { keeper.works with retracts := [(1, 6, 2, 3, 0)] } }
    (s.works.retracts.any fun r => r.1 == e.feedId && r.2.1 == e.origin && r.2.2.1 == e.hearth && r.2.2.2.1 == e.ident &&
      decide (s.time.tai ≤ r.2.2.2.2 + 1000000)) = true := by decide
theorem wit_WorksLedger_once : ([((1 : BitVec 16), (6 : BitVec 11), (2 : BitVec 4), 5)].filter fun x => x.1 = 1 ∧ x.2.1 = 6 ∧ x.2.2.1 = 2).length ≤ 1 := by
  decide
theorem wit_WorksLedger_passes_capacity : let s : State := { keeper with works := { keeper.works with totals := [(1, 7, 0, 795)] } }
    let t : State := { s with works := { s.works with holds := [{ feedId := 1, origin := 6, hearth := 2, ident := 3, amount := 10 }] } }
    commitment s 1 ≤ 8 * 100 ∧ 8 * 100 < commitment t 1 := by decide
theorem wit_WorksLedger_off : worksOn State.reset = false ∧ alive State.reset = false := by decide
theorem wit_WorksLedger_standing : let s : State := { keeper with works := { keeper.works with
      facility := [0x0001006400C0E000], ledger := [(0, 0x03FF)], routes := [(6, (1, 0))] } }
    alive s = true ∧ s.boot.devState = 1 ∧ wEnable s = true ∧ s.works.excluded = false ∧ facFeed s (⟨0, by decide⟩ : Hearth16) 1 = some ⟨1, 100, 6, 56⟩ ∧
      6 ≠ wAddr s ∧ servingLane s 6 = some 0 := by decide
theorem wit_WorksLedger_unreachable :
    ((((keeper.works.facility ++ keeper.works.facilityP).filterMap facOf).find? fun f => f.id == (1 : BitVec 16).toNat)) = some ⟨1, 100, 5, 6⟩ := by decide
theorem wit_WorksLedger_announces : let s : State := { keeper with
      works := { keeper.works with facility := [0x0001006400C0E000], ledger := [(0, 0xFC0F)], routes := [(6, (1, 0))], announceDue := [(0, 0, 9)], charged := [(0, 1)] },
      feedWord := [(0, 0x5200)] }
    alive s = true ∧ s.works.announceDue = [((0 : Hearth).val, 0, 9)] ∧ tabGet 0 s.works.charged 0 ≠ 0 ∧ tabGet 0 s.works.announced 0 = 0 ∧
      fwShadow s 0 = true ∧ (fwPhase s 0 == phaseCode .none) = false ∧ facFeed s 0 (3 - 1) = some ⟨1, 100, 6, 56⟩ ∧
      askKeeper s ⟨1, 100, 6, 56⟩ ≠ wAddr s ∧ servingLane s 6 = some 0 ∧ (s.wlane 0).unacked.length < 64 := by decide
theorem wit_WorksLedger_hold : let l : List Hold := [{ feedId := 1, origin := 6, hearth := 2, ident := 3, amount := 10 }]
    (l.any fun x => x.feedId == 1 && x.origin == 6 && x.hearth == 2 && x.ident == 3) = true ∧
      (keeper.works.holds.any fun x => x.feedId == 1) = false := by decide
theorem wit_WorksForward_here : Arrives keeper 0 (hdr 5).lseq (hdr 5).cont ∧ ((hdr 5).dest.toNat = wAddr keeper ∧ (hdr 5).hops.toNat < 30) ∧
    ¬ ((hdr 6).dest.toNat = wAddr keeper ∧ (hdr 6).hops.toNat < 30) := ⟨keeper_arrives _ _, by decide, by decide⟩
theorem wit_WorksForward_tags : let last := 8
    (last ≠ 0 ∧ (BitVec.ofNat 32 (last + 0xFFFFFFFF) - (7 : BitVec 32)).toNat < 2 ^ 31) ∧
      ¬ (last ≠ 0 ∧ (BitVec.ofNat 32 (last + 0xFFFFFFFF) - (8 : BitVec 32)).toNat < 2 ^ 31) := by decide
theorem wit_WorksForward_wakes : let s : State := { keeper with boot := { keeper.boot with devState := 3 } }
    alive s = true ∧ s.boot.devState = 3 ∧ (hdr 5).dest.toNat = wAddr s ∧ wLaneEn s (0 : WLane) = true ∧ s.works.excluded = false := by decide
theorem wit_WorksForward_answer : (([((3 : BitVec 32), CmdSrc.mbox 0)]).find? fun p => p.1 == 3) = some (3, .mbox 0) ∧
    (keeper.works.sends.find? fun p => p.1 == 3) = none := by decide
theorem wit_WorksForward_events : let s : State := { keeper with works := { keeper.works with subsIn := [(6, 4)] } }
    tabGet 0 s.works.subsIn (hdr 5).src.toNat = 3 + 1 ∧ 3 < (5 : BitVec 64).toNat ∧ tabGet 0 keeper.works.subsIn 6 = 0 := by decide
theorem wit_WorksForward_reach : reachable keeper (6 : BitVec 11).toNat = true ∧ reachable keeper (7 : BitVec 11).toNat = false := by decide
theorem wit_WorksForward_waits : let s : State := { keeper with works := { keeper.works with fwdTag := [(6, 2)], fwdQ := [(6, 9, [], 0)] } }
    nextFwd s 6 = none ∧ (s.fwdBox (6 : BitVec 11).toNat).running = false ∧
      closestFwd (tabGet 0 s.works.fwdTag (6 : BitVec 11).toNat) (s.works.fwdQ.filter fun q => q.1 == 6) = some 9 := by decide
theorem wit_WorksForward_goes_on : let s : State := { keeper with works := { keeper.works with fwdTag := [(6, 9)], fwdQ := [(6, 9, [], 0)] } }
    (nextFwd s 6).isSome = true := by decide

/-! The host island and the serial ports (16, 17). -/
/-- A device in Draw with this host island. -/
def hosting (H : HostSt := {}) : State := { draw (one {}) with host := H }
theorem wit_HostRegisters_lost : let s := hosting { ringOn := true, mboxes := [(0, { lock := 1, phase := 1, answer := some (0, []) })] }
    crownUp s = true ∧ s.host.hostLost = false ∧ (s.mbox 0).lock = 1 ∧ (s.mbox 0).phase = 1 ∧ (s.mbox 0).answer = some (0, []) := by decide
theorem wit_HostRegisters_returns : let s := hosting { hostLost := true }
    s.host.hostLost = true ∧ portOpen s .pcie = false ∧ portOpen s .spi = true := by decide
theorem wit_HostRegisters_open : portOpen (hosting) .pcie = true ∧ ((hosting).mbox 0).lock ≠ portLock .pcie := by decide
theorem wit_HostRegisters_doorbell : let s := hosting { mboxes := [(0, { lock := 1 })] }
    portOpen s .pcie = true ∧ (s.mbox 0).lock = portLock .pcie ∧ (s.mbox 0).phase ≠ 1 ∧ (s.mbox 0).phase ≠ 3 ∧ s.boot.cracked = false := by decide
theorem wit_HostRegisters_overrun : let s := hosting { mboxes := [(0, { lock := 1, phase := 1 })] }
    (s.mbox 0).lock = portLock .pcie ∧ (s.mbox 0).phase = 1 := by decide
theorem wit_HostRegisters_cracked : let s : State := { hosting { mboxes := [(0, { lock := 1 })] } with boot := { (hosting).boot with cracked := true } }
    portOpen s .pcie = true ∧ (s.mbox 0).lock = portLock .pcie ∧ (s.mbox 0).phase = 0 ∧ s.boot.cracked = true := by decide
theorem wit_HostRegisters_doorbell_wakes : let s : State := { hosting { mboxes := [(0, { lock := 1 })] } with boot := { (hosting).boot with devState := 3 } }
    portOpen s .pcie = true ∧ s.boot.devState = 3 := by decide
theorem wit_HostRegisters_ring : (hosting).host.ringOn = false ∧ (0x8000000A : BitVec 32).getLsbD 31 = true ∧ (hosting { resumeNew := true }).host.resumeNew = true := by
  decide
theorem wit_HostRegisters_offset : (0x12 : BitVec 18).toNat % 4 ≠ 0 := by decide
/-- DEV.FENCE queued in mailbox 0. -/
def fence : Mbox := { lock := 1, phase := 1, length := 8, copy := [2, 1, 0, 0, 0, 0, 0, 0] }
theorem wit_HostRegisters_start : let s := hosting { mboxes := [(0, fence)] }
    hostUp s = true ∧ s.boot.cracked = false ∧ (s.mbox 0).phase = 1 ∧ (s.mbox 0).running = false ∧ s.boot.devState = 1 ∧
      mayStart s (reqOp (s.mbox 0)) (s.mbox 0).arrival = true ∧ startStatus s (.mbox 0) (s.mbox 0) = none := by decide +kernel
theorem wit_HostRegisters_start_refused : startStatus (hosting) (.mbox 0) { fence with length := 9 } = some 0x101 := by decide +kernel
theorem wit_HostRegisters_start_forwarded :
    let s : State := { hosting with works := { word0 := 0x8050000000000000, word1 := 0xFFFFFFFFFFFFFFFF, fwdQ := [(6, 9, fence.copy, 0)] } }
    let q : BitVec 11 × BitVec 32 × List Byte × Nat := (6, 9, fence.copy, 0)
    let N := { s.fwdBox (6 : BitVec 11).toNat with copy := q.2.2.1, length := BitVec.ofNat 16 q.2.2.1.length, arrival := q.2.2.2, phase := 1 }
    nextFwd s 6 = some q ∧ (s.fwdBox (6 : BitVec 11).toNat).running = false ∧ mayStart s (leAt q.2.2.1 0 2) q.2.2.2 = true ∧
      startStatus s (.fwd 6) N = none := by decide +kernel
theorem wit_HostRegisters_done : let s := hosting { mboxes := [(0, { fence with running := true, answer := some (0, [1]) })] }
    s.boot.cracked = false ∧ (s.mbox 0).running = true ∧ (s.mbox 0).answer = some (0, [1]) ∧ reqDma (s.mbox 0) = false ∧ [(1 : Byte)].length ≤ 2032 ∧
      (s.mbox 0).lock = 1 ∧ s.host.hostLost = false ∧ s.host.d3 = false ∧ s.host.msixMask.getLsbD 16 = true := by decide
theorem wit_HostRegisters_done_cracked : let s : State := { hosting { mboxes := [(0, fence)] } with boot := { (hosting).boot with cracked := true } }
    s.boot.cracked = true ∧ (s.mbox 0).phase = 1 ∧ ((hosting).mbox 0).answer = none := by decide
theorem wit_HostRegisters_delivery : let s : State := { hosting { ringOn := true } with log := { running := true, head := 1, recs := [rec3000 1] } }
    ringRuns s = true ∧ ringWaiting s = [(1, rec3000 1)] ∧ s.works.fwdRecs = [] ∧ ringAdmits s 1 (rec3000 1) = true ∧ ringFull s = false ∧
      (s.host.ringGaps.find? fun g => g.1 == (rec3000 1).source.toNat) = none ∧ s.host.coalSeen + 1 < s.host.coalCount.toNat := by decide +kernel
theorem wit_HostRegisters_timer : let s := hosting { ringOn := true, coalSeen := 1 }
    ringRuns s = true ∧ 0 < s.host.coalSeen ∧ ringRuns (hosting) = false := by decide
theorem wit_SerialPorts_read : let alone (b : Nat) := ¬ (0x14 ≤ b ∧ b < 0x18) ∧ ¬ (0x28 ≤ b ∧ b < 0x2C) ∧ ¬ (0x10BC ≤ b ∧ b < 0x10C0)
    hostUp (hosting) = true ∧ ∀ k < 4, alone ((4 : BitVec 24).toNat + k) := by decide
theorem wit_SerialPorts_read_down : let s : State := { hosting with boot := { (hosting).boot with stage := 1 } }
    crownUp s = true ∧ hostUp s = false := by decide
theorem wit_SerialPorts_write : let a := (0x84 : BitVec 24).toNat
    a = (0x84 : BitVec 18).toNat ∧ a % 4 = 0 ∧ spiReach a = true ∧ inRequest a = false ∧ [(1 : Byte), 2, 3, 4].length = 4 := by decide
theorem wit_SerialPorts_write_bad : inRequest (0x85 : BitVec 24).toNat = false ∧ (0x85 : BitVec 24).toNat % 4 ≠ 0 ∧ spiReach 0x2000 = false := by decide
theorem wit_SerialPorts_write_request : let s := hosting { mboxes := [(0, { lock := 2 })] }
    hostUp s = true ∧ (0x10040 : BitVec 24).toNat = 0x10000 + 0x1000 * (0 : MboxNo).val + 0x40 + (0 : Fin 1984).val ∧ (s.mbox 0).lock = 2 := by decide
/-- A device with this page selected on the PMBus. -/
def paged (p : BitVec 8) : State := { hosting with pmb := { page := p } }
theorem wit_SerialPorts_pages : onPage (paged 0) .dev = true ∧ onPage (paged 1) .group = true ∧ onPage (paged 8) .all = true ∧ onPage (paged 9) .all = false ∧
    onPage (paged 0) .group = false ∧ onPage (paged 1) .dev = false := by decide
theorem wit_SerialPorts_access : let rd : PmbAccess := { write := none, pec := none }
    let wr : PmbAccess := { write := some [5], pec := some true }
    rd.write = none ∧ wr.write = some [5] ∧ wr.pec ≠ some false ∧ ({ write := some [5], pec := some false } : PmbAccess).pec = some false := by decide
theorem wit_SerialPorts_means : let x : PmbMeans := { crown := 25 * 256, groups := List.replicate 8 (48000, 1000, 48000, 30 * 256) }
    alive (hosting) = true ∧ (hosting).boot.devState ≠ 3 ∧ x.groups[(0 : Hearth).val]? = some (48000, 1000, 48000, 30 * 256) ∧ x.groups.length = 8 := by decide
theorem wit_SerialPorts_banked : (waking 3).boot.devState = 3 := by decide

/-! Commands of a mailbox (17). -/
/-- Mailbox 0 runs the command of this opcode and body. -/
def asks (op : Nat) (body : List Byte) (s : State) : State :=
  { s with host := { s.host with mboxes := [(0, { running := true, copy := toLe 2 op ++ toLe 6 0 ++ body })] } }
/-- It runs that command, has not answered it, and an answer of up to 2,032 bytes fits. -/
theorem cmdIs_asks (op : Nat) (body : List Byte) (s : State) (n : Nat) (h : op < 65536) (k : s.boot.cracked = false) (l : n ≤ 2032) :
    cmdIs (asks op body s) (.mbox 0) op body = true ∧ bodyFits (srcBox (asks op body s) (.mbox 0)) n = true := by
  have f : reqDma (srcBox (asks op body s) (.mbox 0)) = false := by
    simp [srcBox, State.mbox, asks, reqDma, reqFlags, leAt, sliceBytes, toLe, ofLe, tabGet]
  have o : reqOp (srcBox (asks op body s) (.mbox 0)) = op := by
    simp [srcBox, State.mbox, asks, reqOp, leAt, sliceBytes, toLe, ofLe, tabGet]; omega
  have b : reqBody (srcBox (asks op body s) (.mbox 0)) = body := by unfold reqBody; rw [f]; simp [srcBox, State.mbox, asks, toLe, tabGet]
  have a : (srcBox (asks op body s) (.mbox 0)).running = true ∧ (asks op body s).boot.cracked = false ∧
      (srcBox (asks op body s) (.mbox 0)).answer = none ∧ (srcBox (asks op body s) (.mbox 0)).acted = none := ⟨rfl, k, rfl, rfl⟩
  unfold cmdIs bodyFits
  dsimp only
  rw [f, o, b, a.1, a.2.1, a.2.2.1, a.2.2.2]
  simp [l]
/-- Mailbox 0 of a device runs a command, and its state meets what a statement asks further. -/
def Asked (op : Nat) (body : List Byte) (X : State) (P : State → Prop) : Prop :=
  cmdIs (asks op body X) (.mbox 0) op body = true ∧ P (asks op body X)
theorem asked {op : Nat} {body : List Byte} {X : State} {P : State → Prop} (h : P (asks op body X)) (o : op < 65536 := by decide)
    (k : X.boot.cracked = false := by decide) : Asked op body X P := ⟨(cmdIs_asks op body X 0 o k (by decide)).1, h⟩
/-- Channel 0 configured, in this state. -/
def at_ (A : ChanSt) : State := serving { A with prof := prof [] }
/-- Hearth 8 of the partner, held. -/
def adopted (X : State) : State := { X with pair := { X.pair with cps := [(0, { held := true })] }, hblocks := [(8, 0xC0000000)] }
/-- A device that sees hearth 0 and does not hold it. -/
def seen : State := { one {} { up with held := false } with hblocks := [(0, 1)] }

theorem wit_CommandsRead_summary : Asked 0x0101 [0] (at_ {}) fun s => bodyFits (srcBox s (.mbox 0)) 640 = true := asked (by decide +kernel)
theorem wit_CommandsRead_summary_part : Asked 0x0101 [2] (at_ {}) fun _ => (2 : BitVec 8) ≠ 0 ∧ (2 : BitVec 8) ≠ 0xFF := asked (by decide)
theorem wit_CommandsRead_summary_all : Asked 0x0101 [0xFF] (at_ {}) fun s => reqDma (srcBox s (.mbox 0)) = false := asked (by decide +kernel)
theorem wit_CommandsRead_summary_dma :
    let M : Mbox := { running := true, copy := toLe 2 0x0101 ++ toLe 2 13 ++ toLe 4 1 ++ toLe 8 0x1000 ++ toLe 4 65536 ++ [0xFF] }
    let s := hosting { mboxes := [(0, M)] }
    cmdIs s (.mbox 0) 0x0101 [0xFF] = true ∧ reqDma (srcBox s (.mbox 0)) = true ∧ bodyFits (srcBox s (.mbox 0)) 11376 = true := by decide +kernel
theorem wit_CommandsRead_gone : Asked 0x0204 (toLe 2 0) State.reset fun s => hearthSeen s ((0 : Chan).val / 64) = false := asked (by decide +kernel)
theorem wit_CommandsRead_not_there : Asked 0x0204 (toLe 2 0) (one {}) fun s => ¬ hearthSeen s 0 = false ∧ chanThere s 0 = false := asked (by decide +kernel)
theorem wit_CommandsRead_there : Asked 0x0204 (toLe 2 0) (at_ {}) fun s => ¬ hearthSeen s 0 = false ∧ chanThere s 0 = true ∧ hearthOurs s 0 = true :=
  asked (by decide +kernel)
theorem wit_CommandsRead_slot : Asked 0x0301 [0] { one {} with slots := [(0, { word := 0x40 })] } fun s => ¬ hearthSeen s 0 = false ∧
    slotOn (slotWordOf s 0) = true := asked (by decide +kernel)
theorem wit_CommandsRead_feed_gone : Asked 0x0401 (toLe 1 0) State.reset fun s => hearthSeen s 0 = false := asked (by decide +kernel)
theorem wit_CommandsRead_feed : Asked 0x0401 (toLe 1 0) (one {}) fun s => ¬ hearthSeen s 0 = false ∧ hearthOurs s 0 = true := asked (by decide +kernel)
theorem wit_CommandsRead_not_ours : Asked 0x0801 (toLe 1 0) seen fun s => ¬ hearthSeen s 0 = false ∧ hearthOurs s 0 = false := asked (by decide +kernel)
theorem wit_CommandsRead_record : Asked 0x0803 (toLe 1 0 ++ toLe 1 0) (hked { entries := [(0, entryOn 80)] }) fun s =>
    eOwner ((entriesOf s 0).getD 0 0) ≠ 0 ∧ eOwner ((entriesOf s 0).getD 1 0) = 0 ∧ hearthOurs s 0 = true := asked (by decide +kernel)
theorem wit_CommandsRead_record_not_ours : Asked 0x0803 (toLe 1 0 ++ toLe 1 0) { seen with hks := [(0, { entries := [(0, entryOn 80)] })] } fun s =>
    eOwner ((entriesOf s 0).getD 0 0) ≠ 0 ∧ hearthOurs s 0 = false := asked (by decide +kernel)
theorem wit_CommandsRead_capture : Asked 0x0902 (toLe 1 0 ++ toLe 1 0) { one {} with captures := [(0, { binding := 0x10 })] } fun s =>
    hearthOurs s 0 = true ∧ bitOf (bindingOf s 0 0) 4 = true ∧ bitOf (bindingOf s 0 1) 4 = false ∧ bodyFits (srcBox s (.mbox 0)) 24 = true :=
  asked (by decide +kernel)
theorem wit_CommandsRead_capture_short :
    let M : Mbox := { running := true, copy := toLe 2 0x0902 ++ toLe 2 14 ++ toLe 4 1 ++ toLe 8 0x1000 ++ toLe 4 8 ++ [0, 0] }
    let s : State := { hosting { mboxes := [(0, M)] } with captures := [(0, { binding := 0x10 })] }
    cmdIs s (.mbox 0) 0x0902 [0, 0] = true ∧ hearthOurs s 0 = true ∧ bitOf (bindingOf s 0 0) 4 = true ∧ bodyFits (srcBox s (.mbox 0)) 24 = false := by
  decide +kernel
theorem wit_CommandsRead_twin : Asked 0x0501 (toLe 2 0) (twinned (at_ {})) fun s => twOn ((tabGet [] s.books.twins 0).getD 0 0) = true ∧
    twOn ((tabGet [] s.books.twins 1).getD 0 0) = false := asked (by decide +kernel)
theorem wit_CommandsRead_twin_partner : Asked 0x0501 (toLe 2 256)
    { at_ {} with books := { State.reset.books with twins := [(256, [0x0000600000000000#64])] } } fun s =>
    twOn ((tabGet [] s.books.twins 256).getD 0 0) = true ∧ (chanThere s 512 && chanThere s 513) = false := asked (by decide +kernel)
theorem wit_CommandsRead_sched_error : Asked 0x0602 (toLe 1 2 ++ toLe 4 0 ++ toLe 4 0 ++ hashBytes (Config.sha384 [])) (draw (one {})) fun s =>
    schedJudge s 2 0 0 (Config.sha384 []) = .error .encoding :=
  asked (by
    have h : flashRead (asks 0x0602 (toLe 1 2 ++ toLe 4 0 ++ toLe 4 0 ++ hashBytes (Config.sha384 [])) (draw (one {}))) (customAt + (0 : BitVec 32).toNat)
      (min (0 : BitVec 32).toNat 1048576) = [] := rfl
    have p : parseSched [] = .error .encoding := by decide +kernel
    simp only [schedJudge, loadObject, h, p, ne_eq, not_true_eq_false, ↓reduceIte])
theorem wit_CommandsRead_sched_loaded : Asked 0x0604 [2]
    { draw (one {}) with books := { State.reset.books with
        loaded := [{ id := 2, partner := false, off := 0, len := 0, digest := 0, words := [], worst := [], replay := 0, consts := [] }] } } fun s =>
    (loadedFor s false 2).isSome = true ∧ loadedFor s false 3 = none := asked (by decide +kernel)
theorem wit_CommandsRead_seal : Asked 0x0C02 (toLe 4 1) { draw (one {}) with log := { seals := [(1, [])] } } fun s =>
    (s.log.seals.find? fun p => p.1 == (1 : BitVec 32).toNat) = some (1, []) ∧ (s.log.seals.find? fun p => p.1 == 2) = none := asked (by decide +kernel)
theorem wit_CommandsRead_ledger : Asked 0x0E05 (toLe 2 1) keeper fun s => keptFeed s (1 : BitVec 16).toNat = some ⟨1, 100, 5, 6⟩ ∧ keptFeed s 2 = none :=
  asked (by decide +kernel)
theorem wit_CommandsRead_forwarded :
    let s : State := { keeper with works := { keeper.works with fwdQ := [(6, 9, [], 0)] } }
    (s.works.fwdQ.find? fun q => q.1.toNat == (6 : BitVec 11).toNat && q.2.2.2 == (s.fwdBox (6 : BitVec 11).toNat).arrival) = some (6, 9, [], 0) ∧
      (6 : BitVec 11).toNat ≠ wAddr s ∧ wEnable s = true ∧ s.works.excluded = false ∧ servingLane s (6 : BitVec 11).toNat = some 0 := by decide +kernel

theorem wit_CommandsAct_reset : Asked 0x0103 (toLe 4 0xA55A ++ toLe 1 0) (at_ { obs := .off }) fun s => unprotected s = false := asked (by decide +kernel)
theorem wit_CommandsAct_reset_protected : Asked 0x0103 (toLe 4 0xA55A ++ toLe 1 0) (at_ { obs := .good }) fun s => unprotected s = true :=
  asked (by decide +kernel)
/-- A device that holds all eight hearths. -/
def whole : State := { draw (one {}) with hearths := (List.range 8).map fun h => (h, up) }
theorem wit_CommandsAct_bank : Asked 0x0104 [] whole fun s => bankBusy s = false := asked (by decide +kernel)
theorem wit_CommandsAct_bank_busy : Asked 0x0104 [] (at_ {}) fun s => bankBusy s = true := asked (by decide +kernel)
theorem wit_CommandsAct_not_ours : Asked 0x0201 (toLe 2 0) seen fun s => hearthOurs s ((0 : Chan).val / 64) = false := asked (by decide +kernel)
theorem wit_CommandsAct_there (x : ChState) : Asked 0x0201 (toLe 2 0) (at_ { obs := x }) fun s =>
    (hearthOurs s ((0 : Chan).val / 64) = true ∧ chanThere s (0 : Chan).val = true) ∧ (s.chan 0).obs = x :=
  asked (by cases x <;> decide +kernel) (by decide) (by cases x <;> decide)
theorem wit_CommandsAct_select : Asked 0x0402 (toLe 1 0 ++ toLe 1 1) (fed { word := spyW } {}) fun s => hearthOurs s 0 = true ∧
    eligible s 0 .a = true ∧ eligible s 0 .b = false := asked (by decide +kernel)
theorem wit_CommandsAct_select_adopted : Asked 0x0402 (toLe 1 8 ++ toLe 1 1) (adopted (at_ {})) fun s => hearthOurs s 8 = true := asked (by decide +kernel)
theorem wit_CommandsAct_clear : Asked 0x0403 (toLe 1 0 ++ toLe 1 1) { fed {} { barA := true } with hearths := [(0, { up with tai := 1000000 })] } fun s =>
    hearthOurs s 0 = true ∧ barred (s.group 0) .a = true ∧ offLow s 0 .a = true ∧ barred (s.group 0) .b = false := asked (by decide +kernel)
theorem wit_CommandsAct_clear_high : Asked 0x0403 (toLe 1 0 ++ toLe 1 1) (fed {} { barA := true, offHighA := true }) fun s =>
    barred (s.group 0) .a = true ∧ offLow s 0 .a = false := asked (by decide +kernel)
theorem wit_CommandsAct_clear_adopted : Asked 0x0403 (toLe 1 8 ++ toLe 1 1) { adopted (at_ {}) with feedWord := [(8, 0x100)] } fun s =>
    hearthOurs s 8 = true ∧ bitOf (tabGet (0 : BitVec 16) s.feedWord 8) 8 = true ∧ bitOf (tabGet (0 : BitVec 16) s.feedWord 8) 7 = false :=
  asked (by decide +kernel)
theorem wit_CommandsAct_warn : Asked 0x0404 (toLe 1 0 ++ toLe 1 1) { one {} with groups := [(0, { word1 := 0x800000000 })] } fun s =>
    hearthOurs s 0 = true ∧ fld (feedWordOf s 0 1) 34 2 = 2 ∧ fld (feedWordOf State.reset 0 1) 34 2 ≠ 2 := asked (by decide +kernel)
/-- An entry in the host's hands that converts one input by SINGLE. -/
def entryHost (inp : Nat) : BitVec 64 := BitVec.ofNat 64 (inp <<< 57 + 20 <<< 41 + 6 <<< 13)
theorem wit_CommandsAct_hkc_bad : Asked 0x0802 (toLe 1 0 ++ toLe 1 0 ++ toLe 6 0 ++ toLe 8 0) (hked {}) fun s => hkcJudge s 0 0 0 ≠ 0 :=
  asked (by decide +kernel)
theorem wit_CommandsAct_hkc : Asked 0x0802 (toLe 1 0 ++ toLe 1 0 ++ toLe 6 0 ++ toLe 8 (entryHost 80).toNat)
    (hked { entries := [(0, entryHost 80)] }) fun s => hearthOurs s 0 = true ∧ hkcJudge s 0 0 (entryHost 80) = 0 := asked (by decide +kernel)
theorem wit_CommandsAct_trigger : Asked 0x0804 (toLe 1 0) (one {}) fun s => hearthOurs s 0 = true := asked (by decide +kernel)
theorem wit_CommandsAct_spy : Asked 0x0901 (toLe 1 0 ++ toLe 1 0 ++ toLe 6 0 ++ toLe 8 spyW.toNat) (spied { word := spyW }) fun s =>
    hearthOurs s 0 = true ∧ spyJudge s 0 0 spyW = 0 ∧ spyJudge s 0 0 (spyW ||| 0x100000000) ≠ 0 := asked (by decide +kernel)
theorem wit_CommandsAct_ack : Asked 0x0A04 (toLe 2 1) { draw (one {}) with coll := { shards := [fatalShard] } } fun s =>
    (s.coll.shards.find? fun x => x.id == 1 && x.latched) = some fatalShard ∧ fatalShard.present = true ∧
      (s.coll.shards.find? fun x => x.id == 2 && x.latched) = none := asked (by decide +kernel)
theorem wit_CommandsAct_ack_over : let x := { fatalShard with present := false }
    ([x].find? fun y => y.id == 1 && y.latched) = some x ∧ x.present = false := by decide
theorem wit_CommandsAct_reset_source : srcType (0x1000 : BitVec 16).toNat ∉ [3, 5, 8] ∧ srcType (0x8010 : BitVec 16).toNat = 8 ∧ 16 ≤ srcIdx (0x8010 : BitVec 16).toNat := by
  decide
theorem wit_CommandsAct_reset_cluster : Asked 0x0A05 (toLe 2 0x8003 ++ toLe 1 0) (at_ {}) fun s => srcType (0x8003 : BitVec 16).toNat = 8 ∧
    srcIdx (0x8003 : BitVec 16).toNat = 3 ∧ (s.chans.map (·.1)).any (holdsCluster s 3) = false ∧ (s.chans.map (·.1)).any (holdsCluster s 0) = true :=
  asked (by decide +kernel)
theorem wit_CommandsAct_reset_hearth : Asked 0x0A05 (toLe 2 0x3000 ++ toLe 1 0) (one {}) fun s => srcType (0x3000 : BitVec 16).toNat = 3 ∧
    (s.hearth 0).logic = true ∧ takesReset (s.hearth 0) .loc = true ∧ ¬ ((s.hearth 0).held = true ∧ (s.hearth 0).holder = .cross) ∧
    carriesLoad s 0 = false := asked (by decide +kernel)
theorem wit_CommandsAct_reset_hearth_loaded : Asked 0x0A05 (toLe 2 0x3000 ++ toLe 1 0) (at_ { obs := .good }) fun s => carriesLoad s 0 = true ∧
    takesReset (s.hearth 0) .loc = true := asked (by decide +kernel)
theorem wit_CommandsAct_reset_hearth_lent : Asked 0x0A05 (toLe 2 0x3000 ++ toLe 1 0) (one {} { up with holder := .cross }) fun s =>
    (s.hearth 0).held = true ∧ (s.hearth 0).holder = .cross := asked (by decide +kernel)
theorem wit_CommandsAct_reset_hearth_saggar : Asked 0x0A05 (toLe 2 0x3000 ++ toLe 1 0) (one {} { up with saggar := true }) fun s =>
    ¬ ((s.hearth 0).held = true ∧ (s.hearth 0).holder = .cross) ∧ takesReset (s.hearth 0) .loc = false := asked (by decide +kernel)
theorem wit_CommandsAct_reset_partner : Asked 0x0A05 (toLe 2 0x3008 ++ toLe 1 0) (adopted (at_ {})) fun s => srcIdx (0x3008 : BitVec 16).toNat = 8 ∧
    hearthOurs s 8 = true ∧ carriesLoad s 8 = false ∧ hearthOurs s 9 = false := asked (by decide +kernel)
theorem wit_CommandsAct_reset_partner_loaded : Asked 0x0A05 (toLe 2 0x3008 ++ toLe 1 0) { adopted (at_ {}) with chans := [(512, { prof := prof [], obs := .good })] } fun s =>
    hearthOurs s 8 = true ∧ carriesLoad s 8 = true := asked (by decide +kernel)
theorem wit_CommandsAct_reset_lane : Asked 0x0A05 (toLe 2 0x5001 ++ toLe 1 0) (one {}) fun s => srcType (0x5001 : BitVec 16).toNat = 5 ∧
    srcIdx (0x5001 : BitVec 16).toNat = 1 ∧ (s.hearth 0).active ≠ 1 ∧ (s.hearth 0).active = 0 := asked (by decide +kernel)
theorem wit_CommandsAct_time : Asked 0x0B01 (toLe 8 5 ++ toLe 4 1) (timed {}) fun s => s.time.state ≠ 2 ∧ s.time.state ≠ 3 ∧ tPpsEn s.time.word = true :=
  asked (by decide +kernel)
theorem wit_CommandsAct_time_at_once : Asked 0x0B01 (toLe 8 5 ++ toLe 4 1) (at_ {}) fun s => s.time.state ≠ 2 ∧ s.time.state ≠ 3 ∧
    tPpsEn s.time.word = false := asked (by decide +kernel)
theorem wit_CommandsAct_time_locked : Asked 0x0B01 (toLe 8 5 ++ toLe 4 1) (timed { state := 2 }) fun s => s.time.state = 2 := asked (by decide +kernel)
theorem wit_CommandsAct_resume : Asked 0x0C01 (toLe 1 1 ++ toLe 1 1 ++ toLe 2 0 ++ []) (at_ {}) fun s => s.host.ringOn = false ∧ (1 : Fin 3) ≠ 0 ∧
    (srcBox s (.mbox 0)).snapshot = [] := asked (by decide +kernel)
theorem wit_CommandsAct_resume_ring_on : (hosting { ringOn := true }).host.ringOn = true := by decide
theorem wit_CommandsAct_return : Asked 0x0D02 [] (paired { state := 7, cps := [(0, { held := true })] }) fun s => s.pair.state = 7 ∧ handRuns s = false ∧
    adoptedMask s ≠ 0 := asked (by decide +kernel)
theorem wit_CommandsAct_return_asked : Asked 0x0D02 [] { paired { partnerState := 7 } with hblocks := [(0, 0xC0000000)] } fun s => ¬ s.pair.state = 7 ∧
    s.pair.partnerState = 7 ∧ BitVec.ofNat 8 (lentMask s) ≠ 0 ∧ handRuns s = false := asked (by decide +kernel)
theorem wit_CommandsAct_return_none : Asked 0x0D02 [] (paired {}) fun s => ¬ s.pair.state = 7 ∧ s.pair.partnerState ≠ 7 := asked (by decide +kernel)
theorem wit_CommandsAct_return_busy : Asked 0x0D02 [] (paired { state := 7, handing := some 0 }) fun s => s.pair.state = 7 ∧ handRuns s = true :=
  asked (by decide +kernel)
theorem wit_CommandsAct_transfer : Asked 0x0D03 [1] (paired { state := 3 }) fun s => (∀ j : Hearth, (1 : BitVec 8).getLsbD j = true → hearthOurs s j = true) ∧
    s.pair.state = 3 ∧ handRuns s = false ∧ (1 : BitVec 8) ≠ 0 := asked (by decide +kernel)
theorem wit_CommandsAct_transfer_not_held : Asked 0x0D03 [2] (paired { state := 3 }) fun s => ¬ ∀ j : Hearth, (2 : BitVec 8).getLsbD j = true → hearthOurs s j = true :=
  asked (by decide +kernel)
theorem wit_CommandsAct_transfer_unpaired : Asked 0x0D03 [1] (paired {}) fun s => s.pair.state ≠ 3 := asked (by decide +kernel)
theorem wit_CommandsAct_transfer_busy : Asked 0x0D03 [1] (paired { state := 3, handing := some 0 }) fun s => handRuns s = true := asked (by decide +kernel)
theorem wit_CommandsAct_part_reset : Asked 0x0D04 [] (paired { state := 1 }) fun s => s.pair.state ≠ 0 ∧ s.pair.laneLive = false ∧ s.pair.pulseLive = false :=
  asked (by decide +kernel)
theorem wit_CommandsAct_part_reset_live : Asked 0x0D04 [] (paired { state := 1, laneLive := true }) fun s => s.pair.state ≠ 0 ∧
    ¬ (s.pair.laneLive = false ∧ s.pair.pulseLive = false) ∧ (paired {}).pair.state = 0 := asked (by decide +kernel)
theorem wit_CommandsAct_send : Asked 0x0E02 (toLe 2 6 ++ toLe 2 0 ++ fence.copy) keeper fun s => leAt fence.copy 0 2 ≠ 0x0E02 ∧ wEnable s = true ∧
    s.works.excluded = false ∧ reachable s (6 : BitVec 16).toNat = true ∧ (6 : BitVec 16).toNat ≠ wAddr s ∧ servingLane s (6 : BitVec 16).toNat = some 0 :=
  asked (by decide +kernel)
theorem wit_CommandsAct_send_in_send : leAt (toLe 2 0x0E02 ++ toLe 6 0) 0 2 = 0x0E02 := by decide
theorem wit_CommandsAct_send_alone : Asked 0x0E02 (toLe 2 6 ++ toLe 2 0 ++ fence.copy) (at_ {}) fun s => ¬ (wEnable s = true ∧ s.works.excluded = false) :=
  asked (by decide +kernel)
theorem wit_CommandsAct_send_far : Asked 0x0E02 (toLe 2 7 ++ toLe 2 0 ++ fence.copy) keeper fun s => reachable s (7 : BitVec 16).toNat = false :=
  asked (by decide +kernel)
theorem wit_CommandsAct_subscribe : Asked 0x0E03 (toLe 2 6 ++ toLe 2 0 ++ toLe 8 1) keeper fun s => wEnable s = true ∧ s.works.excluded = false ∧
    reachable s (6 : BitVec 16).toNat = true ∧ (6 : BitVec 16).toNat ≠ wAddr s := asked (by decide +kernel)
theorem wit_CommandsAct_subscribe_forwarded :
    let q := toLe 2 5 ++ toLe 2 0 ++ toLe 8 1
    let s : State := { keeper with host := { fwd := [(6, { running := true, copy := toLe 2 0x0E03 ++ toLe 6 0 ++ q })] } }
    cmdIs s (.fwd 6) 0x0E03 q = true ∧ bodyFits (srcBox s (.fwd 6)) 0 = true ∧ (5 : BitVec 16).toNat = wAddr s := by decide +kernel
theorem wit_CommandsAct_unsubscribe : Asked 0x0E04 (toLe 2 6) { keeper with works := { keeper.works with subsIn := [(6, 3)] } } fun s =>
    tabGet 0 s.works.subsIn (6 : BitVec 16).toNat ≠ 0 ∧ tabGet 0 s.works.subsIn 7 = 0 := asked (by decide +kernel)
theorem wit_CommandsAct_unsubscribe_forwarded :
    let s : State := { keeper with works := { keeper.works with subsOut := [(6, 3)] }, host := { fwd := [(6, { running := true, copy := toLe 2 0x0E04 ++ toLe 6 0 ++ toLe 2 5 })] } }
    cmdIs s (.fwd 6) 0x0E04 (toLe 2 5) = true ∧ (5 : BitVec 16).toNat = wAddr s ∧ tabGet 0 s.works.subsOut (6 : BitVec 11).toNat ≠ 0 ∧
      (4 : BitVec 16).toNat ≠ wAddr s := by decide +kernel

theorem wit_CommandsStore_inside : Asked 0x0601 (toLe 4 0 ++ [1, 2]) (at_ {}) fun _ => (0 : BitVec 32).toNat + [(1 : Byte), 2].length ≤ 1048576 ∧
    ¬ (0xFFFFF : BitVec 32).toNat + [(1 : Byte), 2].length ≤ 1048576 := asked (by decide)
theorem wit_CommandsStore_no_schedule : (0 : BitVec 8) = 0 ∧ (2 : BitVec 8) ≠ 0 ∧ (2 : BitVec 8) ≠ 1 ∧
    (∃ x, schedJudge (draw (one {})) 2 0 0 (Config.sha384 []) = .error x) := by
  refine ⟨rfl, by decide, by decide, .encoding, ?_⟩
  have h : flashRead (draw (one {})) (customAt + (0 : BitVec 32).toNat) (min (0 : BitVec 32).toNat 1048576) = [] := rfl
  have p : parseSched [] = .error .encoding := by decide +kernel
  simp only [schedJudge, loadObject, h, p, ne_eq, not_true_eq_false, ↓reduceIte]
theorem wit_CommandsStore_users : ((schedUsers (at_ { obs := .good }) 1).all fun c => chanIn (at_ { obs := .good }) c [.vacant, .seated, .off, .locked]) = false ∧
    ((schedUsers (at_ { obs := .off }) 1).all fun c => chanIn (at_ { obs := .off }) c [.vacant, .seated, .off, .locked]) = true := by decide +kernel
/-- A Book of one section, the time word. -/
def oneSec : List Byte := toLe 8 0x100003E806400000
def smallBook : List Byte :=
  let dir := toLe 2 7 ++ toLe 2 0 ++ toLe 4 48 ++ toLe 4 8 ++ toLe 4 (crc32c oneSec).toNat
  let head := toLe 2 1 ++ toLe 2 0 ++ toLe 2 1 ++ toLe 2 0 ++ toLe 4 56 ++ toLe 4 1 ++ toLe 4 (crc32c dir).toNat
  head ++ toLe 4 (crc32c head).toNat ++ toLe 8 0 ++ dir ++ oneSec
theorem wit_CommandsStore_commit_bad : (checkBook (draw (one {})) [] none false).isOk = false ∧ (parseBook []).isOk = false := by decide +kernel
theorem wit_CommandsStore_commit : (checkBook (draw (one {})) smallBook none false).isOk = true ∧ (parseBook smallBook).isOk = true := by decide +kernel
theorem wit_CommandsStore_commit_signed : (checkBook ((draw (one {})).setFuses (BitVec.ofNat 2560 (2 ^ 72))) smallBook none false).isOk = false := by
  decide +kernel
theorem wit_CommandsStore_not_busy : (match parseBook smallBook with | .ok k => commitBusy (at_ { obs := .off }) k | .error _ => true) = false := by
  decide +kernel
theorem wit_CommandsStore_not_genuine : Asked 0x1002 [] { at_ {} with boot := { (at_ {}).boot with badA := true, badB := true } } fun s =>
    imgGenuine s true = false := asked (by decide +kernel)
/-- Whether an image is genuine rests on functions without a body (Config.sha384, Config.ecdsaVerify): where they accept it, the image decides
alone whether its number meets the fuses. -/
theorem wit_CommandsStore_rollback : rollback State.reset ≤ imgSvn State.reset true ∧
    imgSvn State.reset true < rollback (State.reset.setFuses (BitVec.allOnes 2560)) + 65536 := by decide +kernel
theorem wit_CommandsStore_activate : Asked 0x1003 [1] { at_ { obs := .off } with boot := { (at_ {}).boot with verified := true } } fun s =>
    s.boot.verified = true ∧ unprotected s = false ∧ (bootRec s).seq + 1 < 2 ^ 64 := asked (by decide +kernel)
theorem wit_CommandsStore_activate_protected : Asked 0x1003 [1] { at_ { obs := .good } with boot := { (at_ {}).boot with verified := true } } fun s =>
    s.boot.verified = true ∧ unprotected s = true ∧ (at_ {}).boot.verified = false := asked (by decide +kernel)
theorem wit_CommandsStore_ratchet : Asked 0x1004 [0] { at_ {} with boot := { (at_ {}).boot with badA := true, badB := true } } fun s =>
    ¬ (imgUsable s true = true ∧ imgSvn s true < imgSvn s false) := asked (by decide +kernel)
theorem wit_CommandsStore_extend : Asked 0x1103 (hashBytes 0) (at_ {}) fun s => s.boot.slots.length = 8 := asked (by decide +kernel)

/-! The spec's numbers. -/
/-- CRC-32C of the nine digits, its published check value (01 R19 names the CRC). -/
theorem test_crc32c : crc32c [0x31, 0x32, 0x33, 0x34, 0x35, 0x36, 0x37, 0x38, 0x39] = 0xE3069283 := by decide +kernel
/-- The worked example of 10 R280: 2.0 A and 60 A through a 1 mΩ shunt are the codes 0x014 and 0x258. -/
theorem test_iset_code : let A : ChanSt := { prof := [BitVec.ofNat 64 (1000 * 2 ^ 42)] }
    isetCode A 1024 = 0x014 ∧ isetCode A 30720 = 0x258 := by decide +kernel
/-- Its DIV: 96 W over 48 V is 2.0 A. -/
theorem test_div_fold : regGet (((after (.opDiv 0 1 2 3 15 .down) (eng (regs3 0 49152 1572864))).engine 0)) 1 = 1024 := by decide +kernel
/-- The curve of the worked example of 04 R105, P0 to P7. -/
def curve48 : List (Nat × Nat) :=
  [(0x160, 10000000), (0x180, 2000000), (0x1A0, 500000), (0x1C0, 100000), (0x1E0, 20000), (0x200, 5000), (0x220, 1000), (0x240, 200)]
/-- At 50 A it trips after 3,200,000 ticks: at a rate of 1.25 /s. At 40 A it drains. -/
theorem test_curve_rate : (match curveRise curve48 (50 * 512) with | some r => decide (2 ^ 46 ≤ 3200000 * r) && decide (3199000 * r < 2 ^ 46) | none => false) = true ∧
    curveRise curve48 (40 * 512) = none := by decide +kernel
/-- The retry word at reset: back-offs of 100, 200, 400 ms (04 R115). -/
theorem test_backoff : let w : BitVec 64 := BitVec.ofNat 64 (100 * 2 ^ 52 + 3 * 2 ^ 48)
    backoffTicks w 1 = 400000 ∧ backoffTicks w 2 = 800000 ∧ backoffTicks w 3 = 1600000 ∧ backoffTicks w 5 = 3200000 := by decide
/-- READ_IIN of 200 A and READ_TEMPERATURE_1 of 62.5 °C (16 R434). -/
theorem test_linear11 : lin11 200 1 = 0xF320 ∧ lin11 8000 128 = 0xE3E8 := by decide +kernel
/-- A device of side 0 that knows claim 5 claims with 6 (13 R359's worked example); claims at Draw with 2. -/
theorem test_next_claim : nextClaim 5 0 = 6 ∧ nextClaim 0 0 = 2 := by decide
/-- 20.1 ns of U_BASE are 322 sixteenths, rounded up, and a child holds 22.4 ns (14 R375's worked example). -/
theorem test_u_base : let s : State := { draw (one {}) with time := { state := 2, uBase := 1608 } }
    uBase16 s 16 = 322 ∧ rankOf { sync with uBase16 := 322 } = 5 * 322 + 184 := by decide
/-- No word of the table carries bits. -/
theorem test_no_words (n w : Nat) : decodeTableWord n w = none := rfl
/-- A step runs the command in front: a forced reset leaves the queue behind it. -/
theorem test_step_front : step { eng {} with pending := [.opNop 0, .opEnd 0] } = exec (.opNop 0) { eng {} with pending := [.opEnd 0] } := rfl

/-! WellFormed: at each bound a command that is taken and one that is refused. -/
def zerosB (n : Nat) : List Byte := List.replicate n 0
def bisque (n : Nat) : Instr := .bisqueEnd { fuses := 0, rom := [], trims := zerosB n, selfTest := true, pll := true, trimOk := 0xFF, lanes := 0, flashAnswers := true }
theorem wf_bisqueEnd : (bisque 512).wf = true ∧ (bisque 511).wf = false := by decide +kernel
def tickOf (a b : Nat) : Instr :=
  .hearthTick 0 { cur := List.replicate a .above, volt := List.replicate b .above, gateOff := 0, gateFull := 0 }
theorem wf_hearthTick : (tickOf 32 8).wf = true ∧ (tickOf 31 8).wf = false ∧ (tickOf 32 9).wf = false := by decide +kernel
def sampleOf (b0 : BitVec 64) (n : Nat) : Instr := .sampleFrame 0 0 (b0 :: List.replicate n 0) false
theorem wf_sampleFrame : (sampleOf 0 11).wf = true ∧ (sampleOf 0 12).wf = false ∧ (sampleOf 0x40 12).wf = true ∧ (sampleOf 0x40 11).wf = false := by
  decide +kernel
theorem wf_stateFrame : (Instr.stateFrame 0 (List.replicate 64 0) 0).wf = true ∧ (Instr.stateFrame 0 (List.replicate 63 0) 0).wf = false := by decide +kernel
theorem wf_eventFrame : (Instr.eventFrame 0 (List.replicate 63 (rec3000 0))).wf = true ∧ (Instr.eventFrame 0 []).wf = false ∧
    (Instr.eventFrame 0 (List.replicate 64 (rec3000 0))).wf = false := by decide +kernel
theorem wf_paramEnvelopeWrite : (Instr.paramEnvelopeWrite 0 .loc 0 { word := 0, points := List.replicate 8 (0, 0) }).wf = true ∧
    (Instr.paramEnvelopeWrite 0 .loc 0 { word := 0, points := List.replicate 7 (0, 0) }).wf = false := by decide +kernel
theorem wf_paramConfigWrite : (Instr.paramConfigWrite 0 .loc (.hkNtc (List.replicate 17 0))).wf = true ∧
    (Instr.paramConfigWrite 0 .loc (.hkNtc (List.replicate 16 0))).wf = false := by decide +kernel
theorem wf_sampledTick : (Instr.sampledTick 0 (List.replicate 130 .inside) 0 0).wf = true ∧ (Instr.sampledTick 0 (List.replicate 129 .inside) 0 0).wf = false := by
  decide +kernel
theorem wf_checkpointFrame : (Instr.checkpointFrame 0 8 9 (zerosB 2032)).wf = true ∧ (Instr.checkpointFrame 0 9 9 []).wf = false ∧
    (Instr.checkpointFrame 0 0 256 []).wf = false ∧ (Instr.checkpointFrame 0 0 9 (zerosB 2033)).wf = false := by decide +kernel
theorem wf_bookFrame : (Instr.bookFrame 0 (zerosB 2036)).wf = true ∧ (Instr.bookFrame 0 []).wf = false ∧ (Instr.bookFrame 0 (zerosB 2037)).wf = false := by
  decide +kernel
theorem wf_route : (Instr.route 0 0 (List.replicate 2048 0)).wf = true ∧ (Instr.route 0 0 (List.replicate 2047 0)).wf = false := by decide +kernel
theorem wf_commandFrame : (Instr.commandFrame 0 (hdr 5) 0 (zerosB 2036)).wf = true ∧ (Instr.commandFrame 0 (hdr 5) 0 (zerosB 2037)).wf = false := by
  decide +kernel
theorem wf_responseFrame : (Instr.responseFrame 0 (hdr 5) 0 0 (zerosB 2034)).wf = true ∧ (Instr.responseFrame 0 (hdr 5) 0 0 (zerosB 2035)).wf = false := by
  decide +kernel
theorem wf_worksEventFrame : (Instr.worksEventFrame 0 (hdr 5) 0 (List.replicate 60 (rec3000 0))).wf = true ∧
    (Instr.worksEventFrame 0 (hdr 5) 0 (List.replicate 61 (rec3000 0))).wf = false := by decide +kernel
theorem wf_mboxDoorbell : (Instr.mboxDoorbell .spi 0 8 0 (zerosB 8)).wf = true ∧ (Instr.mboxDoorbell .spi 0 7 0 (zerosB 7)).wf = false ∧
    (Instr.mboxDoorbell .spi 0 8 0 (zerosB 1985)).wf = false := by decide +kernel
theorem wf_spi : (Instr.spiRead 0 1).wf = true ∧ (Instr.spiRead 0 0).wf = false ∧ (Instr.spiQuadRead 0 0).wf = false ∧ (Instr.spiWrite 0 [0]).wf = true ∧
    (Instr.spiWrite 0 []).wf = false ∧ (Instr.spiQuadWrite 0 []).wf = false := by decide
theorem wf_pmbus (a : PmbAccess) : (Instr.page a).wf = accWf a ∧ (Instr.clearFaults a).wf = accWf a ∧ (Instr.capability a).wf = accWf a ∧ (Instr.voutMode a).wf = accWf a ∧
    (Instr.statusByte a).wf = accWf a ∧ (Instr.statusWord a).wf = accWf a ∧ (Instr.statusInput a).wf = accWf a ∧
    (Instr.statusTemperature a).wf = accWf a ∧ (Instr.statusCml a).wf = accWf a ∧ (Instr.statusMfrSpecific a).wf = accWf a ∧
    (Instr.readVin a).wf = accWf a ∧ (Instr.readIin a).wf = accWf a ∧ (Instr.readVout a).wf = accWf a ∧
    (Instr.readTemperature1 a).wf = accWf a ∧ (Instr.readTemperature2 a).wf = accWf a ∧ (Instr.readPin a).wf = accWf a ∧
    (Instr.pmbusRevision a).wf = accWf a ∧ (Instr.mfrId a).wf = accWf a ∧ (Instr.mfrModel a).wf = accWf a ∧
    (Instr.mfrRevision a).wf = accWf a ∧ (Instr.mfrSerial a).wf = accWf a ∧ (Instr.mfrChannelState a).wf = accWf a ∧
    (Instr.mfrFsw a).wf = accWf a ∧ (Instr.mfrBootStatus a).wf = accWf a ∧ (Instr.mfrFeedStatus a).wf = accWf a ∧
    (Instr.pmbusUnsupportedCommand 0 a).wf = accWf a :=
  ⟨rfl, rfl, rfl, rfl, rfl, rfl, rfl, rfl, rfl, rfl, rfl, rfl, rfl, rfl, rfl, rfl, rfl, rfl, rfl, rfl, rfl, rfl, rfl, rfl, rfl, rfl⟩
theorem wf_pmbus_access : accWf { write := some (zerosB 32), pec := none } = true ∧ accWf { write := some (zerosB 33), pec := none } = false := by decide +kernel
theorem wf_pmbusReadUpdate : (Instr.pmbusReadUpdate { crown := 0, groups := List.replicate 8 (0, 0, 0, 0) }).wf = true ∧
    (Instr.pmbusReadUpdate { crown := 0, groups := List.replicate 9 (0, 0, 0, 0) }).wf = false := by decide +kernel
theorem wf_schedWrite : (Instr.schedWrite (.mbox 0) 0 (zerosB 1972) true).wf = true ∧ (Instr.schedWrite (.mbox 0) 0 (zerosB 1973) true).wf = false := by
  decide +kernel
theorem wf_faultRead : (Instr.faultRead (.mbox 0) 0 1 0).wf = true ∧ (Instr.faultRead (.mbox 0) 0 0 0).wf = false := by decide
theorem wf_evtResume : (Instr.evtResume (.mbox 0) true 1 (List.replicate 244 ⟨0, 0⟩)).wf = true ∧
    (Instr.evtResume (.mbox 0) true 1 (List.replicate 245 ⟨0, 0⟩)).wf = false := by decide +kernel
theorem wf_worksSend : (Instr.worksSend (.mbox 0) 5 (zerosB 8)).wf = true ∧ (Instr.worksSend (.mbox 0) 5 (zerosB 7)).wf = false ∧
    (Instr.worksSend (.mbox 0) 5 (zerosB 1973)).wf = false := by decide +kernel
theorem wf_bookStage : (Instr.bookStage (.mbox 0) 0 true (zerosB 1968)).wf = true ∧ (Instr.bookStage (.mbox 0) 0 true (zerosB 1969)).wf = false := by decide +kernel
theorem wf_fwWrite : (Instr.fwWrite (.mbox 0) 0 (zerosB 1972) true).wf = true ∧ (Instr.fwWrite (.mbox 0) 0 (zerosB 1973) true).wf = false := by decide +kernel
theorem wf_attestLog : (Instr.attestLog (.mbox 0) 0 40).wf = true ∧ (Instr.attestLog (.mbox 0) 0 0).wf = false := by decide
end Sys2Proof.Tests
end

section
/-! PROOFS. The gate discharge failure (02 R62): what stamping a record, reporting an error and entering a state leave of the cells, the hearths
and the records that wait, and the statement from them. -/
namespace Sys2Proof.Machine
open Sys2Proof

variable {s : State} {h j c i : Nat}

/-! Words with a field replaced. -/

/-- A bit below a replaced field keeps its value. -/
theorem getLsbD_putFld_below {k lo n v : Nat} (w : BitVec k) (below : i < lo) : (putFld w lo n v).getLsbD i = w.getLsbD i := by
  have clear (x : Nat) : (BitVec.ofNat k (x * 2 ^ lo)).getLsbD i = false := by
    simp only [BitVec.getLsbD_ofNat, Nat.testBit_mul_two_pow, decide_eq_false (Nat.not_le.2 below), Bool.false_and, Bool.and_false]
  simp only [putFld, BitVec.getLsbD_or, BitVec.getLsbD_and, BitVec.getLsbD_not, clear, Bool.not_false, Bool.and_true, Bool.or_false]
  by_cases inside : i < k
  · simp [inside]
  · simp [BitVec.getLsbD_of_ge w i (Nat.not_lt.1 inside)]

/-- A lockout sets the bit of its code (02 R61, R62), whatever it does to FIRST, which begins at bit 12. -/
theorem getLsbD_lockoutReg (C : Cell) {code : Nat} (below : code < 12) : (lockoutReg C code).getLsbD code = true := by
  have latched : (C.tripReg ||| BitVec.ofNat 16 (2 ^ code)).getLsbD code = true := by
    rw [BitVec.getLsbD_or, BitVec.getLsbD_ofNat, Nat.testBit_two_pow_self, decide_eq_true (by omega), Bool.and_self, Bool.or_true]
  unfold lockoutReg
  split
  · exact latched
  · rw [getLsbD_putFld_below _ below, latched]

/-! Records of a hearth: a stamp goes behind the records that wait, and no other hearth sees it (12 R320). -/

@[simp] theorem stampRec_hearth_other {src code cls time site : Nat} {payload : BitVec 112} {sampled tickF : Bool} (other : j ≠ h) :
    (stampRec s h src code payload cls time site sampled tickF).hearth j = s.hearth j := by
  simp [stampRec, other.symm]

@[simp] theorem stampNow_hearth_other {src code off : Nat} {l : List (Nat × Nat)} (other : j ≠ h) :
    (stampNow s h src code l off).hearth j = s.hearth j := stampRec_hearth_other other

@[simp] theorem stampError_hearth_other {src code detail off : Nat} (other : j ≠ h) :
    (stampError s h src code detail off).hearth j = s.hearth j := stampRec_hearth_other other

@[simp] theorem reportError_hearth_other {src code detail off : Nat} (other : j ≠ h) :
    (reportError s h src code detail off).hearth j = s.hearth j := by
  simp [reportError, other, other.symm]

/-- A stamp loses no record that waits, at any hearth. -/
theorem mem_outbox_stampNow {e : EventRec} {src code off : Nat} {l : List (Nat × Nat)} (m : e ∈ (s.hearth j).outbox) :
    e ∈ ((stampNow s h src code l off).hearth j).outbox := by
  by_cases here : h = j
  · subst here
    simp [stampNow, stampRec, m]
  · rw [stampNow_hearth_other (Ne.symm here)]
    exact m

/-- The first field of an event's payload is its low bits. -/
theorem pay_toNat_mod_first {n v : Nat} {l : List (Nat × Nat)} (narrow : n ≤ 112) (fits : v < 2 ^ n) : (pay ((n, v) :: l)).toNat % 2 ^ n = v := by
  rw [pay, BitVec.toNat_ofNat, Nat.mod_mod_of_dvd _ (Nat.pow_dvd_pow 2 narrow), payNat, Nat.add_mul_mod_self_left, Nat.mod_mod,
    Nat.mod_eq_of_lt fits]

/-- A stamped error is found among the records of its hearth (11 R283). -/
theorem errorStamped_stampError {src code detail off : Nat} (hsrc : src < 2 ^ 16) (hcode : code < 2 ^ 16) :
    ErrorStamped (stampError s h src code detail off) h src code := by
  simp only [ErrorStamped, stampError, stampRec, updHearth_hearth, if_pos]
  refine ⟨_, List.mem_append_right _ (List.mem_singleton_self _), rfl, ?_, pay_toNat_mod_first (by decide) hcode⟩
  rw [BitVec.toNat_ofNat, Nat.mod_eq_of_lt hsrc]

/-- A reported error is stamped. -/
theorem errorStamped_reportError {src code detail off : Nat} (hsrc : src < 2 ^ 16) (hcode : code < 2 ^ 16) :
    ErrorStamped (reportError s h src code detail off) h src code := errorStamped_stampError hsrc hcode

/-! Entering a state. -/

@[simp] theorem takeEnv_state (C : Cell) : (takeEnv C).state = C.state := by
  unfold takeEnv
  split
  · split <;> rfl
  · rfl

@[simp] theorem takeEnv_tripReg (C : Cell) : (takeEnv C).tripReg = C.tripReg := by
  unfold takeEnv
  split
  · split <;> rfl
  · rfl

/-- What a change of state comes to: the channel's cell has the new state and the old trip register, the other cells and the hearths are as they
were, and then EV_STATE is stamped, and EV_LOCKED behind it at entry to Locked (12 R319; 04 R115). -/
theorem enterState_stamps {new : ChState} (d : By) (off : Nat) (change : (s.cell c).state ≠ new) :
    ∃ u l m, (u.cell c).state = new ∧ (u.cell c).tripReg = (s.cell c).tripReg ∧ (∀ j, j ≠ c → u.cell j = s.cell j) ∧
      (∀ j, u.hearth j = s.hearth j) ∧
      enterState s c new d off =
        let v := stampNow u (hOf c) (srcChan c) 0x1101 l off
        if new = .locked then stampNow v (hOf c) (srcChan c) 0x1103 m off else v := by
  unfold enterState
  extract_lets C old asked entered counted gated cmd stamped
  rw [if_neg change]
  have cells (j : Nat) : gated.cell j = entered.cell j := by
    simp only [gated]
    split
    · simp [counted]
    · split <;> simp [counted]
  have hearths (j : Nat) : gated.hearth j = s.hearth j := by
    simp only [gated]
    split
    · simp [counted, entered]
    · split <;> simp [counted, entered]
  refine ⟨gated, _, _, ?_, ?_, fun j other => ?_, hearths, rfl⟩
  · simp [cells, entered]
  · simp [cells, entered]
  · simp [cells, entered, other.symm]

/-- The cell after a change of state, and the cells of the other channels. -/
theorem enterState_cells (s : State) (c : Nat) (new : ChState) (d : By) (off : Nat) :
    ((enterState s c new d off).cell c).state = new ∧ ((enterState s c new d off).cell c).tripReg = (s.cell c).tripReg ∧
      ∀ j, j ≠ c → (enterState s c new d off).cell j = s.cell j := by
  by_cases same : (s.cell c).state = new
  · simp [enterState, same]
  · obtain ⟨u, l, m, state, reg, others, -, entry⟩ := enterState_stamps d off same
    have cells (j : Nat) : (enterState s c new d off).cell j = u.cell j := by
      rw [entry]
      dsimp only
      split <;> simp
    simp only [cells]
    exact ⟨state, reg, others⟩

/-- A channel that enters a state changes no hearth but its own. -/
theorem enterState_hearth_other {new : ChState} {d : By} {off : Nat} (other : j ≠ hOf c) : (enterState s c new d off).hearth j = s.hearth j := by
  by_cases same : (s.cell c).state = new
  · simp [enterState, same]
  · obtain ⟨u, l, m, -, -, -, hearths, entry⟩ := enterState_stamps d off same
    rw [entry, ← hearths]
    dsimp only
    split <;> simp [other]

/-- Entering a state loses no record that waits. -/
theorem mem_outbox_enterState {e : EventRec} {new : ChState} {d : By} {off : Nat} (waits : e ∈ (s.hearth j).outbox) :
    e ∈ ((enterState s c new d off).hearth j).outbox := by
  by_cases same : (s.cell c).state = new
  · simpa [enterState, same] using waits
  · obtain ⟨u, l, m, -, -, -, hearths, entry⟩ := enterState_stamps d off same
    rw [← hearths] at waits
    rw [entry]
    dsimp only
    split
    · exact mem_outbox_stampNow (mem_outbox_stampNow waits)
    · exact mem_outbox_stampNow waits

/-- An error stamped before a channel enters a state is still among the records after it. -/
theorem ErrorStamped.after_enterState {src code off : Nat} {new : ChState} {d : By} (stamped : ErrorStamped s h src code) :
    ErrorStamped (enterState s c new d off) h src code := by
  obtain ⟨e, m, rest⟩ := stamped
  exact ⟨e, mem_outbox_enterState m, rest⟩

/-! The failure. -/

/-- A channel that waits for its gate-off confirmation 40 ticks after the trip tick latches bit 9, reports the error 0x203 and enters Locked
(02 R62). -/
theorem gateDischargeFailure_of_due (c : OwnChan) (tripped : (s.cell c).state = .tripped) (awaited : (s.cell c).confirmed = false)
    (late : 40 ≤ (s.cell c).tripTicks) :
    gateDischargeFailure c s =
      let u := (s.setFree (s.free + 1)).updCell c fun C => { C with tripReg := lockoutReg C 9 }
      let detail := chanDetail u c (Config.freeValue s.free % 65536)
      enterState (reportError u (hOf c) (srcChan c) 0x203 detail) c .locked .hearth := by
  simp [gateDischargeFailure, tripped, awaited, late, freshFree_eq]

/-- Settles O38: the error is stamped before the channel enters Locked, and the change of state keeps it and the latched bit 9. -/
theorem gateDischargeFails : Obligations.GateDischargeFails := by
  intro c s C tripped awaited late
  refine ⟨_, rfl, ?_⟩
  rw [gateDischargeFailure_of_due c tripped awaited late]
  extract_lets u detail
  have hsrc : srcChan c < 2 ^ 16 := by
    have := c.isLt
    simp only [srcChan]
    omega
  obtain ⟨locked, reg, others⟩ := enterState_cells (reportError u (hOf c) (srcChan c) 0x203 detail) c .locked .hearth 0
  refine ⟨locked, ?_, (errorStamped_reportError hsrc (by decide)).after_enterState, fun j other => ?_, fun h other => ?_⟩
  · rw [reg, (reportError_reads u c).1, updCell_cell, if_pos rfl]
    exact getLsbD_lockoutReg _ (by decide)
  · rw [others j other, (reportError_reads u j).1, updCell_cell, if_neg other.symm]
    rfl
  · rw [enterState_hearth_other other, reportError_hearth_other other]
    rfl

end Sys2Proof.Machine
end

section
/-! PROOFS. RELEASE frames at a hearth (13 R350): entry to Saggar hold changes nothing of the hearths but the SAGGAR bit and the records that
wait, a stamp is the last of the records, and the statement from them. -/
namespace Sys2Proof.Machine
open Sys2Proof

variable {s t : State} {h j c : Nat}

/-! The hearths apart from the records of one of them. -/

/-- The hearths as they stand apart from the records that hearth `h` has numbered and not sent yet (12 R320, R321). -/
def State.apartFromRecords (s : State) (h j : Nat) : HearthSt :=
  if j = h then { s.hearth j with seqs := [], outbox := [] } else s.hearth j

theorem apartFromRecords_of_hearth_eq (same : ∀ j, t.hearth j = s.hearth j) : t.apartFromRecords h = s.apartFromRecords h := by
  funext j
  simp only [State.apartFromRecords, same]

/-- States that agree apart from the records of a hearth agree on every other hearth. -/
theorem hearth_other_of_apartFromRecords_eq (e : t.apartFromRecords h = s.apartFromRecords h) (other : j ≠ h) : t.hearth j = s.hearth j := by
  simpa only [State.apartFromRecords, if_neg other] using congrFun e j

/-- They agree on the hearth itself but for its numbers and its records. -/
theorem hearth_of_apartFromRecords_eq (e : t.apartFromRecords h = s.apartFromRecords h) :
    t.hearth h = { s.hearth h with seqs := (t.hearth h).seqs, outbox := (t.hearth h).outbox } := by
  have same := congrFun e h
  simp only [State.apartFromRecords, if_true] at same
  calc t.hearth h
    _ = { { t.hearth h with seqs := [], outbox := [] } with seqs := (t.hearth h).seqs, outbox := (t.hearth h).outbox } := rfl
    _ = _ := by rw [same]

/-- So they agree on who holds the hearth and on Saggar hold. -/
theorem claim_of_apartFromRecords_eq (e : t.apartFromRecords h = s.apartFromRecords h) :
    (t.hearth h).held = (s.hearth h).held ∧ (t.hearth h).holder = (s.hearth h).holder ∧ (t.hearth h).claim = (s.hearth h).claim ∧
      (t.hearth h).saggar = (s.hearth h).saggar := by
  rw [hearth_of_apartFromRecords_eq e]
  exact ⟨rfl, rfl, rfl, rfl⟩

@[simp] theorem updCell_apartFromRecords {f} : (s.updCell c f).apartFromRecords h = s.apartFromRecords h :=
  apartFromRecords_of_hearth_eq fun j => by simp

@[simp] theorem updChan_apartFromRecords {f} : (s.updChan c f).apartFromRecords h = s.apartFromRecords h :=
  apartFromRecords_of_hearth_eq fun j => by simp

@[simp] theorem gateEvent_apartFromRecords {i code k : Nat} : (gateEvent s i code k).apartFromRecords h = s.apartFromRecords h :=
  apartFromRecords_of_hearth_eq fun j => by simp

/-- Numbering the records of a hearth anew is not seen apart from them. -/
@[simp] theorem updHearth_records_apartFromRecords {seqs : HearthSt → Tab (BitVec 32)} {outbox : HearthSt → List EventRec} :
    (s.updHearth h fun H => { H with seqs := seqs H, outbox := outbox H }).apartFromRecords h = s.apartFromRecords h := by
  funext j
  by_cases here : j = h
  · simp [State.apartFromRecords, here]
  · simp [State.apartFromRecords, here, Ne.symm here]

@[simp] theorem stampRec_apartFromRecords {src code cls time site : Nat} {payload : BitVec 112} {sampled tickF : Bool} :
    (stampRec s h src code payload cls time site sampled tickF).apartFromRecords h = s.apartFromRecords h :=
  updHearth_records_apartFromRecords

@[simp] theorem stampNow_apartFromRecords {src code off : Nat} {l : List (Nat × Nat)} :
    (stampNow s h src code l off).apartFromRecords h = s.apartFromRecords h := stampRec_apartFromRecords

@[simp] theorem stampError_apartFromRecords {src code detail off : Nat} :
    (stampError s h src code detail off).apartFromRecords h = s.apartFromRecords h := stampRec_apartFromRecords

/-- A stamp leaves who holds the hearth and Saggar hold. -/
@[simp] theorem stampNow_claim {src code off : Nat} {l : List (Nat × Nat)} :
    ((stampNow s h src code l off).hearth h).held = (s.hearth h).held ∧ ((stampNow s h src code l off).hearth h).holder = (s.hearth h).holder ∧
      ((stampNow s h src code l off).hearth h).claim = (s.hearth h).claim ∧
      ((stampNow s h src code l off).hearth h).saggar = (s.hearth h).saggar := claim_of_apartFromRecords_eq stampNow_apartFromRecords

/-! What a channel does to its hearth at entry to Saggar hold: it stamps records there. -/

@[simp] theorem enterState_apartFromRecords {new : ChState} {d : By} {off : Nat} :
    (enterState s c new d off).apartFromRecords (hOf c) = s.apartFromRecords (hOf c) := by
  by_cases same : (s.cell c).state = new
  · simp [enterState, same]
  · obtain ⟨u, l, m, -, -, -, hearths, entry⟩ := enterState_stamps d off same
    rw [entry, ← apartFromRecords_of_hearth_eq hearths]
    dsimp only
    split <;> simp

@[simp] theorem takeTrip_apartFromRecords {bits sub time site off : Nat} {d : By} :
    (takeTrip s c bits sub d time site off).apartFromRecords (hOf c) = s.apartFromRecords (hOf c) := by
  unfold takeTrip
  dsimp only
  split
  · simp
  · split <;> simp

@[simp] theorem tripNow_apartFromRecords {bits sub off : Nat} {d : By} :
    (tripNow s c bits sub d off).apartFromRecords (hOf c) = s.apartFromRecords (hOf c) := takeTrip_apartFromRecords

@[simp] theorem cancelWord_apartFromRecords : (cancelWord s c).apartFromRecords (hOf c) = s.apartFromRecords (hOf c) := by
  unfold cancelWord
  dsimp only
  split
  · rfl
  · split
    · split <;> simp
    · simp

@[simp] theorem holdChannel_apartFromRecords : (holdChannel s c).apartFromRecords (hOf c) = s.apartFromRecords (hOf c) := by
  unfold holdChannel
  extract_lets u C trip good gated marked entered
  have pulled : gated.apartFromRecords (hOf c) = s.apartFromRecords (hOf c) := by simp [gated, u]
  have latched : marked.apartFromRecords (hOf c) = s.apartFromRecords (hOf c) := by
    simp only [marked]
    split <;> simp [pulled]
  split
  · simp [u]
  · split <;> simp [entered, latched]

/-- Entry to Saggar hold sets the SAGGAR bit; the rest of what it does to the hearths are records of that hearth (02 R67; 01 R510). -/
theorem enterSaggar_apartFromRecords :
    (enterSaggar s h).apartFromRecords h = (s.updHearth h fun H => { H with saggar := true }).apartFromRecords h := by
  unfold enterSaggar
  extract_lets stamped marked
  have channels : (forEach (List.range 64) (fun s k => holdChannel s (64 * h + k)) marked).apartFromRecords h = marked.apartFromRecords h := by
    refine forEach_kept (·.apartFromRecords h) _ _ _ fun u k m => ?_
    have home : hOf (64 * h + k) = h := by
      have := List.mem_range.1 m
      simp only [hOf]
      omega
    simpa only [home] using holdChannel_apartFromRecords (s := u) (c := 64 * h + k)
  rw [channels]
  funext j
  by_cases here : j = h
  · simp [marked, stamped, stampNow, stampRec, State.apartFromRecords, here]
  · simp [marked, stamped, State.apartFromRecords, here, Ne.symm here]

/-- A hearth that is in Saggar hold or enters it keeps its claim number, and no other hearth changes. -/
theorem saggar_or_enterSaggar (s : State) (h : Nat) :
    let u := if (s.hearth h).saggar then s else enterSaggar s h
    (u.hearth h).saggar = true ∧ (u.hearth h).claim = (s.hearth h).claim ∧ ∀ j, j ≠ h → u.hearth j = s.hearth j := by
  dsimp only
  split
  case isTrue already => exact ⟨already, rfl, fun _ _ => rfl⟩
  case isFalse =>
    obtain ⟨-, -, claim, saggar⟩ := claim_of_apartFromRecords_eq (enterSaggar_apartFromRecords (s := s) (h := h))
    refine ⟨by simp [saggar], by simp [claim], fun j other => ?_⟩
    rw [hearth_other_of_apartFromRecords_eq enterSaggar_apartFromRecords other]
    simp [other.symm]

/-! The record stamped last. -/

theorem lastStamp_stampRec (s : State) (h src code cls time site : Nat) (payload : BitVec 112) (sampled tickF : Bool) :
    ∃ e, lastStamp (stampRec s h src code payload cls time site sampled tickF) h = some e ∧ e.source = BitVec.ofNat 16 src ∧
      e.code = BitVec.ofNat 16 code ∧ e.payload = payload := by
  simp [lastStamp, stampRec]

/-- The payload of an EV_ERROR record is the error's code and, above it, its 96-bit DETAIL (12 R319). -/
theorem pay_error_toNat_div (code detail : Nat) : (pay [(16, code), (96, detail)]).toNat / 2 ^ 16 = detail % 2 ^ 96 := by
  have bound : code % 2 ^ 16 + 2 ^ 16 * (detail % 2 ^ 96) < 2 ^ 112 := by omega
  simp only [pay, BitVec.toNat_ofNat, payNat, Nat.mul_zero, Nat.add_zero, Nat.mod_eq_of_lt bound]
  omega

/-! The frame. -/

/-- A control frame leaves the claim of its hearth, the SAGGAR bit and the other hearths (01 R20, R27). -/
theorem controlFrame_claim (s : State) (h : Nat) (p : Port) :
    ((controlFrame s h p).hearth h).held = (s.hearth h).held ∧ ((controlFrame s h p).hearth h).holder = (s.hearth h).holder ∧
      ((controlFrame s h p).hearth h).claim = (s.hearth h).claim ∧ ((controlFrame s h p).hearth h).saggar = (s.hearth h).saggar ∧
      ∀ j, j ≠ h → (controlFrame s h p).hearth j = s.hearth j := by
  refine ⟨?_, ?_, ?_, ?_, fun j other => by simp [controlFrame, other.symm]⟩ <;> cases p <;> simp [controlFrame]

/-- The hold ends (13 R350): the hearth is in Saggar hold with its number kept, EV_RELEASE is its last record, and no other hearth changes. -/
theorem releaseHearth_of_holder {p : Port} {num : BitVec 32} (lane : Nat)
    (holds : (s.hearth h).held = true ∧ (s.hearth h).holder = p ∧ (s.hearth h).claim = num) :
    let t := releaseHearth s h p num lane
    (t.hearth h).held = false ∧ (t.hearth h).saggar = true ∧ (t.hearth h).claim = num ∧ (∀ j, j ≠ h → t.hearth j = s.hearth j) ∧
      ∃ e, lastStamp t h = some e ∧ e.source = BitVec.ofNat 16 (srcHearth h) ∧ e.code = 0x1605 := by
  obtain ⟨saggar, claim, others⟩ := saggar_or_enterSaggar s h
  simp only [releaseHearth, if_pos holds]
  generalize (if (s.hearth h).saggar then s else enterSaggar s h) = u at saggar claim others
  refine ⟨?_, ?_, ?_, fun j other => ?_, ?_⟩
  · simp
  · simp [saggar]
  · simp [claim, holds]
  · simp [other, other.symm, others]
  · obtain ⟨e, last, source, code, -⟩ := lastStamp_stampRec _ h (srcHearth h) 0x1605 _ _ _ _ _ _
    exact ⟨e, last, source, code⟩

/-- A discarded frame is counted on the lane's hearth end, with its cause in the DETAIL's upper word (11 R288; 17 R464); of the state it
changes the hearth's records and the free values alone. -/
theorem discardAtHearth_stamps (s : State) (h : Nat) (p : Port) (lane code : Nat) {cause : Nat} (fits : code < 2 ^ 16)
    (small : cause < 2 ^ 32) :
    let t := discardAtHearth s h p lane code cause
    t.cells = s.cells ∧ t.apartFromRecords h = s.apartFromRecords h ∧
      ∃ e, lastStamp t h = some e ∧ e.source = BitVec.ofNat 16 (laneHSrc h p lane) ∧ e.code = 0x1501 ∧
        e.payload.toNat % 2 ^ 16 = code ∧ e.payload.toNat / 2 ^ 80 = cause := by
  refine ⟨(discardAtHearth_move (Move.refl [.hearths, .free] s) rfl).part .cells rfl, ?_, ?_⟩
  · simp only [discardAtHearth, stampError_apartFromRecords]
    exact apartFromRecords_of_hearth_eq fun j => by simp
  · obtain ⟨e, last, source, kind, payload⟩ := lastStamp_stampRec _ h (laneHSrc h p lane) 0x1501 _ _ _ _ _ _
    refine ⟨e, last, source, kind, ?_, ?_⟩
    · rw [payload, pay_toNat_mod_first (by decide) fits]
    · calc e.payload.toNat / 2 ^ 80
        _ = e.payload.toNat / 2 ^ 16 / 2 ^ 64 := by rw [Nat.div_div_eq_div_mul, ← Nat.pow_add]
        _ = cause := by
          rw [payload, pay_error_toNat_div]
          omega

/-- The RELEASE of a hearth with its logic powered is judged after the frame has counted as a control frame of its port (01 R27). -/
theorem exec_releaseFrame_of_logic (h : Hearth) (p : Port) (num : BitVec 32) (lane : Fin 2) (logic : (s.hearth h).logic = true) :
    exec (.releaseFrame h p num lane) s = .next (releaseHearth (controlFrame s h p) h p num lane) := by
  calc exec (.releaseFrame h p num lane) s
    _ = .next (releaseFrame h p num lane s) := rfl
    _ = _ := by rw [releaseFrame, if_pos logic]

/-- A hearth lane's source of the hearth end (12 R318). -/
theorem laneHSrc_eq (h : Nat) (p : Port) (lane : Nat) :
    laneHSrc h p lane = if p = .loc then 0x6000 + (2 * h + lane) else 0x6000 + (32 + h) := by
  cases p <;> rfl

/-- Settles O29: the frame leaves the claim in force for the judgement, by which the hold ends or the frame is discarded. -/
theorem releaseFrames : Obligations.ReleaseFrames := by
  intro h p num lane s H done logic
  obtain ⟨held, holder, claim, saggar, others⟩ := controlFrame_claim s h p
  have ran := exec_releaseFrame_of_logic h p num lane logic
  have hearths := h.isLt
  refine ⟨fun holds => ?_, fun wrong => ?_⟩
  · rw [← held, ← holder, ← claim] at holds
    obtain ⟨freed, entered, kept, rest, e, last, source, code⟩ := releaseHearth_of_holder lane holds
    refine ⟨_, e, ran, last, ⟨freed, entered, kept, code, ?_⟩, fun j other => (rest j other).trans (others j other)⟩
    rw [source, BitVec.toNat_ofNat, Nat.mod_eq_of_lt]
    simp only [srcHearth]
    omega
  · rw [← held, ← holder, ← claim] at wrong
    rw [releaseHearth, if_neg wrong] at ran
    obtain ⟨cells, apart, e, last, source, code, error, cause⟩ :=
      discardAtHearth_stamps (controlFrame s h p) h p lane (code := 0x102) (cause := 4) (by decide) (by decide)
    obtain ⟨held', holder', claim', saggar'⟩ := claim_of_apartFromRecords_eq apart
    refine ⟨_, e, ran, last, ⟨held'.trans held, holder'.trans holder, claim'.trans claim, saggar'.trans saggar, ?_, code, ?_, error, cause⟩,
      fun j other => (hearth_other_of_apartFromRecords_eq apart other).trans (others j other)⟩
    · exact cells.trans ((controlFrame_move (Move.refl [.hearths] s) rfl).part .cells rfl)
    · have := lane.isLt
      rw [source, laneHSrc_eq, BitVec.toNat_ofNat, Nat.mod_eq_of_lt]
      split <;> omega

end Sys2Proof.Machine
end
